-- ==== Sys2Proof/Word.lean ====
section
/-! DEFINITION. The word types. -/

namespace Sys2Proof

/-- A byte (R5). -/
abbrev Byte := BitVec 8
/-- A parcel of a hart program (R42). -/
abbrev Parcel := BitVec 16
/-- A 32-bit instruction word, and a lane (R44, R117). -/
abbrev Word32 := BitVec 32
/-- A uniform register, an address, a CSR (R115). -/
abbrev Word := BitVec 64

end Sys2Proof
end

