-- ==== Sys2Proof/Syntax.lean ====
section
/-! DEFINITION. The instruction set as data: one constructor of `Instr` per row of the opcode table
(spec/opcode_table.json). 32-bit hart instructions carry their token bits (R45); the steps of the engines, the
packets, the host commands and the package events carry the names of what they act on. -/

namespace Sys2Proof

/-- A 5-bit register specifier (R46): 0-23 x or v registers, 24-27 iq/oq (uniform) or v24-v27 (vector),
28-31 ports (uniform) or viq/voq (vector). -/
abbrev Reg := BitVec 5
/-- A predicate p0-p3 (R46). -/
abbrev PReg := BitVec 2
/-- A mask m0-m7 (R46). -/
abbrev MReg := BitVec 3
/-- A tile register t0-t7 (R46). -/
abbrev TReg := BitVec 3
/-- An accumulator a0-a3 (R46). -/
abbrev AReg := BitVec 2
/-- The queue or port of qtest and qtok, specifier 24 + n (R61, R128). -/
abbrev QSel := BitVec 3
/-- The port of vportr and vportw, specifier 28 + n: hn, he, hs, hw (R125). -/
abbrev PortSel := BitVec 2
/-- A scope code (R58). -/
abbrev ScopeCode := BitVec 3

/-- Bits 31 (S, push a token at retirement) and 30 (W, pop a token before issue) of a 32-bit instruction (R45). -/
structure Tok where
  s : Bool
  w : Bool
  deriving DecidableEq, Repr

/-- Element width of the vector integer majors VI32, VI16, VI8 (R54). -/
inductive IntW | i32 | i16 | i8
  deriving DecidableEq, Repr

/-- Element format of the vector float majors VF32, VF16, VBF16 (R54). -/
inductive FltW | f32 | f16 | bf16
  deriving DecidableEq, Repr

/-- Conditions of pset and vcmp (R50, R54). -/
inductive IntCC | eq | ne | lt | ge | ltu | geu
  deriving DecidableEq, Repr

/-- Conditions of vfcmp (R54). -/
inductive FltCC | eq | lt | le
  deriving DecidableEq, Repr

/-- The opcode table, one constructor per row. -/
inductive Instr where
  /-- ADD (R135): add xd, xa, xb. -/
  | add (tk : Tok) (d : Reg) (a : Reg) (b : Reg)
  /-- SUB (R135): sub xd, xa, xb. -/
  | sub (tk : Tok) (d : Reg) (a : Reg) (b : Reg)
  /-- AND (R135): and xd, xa, xb. -/
  | and (tk : Tok) (d : Reg) (a : Reg) (b : Reg)
  /-- OR (R135): or xd, xa, xb. -/
  | or (tk : Tok) (d : Reg) (a : Reg) (b : Reg)
  /-- XOR (R135): xor xd, xa, xb. -/
  | xor (tk : Tok) (d : Reg) (a : Reg) (b : Reg)
  /-- SLL (R135): sll xd, xa, xb. -/
  | sll (tk : Tok) (d : Reg) (a : Reg) (b : Reg)
  /-- SRL (R135): srl xd, xa, xb. -/
  | srl (tk : Tok) (d : Reg) (a : Reg) (b : Reg)
  /-- SRA (R135): sra xd, xa, xb. -/
  | sra (tk : Tok) (d : Reg) (a : Reg) (b : Reg)
  /-- SLT (R135): slt xd, xa, xb. -/
  | slt (tk : Tok) (d : Reg) (a : Reg) (b : Reg)
  /-- SLTU (R135): sltu xd, xa, xb. -/
  | sltu (tk : Tok) (d : Reg) (a : Reg) (b : Reg)
  /-- MIN (R135): min xd, xa, xb. -/
  | min (tk : Tok) (d : Reg) (a : Reg) (b : Reg)
  /-- MAX (R135): max xd, xa, xb. -/
  | max (tk : Tok) (d : Reg) (a : Reg) (b : Reg)
  /-- MINU (R135): minu xd, xa, xb. -/
  | minu (tk : Tok) (d : Reg) (a : Reg) (b : Reg)
  /-- MAXU (R135): maxu xd, xa, xb. -/
  | maxu (tk : Tok) (d : Reg) (a : Reg) (b : Reg)
  /-- MUL (R135): mul xd, xa, xb. -/
  | mul (tk : Tok) (d : Reg) (a : Reg) (b : Reg)
  /-- MULH (R135): mulh xd, xa, xb. -/
  | mulh (tk : Tok) (d : Reg) (a : Reg) (b : Reg)
  /-- MULHU (R135): mulhu xd, xa, xb. -/
  | mulhu (tk : Tok) (d : Reg) (a : Reg) (b : Reg)
  /-- DIV (R136): div xd, xa, xb. -/
  | div (tk : Tok) (d : Reg) (a : Reg) (b : Reg)
  /-- DIVU (R136): divu xd, xa, xb. -/
  | divu (tk : Tok) (d : Reg) (a : Reg) (b : Reg)
  /-- REM (R136): rem xd, xa, xb. -/
  | rem (tk : Tok) (d : Reg) (a : Reg) (b : Reg)
  /-- REMU (R136): remu xd, xa, xb. -/
  | remu (tk : Tok) (d : Reg) (a : Reg) (b : Reg)
  /-- CLZ (R135): clz xd, xa. -/
  | clz (tk : Tok) (d : Reg) (a : Reg)
  /-- CTZ (R135): ctz xd, xa. -/
  | ctz (tk : Tok) (d : Reg) (a : Reg)
  /-- POPC (R135): popc xd, xa. -/
  | popc (tk : Tok) (d : Reg) (a : Reg)
  /-- LEA (R135): lea xd, xa, xb, sh. -/
  | lea (tk : Tok) (sh : BitVec 2) (d : Reg) (a : Reg) (b : Reg)
  /-- PSET (R139): pset.cc pd, xa, xb. -/
  | pset (tk : Tok) (cc : IntCC) (p : PReg) (a : Reg) (b : Reg)
  /-- ADDI (R137): addi xd, xa, imm. -/
  | addi (tk : Tok) (d : Reg) (a : Reg) (imm : BitVec 13)
  /-- ANDI (R137): andi xd, xa, imm. -/
  | andi (tk : Tok) (d : Reg) (a : Reg) (imm : BitVec 13)
  /-- ORI (R137): ori xd, xa, imm. -/
  | ori (tk : Tok) (d : Reg) (a : Reg) (imm : BitVec 13)
  /-- XORI (R137): xori xd, xa, imm. -/
  | xori (tk : Tok) (d : Reg) (a : Reg) (imm : BitVec 13)
  /-- SLTI (R137): slti xd, xa, imm. -/
  | slti (tk : Tok) (d : Reg) (a : Reg) (imm : BitVec 13)
  /-- SLLI (R51): slli xd, xa, sh. -/
  | slli (tk : Tok) (d : Reg) (a : Reg) (sh : BitVec 6)
  /-- SRLI (R51): srli xd, xa, sh. -/
  | srli (tk : Tok) (d : Reg) (a : Reg) (sh : BitVec 6)
  /-- SRAI (R51): srai xd, xa, sh. -/
  | srai (tk : Tok) (d : Reg) (a : Reg) (sh : BitVec 6)
  /-- LIH (R138): lih xd, imm18. -/
  | lih (tk : Tok) (d : Reg) (imm : BitVec 18)
  /-- ADDPC (R138): addpc xd, imm18. -/
  | addpc (tk : Tok) (d : Reg) (imm : BitVec 18)
  /-- JALR (R141): jalr xd, xa, imm. -/
  | jalr (tk : Tok) (d : Reg) (a : Reg) (imm : BitVec 13)
  /-- J (R141): j label. -/
  | j (tk : Tok) (imm : BitVec 23)
  /-- JAL (R141): jal label. -/
  | jal (tk : Tok) (imm : BitVec 23)
  /-- BEQ (R140): beq xa, xb, label. -/
  | beq (tk : Tok) (a : Reg) (b : Reg) (imm : BitVec 13)
  /-- BNE (R140): bne xa, xb, label. -/
  | bne (tk : Tok) (a : Reg) (b : Reg) (imm : BitVec 13)
  /-- BLT (R140): blt xa, xb, label. -/
  | blt (tk : Tok) (a : Reg) (b : Reg) (imm : BitVec 13)
  /-- BGE (R140): bge xa, xb, label. -/
  | bge (tk : Tok) (a : Reg) (b : Reg) (imm : BitVec 13)
  /-- BLTU (R140): bltu xa, xb, label. -/
  | bltu (tk : Tok) (a : Reg) (b : Reg) (imm : BitVec 13)
  /-- BGEU (R140): bgeu xa, xb, label. -/
  | bgeu (tk : Tok) (a : Reg) (b : Reg) (imm : BitVec 13)
  /-- BP (R142): bp pa, label. -/
  | bp (tk : Tok) (p : PReg) (imm : BitVec 13)
  /-- BANY (R142): bany ma, label. -/
  | bany (tk : Tok) (m : MReg) (imm : BitVec 13)
  /-- BALL (R142): ball ma, label. -/
  | ball (tk : Tok) (m : MReg) (imm : BitVec 13)
  /-- BNONE (R142): bnone ma, label. -/
  | bnone (tk : Tok) (m : MReg) (imm : BitVec 13)
  /-- BTSB (R183): btsb xa, thr, label. -/
  | btsb (tk : Tok) (a : Reg) (thr : BitVec 5) (imm : BitVec 13)
  /-- FADD (R163): fadd.rm xd, xa, xb. -/
  | fadd (tk : Tok) (rm : BitVec 3) (d : Reg) (a : Reg) (b : Reg)
  /-- FSUB (R163): fsub.rm xd, xa, xb. -/
  | fsub (tk : Tok) (rm : BitVec 3) (d : Reg) (a : Reg) (b : Reg)
  /-- FMUL (R163): fmul.rm xd, xa, xb. -/
  | fmul (tk : Tok) (rm : BitVec 3) (d : Reg) (a : Reg) (b : Reg)
  /-- FDIV (R163): fdiv.rm xd, xa, xb. -/
  | fdiv (tk : Tok) (rm : BitVec 3) (d : Reg) (a : Reg) (b : Reg)
  /-- FSQRT (R163): fsqrt.rm xd, xa. -/
  | fsqrt (tk : Tok) (rm : BitVec 3) (d : Reg) (a : Reg)
  /-- FMIN (R165): fmin xd, xa, xb. -/
  | fmin (tk : Tok) (d : Reg) (a : Reg) (b : Reg)
  /-- FMAX (R165): fmax xd, xa, xb. -/
  | fmax (tk : Tok) (d : Reg) (a : Reg) (b : Reg)
  /-- FEQ (R166): feq xd, xa, xb. -/
  | feq (tk : Tok) (d : Reg) (a : Reg) (b : Reg)
  /-- FLT (R166): flt xd, xa, xb. -/
  | flt (tk : Tok) (d : Reg) (a : Reg) (b : Reg)
  /-- FLE (R166): fle xd, xa, xb. -/
  | fle (tk : Tok) (d : Reg) (a : Reg) (b : Reg)
  /-- FCLASS (R167): fclass xd, xa. -/
  | fclass (tk : Tok) (d : Reg) (a : Reg)
  /-- FCVT (R168): fcvt.D.S.rm xd, xa. -/
  | fcvt (tk : Tok) (dt : BitVec 3) (rm : BitVec 3) (st : BitVec 3) (d : Reg) (a : Reg)
  /-- FMA (R164): fma xd, xa, xb, xc. -/
  | fma (tk : Tok) (d : Reg) (a : Reg) (b : Reg) (c : Reg)
  /-- FNMA (R164): fnma xd, xa, xb, xc. -/
  | fnma (tk : Tok) (d : Reg) (a : Reg) (b : Reg) (c : Reg)
  /-- VADD (R146): vadd.iW vd, va, vb, mk. -/
  | vadd (tk : Tok) (e : IntW) (k : MReg) (d : Reg) (a : Reg) (b : Reg)
  /-- VSUB (R146): vsub.iW vd, va, vb, mk. -/
  | vsub (tk : Tok) (e : IntW) (k : MReg) (d : Reg) (a : Reg) (b : Reg)
  /-- VMUL (R146): vmul.iW vd, va, vb, mk. -/
  | vmul (tk : Tok) (e : IntW) (k : MReg) (d : Reg) (a : Reg) (b : Reg)
  /-- VMULH (R146): vmulh.iW vd, va, vb, mk. -/
  | vmulh (tk : Tok) (e : IntW) (k : MReg) (d : Reg) (a : Reg) (b : Reg)
  /-- VMIN (R146): vmin.iW vd, va, vb, mk. -/
  | vmin (tk : Tok) (e : IntW) (k : MReg) (d : Reg) (a : Reg) (b : Reg)
  /-- VMAX (R146): vmax.iW vd, va, vb, mk. -/
  | vmax (tk : Tok) (e : IntW) (k : MReg) (d : Reg) (a : Reg) (b : Reg)
  /-- VAND (R146): vand.iW vd, va, vb, mk. -/
  | vand (tk : Tok) (e : IntW) (k : MReg) (d : Reg) (a : Reg) (b : Reg)
  /-- VOR (R146): vor.iW vd, va, vb, mk. -/
  | vor (tk : Tok) (e : IntW) (k : MReg) (d : Reg) (a : Reg) (b : Reg)
  /-- VXOR (R146): vxor.iW vd, va, vb, mk. -/
  | vxor (tk : Tok) (e : IntW) (k : MReg) (d : Reg) (a : Reg) (b : Reg)
  /-- VSLL (R146): vsll.iW vd, va, vb, mk. -/
  | vsll (tk : Tok) (e : IntW) (k : MReg) (d : Reg) (a : Reg) (b : Reg)
  /-- VSRL (R146): vsrl.iW vd, va, vb, mk. -/
  | vsrl (tk : Tok) (e : IntW) (k : MReg) (d : Reg) (a : Reg) (b : Reg)
  /-- VSRA (R146): vsra.iW vd, va, vb, mk. -/
  | vsra (tk : Tok) (e : IntW) (k : MReg) (d : Reg) (a : Reg) (b : Reg)
  /-- VCMP (R147): vcmp.cc.iW md, va, vb, mk. -/
  | vcmp (tk : Tok) (e : IntW) (o : IntCC) (k : MReg) (d : MReg) (a : Reg) (b : Reg)
  /-- VSEL (R148): vsel.iW vd, va, vb, mk. -/
  | vsel (tk : Tok) (e : IntW) (k : MReg) (d : Reg) (a : Reg) (b : Reg)
  /-- VRED_ADD (R149): vredAdd xd, va, mk. -/
  | vredAdd (tk : Tok) (e : IntW) (k : MReg) (d : Reg) (a : Reg)
  /-- VRED_MIN (R149): vredMin xd, va, mk. -/
  | vredMin (tk : Tok) (e : IntW) (k : MReg) (d : Reg) (a : Reg)
  /-- VRED_MAX (R149): vredMax xd, va, mk. -/
  | vredMax (tk : Tok) (e : IntW) (k : MReg) (d : Reg) (a : Reg)
  /-- VSCAN_ADD (R149): vscan.add.iW vd, va, mk. -/
  | vscanAdd (tk : Tok) (e : IntW) (k : MReg) (d : Reg) (a : Reg)
  /-- VDOT4 (R150): vdot4.i8 vd, va, vb, mk. -/
  | vdot4 (tk : Tok) (k : MReg) (d : Reg) (a : Reg) (b : Reg)
  /-- VCVT_I (R173): vcvt.W.S vd, va, sel, mk (integer W). -/
  | vcvtI (tk : Tok) (e : IntW) (k : MReg) (d : Reg) (a : Reg) (sel : BitVec 2) (st : BitVec 3)
  /-- VFADD (R171): vfadd.F vd, va, vb, mk. -/
  | vfadd (tk : Tok) (e : FltW) (k : MReg) (d : Reg) (a : Reg) (b : Reg)
  /-- VFSUB (R171): vfsub.F vd, va, vb, mk. -/
  | vfsub (tk : Tok) (e : FltW) (k : MReg) (d : Reg) (a : Reg) (b : Reg)
  /-- VFMUL (R171): vfmul.F vd, va, vb, mk. -/
  | vfmul (tk : Tok) (e : FltW) (k : MReg) (d : Reg) (a : Reg) (b : Reg)
  /-- VFDIV (R171): vfdiv.F vd, va, vb, mk. -/
  | vfdiv (tk : Tok) (e : FltW) (k : MReg) (d : Reg) (a : Reg) (b : Reg)
  /-- VFMIN (R171): vfmin.F vd, va, vb, mk. -/
  | vfmin (tk : Tok) (e : FltW) (k : MReg) (d : Reg) (a : Reg) (b : Reg)
  /-- VFMAX (R171): vfmax.F vd, va, vb, mk. -/
  | vfmax (tk : Tok) (e : FltW) (k : MReg) (d : Reg) (a : Reg) (b : Reg)
  /-- VFSQRT (R171): vfsqrt.F vd, va, mk. -/
  | vfsqrt (tk : Tok) (e : FltW) (k : MReg) (d : Reg) (a : Reg)
  /-- VFCMP (R172): vfcmp.cc.F md, va, vb, mk. -/
  | vfcmp (tk : Tok) (e : FltW) (o : FltCC) (k : MReg) (d : MReg) (a : Reg) (b : Reg)
  /-- VCVT (R173): vcvt.W.S vd, va, sel, mk (float W). -/
  | vcvt (tk : Tok) (e : FltW) (k : MReg) (d : Reg) (a : Reg) (sel : BitVec 2) (st : BitVec 3)
  /-- VRED_FADD (R174): vredFadd xd, va, mk. -/
  | vredFadd (tk : Tok) (e : FltW) (k : MReg) (d : Reg) (a : Reg)
  /-- VRED_FMIN (R174): vredFmin xd, va, mk. -/
  | vredFmin (tk : Tok) (e : FltW) (k : MReg) (d : Reg) (a : Reg)
  /-- VRED_FMAX (R174): vredFmax xd, va, mk. -/
  | vredFmax (tk : Tok) (e : FltW) (k : MReg) (d : Reg) (a : Reg)
  /-- VSCAN_FADD (R102): vscan.fadd.F vd, va, mk. -/
  | vscanFadd (tk : Tok) (e : FltW) (k : MReg) (d : Reg) (a : Reg)
  /-- VEXP2 (R175): vexp2.f32 vd, va, mk. -/
  | vexp2 (tk : Tok) (k : MReg) (d : Reg) (a : Reg)
  /-- VLOG2 (R175): vlog2.f32 vd, va, mk. -/
  | vlog2 (tk : Tok) (k : MReg) (d : Reg) (a : Reg)
  /-- VRCP (R175): vrcp.f32 vd, va, mk. -/
  | vrcp (tk : Tok) (k : MReg) (d : Reg) (a : Reg)
  /-- VRSQ (R175): vrsq.f32 vd, va, mk. -/
  | vrsq (tk : Tok) (k : MReg) (d : Reg) (a : Reg)
  /-- VSIN (R175): vsin.f32 vd, va, mk. -/
  | vsin (tk : Tok) (k : MReg) (d : Reg) (a : Reg)
  /-- VCOS (R175): vcos.f32 vd, va, mk. -/
  | vcos (tk : Tok) (k : MReg) (d : Reg) (a : Reg)
  /-- VTSB (R184): vtsb.F vd, va, mk. -/
  | vtsb (tk : Tok) (e : FltW) (k : MReg) (d : Reg) (a : Reg)
  /-- VTSBLT (R185): vtsblt.F md, va, xb, mk. -/
  | vtsblt (tk : Tok) (e : FltW) (k : MReg) (d : MReg) (a : Reg) (b : Reg)
  /-- VSETTSB (R186): vsettsb.F vd, va, xb, mk. -/
  | vsettsb (tk : Tok) (e : FltW) (k : MReg) (d : Reg) (a : Reg) (b : Reg)
  /-- VPERM (R177): vperm vd, va, vb, mk. -/
  | vperm (tk : Tok) (k : MReg) (d : Reg) (a : Reg) (b : Reg)
  /-- VSLIDE_UP (R178): vslideUp vd, va, xb, mk. -/
  | vslideUp (tk : Tok) (k : MReg) (d : Reg) (a : Reg) (b : Reg)
  /-- VSLIDE_DN (R178): vslideDn vd, va, xb, mk. -/
  | vslideDn (tk : Tok) (k : MReg) (d : Reg) (a : Reg) (b : Reg)
  /-- VEXCH (R193): vexch vd, va, xb. -/
  | vexch (tk : Tok) (d : Reg) (a : Reg) (b : Reg)
  /-- XTOV (R153): xtov vd, xa, mk. -/
  | xtov (tk : Tok) (k : MReg) (d : Reg) (a : Reg)
  /-- VTOX (R154): vtox xd, va, mk. -/
  | vtox (tk : Tok) (k : MReg) (d : Reg) (a : Reg)
  /-- VTOXA (R155): vtoxa xd, va, mk. -/
  | vtoxa (tk : Tok) (k : MReg) (d : Reg) (a : Reg)
  /-- MTOX (R156): mtox xd, ma. -/
  | mtox (tk : Tok) (d : Reg) (a : MReg)
  /-- XTOM (R156): xtom md, xa. -/
  | xtom (tk : Tok) (d : MReg) (a : Reg)
  /-- MAND (R144): mand md, ma, mb. -/
  | mand (tk : Tok) (d : MReg) (a : MReg) (b : MReg)
  /-- MOR (R144): mor md, ma, mb. -/
  | mor (tk : Tok) (d : MReg) (a : MReg) (b : MReg)
  /-- MXOR (R144): mxor md, ma, mb. -/
  | mxor (tk : Tok) (d : MReg) (a : MReg) (b : MReg)
  /-- MNOT (R144): mnot md, ma. -/
  | mnot (tk : Tok) (d : MReg) (a : MReg)
  /-- MPOP (R144): mpop xd, ma. -/
  | mpop (tk : Tok) (d : Reg) (a : MReg)
  /-- MFIRST (R144): mfirst xd, ma. -/
  | mfirst (tk : Tok) (d : Reg) (a : MReg)
  /-- VPORTR (R125): vportr vd, pa, mk. -/
  | vportr (tk : Tok) (k : MReg) (d : Reg) (p : PortSel)
  /-- VPORTW (R125): vportw pd, va, mk. -/
  | vportw (tk : Tok) (k : MReg) (p : PortSel) (a : Reg)
  /-- VFMA (R171): vfma.F vd, va, vb, vc, mk. -/
  | vfma (tk : Tok) (e : FltW) (k : MReg) (d : Reg) (a : Reg) (b : Reg) (c : Reg)
  /-- VFNMA (R171): vfnma.F vd, va, vb, vc, mk. -/
  | vfnma (tk : Tok) (e : FltW) (k : MReg) (d : Reg) (a : Reg) (b : Reg) (c : Reg)
  /-- VCLIP (R151): vclip.iW vd, va, vb, vc, mk. -/
  | vclip (tk : Tok) (e : BitVec 1) (k : MReg) (d : Reg) (a : Reg) (b : Reg) (c : Reg)
  /-- LD_B (R199): ldB xd, [xa+imm]. -/
  | ldB (tk : Tok) (d : Reg) (a : Reg) (imm : BitVec 13)
  /-- LD_BU (R199): ldBu xd, [xa+imm]. -/
  | ldBu (tk : Tok) (d : Reg) (a : Reg) (imm : BitVec 13)
  /-- LD_H (R199): ldH xd, [xa+imm]. -/
  | ldH (tk : Tok) (d : Reg) (a : Reg) (imm : BitVec 13)
  /-- LD_HU (R199): ldHu xd, [xa+imm]. -/
  | ldHu (tk : Tok) (d : Reg) (a : Reg) (imm : BitVec 13)
  /-- LD_W (R199): ldW xd, [xa+imm]. -/
  | ldW (tk : Tok) (d : Reg) (a : Reg) (imm : BitVec 13)
  /-- LD_WU (R199): ldWu xd, [xa+imm]. -/
  | ldWu (tk : Tok) (d : Reg) (a : Reg) (imm : BitVec 13)
  /-- LD_D (R199): ldD xd, [xa+imm]. -/
  | ldD (tk : Tok) (d : Reg) (a : Reg) (imm : BitVec 13)
  /-- ST_B (R199): stB xb, [xa+imm]. -/
  | stB (tk : Tok) (b : Reg) (a : Reg) (imm : BitVec 13)
  /-- ST_H (R199): stH xb, [xa+imm]. -/
  | stH (tk : Tok) (b : Reg) (a : Reg) (imm : BitVec 13)
  /-- ST_W (R199): stW xb, [xa+imm]. -/
  | stW (tk : Tok) (b : Reg) (a : Reg) (imm : BitVec 13)
  /-- ST_D (R199): stD xb, [xa+imm]. -/
  | stD (tk : Tok) (b : Reg) (a : Reg) (imm : BitVec 13)
  /-- VLD (R200): vld vd, [xa+imm]. -/
  | vld (tk : Tok) (d : Reg) (a : Reg) (imm : BitVec 13)
  /-- VST (R200): vst vb, [xa+imm]. -/
  | vst (tk : Tok) (b : Reg) (a : Reg) (imm : BitVec 13)
  /-- LD_ACQ (R202): ld.W.acq.scope xd, [xa]. -/
  | ldAcq (tk : Tok) (wd : BitVec 3) (d : Reg) (a : Reg) (sc : ScopeCode)
  /-- ST_REL (R202): st.W.rel.scope xb, [xa]. -/
  | stRel (tk : Tok) (wd : BitVec 2) (b : Reg) (a : Reg) (sc : ScopeCode)
  /-- LDT (R205): ldt xd, [xa]. -/
  | ldt (tk : Tok) (d : Reg) (a : Reg)
  /-- STT (R205): stt xb, [xa]. -/
  | stt (tk : Tok) (b : Reg) (a : Reg)
  /-- VLDX (R201): vldx vd, [xa+vb], mk. -/
  | vldx (tk : Tok) (k : MReg) (d : Reg) (a : Reg) (b : Reg)
  /-- VSTX (R201): vstx vd, [xa+vb], mk. -/
  | vstx (tk : Tok) (k : MReg) (d : Reg) (a : Reg) (b : Reg)
  /-- AMOADD (R207): amoadd.W.scope xd, xb, [xa]. -/
  | amoadd (tk : Tok) (sc : ScopeCode) (z : BitVec 1) (d : Reg) (a : Reg) (b : Reg)
  /-- AMOAND (R207): amoand.W.scope xd, xb, [xa]. -/
  | amoand (tk : Tok) (sc : ScopeCode) (z : BitVec 1) (d : Reg) (a : Reg) (b : Reg)
  /-- AMOOR (R207): amoor.W.scope xd, xb, [xa]. -/
  | amoor (tk : Tok) (sc : ScopeCode) (z : BitVec 1) (d : Reg) (a : Reg) (b : Reg)
  /-- AMOXOR (R207): amoxor.W.scope xd, xb, [xa]. -/
  | amoxor (tk : Tok) (sc : ScopeCode) (z : BitVec 1) (d : Reg) (a : Reg) (b : Reg)
  /-- AMOMIN (R207): amomin.W.scope xd, xb, [xa]. -/
  | amomin (tk : Tok) (sc : ScopeCode) (z : BitVec 1) (d : Reg) (a : Reg) (b : Reg)
  /-- AMOMAX (R207): amomax.W.scope xd, xb, [xa]. -/
  | amomax (tk : Tok) (sc : ScopeCode) (z : BitVec 1) (d : Reg) (a : Reg) (b : Reg)
  /-- AMOSWAP (R207): amoswap.W.scope xd, xb, [xa]. -/
  | amoswap (tk : Tok) (sc : ScopeCode) (z : BitVec 1) (d : Reg) (a : Reg) (b : Reg)
  /-- AMOCAS (R207): amocas.W.scope xd, xb, [xa]. -/
  | amocas (tk : Tok) (sc : ScopeCode) (z : BitVec 1) (d : Reg) (a : Reg) (b : Reg)
  /-- CSRR (R219): csrr xd, csr. -/
  | csrr (tk : Tok) (d : Reg) (n : BitVec 11)
  /-- CSRW (R219): csrw csr, xa. -/
  | csrw (tk : Tok) (a : Reg) (n : BitVec 11)
  /-- CSRS (R219): csrs xd, csr, xa. -/
  | csrs (tk : Tok) (d : Reg) (a : Reg) (n : BitVec 11)
  /-- CSRC (R219): csrc xd, csr, xa. -/
  | csrc (tk : Tok) (d : Reg) (a : Reg) (n : BitVec 11)
  /-- FENCE (R209): fence.K.scope. -/
  | fence (tk : Tok) (kk : BitVec 2) (sc : ScopeCode)
  /-- SDRAIN (R228): sdrain. -/
  | sdrain (tk : Tok)
  /-- CHKERR (R213): chkerr xd. -/
  | chkerr (tk : Tok) (d : Reg)
  /-- CHKERR_CLR (R213): chkerr.clr xd. -/
  | chkerrClr (tk : Tok) (d : Reg)
  /-- ECALL (R224): ecall. -/
  | ecall (tk : Tok)
  /-- EBREAK (R224): ebreak. -/
  | ebreak (tk : Tok)
  /-- TRET (R223): tret. -/
  | tret (tk : Tok)
  /-- QTEST (R128): qtest pd, q. -/
  | qtest (tk : Tok) (p : PReg) (q : QSel)
  /-- QTOK (R128): qtok xd, q. -/
  | qtok (tk : Tok) (d : Reg) (q : QSel)
  /-- RECFG (R441): recfg xa. -/
  | recfg (tk : Tok) (a : Reg)
  /-- SHADOW (R440): shadow xa. -/
  | shadow (tk : Tok) (a : Reg)
  /-- JOIN (R190): join xa, xb. -/
  | join (tk : Tok) (a : Reg) (b : Reg)
  /-- LEAVE (R191): leave xa. -/
  | leave (tk : Tok) (a : Reg)
  /-- GBAR (R192): gbar xa. -/
  | gbar (tk : Tok) (a : Reg)
  /-- GKILL (R230): gkill xa. -/
  | gkill (tk : Tok) (a : Reg)
  /-- TSPAWN (R397): tspawn xa, xb. -/
  | tspawn (tk : Tok) (a : Reg) (b : Reg)
  /-- TEXIT (R398): texit. -/
  | texit (tk : Tok)
  /-- EVSET (R399): evset en. -/
  | evset (tk : Tok) (n : BitVec 8)
  /-- EVCLR (R399): evclr en. -/
  | evclr (tk : Tok) (n : BitVec 8)
  /-- WFE (R400): wfe en. -/
  | wfe (tk : Tok) (n : BitVec 8)
  /-- SEND (R410): send xa, xb. -/
  | send (tk : Tok) (a : Reg) (b : Reg)
  /-- WAITC (R414): waitc xa. -/
  | waitc (tk : Tok) (a : Reg)
  /-- TLD (R342): tld td, [xa], xb. -/
  | tld (tk : Tok) (d : TReg) (a : Reg) (b : Reg)
  /-- TLD_H (R344): tld.h td, xa, xb. -/
  | tldH (tk : Tok) (d : TReg) (a : Reg) (b : Reg)
  /-- TLD_HK (R344): tld.hk td, xa, xb. -/
  | tldHk (tk : Tok) (d : TReg) (a : Reg) (b : Reg)
  /-- TST (R346): tst tb, [xa]. -/
  | tst (tk : Tok) (b : TReg) (a : Reg)
  /-- TZERO (R347): tzero td. -/
  | tzero (tk : Tok) (d : TReg)
  /-- MMA (R348): mma ad, ta, tb. -/
  | mma (tk : Tok) (d : AReg) (a : TReg) (b : TReg)
  /-- MMA_NC (R348): mma.nc ad, ta, tb. -/
  | mmaNc (tk : Tok) (d : AReg) (a : TReg) (b : TReg)
  /-- MMAG (R351): mmag ad, ta, xb. -/
  | mmag (tk : Tok) (d : AReg) (a : TReg) (b : Reg)
  /-- MMAG_NC (R351): mmag.nc ad, ta, xb. -/
  | mmagNc (tk : Tok) (d : AReg) (a : TReg) (b : Reg)
  /-- ACZ (R352): acz ad. -/
  | acz (tk : Tok) (d : AReg)
  /-- TCSUM (R347): tcsum td. -/
  | tcsum (tk : Tok) (d : TReg)
  /-- TCCHK (R347): tcchk pd, ta. -/
  | tcchk (tk : Tok) (p : PReg) (a : TReg)
  /-- TBOUND (R355): tbound xa. -/
  | tbound (tk : Tok) (a : Reg)
  /-- ACNV (R352): acnv.F td, aa. -/
  | acnv (tk : Tok) (f : BitVec 4) (d : TReg) (a : AReg)
  /-- ALLOC (R311): alloc xd, xa, size. -/
  | alloc (tk : Tok) (d : Reg) (a : Reg) (z : BitVec 2)
  /-- SEAL (R314): seal xa. -/
  | sealTile (tk : Tok) (a : Reg)
  /-- TPDROP (R318): tpdrop xa, xb. -/
  | tpdrop (tk : Tok) (a : Reg) (b : Reg)
  /-- STRM (R245): strm xa, xb. -/
  | strm (tk : Tok) (a : Reg) (b : Reg)
  /-- SPBSET (R241): spbset n, xa. -/
  | spbset (tk : Tok) (n : BitVec 3) (a : Reg)
  /-- SWAIT (R249): swait n. -/
  | swait (tk : Tok) (n : BitVec 3)
  /-- SPILLQ (R259): spillq q, xa. -/
  | spillq (tk : Tok) (q : BitVec 3) (a : Reg)
  /-- KERF (R261): kerf. -/
  | kerf (tk : Tok)
  /-- C_MV (R65): c.mv xd, xb. -/
  | cMv (d : Reg) (b : Reg)
  /-- C_ADD (R65): c_add xd, xb. -/
  | cAdd (d : Reg) (b : Reg)
  /-- C_SUB (R65): c_sub xd, xb. -/
  | cSub (d : Reg) (b : Reg)
  /-- C_AND (R65): c_and xd, xb. -/
  | cAnd (d : Reg) (b : Reg)
  /-- C_OR (R65): c_or xd, xb. -/
  | cOr (d : Reg) (b : Reg)
  /-- C_XOR (R65): c_xor xd, xb. -/
  | cXor (d : Reg) (b : Reg)
  /-- C_ADDI (R65): c_addi xd, imm5. -/
  | cAddi (d : Reg) (i : BitVec 5)
  /-- C_LI (R65): c_li xd, imm5. -/
  | cLi (d : Reg) (i : BitVec 5)
  /-- C_SLLI (R65): c_slli xd, imm5. -/
  | cSlli (d : Reg) (i : BitVec 5)
  /-- C_SRLI (R65): c_srli xd, imm5. -/
  | cSrli (d : Reg) (i : BitVec 5)
  /-- C_SRAI (R65): c_srai xd, imm5. -/
  | cSrai (d : Reg) (i : BitVec 5)
  /-- C_ANDI (R65): c_andi xd, imm5. -/
  | cAndi (d : Reg) (i : BitVec 5)
  /-- C_LDD (R65): c_ldd xd, imm5. -/
  | cLdd (d : Reg) (i : BitVec 5)
  /-- C_STD (R65): c_std xd, imm5. -/
  | cStd (d : Reg) (i : BitVec 5)
  /-- C_LDW (R65): c_ldw xd, imm5. -/
  | cLdw (d : Reg) (i : BitVec 5)
  /-- C_STW (R65): c_stw xd, imm5. -/
  | cStw (d : Reg) (i : BitVec 5)
  /-- C_J (R65): c.j label. -/
  | cJ (i : BitVec 10)
  /-- C_BEQZ (R65): c.beqz xa, label. -/
  | cBeqz (a : Reg) (i : BitVec 5)
  /-- C_BNEZ (R65): c.bnez xa, label. -/
  | cBnez (a : Reg) (i : BitVec 5)
  /-- C_JR (R65): c.jr xa. -/
  | cJr (a : Reg)
  /-- C_JALR (R65): c.jalr xa. -/
  | cJalr (a : Reg)
  /-- C_NOP (R65): c.nop. -/
  | cNop
  /-- C_TEXIT (R65): c.texit. -/
  | cTexit
  /-- C_EBREAK (R65): c.ebreak. -/
  | cEbreak
  /-- C_SLT (R65): c_slt xd, xb. -/
  | cSlt (d : Reg) (b : Reg)
  /-- C_SLTU (R65): c_sltu xd, xb. -/
  | cSltu (d : Reg) (b : Reg)
  /-- C_MUL (R65): c_mul xd, xb. -/
  | cMul (d : Reg) (b : Reg)
  /-- ROUTE (R280), a switch word: route in>out, ..., count: n+1 routes, count - 1 in cnt. -/
  | route (n : BitVec 2) (r0 : BitVec 10) (r1 : BitVec 10) (r2 : BitVec 10) (r3 : BitVec 10) (cnt : BitVec 12)
  /-- ROUTEC (R281), a switch word: routec in>out, ..., kind. -/
  | routec (n : BitVec 2) (r0 : BitVec 10) (r1 : BitVec 10) (r2 : BitVec 10) (r3 : BitVec 10) (kind : BitVec 3)
  /-- STEER (R282), a switch word: steer in, out0, out1, ctl, count. -/
  | steer (inp : BitVec 5) (out0 : BitVec 5) (out1 : BitVec 5) (ctl : BitVec 5) (cnt : BitVec 12)
  /-- MERGE (R283), a switch word: merge in0, in1, out, ctl, count. -/
  | merge (in0 : BitVec 5) (in1 : BitVec 5) (out : BitVec 5) (ctl : BitVec 5) (cnt : BitVec 12)
  /-- EMIT (R284), a switch word: emit out, kind, vc, sub, value. -/
  | emit (out : BitVec 5) (kind : BitVec 3) (vc : BitVec 5) (sb : BitVec 6) (value : BitVec 32)
  /-- WAITTOK (R285), a switch word: waittok in, kind, sub, ck, label. -/
  | waittok (inp : BitVec 5) (kind : BitVec 3) (sb : BitVec 6) (ld : BitVec 1) (ck : BitVec 2) (target : BitVec 12)
  /-- LOOP (R286), a switch word: loop ck, n. -/
  | loop (ck : BitVec 2) (n : BitVec 24)
  /-- BNZ (R286), a switch word: bnz ck, label. -/
  | bnz (ck : BitVec 2) (target : BitVec 12)
  /-- JMP (R286), a switch word: jmp label. -/
  | jmp (target : BitVec 12)
  /-- HALT (R286), a switch word: halt. -/
  | halt
  /-- ILLEGAL (R66), no encoding: a fetched word that decodes to no instruction. -/
  | illegal (word : BitVec 32)
  /-- FETCH_PAGE (R43), no encoding: the fetch of the parcel at addr faults. -/
  | fetchPage (addr : BitVec 64)
  /-- SFDROP (R227), no encoding: hart h discards its head store-fault record. -/
  | sfdrop (h : Nat)
  /-- SFRPL (R227), no encoding: hart h replays its head store-fault record. -/
  | sfrpl (h : Nat)
  /-- STREAM_ABORT (R257), no encoding: streamer h aborts the faulted stream of a slot. -/
  | streamAbort (h : Nat) (slot : Nat)
  /-- STREAM_RESUME (R257), no encoding: streamer h resumes the faulted stream of a slot. -/
  | streamResume (h : Nat) (slot : Nat)
  /-- TSHP_WRITE (R338), no encoding: write of TSHPn of a cell. -/
  | tshpWrite (cell : Nat) (n : TReg) (v : BitVec 64)
  /-- SWITCH_FLIT_PASS (R277), no encoding: the running switch instruction of a cell passes one flit. -/
  | switchFlitPass (cell : Nat) (port : Nat)
  /-- SEAM_RETRY_FAILURE (R270), no encoding: the flit last delivered over a seam to an input of a cell cannot be delivered. -/
  | seamRetryFailure (cell : Nat) (port : Nat)
  /-- LOAD_DATA_RETURN (R195), no encoding: outstanding load idx of hart h returns its data. -/
  | loadDataReturn (h : Nat) (idx : Nat)
  /-- STORE_TRANSLATION_DONE (R225), no encoding: the idx-th untranslated store of hart h completes translation. -/
  | storeTranslationDone (h : Nat) (idx : Nat)
  /-- STREAM_ELEMENT (R242), no encoding: the stream of a slot of streamer h moves one element. -/
  | streamElement (h : Nat) (slot : Nat)
  /-- STREAM_COMPLETE (R248), no encoding: the stream of a slot of streamer h completes. -/
  | streamComplete (h : Nat) (slot : Nat)
  /-- RING_EOS (R296), no encoding: the ring appends EOS. -/
  | ringEos (cell : Nat) (ring : Nat)
  /-- ALLOC_SERVE (R312), no encoding: the head of the allocation queue of a partition is served. -/
  | allocServe (cell : Nat) (part : Nat)
  /-- READ_ADMISSION (R315), no encoding: a pool read of hart h (of a stream slot, or slot 8 for a tile load) is admitted. -/
  | readAdmission (h : Nat) (slot : Nat)
  /-- COMPRESS_TILE (R326), no encoding: the compressor turns one dense tile of a VC into records. -/
  | compressTile (cell : Nat) (vc : Nat)
  /-- EXPAND_TILE (R327), no encoding: the compressor expands the records of a VC into one dense tile. -/
  | expandTile (cell : Nat) (vc : Nat)
  /-- CONVERT (R329), no encoding: the converter of a cell converts the next flits of a VC. -/
  | convert (cell : Nat) (vc : Nat)
  /-- TLD_DELIVERY (R342), no encoding: the bytes of the pending tile load of tn arrive. -/
  | tldDelivery (cell : Nat) (t : TReg)
  /-- NODE_PASS (R354), no encoding: the matrix node of a cell begins a pass. -/
  | nodePass (cell : Nat)
  /-- NODE_ROW (R354), no encoding: a row of A fires one row of the product. -/
  | nodeRow (cell : Nat)
  /-- READ (R406), no encoding: a read request: packet n of the network is taken at its destination. -/
  | read (n : Nat)
  /-- WRITE (R406), no encoding: a write request: packet n of the network is taken at its destination. -/
  | write (n : Nat)
  /-- ATOMIC (R406), no encoding: an atomic request: packet n of the network is taken at its destination. -/
  | atomic (n : Nat)
  /-- READ_REPLY (R406), no encoding: a read reply: packet n of the network is taken at its destination. -/
  | readReply (n : Nat)
  /-- WRITE_ACKNOWLEDGEMENT (R406), no encoding: a write acknowledgement: packet n of the network is taken at its destination. -/
  | writeAcknowledgement (n : Nat)
  /-- TASK_RECORD (R387), no encoding: a task record: packet n of the network is taken at its destination. -/
  | taskRecord (n : Nat)
  /-- ACTIVE_MESSAGE (R411), no encoding: an active message: packet n of the network is taken at its destination. -/
  | activeMessage (n : Nat)
  /-- INBOX_ACKNOWLEDGEMENT (R406), no encoding: an inbox acknowledgement: packet n of the network is taken at its destination. -/
  | inboxAcknowledgement (n : Nat)
  /-- POOL_REQUEST (R308), no encoding: a pool request: packet n of the network is taken at its destination. -/
  | poolRequest (n : Nat)
  /-- POOL_REPLY (R308), no encoding: a pool reply: packet n of the network is taken at its destination. -/
  | poolReply (n : Nat)
  /-- WALK_REQUEST (R362), no encoding: a walk request: packet n of the network is taken at its destination. -/
  | walkRequest (n : Nat)
  /-- WALK_REPLY (R364), no encoding: a walk reply: packet n of the network is taken at its destination. -/
  | walkReply (n : Nat)
  /-- INTERRUPT (R408), no encoding: an interrupt: packet n of the network is taken at its destination. -/
  | interrupt (n : Nat)
  /-- PURGE (R462), no encoding: a purge: packet n of the network is taken at its destination. -/
  | purge (n : Nat)
  /-- PURGE_ACKNOWLEDGEMENT (R462), no encoding: a purge acknowledgement: packet n of the network is taken at its destination. -/
  | purgeAcknowledgement (n : Nat)
  /-- COPY (R416), no encoding: the copy engine of a cell performs the head message: copies bytes. -/
  | copy (cell : Nat)
  /-- COPY2D (R416), no encoding: the copy engine of a cell performs the head message: copies rows. -/
  | copy2d (cell : Nat)
  /-- FILL (R416), no encoding: the copy engine of a cell performs the head message: fills with a pattern. -/
  | fill (cell : Nat)
  /-- TCOPY (R417), no encoding: the copy engine of a cell performs the head message: moves one tile. -/
  | tcopy (cell : Nat)
  /-- REDUCE (R419), no encoding: the collective engine of a bay reduces. -/
  | reduce (bay : Nat)
  /-- BCAST (R419), no encoding: the collective engine of a bay broadcasts. -/
  | bcast (bay : Nat)
  /-- DISPATCH (R390), no encoding: one clk of the task unit of a bay. -/
  | dispatch (bay : Nat)
  /-- AGEING (R391), no encoding: records that stood 4,096 clk move up. -/
  | ageing (bay : Nat)
  /-- WAVE_OPEN (R429), no encoding: the controller opens the next kerf wave of region r. -/
  | waveOpen (r : Nat)
  /-- KI_CUT (R429), no encoding: KI elements have moved in region r. -/
  | kiCut (r : Nat)
  /-- RELEASE_COMMIT_TIMEOUT (R429), no encoding: a wide release has waited SWD_CYC clk. -/
  | releaseCommitTimeout (r : Nat)
  /-- KERF_PART (R430), no encoding: a party takes its part of the wave. -/
  | kerfPart (r : Nat) (party : Nat)
  /-- WAVE_COMPLETE (R432), no encoding: the wave of region r completes. -/
  | waveComplete (r : Nat)
  /-- ROLLBACK_DRAIN_TIMEOUT (R439), no encoding: the rollback drain has lasted 2^16 clk. -/
  | rollbackDrainTimeout (r : Nat)
  /-- ROLLBACK_RESTORE (R439), no encoding: region r restores its last complete wave. -/
  | rollbackRestore (r : Nat)
  /-- CFG_PARITY (R438), no encoding: a parity error in a configuration memory of a cell. -/
  | cfgParity (cell : Nat) (u : Nat)
  /-- CONFIG_LOAD_COMPLETE (R428), no encoding: every cell of region r has loaded its sections. -/
  | configLoadComplete (r : Nat)
  /-- SHADOW_FETCH_DONE (R440), no encoding: a cell completes fetching its shadow sections. -/
  | shadowFetchDone (cell : Nat)
  /-- CELL_SWAP (R442), no encoding: a cell swaps to its shadow configuration. -/
  | cellSwap (cell : Nat)
  /-- DRAIN_COMPLETE (R445), no encoding: the drain of region r ends. -/
  | drainComplete (r : Nat)
  /-- PREEMPT_TIMEOUT (R446), no encoding: PDL elapses in DRAINING. -/
  | preemptTimeout (r : Nat)
  /-- STALL_WATCHDOG (R448), no encoding: the stall watchdog fires. -/
  | stallWatchdog (r : Nat)
  /-- HANG (R450), no encoding: the hang monitor fires. -/
  | hang (r : Nat)
  /-- REPLY_TIMEOUT (R449), no encoding: a request is older than MTO. -/
  | replyTimeout (r : Nat)
  /-- INBOX_WRITE (R453), no encoding: the host writes bytes from an offset of BAR2 of a function on. -/
  | inboxWrite (fn : Nat) (off : Nat) (rec : List Byte)
  /-- OPEN (R457), no encoding: Haltin executes the inbox record of a function and sequence number. -/
  | openRegion (fn : Nat) (seq : Nat)
  /-- MAP (R457), no encoding: Haltin executes the inbox record of a function and sequence number. -/
  | map (fn : Nat) (seq : Nat)
  /-- UNMAP (R457), no encoding: Haltin executes the inbox record of a function and sequence number. -/
  | unmap (fn : Nat) (seq : Nat)
  /-- LOADCFG (R426), no encoding: Haltin executes the inbox record of a function and sequence number. -/
  | loadcfg (fn : Nat) (seq : Nat)
  /-- SPAWN (R457), no encoding: Haltin executes the inbox record of a function and sequence number. -/
  | spawn (fn : Nat) (seq : Nat)
  /-- SIGNAL (R457), no encoding: Haltin executes the inbox record of a function and sequence number. -/
  | signal (fn : Nat) (seq : Nat)
  /-- PREEMPT (R445), no encoding: Haltin executes the inbox record of a function and sequence number. -/
  | preempt (fn : Nat) (seq : Nat)
  /-- RESUME (R445), no encoding: Haltin executes the inbox record of a function and sequence number. -/
  | resume (fn : Nat) (seq : Nat)
  /-- KILL (R462), no encoding: Haltin executes the inbox record of a function and sequence number. -/
  | kill (fn : Nat) (seq : Nat)
  /-- QUERY (R457), no encoding: Haltin executes the inbox record of a function and sequence number. -/
  | query (fn : Nat) (seq : Nat)
  /-- ATTEST (R469), no encoding: Haltin executes the inbox record of a function and sequence number. -/
  | attest (fn : Nat) (seq : Nat)
  /-- FWUPD (R468), no encoding: Haltin executes the inbox record of a function and sequence number. -/
  | fwupd (fn : Nat) (seq : Nat)
  /-- COLD_RESET (R466), no encoding: power-on or PERST#. -/
  | coldReset
  /-- PF_FUNCTION_LEVEL_RESET (R466), no encoding: PF function-level reset. -/
  | pfFunctionLevelReset
  /-- VF_RESET (R470), no encoding: VF function-level reset. -/
  | vfReset (fn : Nat)
  /-- THERMAL_TRIP (R471), no encoding: the trip point. -/
  | thermalTrip
  /-- THROTTLE (R471), no encoding: clocks withheld from bays, or given back. -/
  | throttle (bays : List Nat) (on : Bool)
  /-- PLIMIT_WRITE (R472), no encoding: write of PLIMIT. -/
  | plimitWrite (v : BitVec 64)
  /-- VFRECT_WRITE (R452), no encoding: write of VFRECTn. -/
  | vfrectWrite (n : Nat) (v : BitVec 64)
  /-- MGMT_REGISTER_WRITE (R7), no encoding: write of another management register. -/
  | mgmtRegisterWrite (fn : Nat) (off : Nat) (v : BitVec 64)
  /-- SCARF_LINK_DOWN (R422), no encoding: scarf link n fails. -/
  | scarfLinkDown (n : Nat)
  /-- SCARF_DELIVERY_FAILURE (R422), no encoding: packet n cannot be delivered by retry. -/
  | scarfDeliveryFailure (n : Nat)
  /-- DEBUGGER_HALT (R449), no encoding: the debugger halts or releases region r. -/
  | debuggerHalt (r : Nat) (on : Bool)
  deriving DecidableEq, Repr

end Sys2Proof
end

