-- ==== Sys2Proof/Config.lean ====
section
/-! DEFINITION. What the spec leaves to the implementation, and the free values: constants with no body, so that
nothing can be proved about the value they take (notes/assumptions names each). -/

namespace Sys2Proof.Machine

/-- A fault of the silicon that the spec gives an effect (R112, R303, R362, R464; assumption 48). -/
inductive SoftError where
  /-- a single bit of a cell's scratchpad, sidecar store or pool metadata, which the ECC corrects -/
  | corrected (cell : Nat)
  /-- a word of a cell's scratchpad that the ECC cannot correct -/
  | lost (cell word : Nat)
  /-- pool metadata or a sidecar of a partition of a cell's pool that the ECC cannot correct -/
  | metadata (cell part : Nat)
  /-- a word of a cell's snapshot area that the ECC cannot correct: of the half of the last complete wave, or of the other one -/
  | snapshot (cell : Nat) (last : Bool)
  /-- an 8-byte unit of HBM that the ECC cannot correct, or of CXL memory that CXL.mem reports as poisoned (R211, R362, R464) -/
  | device (word : Nat)
  /-- bits of an element of the next result that a cell's matrix engine puts into an accumulator -/
  | product (cell acc element : Nat) (bits : BitVec 32)
  deriving DecidableEq, Repr

/-- What moves next: a hart issues, a switch processor runs its word, a step of an engine, the network, a controller, the
host or the package is taken, the silicon errs, or memory moves on by itself. -/
inductive Turn where
  | hart (h : Nat)
  | switch (cell : Nat)
  | event (i : Instr)
  | soft (e : SoftError)
  /-- a line leaves the L1 of a cell, whose replacement the spec does not state (R195, R376) -/
  | evict (cell pa : Nat)
  /-- the stores of a cell that wait for their commit buffer enter it as far as it has room (R433) -/
  | enter (cell : Nat)
  /-- one of the four walk engines of a bay ends its walk (R365) -/
  | walk (bay engine : Nat)
  /-- the matrix engine of a cell does the next work that waits inside it (R337) -/
  | matrix (cell : Nat)
  /-- a receiver drops packet n of the network: its head is malformed (R406) -/
  | discard (n : Nat)
  /-- a flit of packet n of the network fails the retry of a seam (R407) -/
  | seam (n : Nat)
  /-- a write of a peer device comes in over a scarf link (R421) -/
  | peer (link : Nat)
  /-- the task unit of a bay moves its aged records up, as a clk begins (R391) -/
  | age (bay : Nat)
  /-- the task unit of a bay starts records, once all that a clk brings is there (R389, R390) -/
  | start (bay : Nat)
  deriving DecidableEq, Repr

end Sys2Proof.Machine

namespace Sys2Proof.Config

/-- Free bits for a special function result: the function code of R175 and the operand. Taken only where R175 admits
the value (assumption 20). -/
opaque specialBits : Nat → BitVec 32 → BitVec 32

/-- A free dword for each value of the state's counter of free values (assumption 2). -/
opaque freeWord : Nat → BitVec 64

/-- The turns that are taken in a clk after a number of resets, in their order. No latency is architectural and the world outside acts when it
pleases (R1, R28), so the schedule is free; a turn that is not due changes nothing (assumption 3). -/
opaque schedule : Nat → Nat → List Machine.Turn

/-- Whether the stepping is B0, else A0 (R404; assumption 5). -/
opaque stepB : Bool

/-- The digest SHAKE256 of a list of bytes (R426, R469; assumption 6). -/
opaque shake256 : List Byte → List Byte

/-- Whether a signature block over bytes verifies under Haltin's keys (R426, R468; assumption 6). -/
opaque signed : List Byte → List Byte → Bool

/-- The device's attestation signature over a report (R469; assumption 6). -/
opaque attestation : List Byte → List Byte

/-- The power of the module at a clk after a number of resets (R472; assumption 2). -/
opaque modulePower : Nat → Nat → BitVec 12

/-- A byte of host memory that a DMA read gives, for a value of the state's counter and a bus address: the host writes it as it
pleases (R457, assumption 2). -/
opaque hostByte : Nat → Nat → BitVec 8

/-- The public identity key of the device (R469; assumption 6). -/
opaque publicKey : List Byte

/-- The digest of the running Haltin image of a security version (R469; assumption 6). -/
opaque haltinDigest : Nat → List Byte

/-- The security version of a Haltin image whose signature verifies; none where it does not (R466-R468; assumption 6). -/
opaque fwVersion : List Byte → Option Nat

end Sys2Proof.Config
end

