-- ==== Sys2Proof/Machine/Bits.lean ====
section
/-! DEFINITION. Bit-field, sign and byte-order helpers, and the sparse maps the state is made of. -/

namespace Sys2Proof.Machine

/-- Bits hi down to lo of a number (R10). -/
def bits (v hi lo : Nat) : Nat := (v >>> lo) % 2 ^ (hi + 1 - lo)

/-- Sign extension to 64 bits (R135). -/
def sext64 {n : Nat} (v : BitVec n) : Word := v.signExtend 64

/-- Zero extension to 64 bits (R135). -/
def zext64 {n : Nat} (v : BitVec n) : Word := v.setWidth 64

/-- One bit as a number. -/
def b2n (b : Bool) : Nat := if b then 1 else 0

/-- One bit as a dword. -/
def b2w (b : Bool) : Word := if b then 1#64 else 0#64

/-- Little-endian value of a list of bytes, lowest address first (R5). -/
def leNat : List Byte → Nat
  | [] => 0
  | b :: bs => b.toNat + 256 * leNat bs

/-- The n low bytes of a number, lowest first (R5). -/
def natBytes : Nat → Nat → List Byte
  | 0, _ => []
  | n + 1, v => BitVec.ofNat 8 (v % 256) :: natBytes n (v / 256)

/-- The dword that 8 bytes at position i of a list hold. -/
def dwordAt (bs : List Byte) (i : Nat) : Nat := leNat ((bs.drop i).take 8)

/-- The 32-bit word that 4 bytes at position i of a list hold. -/
def wordAt (bs : List Byte) (i : Nat) : Nat := leNat ((bs.drop i).take 4)

/-- The 16-bit halfword at position i of a list. -/
def halfAt (bs : List Byte) (i : Nat) : Nat := leNat ((bs.drop i).take 2)

/-- The byte at position i of a list, 0 past its end. -/
def byteAt (bs : List Byte) (i : Nat) : Nat := (bs.getD i 0#8).toNat

/-- Integer power of two as a numerator and a denominator exponent is avoided: shift a number by a signed amount,
dropping bits on a right shift. -/
def shiftInt (m : Nat) (k : Int) : Nat :=
  match k with
  | .ofNat n => m <<< n
  | .negSucc n => m >>> (n + 1)

/-! Sparse maps: lists of key and value, keys strictly rising. -/

/-- The value at a key. -/
def lookup {α : Type} (k : Nat) : List (Nat × α) → Option α
  | [] => none
  | (j, a) :: r => if j = k then some a else lookup k r

/-- The map with a value set at a key; the keys stay strictly rising. -/
def insertAt {α : Type} (k : Nat) (a : α) : List (Nat × α) → List (Nat × α)
  | [] => [(k, a)]
  | (j, b) :: r => if j < k then (j, b) :: insertAt k a r else if j = k then (k, a) :: r else (k, a) :: (j, b) :: r

/-- The map with a key removed. -/
def removeAt {α : Type} (k : Nat) : List (Nat × α) → List (Nat × α)
  | [] => []
  | (j, b) :: r => if j = k then r else (j, b) :: removeAt k r

/-- The value at a key, or a default. -/
def lookupD {α : Type} (d : α) (k : Nat) (m : List (Nat × α)) : α := (lookup k m).getD d

/-- The list with element i replaced. -/
def setNth {α : Type} : List α → Nat → α → List α
  | [], _, _ => []
  | _ :: r, 0, a => a :: r
  | b :: r, n + 1, a => b :: setNth r n a

/-- The list without element i. -/
def dropNth {α : Type} : List α → Nat → List α
  | [], _ => []
  | _ :: r, 0 => r
  | b :: r, n + 1 => b :: dropNth r n

/-- Insert a number into a strictly rising list. -/
def insertNat (k : Nat) : List Nat → List Nat
  | [] => [k]
  | j :: r => if j < k then j :: insertNat k r else if j = k then j :: r else k :: j :: r

/-- Insert an entry into a list sorted by a key, before the entries of its own key. -/
def insertBy {α : Type} (key : α → Nat) (a : α) : List α → List α
  | [] => [a]
  | b :: r => if key a ≤ key b then a :: b :: r else b :: insertBy key a r

/-- A list in the rising order of a key, entries of one key in the order they stand in. -/
def sortBy {α : Type} (key : α → Nat) (l : List α) : List α := l.foldr (insertBy key) []

/-- The position of a number in a list. -/
def indexOfNat (k : Nat) : List Nat → Nat
  | [] => 0
  | j :: r => if j = k then 0 else 1 + indexOfNat k r

/-- The first element of a list that a test accepts, with its position. -/
def findNth {α : Type} (p : α → Bool) : List α → Nat → Option (Nat × α)
  | [], _ => none
  | a :: r, n => if p a then some (n, a) else findNth p r (n + 1)

/-- Number of one bits (R135). -/
def popCount : Nat → Nat → Nat
  | 0, _ => 0
  | n + 1, v => v % 2 + popCount n (v / 2)

/-- The lowest one bit of the n low bits, or n. -/
def lowestOne : Nat → Nat → Nat
  | 0, _ => 0
  | n + 1, v => if v % 2 = 1 then 0 else 1 + lowestOne n (v / 2)

end Sys2Proof.Machine
end

