-- ==== Sys2Proof/Machine/Values.lean ====
section
/-! DEFINITION. The values that registers, queues and networks hold. -/

namespace Sys2Proof.Machine

/-- A uniform value: 64 bits, the 5-bit significance tag of bits 31:0, and the poison bit (R115, R116, R211). -/
structure UVal where
  val : Word
  tag : BitVec 5
  poison : Bool
  deriving DecidableEq, Repr

/-- One lane of a vector: 32 bits and the 8-bit tag field (R117). -/
structure Lane where
  bits : Word32
  tag : Byte
  deriving DecidableEq, Repr

/-- A vector value: 64 lanes, and a poison bit per pair of lanes (R117, R121, R211). -/
structure VVal where
  lanes : Vector Lane 64
  poison : Vector Bool 32
  deriving DecidableEq, Repr

/-- A uniform value with tag 24 and no poison (R116). -/
def UVal.plain (w : Word) : UVal := ⟨w, 24#5, false⟩

/-- The lane 0 with tag field 0x18. -/
def Lane.zero18 : Lane := ⟨0#32, 0x18#8⟩

/-- The vector 0 with tag field 0x18 in every lane (R120). -/
def VVal.zero18 : VVal := ⟨Vector.replicate 64 Lane.zero18, Vector.replicate 32 false⟩

/-- Lane k of a vector. -/
def VVal.lane (v : VVal) (k : Nat) : Lane := v.lanes[k]?.getD Lane.zero18

/-- The poison bit of the 64-bit unit that lane k belongs to (R211). -/
def VVal.poisonOf (v : VVal) (k : Nat) : Bool := v.poison[k / 2]?.getD false

/-- A vector from its lanes and the poison of its pairs. -/
def VVal.ofFn (f : Nat → Lane) (p : Nat → Bool) : VVal :=
  ⟨Vector.ofFn (fun i => f i.val), Vector.ofFn (fun j => p j.val)⟩

/-- The 256 bytes of a vector, element 0 lowest (R5, R200). -/
def VVal.bytes (v : VVal) : List Byte := (List.range 64).flatMap (fun k => natBytes 4 (v.lane k).bits.toNat)

/-- A vector register as one dword unit: bits of lanes 2j and 2j+1. -/
def VVal.unit (v : VVal) (j : Nat) : Word := (v.lane (2 * j + 1)).bits ++ (v.lane (2 * j)).bits

/-- The parts of a control token that software sees (R121, R266). -/
structure Token where
  kind : BitVec 3
  vc : BitVec 5
  sub : BitVec 6
  payload : Word32
  deriving DecidableEq, Repr

/-- A token as a dword, its payload whole (R260). -/
def Token.raw (t : Token) : Word := t.payload ++ 0#18 ++ t.sub ++ t.vc ++ t.kind

/-- The dword that a token entry yields when read: the payload of SOT, EOT and EOS reads 0 (R121). -/
def Token.dword (t : Token) : Word := (if t.kind = 6#3 then t.payload else 0#32) ++ 0#18 ++ t.sub ++ t.vc ++ t.kind

/-- An entry of an architectural queue or ring (R121). -/
inductive Entry where
  | uniform (u : UVal)
  | vector (v : VVal)
  | token (t : Token)
  deriving DecidableEq, Repr

/-- A flit of the static network: kind, virtual channel, 256 data bits (R265). -/
structure Flit where
  kind : BitVec 3
  vc : BitVec 5
  data : BitVec 256
  deriving DecidableEq, Repr

end Sys2Proof.Machine
end

