-- ==== Sys2Proof/Machine/Float.lean ====
section
/-! DEFINITION. The float formats, ROUND, and exact arithmetic (R82-R97). A real is sign, significand and exponent; the
sticky flag says that the exact magnitude lies strictly between m and m+1 units. -/

namespace Sys2Proof.Machine

/-- The float formats of R82. -/
inductive FFmt | fp32 | bf16 | fp16 | e4m3 | e5m2 | e2m1
  deriving DecidableEq, Repr

/-- The rounding modes, coded as in R53. -/
inductive RMode | rne | rmm | rtz | rdn | rup
  deriving DecidableEq, Repr

/-- The mode of a code 0-4 (R53). -/
def RMode.ofCode (c : Nat) : RMode :=
  match c with
  | 0 => .rne
  | 1 => .rmm
  | 2 => .rtz
  | 3 => .rdn
  | _ => .rup

/-- Width of the exponent field (R82). -/
def FFmt.ebits : FFmt → Nat
  | .fp32 => 8
  | .bf16 => 8
  | .fp16 => 5
  | .e4m3 => 4
  | .e5m2 => 5
  | .e2m1 => 2

/-- Width of the fraction field (R82). -/
def FFmt.fbits : FFmt → Nat
  | .fp32 => 23
  | .bf16 => 7
  | .fp16 => 10
  | .e4m3 => 3
  | .e5m2 => 2
  | .e2m1 => 1

/-- The exponent bias (R82). -/
def FFmt.bias : FFmt → Nat
  | .fp32 => 127
  | .bf16 => 127
  | .fp16 => 15
  | .e4m3 => 7
  | .e5m2 => 15
  | .e2m1 => 1

/-- Whether the format has infinities (R82). -/
def FFmt.hasInf : FFmt → Bool
  | .e4m3 => false
  | .e2m1 => false
  | _ => true

/-- Whether the format saturates on overflow (R89): E4M3 and E2M1. -/
def FFmt.saturates : FFmt → Bool
  | .e4m3 => true
  | .e2m1 => true
  | _ => false

/-- Precision q, the significand bits (R82). -/
def FFmt.prec (f : FFmt) : Nat := f.fbits + 1

/-- Width of the format in bits. -/
def FFmt.width (f : FFmt) : Nat := 1 + f.ebits + f.fbits

/-- Exponent of the smallest normal value, 1 - bias. -/
def FFmt.emin (f : FFmt) : Int := 1 - (f.bias : Int)

/-- Exponent of MINSUB (R85). -/
def FFmt.minSubExp (f : FFmt) : Int := f.emin - (f.fbits : Int)

/-- The code of the largest finite magnitude (R85). -/
def FFmt.maxCode : FFmt → Nat
  | .fp32 => 0x7F7FFFFF
  | .bf16 => 0x7F7F
  | .fp16 => 0x7BFF
  | .e4m3 => 0x7E
  | .e5m2 => 0x7B
  | .e2m1 => 0x7

/-- The code of +infinity; 0 where the format has none (R85). -/
def FFmt.infCode : FFmt → Nat
  | .fp32 => 0x7F800000
  | .bf16 => 0x7F80
  | .fp16 => 0x7C00
  | .e5m2 => 0x7C
  | _ => 0

/-- The canonical NaN; 0 where the format has none (R85). -/
def FFmt.nanCode : FFmt → Nat
  | .fp32 => 0x7FC00000
  | .bf16 => 0x7FC0
  | .fp16 => 0x7E00
  | .e4m3 => 0x7F
  | .e5m2 => 0x7E
  | .e2m1 => 0

/-- A decoded or computed value: NaN (signalling or not), infinity, or the real (-1)^neg · m · 2^e, above it by less
than one unit when sticky. -/
inductive XR where
  | nan (signalling : Bool)
  | inf (neg : Bool)
  | real (neg : Bool) (m : Nat) (e : Int) (sticky : Bool)
  deriving DecidableEq, Repr

/-- The five flags, as FCSR bits 4:0: NV DZ OF UF NX (R90, R160). -/
structure FFlags where
  nv : Bool
  dz : Bool
  of : Bool
  uf : Bool
  nx : Bool
  deriving DecidableEq, Repr

/-- No flag. -/
def FFlags.none : FFlags := ⟨false, false, false, false, false⟩
/-- Flags ORed (R90). -/
def FFlags.or (a b : FFlags) : FFlags := ⟨a.nv || b.nv, a.dz || b.dz, a.of || b.of, a.uf || b.uf, a.nx || b.nx⟩
/-- The invalid flag alone. -/
def FFlags.invalid : FFlags := ⟨true, false, false, false, false⟩
/-- The divide-by-zero flag alone. -/
def FFlags.divZero : FFlags := ⟨false, true, false, false, false⟩
/-- The inexact flag alone. -/
def FFlags.inexact : FFlags := ⟨false, false, false, false, true⟩
/-- Overflow: OF and NX (R89). -/
def FFlags.overflow : FFlags := ⟨false, false, true, false, true⟩
/-- Underflow: UF and NX (R89). -/
def FFlags.underflow : FFlags := ⟨false, false, false, true, true⟩
/-- The flag bits of FCSR (R160). -/
def FFlags.toBits (f : FFlags) : Nat := 16 * b2n f.nv + 8 * b2n f.dz + 4 * b2n f.of + 2 * b2n f.uf + b2n f.nx

/-- The value a code of a float format stands for (R83). -/
def decodeF (f : FFmt) (code : Nat) : XR :=
  let fb := f.fbits
  let frac := code % 2 ^ fb
  let ex := (code / 2 ^ fb) % 2 ^ f.ebits
  let neg := decide ((code / 2 ^ (fb + f.ebits)) % 2 = 1)
  let ones := 2 ^ f.ebits - 1
  if ex = ones ∧ f.hasInf = true then
    if frac = 0 then .inf neg else .nan (decide (frac < 2 ^ (fb - 1)))
  else if f = .e4m3 ∧ ex = 15 ∧ frac = 7 then .nan false
  else if ex = 0 then .real neg frac f.minSubExp false
  else .real neg (2 ^ fb + frac) ((ex : Int) - (f.bias : Int) - (fb : Int)) false

/-- The exponent e(x) = floor(log2 |x|) of a non-zero real (R179). -/
def expOf (m : Nat) (e : Int) : Int := (Nat.log2 m : Int) + e

/-- Whether a real is exactly zero. -/
def XR.isZero : XR → Bool
  | .real _ 0 _ false => true
  | _ => false

/-- The sign bit a value carries; NaN has none. -/
def XR.neg : XR → Bool
  | .nan _ => false
  | .inf n => n
  | .real n _ _ _ => n

/-- The value negated. -/
def XR.negate : XR → XR
  | .nan s => .nan s
  | .inf n => .inf (!n)
  | .real n m e s => .real (!n) m e s

/-- Round the magnitude m·2^e (sticky) to a multiple of 2^w: the multiple, and whether it differs from the magnitude
(R88). The low bits of m below weight w decide; w is at most one below the top bit or above it. -/
def roundMag (mode : RMode) (neg : Bool) (m : Nat) (e : Int) (sticky : Bool) (w : Int) : Nat × Bool :=
  let d := w - e
  if d ≤ 0 then (m <<< d.natAbs, sticky)
  else
    let k := d.natAbs
    let q := m >>> k
    let rest := m % 2 ^ k
    let half := 2 ^ (k - 1)
    let inexact := decide (rest ≠ 0) || sticky
    let above := decide (half < rest) || (decide (rest = half) && sticky)
    let tie := decide (rest = half) && !sticky
    let up :=
      match mode with
      | .rne => above || (tie && decide (q % 2 = 1))
      | .rmm => above || tie
      | .rtz => false
      | .rdn => inexact && neg
      | .rup => inexact && !neg
    (if up then q + 1 else q, inexact)

/-- The code with its sign bit. -/
def FFmt.withSign (f : FFmt) (neg : Bool) (code : Nat) : Nat := if neg then code + 2 ^ (f.ebits + f.fbits) else code

/-- ROUND on a real (R89). -/
def roundReal (f : FFmt) (mode : RMode) (neg : Bool) (m : Nat) (e : Int) (sticky : Bool) : Nat × FFlags :=
  if m = 0 ∧ sticky = false then (f.withSign neg 0, .none)
  else
    let lead := expOf m e
    let q := f.prec
    let wy := lead - (q : Int) + 1
    let (y, yInexact) := roundMag mode neg m e sticky wy
    -- the rounded significand, renormalised when it carried out
    let (ys, yl) := if y = 2 ^ q then (2 ^ (q - 1), lead + 1) else (y, lead)
    let ycode := (yl + (f.bias : Int)).toNat * 2 ^ f.fbits + (ys - 2 ^ f.fbits)
    if decide (f.emin ≤ yl) && decide (f.maxCode < ycode) then
      let big := f.withSign neg f.maxCode
      let infc := f.withSign neg f.infCode
      if f.saturates then (big, .overflow)
      else
        match mode with
        | .rne => (infc, .overflow)
        | .rmm => (infc, .overflow)
        | .rtz => (big, .overflow)
        | .rdn => (if neg then infc else big, .overflow)
        | .rup => (if neg then big else infc, .overflow)
    else if lead < f.emin then
      let (z, zInexact) := roundMag mode neg m e sticky f.minSubExp
      (f.withSign neg z, if zInexact then .underflow else .none)
    else (f.withSign neg ycode, if yInexact then .inexact else .none)

/-- ROUND(x, fmt, mode) (R89). -/
def roundX (f : FFmt) (mode : RMode) (x : XR) : Nat × FFlags :=
  match x with
  | .nan _ => if f = .e2m1 then (0, .invalid) else (f.nanCode, .none)
  | .inf neg => if f.hasInf then (f.withSign neg f.infCode, .none) else (f.withSign neg f.maxCode, .overflow)
  | .real neg m e s => roundReal f mode neg m e s

/-- Compare two magnitudes m·2^e exactly. -/
def cmpMag (m1 : Nat) (e1 : Int) (m2 : Nat) (e2 : Int) : Ordering :=
  let e := min e1 e2
  compare (m1 <<< (e1 - e).natAbs) (m2 <<< (e2 - e).natAbs)

/-- A real as a signed significand at a common exponent. -/
def signedAt (neg : Bool) (m : Nat) (e e0 : Int) : Int :=
  let v : Int := ((m <<< (e - e0).natAbs : Nat) : Int)
  if neg then -v else v

/-- The exact sum of two reals (no sticky part), with the sign of an exact zero (R91): that of both addends when they
agree, else + in every mode but RDN. -/
def addReal (mode : RMode) (n1 : Bool) (m1 : Nat) (e1 : Int) (n2 : Bool) (m2 : Nat) (e2 : Int) : XR :=
  let e := min e1 e2
  let s := signedAt n1 m1 e1 e + signedAt n2 m2 e2 e
  if s = 0 then .real (if n1 = n2 then n1 else decide (mode = .rdn)) 0 0 false
  else .real (decide (s < 0)) s.natAbs e false

/-- Addition with its invalid cases (R91, R169). -/
def xadd (mode : RMode) (a b : XR) : XR × FFlags :=
  match a, b with
  | .nan s1, .nan s2 => (.nan false, if s1 || s2 then .invalid else .none)
  | .nan s, _ => (.nan false, if s then .invalid else .none)
  | _, .nan s => (.nan false, if s then .invalid else .none)
  | .inf n1, .inf n2 => if n1 = n2 then (.inf n1, .none) else (.nan false, .invalid)
  | .inf n, _ => (.inf n, .none)
  | _, .inf n => (.inf n, .none)
  | .real n1 m1 e1 _, .real n2 m2 e2 _ => (addReal mode n1 m1 e1 n2 m2 e2, .none)

/-- Multiplication with its invalid cases (R91, R169). -/
def xmul (a b : XR) : XR × FFlags :=
  match a, b with
  | .nan s1, .nan s2 => (.nan false, if s1 || s2 then .invalid else .none)
  | .nan s, _ => (.nan false, if s then .invalid else .none)
  | _, .nan s => (.nan false, if s then .invalid else .none)
  | .inf n1, .inf n2 => (.inf (n1 != n2), .none)
  | .inf n1, .real n2 m _ _ => if m = 0 then (.nan false, .invalid) else (.inf (n1 != n2), .none)
  | .real n1 m _ _, .inf n2 => if m = 0 then (.nan false, .invalid) else (.inf (n1 != n2), .none)
  | .real n1 m1 e1 _, .real n2 m2 e2 _ => (.real (n1 != n2) (m1 * m2) (e1 + e2) false, .none)

/-- Division with its invalid and divide-by-zero cases (R91, R169); the quotient has at least 40 bits. -/
def xdiv (a b : XR) : XR × FFlags :=
  match a, b with
  | .nan s1, .nan s2 => (.nan false, if s1 || s2 then .invalid else .none)
  | .nan s, _ => (.nan false, if s then .invalid else .none)
  | _, .nan s => (.nan false, if s then .invalid else .none)
  | .inf _, .inf _ => (.nan false, .invalid)
  | .inf n1, .real n2 _ _ _ => (.inf (n1 != n2), .none)
  | .real n1 _ _ _, .inf n2 => (.real (n1 != n2) 0 0 false, .none)
  | .real n1 m1 e1 _, .real n2 m2 e2 _ =>
    if m2 = 0 then
      if m1 = 0 then (.nan false, .invalid) else (.inf (n1 != n2), .divZero)
    else if m1 = 0 then (.real (n1 != n2) 0 0 false, .none)
    else
      let k := m1 <<< 64
      (.real (n1 != n2) (k / m2) (e1 - e2 - 64) (decide (k % m2 ≠ 0)), .none)

/-- The integer square root of v, found bit by bit from bit n-1 down, starting from r. -/
def isqrtGo : Nat → Nat → Nat → Nat
  | 0, _, r => r
  | n + 1, v, r => let t := r + 2 ^ n; if t * t ≤ v then isqrtGo n v t else isqrtGo n v r

/-- The integer square root. -/
def isqrt (v : Nat) : Nat := isqrtGo (Nat.log2 v / 2 + 1) v 0

/-- Square root with its invalid cases (R91, R169); the root has at least 32 bits. -/
def xsqrt (a : XR) : XR × FFlags :=
  match a with
  | .nan s => (.nan false, if s then .invalid else .none)
  | .inf n => if n then (.nan false, .invalid) else (.inf false, .none)
  | .real n m e _ =>
    if m = 0 then (.real n 0 0 false, .none)
    else if n then (.nan false, .invalid)
    else
      let m' := if e % 2 = 0 then m <<< 64 else m <<< 65
      let e' := if e % 2 = 0 then e - 64 else e - 65
      let r := isqrt m'
      (.real false r (e' / 2) (decide (r * r ≠ m')), .none)

/-- a × b + c with one exact result (R164): 0 × ∞ is invalid even when c is a quiet NaN. -/
def xfma (mode : RMode) (a b c : XR) : XR × FFlags :=
  let (p, fp) := xmul a b
  let (s, fs) := xadd mode p c
  (s, fp.or fs)

/-- Whether a value is a signalling NaN. -/
def XR.signalling : XR → Bool
  | .nan s => s
  | _ => false

/-- Whether a value is a NaN. -/
def XR.isNan : XR → Bool
  | .nan _ => true
  | _ => false

/-- Whether a value is infinite. -/
def XR.isInf : XR → Bool
  | .inf _ => true
  | _ => false

/-- Strictly less, for values that are no NaN and have no sticky part; -0 equals +0 (R166). -/
def xlt (a b : XR) : Bool :=
  match a, b with
  | .nan _, _ => false
  | _, .nan _ => false
  | .inf n1, .inf n2 => n1 && !n2
  | .inf n1, .real .. => n1
  | .real .., .inf n2 => !n2
  | .real n1 m1 e1 _, .real n2 m2 e2 _ =>
    let e := min e1 e2
    decide (signedAt n1 m1 e1 e < signedAt n2 m2 e2 e)

/-- Equal as values; -0 equals +0 (R166). -/
def xeq (a b : XR) : Bool :=
  match a, b with
  | .nan _, _ => false
  | _, .nan _ => false
  | .inf n1, .inf n2 => n1 == n2
  | .inf _, .real .. => false
  | .real .., .inf _ => false
  | .real n1 m1 e1 _, .real n2 m2 e2 _ =>
    let e := min e1 e2
    decide (signedAt n1 m1 e1 e = signedAt n2 m2 e2 e)

/-- The order of fmin and fmax: -0 is below +0 (R165). -/
def xltZ (a b : XR) : Bool :=
  xlt a b || (a.isZero && b.isZero && a.neg && !b.neg)

/-- Which operand fmin or fmax returns: the first, the second, or neither, for the canonical NaN (R165). -/
inductive Pick | first | second | neither
  deriving DecidableEq, Repr

/-- The choice of fmin (isMax false) and fmax (R165). Of two operands of the same value, which may differ in their tags, the
spec does not say which is returned: the first (DESIGN CHOICE, assumption 83). -/
def pickMinMax (isMax : Bool) (a b : XR) : Pick :=
  match a.isNan, b.isNan with
  | true, true => .neither
  | true, false => .second
  | false, true => .first
  | false, false => if isMax then (if xltZ a b then .second else .first) else (if xltZ b a then .second else .first)

/-- Round a real to an integer in a mode: the signed integer, and whether it differs (R93). -/
def roundInt (mode : RMode) (neg : Bool) (m : Nat) (e : Int) (sticky : Bool) : Int × Bool :=
  let (r, ix) := roundMag mode neg m e sticky 0
  (if neg then -(r : Int) else (r : Int), ix)

/-- Float to integer in the range lo to hi (R93). -/
def xToInt (mode : RMode) (lo hi : Int) (x : XR) : Int × FFlags :=
  match x with
  | .nan _ => (0, .invalid)
  | .inf n => (if n then lo else hi, .invalid)
  | .real n m e s =>
    let (r, ix) := roundInt mode n m e s
    if r < lo then (lo, .invalid) else if hi < r then (hi, .invalid) else (r, if ix then .inexact else .none)

/-- An integer as an exact real (R94). -/
def intToX (v : Int) : XR := .real (decide (v < 0)) v.natAbs 0 false

/-- A value multiplied by 2^k exactly (R95). -/
def xscale (x : XR) (k : Int) : XR :=
  match x with
  | .real n m e s => .real n m (e + k) s
  | y => y

/-- Float to float (R92): NV on a signalling source. -/
def convFF (src dst : FFmt) (mode : RMode) (code : Nat) : Nat × FFlags :=
  let x := decodeF src code
  let (r, f) := roundX dst mode x
  (r, if x.signalling then f.or .invalid else f)

/-- A value widened exactly to FP32: the code (R101, R107, R109). -/
def widen32 (src : FFmt) (code : Nat) : Nat := (convFF src .fp32 .rne code).1

/-! Significance tags (R179-R182). -/

/-- The exponent of the weight of the lowest trusted bit, L(x) = 2^(e(x) - t + 1) (R179). -/
def lowWeight (m : Nat) (e : Int) (t : Nat) : Int := expOf m e - (t : Int) + 1

/-- Clamp to 0 .. p. -/
def clampTag (t : Int) (p : Nat) : Nat := min t.toNat p

/-- What a rounded operation needs to know of an addend for its tag: its exact value and its tag. -/
structure TagIn where
  x : XR
  t : Nat
  deriving DecidableEq, Repr

/-- Adjustments for a rounded result (R180): the subnormal cap, and 0 when a non-zero exact result rounds to 0. -/
def adjustTag (f : FFmt) (exactZero : Bool) (code : Nat) (rule : Nat) : Nat :=
  match decodeF f code with
  | .real _ m e _ =>
    if m = 0 then (if exactZero then rule else 0)
    else if expOf m e < f.emin then min rule (expOf m e - f.minSubExp + 1).toNat
    else rule
  | _ => rule

/-- The first two rows of R180: 0 for an infinite or NaN result, 0 when a floating operand has tag 0. -/
def specialTag (f : FFmt) (code : Nat) (ts : List Nat) : Bool :=
  match decodeF f code with
  | .real .. => ts.any (fun t => decide (t = 0))
  | _ => true

/-- TAG_ADD (R181) for exact addends a and b and a rounded result code of format f. -/
def tagAddRule (f : FFmt) (a b : TagIn) (code : Nat) : Nat :=
  match a.x, b.x, decodeF f code with
  | .real _ ma ea _, .real _ mb eb _, .real _ mr er _ =>
    if ma = 0 ∧ mb = 0 then min (min a.t b.t) f.prec
    else
      let lr := if ma = 0 then lowWeight mb eb b.t
                else if mb = 0 then lowWeight ma ea a.t
                else max (lowWeight ma ea a.t) (lowWeight mb eb b.t)
      clampTag (expOf mr er - lr + 1) f.prec
  | _, _, _ => 0

/-- The tag of a sum (R180): exact is the exact sum of a and b. A product addend has the tag of its factors. -/
def tagOfAdd (f : FFmt) (a b : TagIn) (ts : List Nat) (exact : XR) (code : Nat) : Nat :=
  if specialTag f code ts then 0
  else if exact.isZero && !(a.x.isZero && b.x.isZero) then 0
  else adjustTag f exact.isZero code
    (match decodeF f code with
     | .real _ 0 _ _ => if exact.isZero then min (min a.t b.t) f.prec else 0
     | _ => tagAddRule f a b code)

/-- The tag of a result with a fixed rule tag: multiply, divide, square root, conversion (R180). -/
def tagOfRule (f : FFmt) (rule : Nat) (ts : List Nat) (exact : XR) (code : Nat) : Nat :=
  if specialTag f code ts then 0 else adjustTag f exact.isZero code (min rule f.prec)

end Sys2Proof.Machine
end

