-- ==== Sys2Proof/WellFormed.lean ====
section
/-! DEFINITION. Which instructions are well formed: the field limits of the encoding chapter, and which hart class may
execute which form. -/

namespace Sys2Proof

/-- A uniform specifier outside the data positions: no queue and no port (R47). -/
def plainReg (r : Reg) : Bool := decide (r.toNat < 24)

/-- A vector specifier outside the data positions: the index of vldx and vstx (R47). -/
def plainVec (r : Reg) : Bool := decide (r.toNat < 28)

/-- A mask that may be written: m0 may not (R54, R55). -/
def writableMask (m : MReg) : Bool := decide (m ≠ 0#3)

/-- Scope codes 0-5 (R58). -/
def legalScope (s : ScopeCode) : Bool := decide (s.toNat ≤ 5)

/-- Rounding selections 0-5 (R53). -/
def legalRm (rm : BitVec 3) : Bool := decide (rm.toNat ≤ 5)

/-- The FCVT type pairs: codes 0-6, not equal, at least one float type (R53). -/
def legalFcvt (dt st : BitVec 3) : Bool :=
  decide (dt.toNat ≤ 6) && decide (st.toNat ≤ 6) && decide (dt ≠ st) && (decide (dt.toNat ≤ 2) || decide (st.toNat ≤ 2))

/-- Width in bits of an element of the vcvt source codes 0-6: f32, f16, bf16, i32, i16, i8, ui8 (R54, R173). -/
def vcvtSrcWidth (st : BitVec 3) : Nat :=
  match st.toNat with
  | 0 => 32
  | 1 => 16
  | 2 => 16
  | 3 => 32
  | 4 => 16
  | _ => 8

/-- The legal sel of a conversion between element widths (R173). -/
def legalSel (srcW dstW : Nat) (sel : BitVec 2) : Bool :=
  if srcW = dstW then decide (sel.toNat = 0)
  else if srcW < dstW then decide (sel.toNat < dstW / srcW)
  else decide (sel.toNat < srcW / dstW)

/-- Width in bits of an element of a vector float major. -/
def FltW.bits : FltW → Nat
  | .f32 => 32
  | .f16 => 16
  | .bf16 => 16

/-- Width in bits of an element of a vector integer major. -/
def IntW.bits : IntW → Nat
  | .i32 => 32
  | .i16 => 16
  | .i8 => 8

/-- The source code that equals a float major's own type (R173). -/
def FltW.srcCode : FltW → Nat
  | .f32 => 0
  | .f16 => 1
  | .bf16 => 2

/-- vcvt in a float major: S of 0-6 and not the major's type, sel in range (R54, R173). -/
def legalVcvtF (e : FltW) (sel : BitVec 2) (st : BitVec 3) : Bool :=
  decide (st.toNat ≤ 6) && decide (st.toNat ≠ e.srcCode) && legalSel (vcvtSrcWidth st) e.bits sel

/-- vcvt in an integer major: S of 0-2, sel in range (R54, R173). -/
def legalVcvtI (e : IntW) (sel : BitVec 2) (st : BitVec 3) : Bool :=
  decide (st.toNat ≤ 2) && legalSel (vcvtSrcWidth st) e.bits sel

/-- The CSR numbers of compute harts (R130, R278). -/
def csrOfCompute (n : Nat) : Bool :=
  decide (n ≤ 0x005) || (decide (0x010 ≤ n) && decide (n ≤ 0x013)) || (decide (0x020 ≤ n) && decide (n ≤ 0x022)) ||
  (decide (0x030 ≤ n) && decide (n ≤ 0x037)) || (decide (0x040 ≤ n) && decide (n ≤ 0x042)) ||
  decide (n = 0x050) || decide (n = 0x051) || (decide (0x060 ≤ n) && decide (n ≤ 0x074))

/-- The CSR numbers of streamer harts (R235). -/
def csrOfStreamer (n : Nat) : Bool :=
  decide (n ≤ 0x005) || decide (n = 0x013) || decide (n = 0x022) || (decide (0x040 ≤ n) && decide (n ≤ 0x042)) ||
  decide (n = 0x050) || decide (n = 0x051) || (decide (0x080 ≤ n) && decide (n ≤ 0x082))

/-- A CSR number assigned in some hart class (R60). -/
def csrAssigned (n : Nat) : Bool := csrOfCompute n || csrOfStreamer n

/-- A port code 0-15 (R71); 16-30 are reserved and 31 is none. -/
def namedPort (p : BitVec 5) : Bool := decide (p.toNat ≤ 15)

/-- A channel port, 0-7 (R71). -/
def channelPort (p : BitVec 5) : Bool := decide (p.toNat ≤ 7)

/-- The flit kinds a switch word may name: 0-3, 6 and 7 (R281, R284, R285). -/
def flitKind (k : BitVec 3) : Bool := decide (k ≠ 4#3) && decide (k ≠ 5#3)

/-- The subtype of an emit (R284). -/
def emitSub (kind : BitVec 3) (sub : BitVec 6) : Bool :=
  if kind = 6#3 then decide (1 ≤ sub.toNat) && decide (sub.toNat ≤ 6) else decide (sub = 0#6)

/-- The subtype of a waittok (R72, R285). -/
def waitSub (kind : BitVec 3) (sub : BitVec 6) : Bool :=
  if kind = 6#3 then decide (1 ≤ sub.toNat) && (decide (sub.toNat ≤ 6) || decide (sub.toNat = 0x3F)) else decide (sub = 0#6)

/-- The input port of a route field (R72). -/
def routeIn (r : BitVec 10) : BitVec 5 := r.extractLsb' 5 5
/-- The output port of a route field (R72). -/
def routeOut (r : BitVec 10) : BitVec 5 := r.extractLsb' 0 5

/-- One used route: named ports, not both local (R72). -/
def legalRoute (r : BitVec 10) : Bool :=
  namedPort (routeIn r) && namedPort (routeOut r) && (channelPort (routeIn r) || channelPort (routeOut r))

/-- The routes 0 to n are legal with different outputs (R72, R287), and the route fields above n are zero: R72 lists these fields and
does not say what an unused one holds, and its worked word has zeros there (DEDUCED, assumption 82). -/
def legalRoutes (n : BitVec 2) (r0 r1 r2 r3 : BitVec 10) : Bool :=
  legalRoute r0 &&
  (if n.toNat < 1 then decide (r1 = 0#10) else legalRoute r1 && decide (routeOut r1 ≠ routeOut r0)) &&
  (if n.toNat < 2 then decide (r2 = 0#10)
   else legalRoute r2 && decide (routeOut r2 ≠ routeOut r0) && decide (routeOut r2 ≠ routeOut r1)) &&
  (if n.toNat < 3 then decide (r3 = 0#10)
   else legalRoute r3 && decide (routeOut r3 ≠ routeOut r0) && decide (routeOut r3 ≠ routeOut r1) &&
     decide (routeOut r3 ≠ routeOut r2))

/-- The checks of R46, R47, R50-R66, R72 and R287 on the fields of an instruction that do not depend on which hart
or cell runs it. An instruction that has no encoding is well formed. Two readings are DEDUCED (assumption 82): the unused route fields
of R72 are zero, and LIH and ADDPC count among the immediate arithmetic majors of R47. -/
def Instr.wf : Instr → Bool
  | .add _ _ _ _ => true
  | .sub _ _ _ _ => true
  | .and _ _ _ _ => true
  | .or _ _ _ _ => true
  | .xor _ _ _ _ => true
  | .sll _ _ _ _ => true
  | .srl _ _ _ _ => true
  | .sra _ _ _ _ => true
  | .slt _ _ _ _ => true
  | .sltu _ _ _ _ => true
  | .min _ _ _ _ => true
  | .max _ _ _ _ => true
  | .minu _ _ _ _ => true
  | .maxu _ _ _ _ => true
  | .mul _ _ _ _ => true
  | .mulh _ _ _ _ => true
  | .mulhu _ _ _ _ => true
  | .div _ _ _ _ => true
  | .divu _ _ _ _ => true
  | .rem _ _ _ _ => true
  | .remu _ _ _ _ => true
  | .clz _ _ _ => true
  | .ctz _ _ _ => true
  | .popc _ _ _ => true
  | .lea _ _ _ _ _ => true
  | .pset _ _ _ _ _ => true
  | .addi _ _ _ _ => true
  | .andi _ _ _ _ => true
  | .ori _ _ _ _ => true
  | .xori _ _ _ _ => true
  | .slti _ _ _ _ => true
  | .slli _ _ _ _ => true
  | .srli _ _ _ _ => true
  | .srai _ _ _ _ => true
  -- LIH and ADDPC count among the immediate arithmetic majors of R47, so that rd may be a specifier (DEDUCED; assumption 82)
  | .lih _ _ _ => true
  | .addpc _ _ _ => true
  | .jalr _ d a _ => plainReg d && plainReg a
  | .j _ _ => true
  | .jal _ _ => true
  | .beq _ _ _ _ => true
  | .bne _ _ _ _ => true
  | .blt _ _ _ _ => true
  | .bge _ _ _ _ => true
  | .bltu _ _ _ _ => true
  | .bgeu _ _ _ _ => true
  | .bp _ _ _ => true
  | .bany _ _ _ => true
  | .ball _ _ _ => true
  | .bnone _ _ _ => true
  | .btsb _ a thr _ => plainReg a && decide (thr.toNat ≤ 24)
  | .fadd _ rm _ _ _ => legalRm rm
  | .fsub _ rm _ _ _ => legalRm rm
  | .fmul _ rm _ _ _ => legalRm rm
  | .fdiv _ rm _ _ _ => legalRm rm
  | .fsqrt _ rm _ _ => legalRm rm
  | .fmin _ _ _ _ => true
  | .fmax _ _ _ _ => true
  | .feq _ _ _ _ => true
  | .flt _ _ _ _ => true
  | .fle _ _ _ _ => true
  | .fclass _ _ _ => true
  | .fcvt _ dt rm st _ _ => legalRm rm && legalFcvt dt st
  | .fma _ _ _ _ _ => true
  | .fnma _ _ _ _ _ => true
  | .vadd _ _ _ _ _ _ => true
  | .vsub _ _ _ _ _ _ => true
  | .vmul _ _ _ _ _ _ => true
  | .vmulh _ _ _ _ _ _ => true
  | .vmin _ _ _ _ _ _ => true
  | .vmax _ _ _ _ _ _ => true
  | .vand _ _ _ _ _ _ => true
  | .vor _ _ _ _ _ _ => true
  | .vxor _ _ _ _ _ _ => true
  | .vsll _ _ _ _ _ _ => true
  | .vsrl _ _ _ _ _ _ => true
  | .vsra _ _ _ _ _ _ => true
  | .vcmp _ _ _ _ d _ _ => writableMask d
  | .vsel _ _ _ _ _ _ => true
  | .vredAdd _ _ _ _ _ => true
  | .vredMin _ _ _ _ _ => true
  | .vredMax _ _ _ _ _ => true
  | .vscanAdd _ _ _ _ _ => true
  | .vdot4 _ _ _ _ _ => true
  | .vcvtI _ e _ _ _ sel st => legalVcvtI e sel st
  | .vfadd _ _ _ _ _ _ => true
  | .vfsub _ _ _ _ _ _ => true
  | .vfmul _ _ _ _ _ _ => true
  | .vfdiv _ _ _ _ _ _ => true
  | .vfmin _ _ _ _ _ _ => true
  | .vfmax _ _ _ _ _ _ => true
  | .vfsqrt _ _ _ _ _ => true
  | .vfcmp _ _ _ _ d _ _ => writableMask d
  | .vcvt _ e _ _ _ sel st => legalVcvtF e sel st
  | .vredFadd _ _ _ _ _ => true
  | .vredFmin _ _ _ _ _ => true
  | .vredFmax _ _ _ _ _ => true
  | .vscanFadd _ _ _ _ _ => true
  | .vexp2 _ _ _ _ => true
  | .vlog2 _ _ _ _ => true
  | .vrcp _ _ _ _ => true
  | .vrsq _ _ _ _ => true
  | .vsin _ _ _ _ => true
  | .vcos _ _ _ _ => true
  | .vtsb _ _ _ _ _ => true
  | .vtsblt _ _ _ d _ _ => writableMask d
  | .vsettsb _ _ _ _ _ _ => true
  | .vperm _ _ _ _ _ => true
  | .vslideUp _ _ _ _ _ => true
  | .vslideDn _ _ _ _ _ => true
  | .vexch _ _ _ _ => true
  | .xtov _ _ _ _ => true
  | .vtox _ _ _ _ => true
  | .vtoxa _ _ _ _ => true
  | .mtox _ _ _ => true
  | .xtom _ d _ => writableMask d
  | .mand _ d _ _ => writableMask d
  | .mor _ d _ _ => writableMask d
  | .mxor _ d _ _ => writableMask d
  | .mnot _ d _ => writableMask d
  | .mpop _ _ _ => true
  | .mfirst _ _ _ => true
  | .vportr _ _ _ _ => true
  | .vportw _ _ _ _ => true
  | .vfma _ _ _ _ _ _ _ => true
  | .vfnma _ _ _ _ _ _ _ => true
  | .vclip _ _ _ _ _ _ _ => true
  | .ldB _ _ a _ => plainReg a
  | .ldBu _ _ a _ => plainReg a
  | .ldH _ _ a _ => plainReg a
  | .ldHu _ _ a _ => plainReg a
  | .ldW _ _ a _ => plainReg a
  | .ldWu _ _ a _ => plainReg a
  | .ldD _ _ a _ => plainReg a
  | .stB _ _ a _ => plainReg a
  | .stH _ _ a _ => plainReg a
  | .stW _ _ a _ => plainReg a
  | .stD _ _ a _ => plainReg a
  | .vld _ _ a _ => plainReg a
  | .vst _ _ a _ => plainReg a
  | .ldAcq _ wd _ a sc => plainReg a && legalScope sc && decide (wd.toNat ≤ 6)
  | .stRel _ _ _ a sc => plainReg a && legalScope sc
  | .ldt _ _ a => plainReg a
  | .stt _ _ a => plainReg a
  | .vldx _ _ _ a b => plainReg a && plainVec b
  | .vstx _ _ _ a b => plainReg a && plainVec b
  | .amoadd _ sc _ d a b => legalScope sc && plainReg d && plainReg a && plainReg b
  | .amoand _ sc _ d a b => legalScope sc && plainReg d && plainReg a && plainReg b
  | .amoor _ sc _ d a b => legalScope sc && plainReg d && plainReg a && plainReg b
  | .amoxor _ sc _ d a b => legalScope sc && plainReg d && plainReg a && plainReg b
  | .amomin _ sc _ d a b => legalScope sc && plainReg d && plainReg a && plainReg b
  | .amomax _ sc _ d a b => legalScope sc && plainReg d && plainReg a && plainReg b
  | .amoswap _ sc _ d a b => legalScope sc && plainReg d && plainReg a && plainReg b
  | .amocas _ sc _ d a b => legalScope sc && plainReg d && plainReg a && plainReg b
  | .csrr _ d n => plainReg d && csrAssigned n.toNat
  | .csrw _ a n => plainReg a && csrAssigned n.toNat
  | .csrs _ d a n => plainReg d && plainReg a && csrAssigned n.toNat
  | .csrc _ d a n => plainReg d && plainReg a && csrAssigned n.toNat
  | .fence _ kk sc => legalScope sc && decide (kk ≠ 0#2)
  | .sdrain _ => true
  | .chkerr _ d => plainReg d
  | .chkerrClr _ d => plainReg d
  | .ecall _ => true
  | .ebreak _ => true
  | .tret _ => true
  | .qtest _ _ _ => true
  | .qtok _ d _ => plainReg d
  | .recfg _ a => plainReg a
  | .shadow _ a => plainReg a
  | .join _ a b => plainReg a && plainReg b
  | .leave _ a => plainReg a
  | .gbar _ a => plainReg a
  | .gkill _ a => plainReg a
  | .tspawn _ a b => plainReg a && plainReg b
  | .texit _ => true
  | .evset _ _ => true
  | .evclr _ _ => true
  | .wfe _ _ => true
  | .send _ a b => plainReg a && plainReg b
  | .waitc _ a => plainReg a
  | .tld _ _ a b => plainReg a && plainReg b
  | .tldH _ _ a b => plainReg a && plainReg b
  | .tldHk _ _ a b => plainReg a && plainReg b
  | .tst _ _ a => plainReg a
  | .tzero _ _ => true
  | .mma _ _ _ _ => true
  | .mmaNc _ _ _ _ => true
  | .mmag _ _ _ b => plainReg b
  | .mmagNc _ _ _ b => plainReg b
  | .acz _ _ => true
  | .tcsum _ _ => true
  | .tcchk _ _ _ => true
  | .tbound _ a => plainReg a
  | .acnv _ f _ _ => decide (1 ≤ f.toNat) && decide (f.toNat ≤ 10)
  | .alloc _ d a z => plainReg d && plainReg a && decide (z.toNat ≤ 2)
  | .sealTile _ a => plainReg a
  | .tpdrop _ a b => plainReg a && plainReg b
  | .strm _ a b => plainReg a && plainReg b
  | .spbset _ _ a => plainReg a
  | .swait _ _ => true
  | .spillq _ _ a => plainReg a
  | .kerf _ => true
  | .cMv _ _ => true
  | .cAdd _ _ => true
  | .cSub _ _ => true
  | .cAnd _ _ => true
  | .cOr _ _ => true
  | .cXor _ _ => true
  | .cAddi _ _ => true
  | .cLi _ _ => true
  | .cSlli _ _ => true
  | .cSrli _ _ => true
  | .cSrai _ _ => true
  | .cAndi _ _ => true
  | .cLdd _ _ => true
  | .cStd _ _ => true
  | .cLdw _ _ => true
  | .cStw _ _ => true
  | .cJ _ => true
  | .cBeqz _ _ => true
  | .cBnez _ _ => true
  | .cJr a => plainReg a
  | .cJalr a => plainReg a
  | .cNop => true
  | .cTexit => true
  | .cEbreak => true
  | .cSlt _ _ => true
  | .cSltu _ _ => true
  | .cMul _ _ => true
  | .route n r0 r1 r2 r3 _ => legalRoutes n r0 r1 r2 r3
  | .routec n r0 r1 r2 r3 kind => legalRoutes n r0 r1 r2 r3 && flitKind kind
  | .steer inp out0 out1 ctl _ => channelPort inp && channelPort ctl && decide (inp ≠ ctl) && namedPort out0 && namedPort out1 && decide (out0 ≠ out1)
  | .merge in0 in1 out ctl _ => channelPort in0 && channelPort in1 && channelPort ctl && decide (in0 ≠ in1) && decide (in0 ≠ ctl) && decide (in1 ≠ ctl) && namedPort out
  | .emit out kind _ sb _ => namedPort out && flitKind kind && emitSub kind sb
  | .waittok inp kind sb ld ck _ => channelPort inp && flitKind kind && waitSub kind sb && (decide (ld = 1#1) || decide (ck = 0#2))
  | .loop _ _ => true
  | .bnz _ _ => true
  | .jmp _ => true
  | .halt => true
  | .sfdrop _ => true
  | .sfrpl _ => true
  | .streamAbort _ _ => true
  | .streamResume _ _ => true
  | .tshpWrite _ _ _ => true
  | .switchFlitPass _ _ => true
  | .seamRetryFailure _ _ => true
  | .loadDataReturn _ _ => true
  | .storeTranslationDone _ _ => true
  | .streamElement _ _ => true
  | .streamComplete _ _ => true
  | .ringEos _ _ => true
  | .allocServe _ _ => true
  | .readAdmission _ _ => true
  | .compressTile _ _ => true
  | .expandTile _ _ => true
  | .convert _ _ => true
  | .tldDelivery _ _ => true
  | .nodePass _ => true
  | .nodeRow _ => true
  | .read _ => true
  | .write _ => true
  | .atomic _ => true
  | .readReply _ => true
  | .writeAcknowledgement _ => true
  | .taskRecord _ => true
  | .activeMessage _ => true
  | .inboxAcknowledgement _ => true
  | .poolRequest _ => true
  | .poolReply _ => true
  | .walkRequest _ => true
  | .walkReply _ => true
  | .interrupt _ => true
  | .purge _ => true
  | .purgeAcknowledgement _ => true
  | .copy _ => true
  | .copy2d _ => true
  | .fill _ => true
  | .tcopy _ => true
  | .reduce _ => true
  | .bcast _ => true
  | .dispatch _ => true
  | .ageing _ => true
  | .waveOpen _ => true
  | .kiCut _ => true
  | .releaseCommitTimeout _ => true
  | .kerfPart _ _ => true
  | .waveComplete _ => true
  | .rollbackDrainTimeout _ => true
  | .rollbackRestore _ => true
  | .cfgParity _ _ => true
  | .configLoadComplete _ => true
  | .shadowFetchDone _ => true
  | .cellSwap _ => true
  | .drainComplete _ => true
  | .preemptTimeout _ => true
  | .stallWatchdog _ => true
  | .hang _ => true
  | .replyTimeout _ => true
  | .inboxWrite _ _ _ => true
  | .openRegion _ _ => true
  | .map _ _ => true
  | .unmap _ _ => true
  | .loadcfg _ _ => true
  | .spawn _ _ => true
  | .signal _ _ => true
  | .preempt _ _ => true
  | .resume _ _ => true
  | .kill _ _ => true
  | .query _ _ => true
  | .attest _ _ => true
  | .fwupd _ _ => true
  | .coldReset => true
  | .pfFunctionLevelReset => true
  | .vfReset _ => true
  | .thermalTrip => true
  | .throttle _ _ => true
  | .plimitWrite _ => true
  | .vfrectWrite _ _ => true
  | .mgmtRegisterWrite _ _ _ => true
  | .scarfLinkDown _ => true
  | .scarfDeliveryFailure _ => true
  | .illegal _ => true
  | .fetchPage _ => true
  | .debuggerHalt _ _ => true

/-- The forms that a streamer hart (IN, OUT, MC, SQ) may execute: the majors and forms of R49, R52, R58, R61 and R62,
with no specifier of 24 or above in any position (R47), and the CSRs of R235. -/
def Instr.inStreamer : Instr → Bool
  | .add _ d a b => plainReg d && plainReg a && plainReg b
  | .sub _ d a b => plainReg d && plainReg a && plainReg b
  | .and _ d a b => plainReg d && plainReg a && plainReg b
  | .or _ d a b => plainReg d && plainReg a && plainReg b
  | .xor _ d a b => plainReg d && plainReg a && plainReg b
  | .sll _ d a b => plainReg d && plainReg a && plainReg b
  | .srl _ d a b => plainReg d && plainReg a && plainReg b
  | .sra _ d a b => plainReg d && plainReg a && plainReg b
  | .slt _ d a b => plainReg d && plainReg a && plainReg b
  | .sltu _ d a b => plainReg d && plainReg a && plainReg b
  | .min _ d a b => plainReg d && plainReg a && plainReg b
  | .max _ d a b => plainReg d && plainReg a && plainReg b
  | .minu _ d a b => plainReg d && plainReg a && plainReg b
  | .maxu _ d a b => plainReg d && plainReg a && plainReg b
  | .mul _ d a b => plainReg d && plainReg a && plainReg b
  | .mulh _ d a b => plainReg d && plainReg a && plainReg b
  | .mulhu _ d a b => plainReg d && plainReg a && plainReg b
  | .div _ d a b => plainReg d && plainReg a && plainReg b
  | .divu _ d a b => plainReg d && plainReg a && plainReg b
  | .rem _ d a b => plainReg d && plainReg a && plainReg b
  | .remu _ d a b => plainReg d && plainReg a && plainReg b
  | .clz _ d a => plainReg d && plainReg a
  | .ctz _ d a => plainReg d && plainReg a
  | .popc _ d a => plainReg d && plainReg a
  | .lea _ _ d a b => plainReg d && plainReg a && plainReg b
  | .pset _ _ _ a b => plainReg a && plainReg b
  | .addi _ d a _ => plainReg d && plainReg a
  | .andi _ d a _ => plainReg d && plainReg a
  | .ori _ d a _ => plainReg d && plainReg a
  | .xori _ d a _ => plainReg d && plainReg a
  | .slti _ d a _ => plainReg d && plainReg a
  | .slli _ d a _ => plainReg d && plainReg a
  | .srli _ d a _ => plainReg d && plainReg a
  | .srai _ d a _ => plainReg d && plainReg a
  | .lih _ d _ => plainReg d
  | .addpc _ d _ => plainReg d
  | .jalr _ _ _ _ => true
  | .j _ _ => true
  | .jal _ _ => true
  | .beq _ a b _ => plainReg a && plainReg b
  | .bne _ a b _ => plainReg a && plainReg b
  | .blt _ a b _ => plainReg a && plainReg b
  | .bge _ a b _ => plainReg a && plainReg b
  | .bltu _ a b _ => plainReg a && plainReg b
  | .bgeu _ a b _ => plainReg a && plainReg b
  | .bp _ _ _ => true
  | .bany _ _ _ => false
  | .ball _ _ _ => false
  | .bnone _ _ _ => false
  | .btsb _ _ _ _ => false
  | .fadd _ _ _ _ _ => false
  | .fsub _ _ _ _ _ => false
  | .fmul _ _ _ _ _ => false
  | .fdiv _ _ _ _ _ => false
  | .fsqrt _ _ _ _ => false
  | .fmin _ _ _ _ => false
  | .fmax _ _ _ _ => false
  | .feq _ _ _ _ => false
  | .flt _ _ _ _ => false
  | .fle _ _ _ _ => false
  | .fclass _ _ _ => false
  | .fcvt _ _ _ _ _ _ => false
  | .fma _ _ _ _ _ => false
  | .fnma _ _ _ _ _ => false
  | .vadd _ _ _ _ _ _ => false
  | .vsub _ _ _ _ _ _ => false
  | .vmul _ _ _ _ _ _ => false
  | .vmulh _ _ _ _ _ _ => false
  | .vmin _ _ _ _ _ _ => false
  | .vmax _ _ _ _ _ _ => false
  | .vand _ _ _ _ _ _ => false
  | .vor _ _ _ _ _ _ => false
  | .vxor _ _ _ _ _ _ => false
  | .vsll _ _ _ _ _ _ => false
  | .vsrl _ _ _ _ _ _ => false
  | .vsra _ _ _ _ _ _ => false
  | .vcmp _ _ _ _ _ _ _ => false
  | .vsel _ _ _ _ _ _ => false
  | .vredAdd _ _ _ _ _ => false
  | .vredMin _ _ _ _ _ => false
  | .vredMax _ _ _ _ _ => false
  | .vscanAdd _ _ _ _ _ => false
  | .vdot4 _ _ _ _ _ => false
  | .vcvtI _ _ _ _ _ _ _ => false
  | .vfadd _ _ _ _ _ _ => false
  | .vfsub _ _ _ _ _ _ => false
  | .vfmul _ _ _ _ _ _ => false
  | .vfdiv _ _ _ _ _ _ => false
  | .vfmin _ _ _ _ _ _ => false
  | .vfmax _ _ _ _ _ _ => false
  | .vfsqrt _ _ _ _ _ => false
  | .vfcmp _ _ _ _ _ _ _ => false
  | .vcvt _ _ _ _ _ _ _ => false
  | .vredFadd _ _ _ _ _ => false
  | .vredFmin _ _ _ _ _ => false
  | .vredFmax _ _ _ _ _ => false
  | .vscanFadd _ _ _ _ _ => false
  | .vexp2 _ _ _ _ => false
  | .vlog2 _ _ _ _ => false
  | .vrcp _ _ _ _ => false
  | .vrsq _ _ _ _ => false
  | .vsin _ _ _ _ => false
  | .vcos _ _ _ _ => false
  | .vtsb _ _ _ _ _ => false
  | .vtsblt _ _ _ _ _ _ => false
  | .vsettsb _ _ _ _ _ _ => false
  | .vperm _ _ _ _ _ => false
  | .vslideUp _ _ _ _ _ => false
  | .vslideDn _ _ _ _ _ => false
  | .vexch _ _ _ _ => false
  | .xtov _ _ _ _ => false
  | .vtox _ _ _ _ => false
  | .vtoxa _ _ _ _ => false
  | .mtox _ _ _ => false
  | .xtom _ _ _ => false
  | .mand _ _ _ _ => false
  | .mor _ _ _ _ => false
  | .mxor _ _ _ _ => false
  | .mnot _ _ _ => false
  | .mpop _ _ _ => false
  | .mfirst _ _ _ => false
  | .vportr _ _ _ _ => false
  | .vportw _ _ _ _ => false
  | .vfma _ _ _ _ _ _ _ => false
  | .vfnma _ _ _ _ _ _ _ => false
  | .vclip _ _ _ _ _ _ _ => false
  | .ldB _ d _ _ => plainReg d
  | .ldBu _ d _ _ => plainReg d
  | .ldH _ d _ _ => plainReg d
  | .ldHu _ d _ _ => plainReg d
  | .ldW _ d _ _ => plainReg d
  | .ldWu _ d _ _ => plainReg d
  | .ldD _ d _ _ => plainReg d
  | .stB _ b _ _ => plainReg b
  | .stH _ b _ _ => plainReg b
  | .stW _ b _ _ => plainReg b
  | .stD _ b _ _ => plainReg b
  | .vld _ _ _ _ => false
  | .vst _ _ _ _ => false
  | .ldAcq _ _ d _ _ => plainReg d
  | .stRel _ _ b _ _ => plainReg b
  | .ldt _ _ _ => false
  | .stt _ _ _ => false
  | .vldx _ _ _ _ _ => false
  | .vstx _ _ _ _ _ => false
  | .amoadd _ _ _ _ _ _ => true
  | .amoand _ _ _ _ _ _ => true
  | .amoor _ _ _ _ _ _ => true
  | .amoxor _ _ _ _ _ _ => true
  | .amomin _ _ _ _ _ _ => true
  | .amomax _ _ _ _ _ _ => true
  | .amoswap _ _ _ _ _ _ => true
  | .amocas _ _ _ _ _ _ => true
  | .csrr _ _ n => csrOfStreamer n.toNat
  | .csrw _ _ n => csrOfStreamer n.toNat
  | .csrs _ _ _ n => csrOfStreamer n.toNat
  | .csrc _ _ _ n => csrOfStreamer n.toNat
  | .fence _ _ _ => true
  | .sdrain _ => true
  | .chkerr _ _ => true
  | .chkerrClr _ _ => true
  | .ecall _ => true
  | .ebreak _ => true
  | .tret _ => true
  | .qtest _ _ _ => false
  | .qtok _ _ _ => false
  | .recfg _ _ => true
  | .shadow _ _ => true
  | .join _ _ _ => false
  | .leave _ _ => false
  | .gbar _ _ => false
  | .gkill _ _ => false
  | .tspawn _ _ _ => true
  | .texit _ => true
  | .evset _ _ => true
  | .evclr _ _ => true
  | .wfe _ _ => true
  | .send _ _ _ => true
  | .waitc _ _ => true
  | .tld _ _ _ _ => false
  | .tldH _ _ _ _ => false
  | .tldHk _ _ _ _ => false
  | .tst _ _ _ => false
  | .tzero _ _ => false
  | .mma _ _ _ _ => false
  | .mmaNc _ _ _ _ => false
  | .mmag _ _ _ _ => false
  | .mmagNc _ _ _ _ => false
  | .acz _ _ => false
  | .tcsum _ _ => false
  | .tcchk _ _ _ => false
  | .tbound _ _ => false
  | .acnv _ _ _ _ => false
  | .alloc _ _ _ _ => true
  | .sealTile _ _ => true
  | .tpdrop _ _ _ => true
  | .strm _ _ _ => true
  | .spbset _ _ _ => true
  | .swait _ _ => true
  | .spillq _ _ _ => true
  | .kerf _ => true
  | .cMv d b => plainReg d && plainReg b
  | .cAdd d b => plainReg d && plainReg b
  | .cSub d b => plainReg d && plainReg b
  | .cAnd d b => plainReg d && plainReg b
  | .cOr d b => plainReg d && plainReg b
  | .cXor d b => plainReg d && plainReg b
  | .cAddi d _ => plainReg d
  | .cLi d _ => plainReg d
  | .cSlli d _ => plainReg d
  | .cSrli d _ => plainReg d
  | .cSrai d _ => plainReg d
  | .cAndi d _ => plainReg d
  | .cLdd d _ => plainReg d
  | .cStd d _ => plainReg d
  | .cLdw d _ => plainReg d
  | .cStw d _ => plainReg d
  | .cJ _ => true
  | .cBeqz a _ => plainReg a
  | .cBnez a _ => plainReg a
  | .cJr a => plainReg a
  | .cJalr a => plainReg a
  | .cNop => true
  | .cTexit => true
  | .cEbreak => true
  | .cSlt d b => plainReg d && plainReg b
  | .cSltu d b => plainReg d && plainReg b
  | .cMul d b => plainReg d && plainReg b
  | .route _ _ _ _ _ _
  | .routec _ _ _ _ _ _
  | .steer _ _ _ _ _
  | .merge _ _ _ _ _
  | .emit _ _ _ _ _
  | .waittok _ _ _ _ _ _
  | .loop _ _
  | .bnz _ _
  | .jmp _
  | .halt => false
  | .sfdrop _
  | .sfrpl _
  | .streamAbort _ _
  | .streamResume _ _
  | .tshpWrite _ _ _
  | .switchFlitPass _ _
  | .seamRetryFailure _ _
  | .loadDataReturn _ _
  | .storeTranslationDone _ _
  | .streamElement _ _
  | .streamComplete _ _
  | .ringEos _ _
  | .allocServe _ _
  | .readAdmission _ _
  | .compressTile _ _
  | .expandTile _ _
  | .convert _ _
  | .tldDelivery _ _
  | .nodePass _
  | .nodeRow _
  | .read _
  | .write _
  | .atomic _
  | .readReply _
  | .writeAcknowledgement _
  | .taskRecord _
  | .activeMessage _
  | .inboxAcknowledgement _
  | .poolRequest _
  | .poolReply _
  | .walkRequest _
  | .walkReply _
  | .interrupt _
  | .purge _
  | .purgeAcknowledgement _
  | .copy _
  | .copy2d _
  | .fill _
  | .tcopy _
  | .reduce _
  | .bcast _
  | .dispatch _
  | .ageing _
  | .waveOpen _
  | .kiCut _
  | .releaseCommitTimeout _
  | .kerfPart _ _
  | .waveComplete _
  | .rollbackDrainTimeout _
  | .rollbackRestore _
  | .cfgParity _ _
  | .configLoadComplete _
  | .shadowFetchDone _
  | .cellSwap _
  | .drainComplete _
  | .preemptTimeout _
  | .stallWatchdog _
  | .hang _
  | .replyTimeout _
  | .inboxWrite _ _ _
  | .openRegion _ _
  | .map _ _
  | .unmap _ _
  | .loadcfg _ _
  | .spawn _ _
  | .signal _ _
  | .preempt _ _
  | .resume _ _
  | .kill _ _
  | .query _ _
  | .attest _ _
  | .fwupd _ _
  | .coldReset
  | .pfFunctionLevelReset
  | .vfReset _
  | .thermalTrip
  | .throttle _ _
  | .plimitWrite _
  | .vfrectWrite _ _
  | .mgmtRegisterWrite _ _ _
  | .scarfLinkDown _
  | .scarfDeliveryFailure _
  | .illegal _
  | .fetchPage _
  | .debuggerHalt _ _ => true

/-- The forms that a compute hart (P0-P3) may execute: every hart form but STREAM (R49), and the CSRs of R130. -/
def Instr.inCompute : Instr → Bool
  | .add _ _ _ _ => true
  | .sub _ _ _ _ => true
  | .and _ _ _ _ => true
  | .or _ _ _ _ => true
  | .xor _ _ _ _ => true
  | .sll _ _ _ _ => true
  | .srl _ _ _ _ => true
  | .sra _ _ _ _ => true
  | .slt _ _ _ _ => true
  | .sltu _ _ _ _ => true
  | .min _ _ _ _ => true
  | .max _ _ _ _ => true
  | .minu _ _ _ _ => true
  | .maxu _ _ _ _ => true
  | .mul _ _ _ _ => true
  | .mulh _ _ _ _ => true
  | .mulhu _ _ _ _ => true
  | .div _ _ _ _ => true
  | .divu _ _ _ _ => true
  | .rem _ _ _ _ => true
  | .remu _ _ _ _ => true
  | .clz _ _ _ => true
  | .ctz _ _ _ => true
  | .popc _ _ _ => true
  | .lea _ _ _ _ _ => true
  | .pset _ _ _ _ _ => true
  | .addi _ _ _ _ => true
  | .andi _ _ _ _ => true
  | .ori _ _ _ _ => true
  | .xori _ _ _ _ => true
  | .slti _ _ _ _ => true
  | .slli _ _ _ _ => true
  | .srli _ _ _ _ => true
  | .srai _ _ _ _ => true
  | .lih _ _ _ => true
  | .addpc _ _ _ => true
  | .jalr _ _ _ _ => true
  | .j _ _ => true
  | .jal _ _ => true
  | .beq _ _ _ _ => true
  | .bne _ _ _ _ => true
  | .blt _ _ _ _ => true
  | .bge _ _ _ _ => true
  | .bltu _ _ _ _ => true
  | .bgeu _ _ _ _ => true
  | .bp _ _ _ => true
  | .bany _ _ _ => true
  | .ball _ _ _ => true
  | .bnone _ _ _ => true
  | .btsb _ _ _ _ => true
  | .fadd _ _ _ _ _ => true
  | .fsub _ _ _ _ _ => true
  | .fmul _ _ _ _ _ => true
  | .fdiv _ _ _ _ _ => true
  | .fsqrt _ _ _ _ => true
  | .fmin _ _ _ _ => true
  | .fmax _ _ _ _ => true
  | .feq _ _ _ _ => true
  | .flt _ _ _ _ => true
  | .fle _ _ _ _ => true
  | .fclass _ _ _ => true
  | .fcvt _ _ _ _ _ _ => true
  | .fma _ _ _ _ _ => true
  | .fnma _ _ _ _ _ => true
  | .vadd _ _ _ _ _ _ => true
  | .vsub _ _ _ _ _ _ => true
  | .vmul _ _ _ _ _ _ => true
  | .vmulh _ _ _ _ _ _ => true
  | .vmin _ _ _ _ _ _ => true
  | .vmax _ _ _ _ _ _ => true
  | .vand _ _ _ _ _ _ => true
  | .vor _ _ _ _ _ _ => true
  | .vxor _ _ _ _ _ _ => true
  | .vsll _ _ _ _ _ _ => true
  | .vsrl _ _ _ _ _ _ => true
  | .vsra _ _ _ _ _ _ => true
  | .vcmp _ _ _ _ _ _ _ => true
  | .vsel _ _ _ _ _ _ => true
  | .vredAdd _ _ _ _ _ => true
  | .vredMin _ _ _ _ _ => true
  | .vredMax _ _ _ _ _ => true
  | .vscanAdd _ _ _ _ _ => true
  | .vdot4 _ _ _ _ _ => true
  | .vcvtI _ _ _ _ _ _ _ => true
  | .vfadd _ _ _ _ _ _ => true
  | .vfsub _ _ _ _ _ _ => true
  | .vfmul _ _ _ _ _ _ => true
  | .vfdiv _ _ _ _ _ _ => true
  | .vfmin _ _ _ _ _ _ => true
  | .vfmax _ _ _ _ _ _ => true
  | .vfsqrt _ _ _ _ _ => true
  | .vfcmp _ _ _ _ _ _ _ => true
  | .vcvt _ _ _ _ _ _ _ => true
  | .vredFadd _ _ _ _ _ => true
  | .vredFmin _ _ _ _ _ => true
  | .vredFmax _ _ _ _ _ => true
  | .vscanFadd _ _ _ _ _ => true
  | .vexp2 _ _ _ _ => true
  | .vlog2 _ _ _ _ => true
  | .vrcp _ _ _ _ => true
  | .vrsq _ _ _ _ => true
  | .vsin _ _ _ _ => true
  | .vcos _ _ _ _ => true
  | .vtsb _ _ _ _ _ => true
  | .vtsblt _ _ _ _ _ _ => true
  | .vsettsb _ _ _ _ _ _ => true
  | .vperm _ _ _ _ _ => true
  | .vslideUp _ _ _ _ _ => true
  | .vslideDn _ _ _ _ _ => true
  | .vexch _ _ _ _ => true
  | .xtov _ _ _ _ => true
  | .vtox _ _ _ _ => true
  | .vtoxa _ _ _ _ => true
  | .mtox _ _ _ => true
  | .xtom _ _ _ => true
  | .mand _ _ _ _ => true
  | .mor _ _ _ _ => true
  | .mxor _ _ _ _ => true
  | .mnot _ _ _ => true
  | .mpop _ _ _ => true
  | .mfirst _ _ _ => true
  | .vportr _ _ _ _ => true
  | .vportw _ _ _ _ => true
  | .vfma _ _ _ _ _ _ _ => true
  | .vfnma _ _ _ _ _ _ _ => true
  | .vclip _ _ _ _ _ _ _ => true
  | .ldB _ _ _ _ => true
  | .ldBu _ _ _ _ => true
  | .ldH _ _ _ _ => true
  | .ldHu _ _ _ _ => true
  | .ldW _ _ _ _ => true
  | .ldWu _ _ _ _ => true
  | .ldD _ _ _ _ => true
  | .stB _ _ _ _ => true
  | .stH _ _ _ _ => true
  | .stW _ _ _ _ => true
  | .stD _ _ _ _ => true
  | .vld _ _ _ _ => true
  | .vst _ _ _ _ => true
  | .ldAcq _ _ _ _ _ => true
  | .stRel _ _ _ _ _ => true
  | .ldt _ _ _ => true
  | .stt _ _ _ => true
  | .vldx _ _ _ _ _ => true
  | .vstx _ _ _ _ _ => true
  | .amoadd _ _ _ _ _ _ => true
  | .amoand _ _ _ _ _ _ => true
  | .amoor _ _ _ _ _ _ => true
  | .amoxor _ _ _ _ _ _ => true
  | .amomin _ _ _ _ _ _ => true
  | .amomax _ _ _ _ _ _ => true
  | .amoswap _ _ _ _ _ _ => true
  | .amocas _ _ _ _ _ _ => true
  | .csrr _ _ n => csrOfCompute n.toNat
  | .csrw _ _ n => csrOfCompute n.toNat
  | .csrs _ _ _ n => csrOfCompute n.toNat
  | .csrc _ _ _ n => csrOfCompute n.toNat
  | .fence _ _ _ => true
  | .sdrain _ => true
  | .chkerr _ _ => true
  | .chkerrClr _ _ => true
  | .ecall _ => true
  | .ebreak _ => true
  | .tret _ => true
  | .qtest _ _ _ => true
  | .qtok _ _ _ => true
  | .recfg _ _ => true
  | .shadow _ _ => true
  | .join _ _ _ => true
  | .leave _ _ => true
  | .gbar _ _ => true
  | .gkill _ _ => true
  | .tspawn _ _ _ => true
  | .texit _ => true
  | .evset _ _ => true
  | .evclr _ _ => true
  | .wfe _ _ => true
  | .send _ _ _ => true
  | .waitc _ _ => true
  | .tld _ _ _ _ => true
  | .tldH _ _ _ _ => true
  | .tldHk _ _ _ _ => true
  | .tst _ _ _ => true
  | .tzero _ _ => true
  | .mma _ _ _ _ => true
  | .mmaNc _ _ _ _ => true
  | .mmag _ _ _ _ => true
  | .mmagNc _ _ _ _ => true
  | .acz _ _ => true
  | .tcsum _ _ => true
  | .tcchk _ _ _ => true
  | .tbound _ _ => true
  | .acnv _ _ _ _ => true
  | .alloc _ _ _ _ => false
  | .sealTile _ _ => false
  | .tpdrop _ _ _ => false
  | .strm _ _ _ => false
  | .spbset _ _ _ => false
  | .swait _ _ => false
  | .spillq _ _ _ => false
  | .kerf _ => false
  | .cMv _ _ => true
  | .cAdd _ _ => true
  | .cSub _ _ => true
  | .cAnd _ _ => true
  | .cOr _ _ => true
  | .cXor _ _ => true
  | .cAddi _ _ => true
  | .cLi _ _ => true
  | .cSlli _ _ => true
  | .cSrli _ _ => true
  | .cSrai _ _ => true
  | .cAndi _ _ => true
  | .cLdd _ _ => true
  | .cStd _ _ => true
  | .cLdw _ _ => true
  | .cStw _ _ => true
  | .cJ _ => true
  | .cBeqz _ _ => true
  | .cBnez _ _ => true
  | .cJr _ => true
  | .cJalr _ => true
  | .cNop => true
  | .cTexit => true
  | .cEbreak => true
  | .cSlt _ _ => true
  | .cSltu _ _ => true
  | .cMul _ _ => true
  | .route _ _ _ _ _ _
  | .routec _ _ _ _ _ _
  | .steer _ _ _ _ _
  | .merge _ _ _ _ _
  | .emit _ _ _ _ _
  | .waittok _ _ _ _ _ _
  | .loop _ _
  | .bnz _ _
  | .jmp _
  | .halt => false
  | .sfdrop _
  | .sfrpl _
  | .streamAbort _ _
  | .streamResume _ _
  | .tshpWrite _ _ _
  | .switchFlitPass _ _
  | .seamRetryFailure _ _
  | .loadDataReturn _ _
  | .storeTranslationDone _ _
  | .streamElement _ _
  | .streamComplete _ _
  | .ringEos _ _
  | .allocServe _ _
  | .readAdmission _ _
  | .compressTile _ _
  | .expandTile _ _
  | .convert _ _
  | .tldDelivery _ _
  | .nodePass _
  | .nodeRow _
  | .read _
  | .write _
  | .atomic _
  | .readReply _
  | .writeAcknowledgement _
  | .taskRecord _
  | .activeMessage _
  | .inboxAcknowledgement _
  | .poolRequest _
  | .poolReply _
  | .walkRequest _
  | .walkReply _
  | .interrupt _
  | .purge _
  | .purgeAcknowledgement _
  | .copy _
  | .copy2d _
  | .fill _
  | .tcopy _
  | .reduce _
  | .bcast _
  | .dispatch _
  | .ageing _
  | .waveOpen _
  | .kiCut _
  | .releaseCommitTimeout _
  | .kerfPart _ _
  | .waveComplete _
  | .rollbackDrainTimeout _
  | .rollbackRestore _
  | .cfgParity _ _
  | .configLoadComplete _
  | .shadowFetchDone _
  | .cellSwap _
  | .drainComplete _
  | .preemptTimeout _
  | .stallWatchdog _
  | .hang _
  | .replyTimeout _
  | .inboxWrite _ _ _
  | .openRegion _ _
  | .map _ _
  | .unmap _ _
  | .loadcfg _ _
  | .spawn _ _
  | .signal _ _
  | .preempt _ _
  | .resume _ _
  | .kill _ _
  | .query _ _
  | .attest _ _
  | .fwupd _ _
  | .coldReset
  | .pfFunctionLevelReset
  | .vfReset _
  | .thermalTrip
  | .throttle _ _
  | .plimitWrite _
  | .vfrectWrite _ _
  | .mgmtRegisterWrite _ _ _
  | .scarfLinkDown _
  | .scarfDeliveryFailure _
  | .illegal _
  | .fetchPage _
  | .debuggerHalt _ _ => true

end Sys2Proof
end

