-- ==== Sys2Proof/Machine/VecOps.lean ====
section
/-! DEFINITION. Lanes and elements, and the vector integer operations as functions of values (R117, R118, R126,
R145-R157, R177, R178). -/

namespace Sys2Proof.Machine

/-- What an instruction gives to an active lane. -/
structure LaneOut where
  bits : Word32
  tag : Byte
  poison : Bool
  deriving DecidableEq, Repr

/-- Element j of width w of a lane, as an unsigned number (R84). -/
def elemU (b : Word32) (w j : Nat) : Nat := (b.toNat >>> (w * j)) % 2 ^ w

/-- A w-bit pattern as a signed integer (R146). -/
def signedOf (w v : Nat) : Int := if v < 2 ^ (w - 1) then (v : Int) else (v : Int) - (2 ^ w : Nat)

/-- Element j of width w of a lane, as a signed integer (R146). -/
def elemS (b : Word32) (w j : Nat) : Int := signedOf w (elemU b w j)

/-- The low w bits of an integer (R10). -/
def wrapTo (w : Nat) (v : Int) : Nat := (v % (2 ^ w : Nat)).toNat

/-- A lane from its elements, element 0 lowest (R84). -/
def packElems (w : Nat) (es : List Nat) : Word32 :=
  BitVec.ofNat 32 (es.foldr (fun e acc => e % 2 ^ w + 2 ^ w * acc) 0)

/-- The mask register m0 reads all ones (R115). -/
def maskAll : Word := BitVec.allOnes 64

/-- A vector updated lane by lane: a written lane takes its new contents, another keeps the old ones in a register
(keep) or becomes 0 with tag field 0x00 in a queue or port (R126). The poison of a pair is the OR of what its two
lanes hold (R211). -/
def updateLanes (old : VVal) (keep : Bool) (f : Nat → Option LaneOut) : VVal :=
  VVal.ofFn
    (fun k =>
      match f k with
      | some o => ⟨o.bits, o.tag⟩
      | none => if keep then old.lane k else ⟨0#32, 0#8⟩)
    (fun j =>
      let part := fun k =>
        match f k with
        | some o => o.poison
        | none => keep && old.poisonOf k
      part (2 * j) || part (2 * j + 1))

/-- The lanes of a mask that are active, lowest first (R118). -/
def activeLanes (mask : Word) : List Nat := (List.range 64).filter (fun k => mask.getLsbD k)

/-- Tag field that a vector integer instruction writes (R117). -/
def intTagField : IntW → Byte
  | .i32 => 0x18#8
  | .i16 => 0xBB#8
  | .i8 => 0x18#8

/-- The element-wise integer operations (R146). -/
inductive VIOp | add | sub | mul | mulh | min | max | and | or | xor | sll | srl | sra
  deriving DecidableEq, Repr

/-- One element of an element-wise operation (R146): the low w bits of the result. -/
def viElem (op : VIOp) (w a b : Nat) : Nat :=
  let sa := signedOf w a
  let sb := signedOf w b
  match op with
  | .add => wrapTo w (sa + sb)
  | .sub => wrapTo w (sa - sb)
  | .mul => wrapTo w (sa * sb)
  | .mulh => wrapTo w ((sa * sb) / (2 ^ w : Nat))
  | .min => if sa ≤ sb then a else b
  | .max => if sa ≤ sb then b else a
  | .and => a &&& b
  | .or => a ||| b
  | .xor => a ^^^ b
  | .sll => (a <<< (b % w)) % 2 ^ w
  | .srl => a >>> (b % w)
  | .sra => wrapTo w (sa / (2 ^ (b % w) : Nat))

/-- One lane of an element-wise operation. -/
def viLane (op : VIOp) (w : Nat) (a b : Word32) : Word32 :=
  packElems w ((List.range (32 / w)).map (fun j => viElem op w (elemU a w j) (elemU b w j)))

/-- An element-wise operation under a mask (R146). -/
def viMap (op : VIOp) (e : IntW) (mask : Word) (a b old : VVal) (keep : Bool) : VVal :=
  updateLanes old keep (fun k =>
    if mask.getLsbD k then
      some ⟨viLane op e.bits (a.lane k).bits (b.lane k).bits, intTagField e, a.poisonOf k || b.poisonOf k⟩
    else none)

/-- A condition on two elements (R147). -/
def intCond (c : IntCC) (w a b : Nat) : Bool :=
  match c with
  | .eq => decide (a = b)
  | .ne => decide (a ≠ b)
  | .lt => decide (signedOf w a < signedOf w b)
  | .ge => decide (signedOf w b ≤ signedOf w a)
  | .ltu => decide (a < b)
  | .geu => decide (b ≤ a)

/-- A mask from a lane test. -/
def maskOf (f : Nat → Bool) : Word := BitVec.ofFnLE (n := 64) (fun k => f k.val)

/-- vcmp: a bit is 1 when the lane is active and the condition holds for every element (R147). -/
def viCompare (c : IntCC) (e : IntW) (mask : Word) (a b : VVal) : Word :=
  maskOf (fun k => mask.getLsbD k &&
    (List.range (32 / e.bits)).all (fun j =>
      intCond c e.bits (elemU (a.lane k).bits e.bits j) (elemU (b.lane k).bits e.bits j)))

/-- vsel: every lane from va or vb by the selector mask (R148). -/
def vselect (sel : Word) (a b : VVal) : VVal :=
  updateLanes VVal.zero18 true (fun k =>
    if sel.getLsbD k then some ⟨(a.lane k).bits, (a.lane k).tag, a.poisonOf k⟩
    else some ⟨(b.lane k).bits, (b.lane k).tag, b.poisonOf k⟩)

/-- The elements of the active lanes in element order, signed (R149). -/
def activeElems (e : IntW) (mask : Word) (a : VVal) : List Int :=
  (activeLanes mask).flatMap (fun k => (List.range (32 / e.bits)).map (fun j => elemS (a.lane k).bits e.bits j))

/-- The integer reductions (R149). -/
inductive RedOp | add | min | max
  deriving DecidableEq, Repr

/-- A reduction: the exact value in 64 bits, 0 with an empty mask (R149). -/
def viReduce (op : RedOp) (es : List Int) : Word :=
  match es with
  | [] => 0#64
  | x :: xs =>
    let r := match op with
      | .add => xs.foldl (fun s y => s + y) x
      | .min => xs.foldl (fun s y => if y < s then y else s) x
      | .max => xs.foldl (fun s y => if s < y then y else s) x
    BitVec.ofInt 64 r

/-- Whether a poison bit stands in an active lane (R211). -/
def anyPoison (mask : Word) (a : VVal) : Bool := (activeLanes mask).any (fun k => a.poisonOf k)

/-- The running sums of the elements of one lane, starting from acc (R149). -/
def scanLane (w : Nat) (b : Word32) : Nat → Nat → Int → List Nat
  | 0, _, _ => []
  | n + 1, j, acc => let s := acc + elemS b w j; wrapTo w s :: scanLane w b n (j + 1) s

/-- The sum of the elements of the active lanes below lane k (R149). -/
def sumBelow (e : IntW) (mask : Word) (a : VVal) (k : Nat) : Int :=
  ((List.range k).filter (fun i => mask.getLsbD i)).foldl
    (fun s i => (List.range (32 / e.bits)).foldl (fun t j => t + elemS (a.lane i).bits e.bits j) s) 0

/-- vscan.add (R149): an element's sum depends on every active element up to it. -/
def viScan (e : IntW) (mask : Word) (a old : VVal) (keep : Bool) : VVal :=
  updateLanes old keep (fun k =>
    if mask.getLsbD k then
      some ⟨packElems e.bits (scanLane e.bits (a.lane k).bits (32 / e.bits) 0 (sumBelow e mask a k)), intTagField e,
        ((List.range (k + 1)).filter (fun i => mask.getLsbD i)).any (fun i => a.poisonOf i)⟩
    else none)

/-- One lane of vdot4 (R150). -/
def dot4Lane (acc a b : Word32) : Word32 :=
  BitVec.ofInt 32 ((List.range 4).foldl (fun s j => s + elemS a 8 j * elemS b 8 j) acc.toInt)

/-- vdot4 (R150): the accumulator is the old destination, or the entry popped from viqN. -/
def vdot (mask : Word) (acc a b old : VVal) (keep : Bool) : VVal :=
  updateLanes old keep (fun k =>
    if mask.getLsbD k then
      some ⟨dot4Lane (acc.lane k).bits (a.lane k).bits (b.lane k).bits, 0x18#8,
        acc.poisonOf k || a.poisonOf k || b.poisonOf k⟩
    else none)

/-- One element of vclip: MIN(MAX(a, b), c), signed (R151). -/
def clipElem (w a b c : Nat) : Nat :=
  let m := if signedOf w a < signedOf w b then b else a
  if signedOf w c < signedOf w m then c else m

/-- vclip (R151). -/
def viClip (e : IntW) (mask : Word) (a b c old : VVal) (keep : Bool) : VVal :=
  updateLanes old keep (fun k =>
    if mask.getLsbD k then
      some ⟨packElems e.bits ((List.range (32 / e.bits)).map (fun j =>
          clipElem e.bits (elemU (a.lane k).bits e.bits j) (elemU (b.lane k).bits e.bits j)
            (elemU (c.lane k).bits e.bits j))),
        intTagField e, a.poisonOf k || b.poisonOf k || c.poisonOf k⟩
    else none)

/-- vperm: lane BITS(vb lane k, 5, 0) of va with its tag field (R177). -/
def vpermute (mask : Word) (a b old : VVal) (keep : Bool) : VVal :=
  updateLanes old keep (fun k =>
    if mask.getLsbD k then
      let i := (b.lane k).bits.toNat % 64
      some ⟨(a.lane i).bits, (a.lane i).tag, a.poisonOf i || b.poisonOf k⟩
    else none)

/-- vslide: lane k takes lane k - s (up) or k + s (down); a lane without source is 0 with tag field 0x18 (R178). -/
def vslide (up : Bool) (mask : Word) (a : VVal) (s : Nat) (sp : Bool) (old : VVal) (keep : Bool) : VVal :=
  updateLanes old keep (fun k =>
    if mask.getLsbD k then
      if up then
        (if s ≤ k then some ⟨(a.lane (k - s)).bits, (a.lane (k - s)).tag, a.poisonOf (k - s) || sp⟩
         else some ⟨0#32, 0x18#8, sp⟩)
      else
        (if k + s ≤ 63 then some ⟨(a.lane (k + s)).bits, (a.lane (k + s)).tag, a.poisonOf (k + s) || sp⟩
         else some ⟨0#32, 0x18#8, sp⟩)
    else none)

/-- xtov: active lanes take bits 31:0 and the tag of xa (R153). -/
def vbroadcast (mask : Word) (x : UVal) (old : VVal) (keep : Bool) : VVal :=
  updateLanes old keep (fun k =>
    if mask.getLsbD k then some ⟨x.val.setWidth 32, x.tag.setWidth 8, x.poison⟩ else none)

/-- vtox: the lowest active lane, and whether there was none (R154). -/
def vlowest (mask : Word) (a : VVal) : UVal × Bool :=
  match activeLanes mask with
  | [] => (UVal.plain 0#64, true)
  | l :: _ => (⟨sext64 (a.lane l).bits, (a.lane l).tag.setWidth 5, a.poisonOf l⟩, false)

/-- The active lanes that differ from the lowest active lane (R155). -/
def differing (mask : Word) (a : VVal) : Word :=
  match activeLanes mask with
  | [] => 0#64
  | l :: _ => maskOf (fun k => mask.getLsbD k && decide ((a.lane k).bits ≠ (a.lane l).bits))

/-- vtoxa where no trap is taken: the value, and the p3 it writes (R155). -/
def vuniform (mask : Word) (a : VVal) : UVal × Bool :=
  match activeLanes mask with
  | [] => (UVal.plain 0#64, true)
  | l :: ls =>
    if differing mask a = 0#64 then
      (⟨sext64 (a.lane l).bits,
        BitVec.ofNat 5 (ls.foldl (fun t k => min t ((a.lane k).tag.toNat % 32)) ((a.lane l).tag.toNat % 32)),
        anyPoison mask a⟩, false)
    else (⟨sext64 (a.lane l).bits, (a.lane l).tag.setWidth 5, a.poisonOf l⟩, true)

end Sys2Proof.Machine
end

