-- ==== Sys2Proof/Machine/FloatOps.lean ====
section
/-! DEFINITION. The float operations of the compute harts on values: uniform, element-wise, reductions, scans,
conversions, special functions and tags (R159-R186). -/

namespace Sys2Proof.Machine

/-- The result of one rounded element: its code, its tag, the flags it raises, and whether SIG_LOSS fails on it. -/
structure ElemRes where
  code : Nat
  tag : Nat
  flags : FFlags
  fails : Bool
  deriving DecidableEq, Repr

/-- One float operand: its code and its tag as stored. -/
structure FIn where
  code : Nat
  tag : Nat
  deriving DecidableEq, Repr

/-- SIG_LOSS on one element (R188): armed, the result tag below T, every operand tag at or above T, where
T = min(THR, p). thr is none when SIGTHR.EN = 0. -/
def sigFails (thr : Option Nat) (p tag : Nat) (ts : List Nat) : Bool :=
  match thr with
  | none => false
  | some t => decide (tag < min t p) && ts.all (fun x => decide (min t p ≤ x))

/-- The rounded arithmetic operations (R163, R164, R171). -/
inductive FOp | add | sub | mul | div | sqrt | fma | fnma | min | max
  deriving DecidableEq, Repr

/-- One element of an arithmetic operation in format f and mode (R163-R165, R171, R180, R181). -/
def fElem (op : FOp) (f : FFmt) (mode : RMode) (thr : Option Nat) (a b c : FIn) : ElemRes :=
  let p := f.prec
  let ta := min a.tag p
  let tb := min b.tag p
  let tc := min c.tag p
  let xa := decodeF f a.code
  let xb := decodeF f b.code
  let xc := decodeF f c.code
  let sum (u v : TagIn) (ts : List Nat) (ex : XR × FFlags) : ElemRes :=
    let (code, fr) := roundX f mode ex.1
    let t := tagOfAdd f u v ts ex.1 code
    ⟨code, t, ex.2.or fr, sigFails thr p t ts⟩
  let ruled (rule : Nat) (ts : List Nat) (ex : XR × FFlags) : ElemRes :=
    let (code, fr) := roundX f mode ex.1
    let t := tagOfRule f rule ts ex.1 code
    ⟨code, t, ex.2.or fr, sigFails thr p t ts⟩
  let minmax (isMax : Bool) : ElemRes :=
    let fl : FFlags := if xa.signalling || xb.signalling then .invalid else .none
    match pickMinMax isMax xa xb with
    | .first => ⟨a.code, ta, fl, false⟩
    | .second => ⟨b.code, tb, fl, false⟩
    | .neither => ⟨f.nanCode, 0, fl, false⟩
  match op with
  | .add => sum ⟨xa, ta⟩ ⟨xb, tb⟩ [ta, tb] (xadd mode xa xb)
  | .sub => sum ⟨xa, ta⟩ ⟨xb.negate, tb⟩ [ta, tb] (xadd mode xa xb.negate)
  | .mul => ruled (min ta tb) [ta, tb] (xmul xa xb)
  | .div => ruled (min ta tb) [ta, tb] (xdiv xa xb)
  | .sqrt => ruled ta [ta] (xsqrt xa)
  | .fma => sum ⟨(xmul xa xb).1, min ta tb⟩ ⟨xc, tc⟩ [ta, tb, tc] (xfma mode xa xb xc)
  | .fnma => sum ⟨(xmul xa.negate xb).1, min ta tb⟩ ⟨xc, tc⟩ [ta, tb, tc] (xfma mode xa.negate xb xc)
  | .min => minmax false
  | .max => minmax true

/-- The relations of feq, flt and fle (R166, R172): the truth, and whether NV is raised. -/
def fRel (c : FltCC) (f : FFmt) (a b : Nat) : Bool × Bool :=
  let xa := decodeF f a
  let xb := decodeF f b
  match c with
  | .eq => (xeq xa xb, xa.signalling || xb.signalling)
  | .lt => (xlt xa xb, xa.isNan || xb.isNan)
  | .le => (xlt xa xb || xeq xa xb, xa.isNan || xb.isNan)

/-- Whether a finite value is a whole number (R167). -/
def isWhole (x : XR) : Bool :=
  match x with
  | .real _ m e _ => if 0 ≤ e then true else decide (m % 2 ^ e.natAbs = 0)
  | _ => false

/-- fclass (R167). -/
def fclassOf (a : Nat) : Nat :=
  let x := decodeF .fp32 a
  let ex := bits a 30 23
  let kind :=
    match x with
    | .nan s => if s then 7 else 6
    | .inf _ => 3
    | .real _ m _ _ => if m = 0 then 0 else if ex = 0 then 1 else 2
  (b2n (isWhole x)) * 2 ^ 16 + ex * 2 ^ 8 + (bits a 31 31) * 8 + kind

/-- The types of FCVT and VCVT. -/
inductive NType | flt (f : FFmt) | int (signed : Bool) (w : Nat)
  deriving DecidableEq, Repr

/-- The FCVT type codes (R53). -/
def fcvtType (c : Nat) : NType :=
  match c with
  | 0 => .flt .fp32
  | 1 => .flt .fp16
  | 2 => .flt .bf16
  | 3 => .int true 32
  | 4 => .int false 32
  | 5 => .int true 64
  | _ => .int false 64

/-- The VCVT source codes (R54). -/
def vcvtType (c : Nat) : NType :=
  match c with
  | 0 => .flt .fp32
  | 1 => .flt .fp16
  | 2 => .flt .bf16
  | 3 => .int true 32
  | 4 => .int true 16
  | 5 => .int true 8
  | _ => .int false 8

/-- Width in bits of a type. -/
def NType.width : NType → Nat
  | .flt f => f.width
  | .int _ w => w

/-- The least value of an integer type (R87). -/
def intLo (signed : Bool) (w : Nat) : Int := if signed then -(2 ^ (w - 1) : Nat) else 0
/-- The greatest value of an integer type (R87). -/
def intHi (signed : Bool) (w : Nat) : Int := if signed then (2 ^ (w - 1) : Nat) - 1 else (2 ^ w : Nat) - 1

/-- One conversion (R92-R94) with its tag (R168, R173, R180): integer results carry no significance tag here. -/
def convElem (src dst : NType) (mode : RMode) (thr : Option Nat) (a : FIn) : ElemRes :=
  match src, dst with
  | .flt s, .flt d =>
    let x := decodeF s a.code
    let (code, fl) := convFF s d mode a.code
    let t0 := min a.tag s.prec
    let t := tagOfRule d (min t0 d.prec) [t0] x code
    ⟨code, t, fl, sigFails thr d.prec t [t0]⟩
  | .flt s, .int sg w =>
    let x := decodeF s a.code
    let (v, fl) := xToInt mode (intLo sg w) (intHi sg w) x
    ⟨wrapTo w v, 24, fl, false⟩
  | .int sg w, .flt d =>
    let v : Int := if sg then signedOf w (a.code % 2 ^ w) else ((a.code % 2 ^ w : Nat) : Int)
    let (code, fl) := roundX d mode (intToX v)
    let t := tagOfRule d d.prec [] (intToX v) code
    ⟨code, t, fl, sigFails thr d.prec t []⟩
  | .int sg w, .int _ w' =>
    ⟨wrapTo w' (if sg then signedOf w (a.code % 2 ^ w) else ((a.code % 2 ^ w : Nat) : Int)), 24, .none, false⟩

/-! Vector lanes. -/

/-- The format of a vector float major. -/
def fltFmt : FltW → FFmt
  | .f32 => .fp32
  | .f16 => .fp16
  | .bf16 => .bf16

/-- The stored tag of element j of a lane (R117). -/
def laneTag (w : Nat) (t : Byte) (j : Nat) : Nat :=
  if w = 32 then t.toNat % 32 else (t.toNat >>> (4 * j)) % 16

/-- Element j of a lane in format width w. -/
def laneElem (w : Nat) (l : Lane) (j : Nat) : FIn := ⟨elemU l.bits w j, laneTag w l.tag j⟩

/-- The tag field of a lane from its elements' tags (R117): bits 7:5 zero for one element. -/
def tagField (w : Nat) (ts : List Nat) : Byte :=
  if w = 32 then BitVec.ofNat 8 (ts.getD 0 0) else BitVec.ofNat 8 (ts.getD 0 0 + 16 * ts.getD 1 0)

/-- A vector result that may trap SIG_LOSS: the lanes, the flags of all active elements, and the map of failing
lanes (R170, R188). -/
structure VecRes where
  out : VVal
  flags : FFlags
  failMap : Word
  deriving DecidableEq, Repr

/-- The flags of a list of results. -/
def orFlags (rs : List ElemRes) : FFlags := rs.foldl (fun f r => f.or r.flags) .none

/-- The results of all elements of every active lane. -/
def laneResults (mask : Word) (n : Nat) (g : Nat → Nat → ElemRes) : List (List ElemRes) :=
  (List.range 64).map (fun k => if mask.getLsbD k then (List.range n).map (fun j => g k j) else [])

/-- A vector from element results of float format width w under a mask; p says which lanes bring poison (R170). -/
def vecOfElems (w : Nat) (mask : Word) (g : Nat → Nat → ElemRes) (p : Nat → Bool) (old : VVal) (keep : Bool) : VecRes :=
  let rs := laneResults mask (32 / w) g
  { out := updateLanes old keep (fun k =>
      if mask.getLsbD k then
        let r := rs.getD k []
        some ⟨packElems w (r.map (·.code)), tagField w (r.map (·.tag)), p k⟩
      else none),
    flags := orFlags rs.flatten,
    failMap := maskOf (fun k => (rs.getD k []).any (·.fails)) }

/-- The element-wise float forms (R171). -/
def vfMap (op : FOp) (e : FltW) (mode : RMode) (thr : Option Nat) (mask : Word) (a b c old : VVal) (keep : Bool) : VecRes :=
  vecOfElems e.bits mask
    (fun k j => fElem op (fltFmt e) mode thr (laneElem e.bits (a.lane k) j) (laneElem e.bits (b.lane k) j)
      (laneElem e.bits (c.lane k) j))
    (fun k => a.poisonOf k || b.poisonOf k || c.poisonOf k) old keep

/-- vfcmp: the mask and the flags (R172). -/
def vfCompare (c : FltCC) (e : FltW) (mask : Word) (a b : VVal) : Word × FFlags :=
  let rel := fun k j => fRel c (fltFmt e) (elemU (a.lane k).bits e.bits j) (elemU (b.lane k).bits e.bits j)
  let js := List.range (32 / e.bits)
  (maskOf (fun k => mask.getLsbD k && js.all (fun j => (rel k j).1)),
   if (activeLanes mask).any (fun k => js.any (fun j => (rel k j).2)) then .invalid else .none)

/-- The tag field of an integer destination lane of element width w (R117, R173). -/
def intTagOf (w : Nat) : Byte := if w = 16 then 0xBB#8 else 0x18#8

/-- One destination lane of vcvt (R173): which source elements feed which destination elements. -/
def vcvtLane (src dst : NType) (mode : RMode) (thr : Option Nat) (sel : Nat) (s old : Lane) (keep : Bool) : List ElemRes × Lane :=
  let ns := 32 / src.width
  let nd := 32 / dst.width
  let el (j : Nat) : FIn :=
    match src with
    | .flt f => laneElem f.width s j
    | .int _ w => ⟨elemU s.bits w j, 0⟩
  let cv (j : Nat) : ElemRes := convElem src dst mode thr (el j)
  let dw := dst.width
  let rs := if ns < nd then (List.range ns).map cv else (List.range nd).map (fun i => cv (if ns = nd then i else sel * nd + i))
  let code (i : Nat) : Nat :=
    if ns < nd then
      (if sel * ns ≤ i ∧ i < sel * ns + ns then (rs.getD (i - sel * ns) ⟨0, 0, .none, false⟩).code
       else if keep then elemU old.bits dw i else 0)
    else (rs.getD i ⟨0, 0, .none, false⟩).code
  let tag (i : Nat) : Nat :=
    if ns < nd then
      (if sel * ns ≤ i ∧ i < sel * ns + ns then (rs.getD (i - sel * ns) ⟨0, 0, .none, false⟩).tag
       else if keep then laneTag dw old.tag i else 0)
    else (rs.getD i ⟨0, 0, .none, false⟩).tag
  let tf : Byte :=
    match dst with
    | .flt _ => tagField dw ((List.range nd).map tag)
    | .int _ w => intTagOf w
  (rs, ⟨packElems dw ((List.range nd).map code), tf⟩)

/-- vcvt (R173). A lane that keeps some old elements keeps their poison too (R211). -/
def vconvert (src dst : NType) (mode : RMode) (thr : Option Nat) (sel : Nat) (mask : Word) (a old : VVal) (keep : Bool) : VecRes :=
  let ls := (List.range 64).map (fun k => vcvtLane src dst mode thr sel (a.lane k) (old.lane k) keep)
  let part := decide (32 / src.width < 32 / dst.width) && keep
  { out := updateLanes old keep (fun k =>
      if mask.getLsbD k then
        let l := (ls.getD k ([], Lane.zero18)).2
        some ⟨l.bits, l.tag, a.poisonOf k || (part && old.poisonOf k)⟩
      else none),
    flags := orFlags ((activeLanes mask).flatMap (fun k => (ls.getD k ([], Lane.zero18)).1)),
    failMap := maskOf (fun k => mask.getLsbD k && ((ls.getD k ([], Lane.zero18)).1).any (·.fails)) }

/-! Reductions (R101, R102, R174). -/

/-- A node of the reduction tree: absent, or an FP32 code with its tag. -/
abbrev RedNode := Option FIn

/-- One level of the tree: pairs combined (R101). -/
def redPair (op : FIn → FIn → ElemRes) : List RedNode → List RedNode × FFlags
  | x :: y :: r =>
    let (ns, f) := redPair op r
    match x, y with
    | none, _ => (y :: ns, f)
    | _, none => (x :: ns, f)
    | some a, some b => let e := op a b; (some ⟨e.code, e.tag⟩ :: ns, f.or e.flags)
  | l => (l, .none)

/-- The tree: levels until one node stands (R101); fuel is the number of levels. -/
def redTree (op : FIn → FIn → ElemRes) : Nat → List RedNode → FFlags → RedNode × FFlags
  | 0, l, f => (l.getD 0 none, f)
  | n + 1, l, f =>
    match l with
    | [x] => (x, f)
    | _ => let (l', f') := redPair op l; redTree op n l' (f.or f')

/-- An element as it enters a reduction: a NaN becomes the canonical NaN, with NV where it signals (R91, R169); another FP32
element stands as it is; another element is widened, which is a float conversion (R92, R101, R180; assumption 45). -/
def redLeaf (e : FltW) (a : FIn) : FIn × FFlags :=
  match e with
  | .f32 =>
    let x := decodeF .fp32 a.code
    if x.isNan then (⟨FFmt.nanCode .fp32, 0⟩, if x.signalling then .invalid else .none)
    else (⟨a.code, min a.tag 24⟩, .none)
  | _ =>
    let r := convElem (.flt (fltFmt e)) (.flt .fp32) .rne none a
    (⟨r.code, r.tag⟩, r.flags)

/-- The tags of the active elements, which are the operands of a reduction or scan (R179, R188). -/
def redTags (e : FltW) (mask : Word) (a : VVal) : List Nat :=
  (activeLanes mask).flatMap (fun k => (List.range (32 / e.bits)).map (fun j =>
    min (laneElem e.bits (a.lane k) j).tag (fltFmt e).prec))

/-- The leaves of a reduction, inactive lanes absent. -/
def redLeaves (e : FltW) (mask : Word) (a : VVal) : List (RedNode × FFlags) :=
  (List.range 64).flatMap (fun k => (List.range (32 / e.bits)).map (fun j =>
    if mask.getLsbD k then
      let (l, f) := redLeaf e (laneElem e.bits (a.lane k) j)
      (some l, f)
    else (none, .none)))

/-- The float reductions: fadd, fmin, fmax (R174). -/
inductive FRed | fadd | fmin | fmax
  deriving DecidableEq, Repr

/-- A float reduction to one FP32 uniform value; its failing flag for SIG_LOSS stands for the single result (R174,
R188). A sum that is an infinity or NaN takes tag 0, that of one element too (R180). -/
def vfReduce (op : FRed) (e : FltW) (mode : RMode) (thr : Option Nat) (mask : Word) (a : VVal) : ElemRes :=
  let leaves := redLeaves e mask a
  let f0 := leaves.foldl (fun f l => f.or l.2) .none
  let step := fun x y : FIn =>
    match op with
    | .fadd => fElem .add .fp32 mode none x y y
    | .fmin => fElem .min .fp32 mode none x y y
    | .fmax => fElem .max .fp32 mode none x y y
  let (r, fl) := redTree step 7 (leaves.map (·.1)) f0
  match r with
  | none => if op = .fadd then ⟨0, 24, fl, false⟩ else ⟨FFmt.nanCode .fp32, 0, fl, false⟩
  | some n =>
    let t := if op = .fadd && specialTag .fp32 n.code [] then 0 else n.tag
    ⟨n.code, t, fl, if op = .fadd then sigFails thr 24 t (redTags e mask a) else false⟩

/-- The running sum of vscan.fadd: the accumulator, and the elements still to take (R102). -/
def scanGo (e : FltW) (mode : RMode) (thr : Option Nat) (ts : List Nat) : RedNode → List (RedNode × FFlags) → List (Option ElemRes)
  | _, [] => []
  | acc, (none, _) :: r => none :: scanGo e mode thr ts acc r
  | acc, (some x, f) :: r =>
    let s : ElemRes := match acc with
      | none => ⟨x.code, x.tag, .none, false⟩
      | some y => fElem .add .fp32 mode none y x x
    let d := convElem (.flt .fp32) (.flt (fltFmt e)) mode none ⟨s.code, s.tag⟩
    some ⟨d.code, d.tag, (f.or s.flags).or d.flags, sigFails thr (fltFmt e).prec d.tag ts⟩ ::
      scanGo e mode thr ts (some ⟨s.code, s.tag⟩) r

/-- vscan.fadd (R102, R174). -/
def vfScan (e : FltW) (mode : RMode) (thr : Option Nat) (mask : Word) (a old : VVal) (keep : Bool) : VecRes :=
  let leaves := redLeaves e mask a
  let ts := redTags e mask a
  let rs := scanGo e mode thr ts none leaves
  let n := 32 / e.bits
  vecOfElems e.bits mask (fun k j => ((rs.getD (k * n + j) none).getD ⟨0, 0, .none, false⟩))
    (fun k => ((List.range (k + 1)).filter (fun i => mask.getLsbD i)).any (fun i => a.poisonOf i)) old keep

/-! Special functions (R175, R176, R182). Fixed point with 96 fraction bits. -/

/-- The number of fraction bits of the approximations. -/
def fxBits : Nat := 96
/-- π in fixed point. -/
def fxPi : Nat := 0x3243F6A8885A308D313198A2E
/-- ln 2 in fixed point. -/
def fxLn2 : Nat := 0xB17217F7D1CF79ABC9E3B398
/-- 1 / ln 2 in fixed point. -/
def fxInvLn2 : Nat := 0x171547652B82FE1777D0FFDA0

/-- Product of two fixed-point values. -/
def fxMul (a b : Nat) : Nat := (a * b) >>> fxBits

/-- The sum of t^i/i! from term i, where term is t^i/i! (all positive). -/
def fxExpGo (t : Nat) : Nat → Nat → Nat → Nat
  | 0, _, _ => 0
  | n + 1, i, term => term + fxExpGo t n (i + 1) (fxMul term t / (i + 1))

/-- 2^f for 0 ≤ f < 1. -/
def fxExp2 (f : Nat) : Nat := fxExpGo (fxMul f fxLn2) 40 0 (1 <<< fxBits)

/-- The sum of u^(2i+1)/(2i+1), where pw is u^(2i+1). -/
def fxAtanhGo (u2 : Nat) : Nat → Nat → Nat → Nat
  | 0, _, _ => 0
  | n + 1, i, pw => pw / (2 * i + 1) + fxAtanhGo u2 n (i + 1) (fxMul pw u2)

/-- log2 of a fixed-point value v with 1 ≤ v < 2. -/
def fxLog2 (v : Nat) : Nat :=
  let one := 1 <<< fxBits
  let u := ((v - one) <<< fxBits) / (v + one)
  fxMul (2 * fxAtanhGo (fxMul u u) 48 0 u) fxInvLn2

/-- The alternating sum of θ^(2i+s)/(2i+s)!, where term is the current power over its factorial. -/
def fxTrigGo (t2 : Nat) : Nat → Nat → Nat → Int
  | 0, _, _ => 0
  | n + 1, i, term => (term : Int) - fxTrigGo t2 n (i + 2) (fxMul term t2 / ((i + 1) * (i + 2)))

/-- sin(π f) for 0 ≤ f ≤ 1/2. -/
def fxSin (f : Nat) : Nat :=
  let t := fxMul f fxPi
  (fxTrigGo (fxMul t t) 24 1 t).toNat

/-- cos(π f) for 0 ≤ f ≤ 1/2. -/
def fxCos (f : Nat) : Nat :=
  let t := fxMul f fxPi
  (fxTrigGo (fxMul t t) 24 0 (1 <<< fxBits)).toNat

/-- The special functions, coded by op5 (R175). -/
inductive SpecFn | exp2 | log2 | rcp | rsq | sin | cos
  deriving DecidableEq, Repr

/-- The op5 of a special function. -/
def SpecFn.code : SpecFn → Nat
  | .exp2 => 16
  | .log2 => 17
  | .rcp => 18
  | .rsq => 19
  | .sin => 20
  | .cos => 21

/-- An approximation: sign, magnitude in units of 2^exp. Its error is far below the bounds of R175. -/
structure Approx where
  neg : Bool
  mag : Nat
  exp : Int
  deriving DecidableEq, Repr

/-- A fixed-point magnitude of |x| mod 2, for a real of magnitude m·2^e. -/
def fxMod2 (m : Nat) (e : Int) : Nat := (shiftInt m (e + fxBits)) % (2 <<< fxBits)

/-- sin(π r) for 0 ≤ r < 2 in fixed point: sign and magnitude. -/
def sinPi (r : Nat) : Bool × Nat :=
  let one := 1 <<< fxBits
  let neg := decide (one ≤ r)
  let r1 := if one ≤ r then r - one else r
  let half := one / 2
  (neg, fxSin (if half < r1 then one - r1 else r1))

/-- cos(π r) for 0 ≤ r < 2 in fixed point: sign and magnitude. -/
def cosPi (r : Nat) : Bool × Nat :=
  let one := 1 <<< fxBits
  let half := one / 2
  let r1 := if one < r then 2 * one - r else r
  if half < r1 then (true, fxCos (one - r1)) else (false, fxCos r1)

/-- The approximation of a function at a finite non-special operand (R175). -/
def specApprox (fn : SpecFn) (neg : Bool) (m : Nat) (e : Int) : Approx :=
  match fn with
  | .exp2 =>
    -- 2^x with x = i + f, f in [0,1)
    let fx : Int := let v : Int := (shiftInt m (e + fxBits) : Nat); if neg then -v else v
    let i := fx / (1 <<< fxBits : Nat)
    let f := (fx % (1 <<< fxBits : Nat)).toNat
    ⟨false, fxExp2 f, i - fxBits⟩
  | .log2 =>
    let l := Nat.log2 m
    let v := m <<< (fxBits - l)
    let r : Int := (expOf m e) * (1 <<< fxBits : Nat) + (fxLog2 v : Int)
    ⟨decide (r < 0), r.natAbs, -(fxBits : Int)⟩
  | .rcp => ⟨neg, (1 <<< 128) / m, -128 - e⟩
  | .rsq =>
    -- 1/√x = √(1/x), with an even exponent
    let k : Nat := if e % 2 = 0 then 192 else 193
    ⟨false, isqrt ((1 <<< k) / m), (-(k : Int) - e) / 2⟩
  | .sin => let (n, v) := sinPi (fxMod2 m e); ⟨n != neg, v, -(fxBits : Int)⟩
  | .cos => let (n, v) := cosPi (fxMod2 m e); ⟨n, v, -(fxBits : Int)⟩

/-- The exponent of ULP32(M) for a magnitude m·2^e (R111). -/
def ulp32Exp (m : Nat) (e : Int) : Int :=
  if m = 0 then -149 else if expOf m e < -126 then -149 else expOf m e - 23

/-- Whether an FP32 code lies within the error bound of R175 of the approximation, widened by the approximation's own
error. -/
def specAdmits (fn : SpecFn) (y : Approx) (code : Nat) : Bool :=
  match decodeF .fp32 code with
  | .real n m e _ =>
    let ulps := match fn with
      | .rcp => 1
      | .rsq => 1
      | _ => 2
    let u := ulp32Exp y.mag y.exp
    let abs24 := match fn with
      | .rcp => false
      | .rsq => false
      | .exp2 => false
      | _ => true
    -- everything in units of 2^g
    let g := min (min e y.exp) (min (u - 40) (-64))
    let d := (signedAt n m e g - signedAt y.neg y.mag y.exp g).natAbs
    let b1 := ulps <<< (u - g).natAbs
    let b := if abs24 then max b1 (1 <<< (-24 - g).natAbs) else b1
    decide (d ≤ b + 1 <<< (u - 40 - g).natAbs)
  | _ => false

/-- The result of a special function where R176 lists no exact value: free bits within the bound (assumption 20). -/
def specFree (fn : SpecFn) (neg : Bool) (m : Nat) (e : Int) (code : Nat) : Nat :=
  let y := specApprox fn neg m e
  let b := (Config.specialBits fn.code (BitVec.ofNat 32 code)).toNat
  if specAdmits fn y b then b else (roundReal .fp32 .rne y.neg y.mag y.exp false).1

/-- Whether a finite magnitude is a power of two. -/
def isPow2 (m : Nat) : Bool := decide (m = 2 ^ Nat.log2 m)

/-- The result and the flags of a special function (R175, R176). -/
def specValue (fn : SpecFn) (code : Nat) : Nat × FFlags :=
  let x := decodeF .fp32 code
  let nanc := FFmt.nanCode .fp32
  let infc := fun n => FFmt.withSign .fp32 n (FFmt.infCode .fp32)
  let exact := fun r : XR => ((roundX .fp32 .rne r).1, FFlags.none)
  match x with
  | .nan s => (nanc, if s then .invalid else .none)
  | .inf n =>
    match fn with
    | .exp2 => if n then (0, .none) else (infc false, .none)
    | .log2 => if n then (nanc, .invalid) else (infc false, .none)
    | .rcp => (FFmt.withSign .fp32 n 0, .none)
    | .rsq => if n then (nanc, .invalid) else (0, .none)
    | .sin => (nanc, .invalid)
    | .cos => (nanc, .invalid)
  | .real n m e _ =>
    let whole := isWhole x
    let v : Int := let w : Int := (shiftInt m e : Nat); if n then -w else w
    -- twice the magnitude, when that is whole
    let twice := shiftInt m (e + 1)
    let halfWhole := isWhole (.real n m (e + 1) false) && !whole
    match fn with
    | .exp2 =>
      if m = 0 then (0x3F800000, .none)
      else if !n && decide (128 ≤ v) then (infc false, .overflow)
      else if n && !(xlt (.real false m e false) (.real false 150 0 false)) then (0, .underflow)
      else if whole && decide (-149 ≤ v) then exact (.real false 1 v false)
      else (specFree fn n m e code, .inexact)
    | .log2 =>
      if m = 0 then (infc true, .divZero)
      else if n then (nanc, .invalid)
      else if isPow2 m then exact (intToX (expOf m e))
      else (specFree fn n m e code, .inexact)
    | .rcp =>
      if m = 0 then (infc n, .divZero)
      else if !(xlt (.real false 1 (-128) false) (.real false m e false)) then (infc n, .overflow)
      else if isPow2 m then exact (.real n 1 (-(expOf m e)) false)
      else (specFree fn n m e code, .inexact)
    | .rsq =>
      if m = 0 then (infc n, .divZero)
      else if n then (nanc, .invalid)
      -- R175 states the result for 4.0
      else if code = 0x40800000 then (0x3F000000, .inexact)
      else (specFree fn n m e code, .inexact)
    | .sin =>
      if m = 0 then (code, .none)
      else if whole then (FFmt.withSign .fp32 n 0, .none)
      else if halfWhole then
        -- |x| = q + 1/2 with q = floor |x|: sin(pi |x|) = (-1)^q, and sin is odd
        exact (.real (n != decide (twice / 2 % 2 = 1)) 1 0 false)
      else (specFree fn n m e code, .inexact)
    | .cos =>
      if whole then exact (.real (decide (shiftInt m e % 2 = 1)) 1 0 false)
      else if halfWhole then (0, .none)
      else (specFree fn n m e code, .inexact)

/-- The rule tag of a special function (R182), before the rows of R180. -/
def specRule (fn : SpecFn) (x : XR) (ta : Nat) (code : Nat) : Nat :=
  let er := match decodeF .fp32 code with
    | .real _ m e _ => expOf m e
    | _ => 0
  match x with
  | .real _ m e _ =>
    match fn with
    | .rcp => ta
    | .rsq => ta
    | .exp2 => if m = 0 then ta else clampTag ((ta : Int) - expOf m e - 1) 24
    | .log2 => clampTag (er + (ta : Int) - 1) 24
    | .sin => if m = 0 then 0 else clampTag (er - expOf m e + (ta : Int) - 2) 24
    | .cos => if m = 0 then ta else clampTag (er - expOf m e + (ta : Int) - 2) 24
  | _ => ta

/-- One element of a special function with its tag (R182): a zero result takes tag 0, and the rows of R180 apply
first. -/
def specElem (fn : SpecFn) (thr : Option Nat) (a : FIn) : ElemRes :=
  let x := decodeF .fp32 a.code
  let ta := min a.tag 24
  let (code, fl) := specValue fn a.code
  let zero := (decodeF .fp32 code).isZero
  let t := if specialTag .fp32 code [ta] then 0 else if zero then 0 else adjustTag .fp32 false code (specRule fn x ta code)
  ⟨code, t, fl, sigFails thr 24 t [ta]⟩

/-- The special functions under a mask (R175). -/
def vSpecial (fn : SpecFn) (thr : Option Nat) (mask : Word) (a old : VVal) (keep : Bool) : VecRes :=
  vecOfElems 32 mask (fun k j => specElem fn thr (laneElem 32 (a.lane k) j)) (fun k => a.poisonOf k) old keep

/-! Tags as data (R184-R186). -/

/-- vtsb (R184). -/
def vTags (e : FltW) (mask : Word) (a old : VVal) (keep : Bool) : VVal :=
  updateLanes old keep (fun k =>
    if mask.getLsbD k then
      some ⟨packElems e.bits ((List.range (32 / e.bits)).map (fun j => min (laneTag e.bits (a.lane k).tag j) (fltFmt e).prec)),
        intTagOf e.bits, a.poisonOf k⟩
    else none)

/-- vtsblt: any element of an active lane with a tag below x (R185). -/
def vTagsBelow (e : FltW) (mask : Word) (a : VVal) (x : Nat) : Word :=
  maskOf (fun k => mask.getLsbD k &&
    (List.range (32 / e.bits)).any (fun j => decide (min (laneTag e.bits (a.lane k).tag j) (fltFmt e).prec < x)))

/-- vsettsb: the elements with the tag min(x, p) (R186). -/
def vSetTags (e : FltW) (mask : Word) (a : VVal) (x : Nat) (xp : Bool) (old : VVal) (keep : Bool) : VVal :=
  updateLanes old keep (fun k =>
    if mask.getLsbD k then
      some ⟨(a.lane k).bits, tagField e.bits ((List.range (32 / e.bits)).map (fun _ => min x (fltFmt e).prec)),
        a.poisonOf k || xp⟩
    else none)

end Sys2Proof.Machine
end

