-- ==== Sys2Proof/Decode.lean ====
section
/-! DEFINITION. The encoder and the decoder, both from the encoding chapter (R42-R73). The decoder reads a first
candidate from the opcode maps and accepts it when it is well formed and its own encoding is the word that was read,
so that every reserved, unused and narrow field is checked (R66). -/

namespace Sys2Proof

/-- The fields of a 32-bit instruction in the R view, which the other formats subdivide (R44). -/
structure Fields where
  s : Bool
  w : Bool
  f8 : BitVec 8
  rb : BitVec 5
  ra : BitVec 5
  rd : BitVec 5
  maj : BitVec 6
  deriving DecidableEq, Repr

/-- The 32-bit word of its fields; bit 0 is 1 (R42, R44). -/
def packFields (f : Fields) : BitVec 32 :=
  BitVec.ofBool f.s ++ BitVec.ofBool f.w ++ f.f8 ++ f.rb ++ f.ra ++ f.rd ++ f.maj ++ 1#1

/-- The fields of a 32-bit word (R44). -/
def unpackFields (x : BitVec 32) : Fields :=
  ⟨x.getLsbD 31, x.getLsbD 30, x.extractLsb' 22 8, x.extractLsb' 17 5, x.extractLsb' 12 5, x.extractLsb' 7 5,
    x.extractLsb' 1 6⟩

/-- The major opcode of a vector integer width (R49). -/
def IntW.major : IntW → BitVec 6
  | .i32 => 0x18#6
  | .i16 => 0x19#6
  | .i8 => 0x1A#6

/-- The major opcode of a vector float format (R49). -/
def FltW.major : FltW → BitVec 6
  | .f32 => 0x1B#6
  | .f16 => 0x1C#6
  | .bf16 => 0x1D#6

/-- The major opcode of vfma (0) and vfnma (1) (R56). -/
def FltW.fmaMajor (e : FltW) (neg : BitVec 1) : BitVec 6 :=
  match e with
  | .f32 => 0x10#5 ++ neg
  | .f16 => 0x11#5 ++ neg
  | .bf16 => 0x12#5 ++ neg

/-- The condition code of pset (R50). -/
def IntCC.code : IntCC → BitVec 3
  | .eq => 0#3
  | .ne => 1#3
  | .lt => 2#3
  | .ge => 3#3
  | .ltu => 4#3
  | .geu => 5#3

/-- The condition a pset code names (R50). -/
def IntCC.ofCode (c : BitVec 3) : Option IntCC :=
  match c.toNat with
  | 0 => some .eq
  | 1 => some .ne
  | 2 => some .lt
  | 3 => some .ge
  | 4 => some .ltu
  | 5 => some .geu
  | _ => none

/-- The op5 of vcmp (R54). -/
def IntCC.op5 : IntCC → BitVec 5
  | .eq => 12#5
  | .ne => 13#5
  | .lt => 14#5
  | .ge => 15#5
  | .ltu => 16#5
  | .geu => 17#5

/-- The op5 of vfcmp (R54). -/
def FltCC.op5 : FltCC → BitVec 5
  | .eq => 7#5
  | .lt => 8#5
  | .le => 9#5

/-- The fields of a 32-bit hart instruction (R49-R64). -/
def toFields : Instr → Option Fields
  | .add tk d a b => some ⟨tk.s, tk.w, 0#8, b, a, d, 0x01#6⟩
  | .sub tk d a b => some ⟨tk.s, tk.w, 1#8, b, a, d, 0x01#6⟩
  | .and tk d a b => some ⟨tk.s, tk.w, 2#8, b, a, d, 0x01#6⟩
  | .or tk d a b => some ⟨tk.s, tk.w, 3#8, b, a, d, 0x01#6⟩
  | .xor tk d a b => some ⟨tk.s, tk.w, 4#8, b, a, d, 0x01#6⟩
  | .sll tk d a b => some ⟨tk.s, tk.w, 5#8, b, a, d, 0x01#6⟩
  | .srl tk d a b => some ⟨tk.s, tk.w, 6#8, b, a, d, 0x01#6⟩
  | .sra tk d a b => some ⟨tk.s, tk.w, 7#8, b, a, d, 0x01#6⟩
  | .slt tk d a b => some ⟨tk.s, tk.w, 8#8, b, a, d, 0x01#6⟩
  | .sltu tk d a b => some ⟨tk.s, tk.w, 9#8, b, a, d, 0x01#6⟩
  | .min tk d a b => some ⟨tk.s, tk.w, 10#8, b, a, d, 0x01#6⟩
  | .max tk d a b => some ⟨tk.s, tk.w, 11#8, b, a, d, 0x01#6⟩
  | .minu tk d a b => some ⟨tk.s, tk.w, 12#8, b, a, d, 0x01#6⟩
  | .maxu tk d a b => some ⟨tk.s, tk.w, 13#8, b, a, d, 0x01#6⟩
  | .mul tk d a b => some ⟨tk.s, tk.w, 16#8, b, a, d, 0x01#6⟩
  | .mulh tk d a b => some ⟨tk.s, tk.w, 17#8, b, a, d, 0x01#6⟩
  | .mulhu tk d a b => some ⟨tk.s, tk.w, 18#8, b, a, d, 0x01#6⟩
  | .div tk d a b => some ⟨tk.s, tk.w, 20#8, b, a, d, 0x01#6⟩
  | .divu tk d a b => some ⟨tk.s, tk.w, 21#8, b, a, d, 0x01#6⟩
  | .rem tk d a b => some ⟨tk.s, tk.w, 22#8, b, a, d, 0x01#6⟩
  | .remu tk d a b => some ⟨tk.s, tk.w, 23#8, b, a, d, 0x01#6⟩
  | .clz tk d a => some ⟨tk.s, tk.w, 24#8, 0#5, a, d, 0x01#6⟩
  | .ctz tk d a => some ⟨tk.s, tk.w, 25#8, 0#5, a, d, 0x01#6⟩
  | .popc tk d a => some ⟨tk.s, tk.w, 26#8, 0#5, a, d, 0x01#6⟩
  | .lea tk sh d a b => some ⟨tk.s, tk.w, 12#6 ++ sh, b, a, d, 0x01#6⟩
  | .pset tk cc p a b => some ⟨tk.s, tk.w, 8#5 ++ cc.code, b, a, 0#3 ++ p, 0x01#6⟩
  | .addi tk d a imm => some ⟨tk.s, tk.w, imm.extractLsb' 5 8, imm.extractLsb' 0 5, a, d, 0x02#6⟩
  | .andi tk d a imm => some ⟨tk.s, tk.w, imm.extractLsb' 5 8, imm.extractLsb' 0 5, a, d, 0x03#6⟩
  | .ori tk d a imm => some ⟨tk.s, tk.w, imm.extractLsb' 5 8, imm.extractLsb' 0 5, a, d, 0x04#6⟩
  | .xori tk d a imm => some ⟨tk.s, tk.w, imm.extractLsb' 5 8, imm.extractLsb' 0 5, a, d, 0x05#6⟩
  | .slti tk d a imm => some ⟨tk.s, tk.w, imm.extractLsb' 5 8, imm.extractLsb' 0 5, a, d, 0x06#6⟩
  | .slli tk d a sh => some ⟨tk.s, tk.w, 0#7 ++ sh.extractLsb' 5 1, sh.extractLsb' 0 5, a, d, 0x07#6⟩
  | .srli tk d a sh => some ⟨tk.s, tk.w, 1#7 ++ sh.extractLsb' 5 1, sh.extractLsb' 0 5, a, d, 0x07#6⟩
  | .srai tk d a sh => some ⟨tk.s, tk.w, 2#7 ++ sh.extractLsb' 5 1, sh.extractLsb' 0 5, a, d, 0x07#6⟩
  | .lih tk d imm => some ⟨tk.s, tk.w, imm.extractLsb' 10 8, imm.extractLsb' 5 5, imm.extractLsb' 0 5, d, 0x08#6⟩
  | .addpc tk d imm => some ⟨tk.s, tk.w, imm.extractLsb' 10 8, imm.extractLsb' 5 5, imm.extractLsb' 0 5, d, 0x09#6⟩
  | .jalr tk d a imm => some ⟨tk.s, tk.w, imm.extractLsb' 5 8, imm.extractLsb' 0 5, a, d, 0x0A#6⟩
  | .j tk imm => some ⟨tk.s, tk.w, imm.extractLsb' 15 8, imm.extractLsb' 10 5, imm.extractLsb' 5 5, imm.extractLsb' 0 5, 0x0B#6⟩
  | .jal tk imm => some ⟨tk.s, tk.w, imm.extractLsb' 15 8, imm.extractLsb' 10 5, imm.extractLsb' 5 5, imm.extractLsb' 0 5, 0x0C#6⟩
  | .beq tk a b imm => some ⟨tk.s, tk.w, imm.extractLsb' 5 8, b, a, imm.extractLsb' 0 5, 0x0D#6⟩
  | .bne tk a b imm => some ⟨tk.s, tk.w, imm.extractLsb' 5 8, b, a, imm.extractLsb' 0 5, 0x0E#6⟩
  | .blt tk a b imm => some ⟨tk.s, tk.w, imm.extractLsb' 5 8, b, a, imm.extractLsb' 0 5, 0x0F#6⟩
  | .bge tk a b imm => some ⟨tk.s, tk.w, imm.extractLsb' 5 8, b, a, imm.extractLsb' 0 5, 0x10#6⟩
  | .bltu tk a b imm => some ⟨tk.s, tk.w, imm.extractLsb' 5 8, b, a, imm.extractLsb' 0 5, 0x11#6⟩
  | .bgeu tk a b imm => some ⟨tk.s, tk.w, imm.extractLsb' 5 8, b, a, imm.extractLsb' 0 5, 0x12#6⟩
  | .bp tk p imm => some ⟨tk.s, tk.w, imm.extractLsb' 5 8, imm.extractLsb' 0 5, 0#3 ++ p, 0#5, 0x13#6⟩
  | .bany tk m imm => some ⟨tk.s, tk.w, imm.extractLsb' 5 8, imm.extractLsb' 0 5, 0#2 ++ m, 1#5, 0x13#6⟩
  | .ball tk m imm => some ⟨tk.s, tk.w, imm.extractLsb' 5 8, imm.extractLsb' 0 5, 0#2 ++ m, 2#5, 0x13#6⟩
  | .bnone tk m imm => some ⟨tk.s, tk.w, imm.extractLsb' 5 8, imm.extractLsb' 0 5, 0#2 ++ m, 3#5, 0x13#6⟩
  | .btsb tk a thr imm => some ⟨tk.s, tk.w, imm.extractLsb' 5 8, imm.extractLsb' 0 5, a, thr, 0x14#6⟩
  | .fadd tk rm d a b => some ⟨tk.s, tk.w, 0#5 ++ rm, b, a, d, 0x15#6⟩
  | .fsub tk rm d a b => some ⟨tk.s, tk.w, 1#5 ++ rm, b, a, d, 0x15#6⟩
  | .fmul tk rm d a b => some ⟨tk.s, tk.w, 2#5 ++ rm, b, a, d, 0x15#6⟩
  | .fdiv tk rm d a b => some ⟨tk.s, tk.w, 3#5 ++ rm, b, a, d, 0x15#6⟩
  | .fsqrt tk rm d a => some ⟨tk.s, tk.w, 4#5 ++ rm, 0#5, a, d, 0x15#6⟩
  | .fmin tk d a b => some ⟨tk.s, tk.w, 40#8, b, a, d, 0x15#6⟩
  | .fmax tk d a b => some ⟨tk.s, tk.w, 48#8, b, a, d, 0x15#6⟩
  | .feq tk d a b => some ⟨tk.s, tk.w, 64#8, b, a, d, 0x15#6⟩
  | .flt tk d a b => some ⟨tk.s, tk.w, 72#8, b, a, d, 0x15#6⟩
  | .fle tk d a b => some ⟨tk.s, tk.w, 80#8, b, a, d, 0x15#6⟩
  | .fclass tk d a => some ⟨tk.s, tk.w, 88#8, 0#5, a, d, 0x15#6⟩
  | .fcvt tk dt rm st d a => some ⟨tk.s, tk.w, 2#2 ++ dt ++ rm, 0#2 ++ st, a, d, 0x15#6⟩
  | .fma tk d a b c => some ⟨tk.s, tk.w, 0#3 ++ c, b, a, d, 0x16#6⟩
  | .fnma tk d a b c => some ⟨tk.s, tk.w, 1#3 ++ c, b, a, d, 0x16#6⟩
  | .vadd tk e k d a b => some ⟨tk.s, tk.w, 0#5 ++ k, b, a, d, e.major⟩
  | .vsub tk e k d a b => some ⟨tk.s, tk.w, 1#5 ++ k, b, a, d, e.major⟩
  | .vmul tk e k d a b => some ⟨tk.s, tk.w, 2#5 ++ k, b, a, d, e.major⟩
  | .vmulh tk e k d a b => some ⟨tk.s, tk.w, 3#5 ++ k, b, a, d, e.major⟩
  | .vmin tk e k d a b => some ⟨tk.s, tk.w, 4#5 ++ k, b, a, d, e.major⟩
  | .vmax tk e k d a b => some ⟨tk.s, tk.w, 5#5 ++ k, b, a, d, e.major⟩
  | .vand tk e k d a b => some ⟨tk.s, tk.w, 6#5 ++ k, b, a, d, e.major⟩
  | .vor tk e k d a b => some ⟨tk.s, tk.w, 7#5 ++ k, b, a, d, e.major⟩
  | .vxor tk e k d a b => some ⟨tk.s, tk.w, 8#5 ++ k, b, a, d, e.major⟩
  | .vsll tk e k d a b => some ⟨tk.s, tk.w, 9#5 ++ k, b, a, d, e.major⟩
  | .vsrl tk e k d a b => some ⟨tk.s, tk.w, 10#5 ++ k, b, a, d, e.major⟩
  | .vsra tk e k d a b => some ⟨tk.s, tk.w, 11#5 ++ k, b, a, d, e.major⟩
  | .vcmp tk e o k d a b => some ⟨tk.s, tk.w, o.op5 ++ k, b, a, 0#2 ++ d, e.major⟩
  | .vsel tk e k d a b => some ⟨tk.s, tk.w, 18#5 ++ k, b, a, d, e.major⟩
  | .vredAdd tk e k d a => some ⟨tk.s, tk.w, 20#5 ++ k, 0#5, a, d, e.major⟩
  | .vredMin tk e k d a => some ⟨tk.s, tk.w, 21#5 ++ k, 0#5, a, d, e.major⟩
  | .vredMax tk e k d a => some ⟨tk.s, tk.w, 22#5 ++ k, 0#5, a, d, e.major⟩
  | .vscanAdd tk e k d a => some ⟨tk.s, tk.w, 23#5 ++ k, 0#5, a, d, e.major⟩
  | .vdot4 tk k d a b => some ⟨tk.s, tk.w, 24#5 ++ k, b, a, d, 0x1A#6⟩
  | .vcvtI tk e k d a sel st => some ⟨tk.s, tk.w, 25#5 ++ k, sel ++ st, a, d, e.major⟩
  | .vfadd tk e k d a b => some ⟨tk.s, tk.w, 0#5 ++ k, b, a, d, e.major⟩
  | .vfsub tk e k d a b => some ⟨tk.s, tk.w, 1#5 ++ k, b, a, d, e.major⟩
  | .vfmul tk e k d a b => some ⟨tk.s, tk.w, 2#5 ++ k, b, a, d, e.major⟩
  | .vfdiv tk e k d a b => some ⟨tk.s, tk.w, 3#5 ++ k, b, a, d, e.major⟩
  | .vfmin tk e k d a b => some ⟨tk.s, tk.w, 5#5 ++ k, b, a, d, e.major⟩
  | .vfmax tk e k d a b => some ⟨tk.s, tk.w, 6#5 ++ k, b, a, d, e.major⟩
  | .vfsqrt tk e k d a => some ⟨tk.s, tk.w, 4#5 ++ k, 0#5, a, d, e.major⟩
  | .vfcmp tk e o k d a b => some ⟨tk.s, tk.w, o.op5 ++ k, b, a, 0#2 ++ d, e.major⟩
  | .vcvt tk e k d a sel st => some ⟨tk.s, tk.w, 10#5 ++ k, sel ++ st, a, d, e.major⟩
  | .vredFadd tk e k d a => some ⟨tk.s, tk.w, 11#5 ++ k, 0#5, a, d, e.major⟩
  | .vredFmin tk e k d a => some ⟨tk.s, tk.w, 12#5 ++ k, 0#5, a, d, e.major⟩
  | .vredFmax tk e k d a => some ⟨tk.s, tk.w, 13#5 ++ k, 0#5, a, d, e.major⟩
  | .vscanFadd tk e k d a => some ⟨tk.s, tk.w, 14#5 ++ k, 0#5, a, d, e.major⟩
  | .vexp2 tk k d a => some ⟨tk.s, tk.w, 16#5 ++ k, 0#5, a, d, 0x1B#6⟩
  | .vlog2 tk k d a => some ⟨tk.s, tk.w, 17#5 ++ k, 0#5, a, d, 0x1B#6⟩
  | .vrcp tk k d a => some ⟨tk.s, tk.w, 18#5 ++ k, 0#5, a, d, 0x1B#6⟩
  | .vrsq tk k d a => some ⟨tk.s, tk.w, 19#5 ++ k, 0#5, a, d, 0x1B#6⟩
  | .vsin tk k d a => some ⟨tk.s, tk.w, 20#5 ++ k, 0#5, a, d, 0x1B#6⟩
  | .vcos tk k d a => some ⟨tk.s, tk.w, 21#5 ++ k, 0#5, a, d, 0x1B#6⟩
  | .vtsb tk e k d a => some ⟨tk.s, tk.w, 24#5 ++ k, 0#5, a, d, e.major⟩
  | .vtsblt tk e k d a b => some ⟨tk.s, tk.w, 25#5 ++ k, b, a, 0#2 ++ d, e.major⟩
  | .vsettsb tk e k d a b => some ⟨tk.s, tk.w, 26#5 ++ k, b, a, d, e.major⟩
  | .vperm tk k d a b => some ⟨tk.s, tk.w, 0#5 ++ k, b, a, d, 0x1E#6⟩
  | .vslideUp tk k d a b => some ⟨tk.s, tk.w, 1#5 ++ k, b, a, d, 0x1E#6⟩
  | .vslideDn tk k d a b => some ⟨tk.s, tk.w, 2#5 ++ k, b, a, d, 0x1E#6⟩
  | .vexch tk d a b => some ⟨tk.s, tk.w, 24#8, b, a, d, 0x1E#6⟩
  | .xtov tk k d a => some ⟨tk.s, tk.w, 4#5 ++ k, 0#5, a, d, 0x1E#6⟩
  | .vtox tk k d a => some ⟨tk.s, tk.w, 5#5 ++ k, 0#5, a, d, 0x1E#6⟩
  | .vtoxa tk k d a => some ⟨tk.s, tk.w, 6#5 ++ k, 0#5, a, d, 0x1E#6⟩
  | .mtox tk d a => some ⟨tk.s, tk.w, 56#8, 0#5, 0#2 ++ a, d, 0x1E#6⟩
  | .xtom tk d a => some ⟨tk.s, tk.w, 64#8, 0#5, a, 0#2 ++ d, 0x1E#6⟩
  | .mand tk d a b => some ⟨tk.s, tk.w, 72#8, 0#2 ++ b, 0#2 ++ a, 0#2 ++ d, 0x1E#6⟩
  | .mor tk d a b => some ⟨tk.s, tk.w, 80#8, 0#2 ++ b, 0#2 ++ a, 0#2 ++ d, 0x1E#6⟩
  | .mxor tk d a b => some ⟨tk.s, tk.w, 88#8, 0#2 ++ b, 0#2 ++ a, 0#2 ++ d, 0x1E#6⟩
  | .mnot tk d a => some ⟨tk.s, tk.w, 96#8, 0#5, 0#2 ++ a, 0#2 ++ d, 0x1E#6⟩
  | .mpop tk d a => some ⟨tk.s, tk.w, 104#8, 0#5, 0#2 ++ a, d, 0x1E#6⟩
  | .mfirst tk d a => some ⟨tk.s, tk.w, 112#8, 0#5, 0#2 ++ a, d, 0x1E#6⟩
  | .vportr tk k d p => some ⟨tk.s, tk.w, 15#5 ++ k, 0#5, 7#3 ++ p, d, 0x1E#6⟩
  | .vportw tk k p a => some ⟨tk.s, tk.w, 16#5 ++ k, 0#5, a, 7#3 ++ p, 0x1E#6⟩
  | .vfma tk e k d a b c => some ⟨tk.s, tk.w, k ++ c, b, a, d, e.fmaMajor 0#1⟩
  | .vfnma tk e k d a b c => some ⟨tk.s, tk.w, k ++ c, b, a, d, e.fmaMajor 1#1⟩
  | .vclip tk e k d a b c => some ⟨tk.s, tk.w, k ++ c, b, a, d, 0x13#5 ++ e⟩
  | .ldB tk d a imm => some ⟨tk.s, tk.w, imm.extractLsb' 5 8, imm.extractLsb' 0 5, a, d, 0x28#6⟩
  | .ldBu tk d a imm => some ⟨tk.s, tk.w, imm.extractLsb' 5 8, imm.extractLsb' 0 5, a, d, 0x29#6⟩
  | .ldH tk d a imm => some ⟨tk.s, tk.w, imm.extractLsb' 5 8, imm.extractLsb' 0 5, a, d, 0x2A#6⟩
  | .ldHu tk d a imm => some ⟨tk.s, tk.w, imm.extractLsb' 5 8, imm.extractLsb' 0 5, a, d, 0x2B#6⟩
  | .ldW tk d a imm => some ⟨tk.s, tk.w, imm.extractLsb' 5 8, imm.extractLsb' 0 5, a, d, 0x2C#6⟩
  | .ldWu tk d a imm => some ⟨tk.s, tk.w, imm.extractLsb' 5 8, imm.extractLsb' 0 5, a, d, 0x2D#6⟩
  | .ldD tk d a imm => some ⟨tk.s, tk.w, imm.extractLsb' 5 8, imm.extractLsb' 0 5, a, d, 0x2E#6⟩
  | .stB tk b a imm => some ⟨tk.s, tk.w, imm.extractLsb' 5 8, b, a, imm.extractLsb' 0 5, 0x30#6⟩
  | .stH tk b a imm => some ⟨tk.s, tk.w, imm.extractLsb' 5 8, b, a, imm.extractLsb' 0 5, 0x31#6⟩
  | .stW tk b a imm => some ⟨tk.s, tk.w, imm.extractLsb' 5 8, b, a, imm.extractLsb' 0 5, 0x32#6⟩
  | .stD tk b a imm => some ⟨tk.s, tk.w, imm.extractLsb' 5 8, b, a, imm.extractLsb' 0 5, 0x33#6⟩
  | .vld tk d a imm => some ⟨tk.s, tk.w, imm.extractLsb' 5 8, imm.extractLsb' 0 5, a, d, 0x34#6⟩
  | .vst tk b a imm => some ⟨tk.s, tk.w, imm.extractLsb' 5 8, b, a, imm.extractLsb' 0 5, 0x35#6⟩
  | .ldAcq tk wd d a sc => some ⟨tk.s, tk.w, 0#5 ++ wd, 0#2 ++ sc, a, d, 0x36#6⟩
  | .stRel tk wd b a sc => some ⟨tk.s, tk.w, 2#6 ++ wd, b, a, 0#2 ++ sc, 0x36#6⟩
  | .ldt tk d a => some ⟨tk.s, tk.w, 16#8, 0#5, a, d, 0x36#6⟩
  | .stt tk b a => some ⟨tk.s, tk.w, 17#8, b, a, 0#5, 0x36#6⟩
  | .vldx tk k d a b => some ⟨tk.s, tk.w, 3#5 ++ k, b, a, d, 0x36#6⟩
  | .vstx tk k d a b => some ⟨tk.s, tk.w, 4#5 ++ k, b, a, d, 0x36#6⟩
  | .amoadd tk sc z d a b => some ⟨tk.s, tk.w, 0#3 ++ sc ++ z ++ 0#1, b, a, d, 0x37#6⟩
  | .amoand tk sc z d a b => some ⟨tk.s, tk.w, 1#3 ++ sc ++ z ++ 0#1, b, a, d, 0x37#6⟩
  | .amoor tk sc z d a b => some ⟨tk.s, tk.w, 2#3 ++ sc ++ z ++ 0#1, b, a, d, 0x37#6⟩
  | .amoxor tk sc z d a b => some ⟨tk.s, tk.w, 3#3 ++ sc ++ z ++ 0#1, b, a, d, 0x37#6⟩
  | .amomin tk sc z d a b => some ⟨tk.s, tk.w, 4#3 ++ sc ++ z ++ 0#1, b, a, d, 0x37#6⟩
  | .amomax tk sc z d a b => some ⟨tk.s, tk.w, 5#3 ++ sc ++ z ++ 0#1, b, a, d, 0x37#6⟩
  | .amoswap tk sc z d a b => some ⟨tk.s, tk.w, 6#3 ++ sc ++ z ++ 0#1, b, a, d, 0x37#6⟩
  | .amocas tk sc z d a b => some ⟨tk.s, tk.w, 7#3 ++ sc ++ z ++ 0#1, b, a, d, 0x37#6⟩
  | .csrr tk d n => some ⟨tk.s, tk.w, 0#2 ++ n.extractLsb' 5 6, n.extractLsb' 0 5, 0#5, d, 0x38#6⟩
  | .csrw tk a n => some ⟨tk.s, tk.w, 1#2 ++ n.extractLsb' 5 6, n.extractLsb' 0 5, a, 0#5, 0x38#6⟩
  | .csrs tk d a n => some ⟨tk.s, tk.w, 2#2 ++ n.extractLsb' 5 6, n.extractLsb' 0 5, a, d, 0x38#6⟩
  | .csrc tk d a n => some ⟨tk.s, tk.w, 3#2 ++ n.extractLsb' 5 6, n.extractLsb' 0 5, a, d, 0x38#6⟩
  | .fence tk kk sc => some ⟨tk.s, tk.w, 0#8, 0#5, 0#2 ++ sc, 0#3 ++ kk, 0x39#6⟩
  | .sdrain tk => some ⟨tk.s, tk.w, 1#8, 0#5, 0#5, 0#5, 0x39#6⟩
  | .chkerr tk d => some ⟨tk.s, tk.w, 2#8, 0#5, 0#5, d, 0x39#6⟩
  | .chkerrClr tk d => some ⟨tk.s, tk.w, 3#8, 0#5, 0#5, d, 0x39#6⟩
  | .ecall tk => some ⟨tk.s, tk.w, 4#8, 0#5, 0#5, 0#5, 0x39#6⟩
  | .ebreak tk => some ⟨tk.s, tk.w, 5#8, 0#5, 0#5, 0#5, 0x39#6⟩
  | .tret tk => some ⟨tk.s, tk.w, 6#8, 0#5, 0#5, 0#5, 0x39#6⟩
  | .qtest tk p q => some ⟨tk.s, tk.w, 8#8, 0#5, 3#2 ++ q, 0#3 ++ p, 0x39#6⟩
  | .qtok tk d q => some ⟨tk.s, tk.w, 9#8, 0#5, 3#2 ++ q, d, 0x39#6⟩
  | .recfg tk a => some ⟨tk.s, tk.w, 12#8, 0#5, a, 0#5, 0x39#6⟩
  | .shadow tk a => some ⟨tk.s, tk.w, 13#8, 0#5, a, 0#5, 0x39#6⟩
  | .join tk a b => some ⟨tk.s, tk.w, 0#8, b, a, 0#5, 0x3A#6⟩
  | .leave tk a => some ⟨tk.s, tk.w, 1#8, 0#5, a, 0#5, 0x3A#6⟩
  | .gbar tk a => some ⟨tk.s, tk.w, 2#8, 0#5, a, 0#5, 0x3A#6⟩
  | .gkill tk a => some ⟨tk.s, tk.w, 3#8, 0#5, a, 0#5, 0x3A#6⟩
  | .tspawn tk a b => some ⟨tk.s, tk.w, 4#8, b, a, 0#5, 0x3A#6⟩
  | .texit tk => some ⟨tk.s, tk.w, 5#8, 0#5, 0#5, 0#5, 0x3A#6⟩
  | .evset tk n => some ⟨tk.s, tk.w, 6#8, 0#2 ++ n.extractLsb' 5 3, n.extractLsb' 0 5, 0#5, 0x3A#6⟩
  | .evclr tk n => some ⟨tk.s, tk.w, 7#8, 0#2 ++ n.extractLsb' 5 3, n.extractLsb' 0 5, 0#5, 0x3A#6⟩
  | .wfe tk n => some ⟨tk.s, tk.w, 8#8, 0#2 ++ n.extractLsb' 5 3, n.extractLsb' 0 5, 0#5, 0x3A#6⟩
  | .send tk a b => some ⟨tk.s, tk.w, 9#8, b, a, 0#5, 0x3A#6⟩
  | .waitc tk a => some ⟨tk.s, tk.w, 10#8, 0#5, a, 0#5, 0x3A#6⟩
  | .tld tk d a b => some ⟨tk.s, tk.w, 0#8, b, a, 0#2 ++ d, 0x3B#6⟩
  | .tldH tk d a b => some ⟨tk.s, tk.w, 1#8, b, a, 0#2 ++ d, 0x3B#6⟩
  | .tldHk tk d a b => some ⟨tk.s, tk.w, 2#8, b, a, 0#2 ++ d, 0x3B#6⟩
  | .tst tk b a => some ⟨tk.s, tk.w, 3#8, 0#2 ++ b, a, 0#5, 0x3B#6⟩
  | .tzero tk d => some ⟨tk.s, tk.w, 4#8, 0#5, 0#5, 0#2 ++ d, 0x3B#6⟩
  | .mma tk d a b => some ⟨tk.s, tk.w, 5#8, 0#2 ++ b, 0#2 ++ a, 0#3 ++ d, 0x3B#6⟩
  | .mmaNc tk d a b => some ⟨tk.s, tk.w, 6#8, 0#2 ++ b, 0#2 ++ a, 0#3 ++ d, 0x3B#6⟩
  | .mmag tk d a b => some ⟨tk.s, tk.w, 7#8, b, 0#2 ++ a, 0#3 ++ d, 0x3B#6⟩
  | .mmagNc tk d a b => some ⟨tk.s, tk.w, 8#8, b, 0#2 ++ a, 0#3 ++ d, 0x3B#6⟩
  | .acz tk d => some ⟨tk.s, tk.w, 9#8, 0#5, 0#5, 0#3 ++ d, 0x3B#6⟩
  | .tcsum tk d => some ⟨tk.s, tk.w, 10#8, 0#5, 0#5, 0#2 ++ d, 0x3B#6⟩
  | .tcchk tk p a => some ⟨tk.s, tk.w, 11#8, 0#5, 0#2 ++ a, 0#3 ++ p, 0x3B#6⟩
  | .tbound tk a => some ⟨tk.s, tk.w, 12#8, 0#5, a, 0#5, 0x3B#6⟩
  | .acnv tk f d a => some ⟨tk.s, tk.w, 1#4 ++ f, 0#5, 0#3 ++ a, 0#2 ++ d, 0x3B#6⟩
  | .alloc tk d a z => some ⟨tk.s, tk.w, 0#8, 0#3 ++ z, a, d, 0x3C#6⟩
  | .sealTile tk a => some ⟨tk.s, tk.w, 1#8, 0#5, a, 0#5, 0x3C#6⟩
  | .tpdrop tk a b => some ⟨tk.s, tk.w, 2#8, b, a, 0#5, 0x3C#6⟩
  | .strm tk a b => some ⟨tk.s, tk.w, 3#8, b, a, 0#5, 0x3C#6⟩
  | .spbset tk n a => some ⟨tk.s, tk.w, 4#8, 0#5, a, 0#2 ++ n, 0x3C#6⟩
  | .swait tk n => some ⟨tk.s, tk.w, 5#8, 0#2 ++ n, 0#5, 0#5, 0x3C#6⟩
  | .spillq tk q a => some ⟨tk.s, tk.w, 6#8, 0#5, a, 0#2 ++ q, 0x3C#6⟩
  | .kerf tk => some ⟨tk.s, tk.w, 7#8, 0#5, 0#5, 0#5, 0x3C#6⟩
  | .cMv _ _
  | .cAdd _ _
  | .cSub _ _
  | .cAnd _ _
  | .cOr _ _
  | .cXor _ _
  | .cAddi _ _
  | .cLi _ _
  | .cSlli _ _
  | .cSrli _ _
  | .cSrai _ _
  | .cAndi _ _
  | .cLdd _ _
  | .cStd _ _
  | .cLdw _ _
  | .cStw _ _
  | .cJ _
  | .cBeqz _ _
  | .cBnez _ _
  | .cJr _
  | .cJalr _
  | .cNop
  | .cTexit
  | .cEbreak
  | .cSlt _ _
  | .cSltu _ _
  | .cMul _ _
  | .route _ _ _ _ _ _
  | .routec _ _ _ _ _ _
  | .steer _ _ _ _ _
  | .merge _ _ _ _ _
  | .emit _ _ _ _ _
  | .waittok _ _ _ _ _ _
  | .loop _ _
  | .bnz _ _
  | .jmp _
  | .halt
  | .sfdrop _
  | .sfrpl _
  | .streamAbort _ _
  | .streamResume _ _
  | .tshpWrite _ _ _
  | .switchFlitPass _ _
  | .seamRetryFailure _ _
  | .loadDataReturn _ _
  | .storeTranslationDone _ _
  | .streamElement _ _
  | .streamComplete _ _
  | .ringEos _ _
  | .allocServe _ _
  | .readAdmission _ _
  | .compressTile _ _
  | .expandTile _ _
  | .convert _ _
  | .tldDelivery _ _
  | .nodePass _
  | .nodeRow _
  | .read _
  | .write _
  | .atomic _
  | .readReply _
  | .writeAcknowledgement _
  | .taskRecord _
  | .activeMessage _
  | .inboxAcknowledgement _
  | .poolRequest _
  | .poolReply _
  | .walkRequest _
  | .walkReply _
  | .interrupt _
  | .purge _
  | .purgeAcknowledgement _
  | .copy _
  | .copy2d _
  | .fill _
  | .tcopy _
  | .reduce _
  | .bcast _
  | .dispatch _
  | .ageing _
  | .waveOpen _
  | .kiCut _
  | .releaseCommitTimeout _
  | .kerfPart _ _
  | .waveComplete _
  | .rollbackDrainTimeout _
  | .rollbackRestore _
  | .cfgParity _ _
  | .configLoadComplete _
  | .shadowFetchDone _
  | .cellSwap _
  | .drainComplete _
  | .preemptTimeout _
  | .stallWatchdog _
  | .hang _
  | .replyTimeout _
  | .inboxWrite _ _ _
  | .openRegion _ _
  | .map _ _
  | .unmap _ _
  | .loadcfg _ _
  | .spawn _ _
  | .signal _ _
  | .preempt _ _
  | .resume _ _
  | .kill _ _
  | .query _ _
  | .attest _ _
  | .fwupd _ _
  | .coldReset
  | .pfFunctionLevelReset
  | .vfReset _
  | .thermalTrip
  | .throttle _ _
  | .plimitWrite _
  | .vfrectWrite _ _
  | .mgmtRegisterWrite _ _ _
  | .scarfLinkDown _
  | .scarfDeliveryFailure _
  | .illegal _
  | .fetchPage _
  | .debuggerHalt _ _ => none

/-- The 16-bit parcel of a compressed instruction (R65). -/
def toParcel : Instr → Option (BitVec 16)
  | .cMv d b => some (1#5 ++ d ++ b ++ 0#1)
  | .cAdd d b => some (2#5 ++ d ++ b ++ 0#1)
  | .cSub d b => some (3#5 ++ d ++ b ++ 0#1)
  | .cAnd d b => some (4#5 ++ d ++ b ++ 0#1)
  | .cOr d b => some (5#5 ++ d ++ b ++ 0#1)
  | .cXor d b => some (6#5 ++ d ++ b ++ 0#1)
  | .cAddi d i => some (7#5 ++ d ++ i ++ 0#1)
  | .cLi d i => some (8#5 ++ d ++ i ++ 0#1)
  | .cSlli d i => some (9#5 ++ d ++ i ++ 0#1)
  | .cSrli d i => some (10#5 ++ d ++ i ++ 0#1)
  | .cSrai d i => some (11#5 ++ d ++ i ++ 0#1)
  | .cAndi d i => some (12#5 ++ d ++ i ++ 0#1)
  | .cLdd d i => some (13#5 ++ d ++ i ++ 0#1)
  | .cStd d i => some (14#5 ++ d ++ i ++ 0#1)
  | .cLdw d i => some (15#5 ++ d ++ i ++ 0#1)
  | .cStw d i => some (16#5 ++ d ++ i ++ 0#1)
  | .cJ i => some (17#5 ++ i ++ 0#1)
  | .cBeqz a i => some (18#5 ++ a ++ i ++ 0#1)
  | .cBnez a i => some (19#5 ++ a ++ i ++ 0#1)
  | .cJr a => some (20#5 ++ a ++ 0#5 ++ 0#1)
  | .cJalr a => some (21#5 ++ a ++ 0#5 ++ 0#1)
  | .cNop => some (22#5 ++ 0#5 ++ 0#5 ++ 0#1)
  | .cTexit => some (23#5 ++ 0#5 ++ 0#5 ++ 0#1)
  | .cEbreak => some (24#5 ++ 0#5 ++ 0#5 ++ 0#1)
  | .cSlt d b => some (25#5 ++ d ++ b ++ 0#1)
  | .cSltu d b => some (26#5 ++ d ++ b ++ 0#1)
  | .cMul d b => some (27#5 ++ d ++ b ++ 0#1)
  | .add _ _ _ _
  | .sub _ _ _ _
  | .and _ _ _ _
  | .or _ _ _ _
  | .xor _ _ _ _
  | .sll _ _ _ _
  | .srl _ _ _ _
  | .sra _ _ _ _
  | .slt _ _ _ _
  | .sltu _ _ _ _
  | .min _ _ _ _
  | .max _ _ _ _
  | .minu _ _ _ _
  | .maxu _ _ _ _
  | .mul _ _ _ _
  | .mulh _ _ _ _
  | .mulhu _ _ _ _
  | .div _ _ _ _
  | .divu _ _ _ _
  | .rem _ _ _ _
  | .remu _ _ _ _
  | .clz _ _ _
  | .ctz _ _ _
  | .popc _ _ _
  | .lea _ _ _ _ _
  | .pset _ _ _ _ _
  | .addi _ _ _ _
  | .andi _ _ _ _
  | .ori _ _ _ _
  | .xori _ _ _ _
  | .slti _ _ _ _
  | .slli _ _ _ _
  | .srli _ _ _ _
  | .srai _ _ _ _
  | .lih _ _ _
  | .addpc _ _ _
  | .jalr _ _ _ _
  | .j _ _
  | .jal _ _
  | .beq _ _ _ _
  | .bne _ _ _ _
  | .blt _ _ _ _
  | .bge _ _ _ _
  | .bltu _ _ _ _
  | .bgeu _ _ _ _
  | .bp _ _ _
  | .bany _ _ _
  | .ball _ _ _
  | .bnone _ _ _
  | .btsb _ _ _ _
  | .fadd _ _ _ _ _
  | .fsub _ _ _ _ _
  | .fmul _ _ _ _ _
  | .fdiv _ _ _ _ _
  | .fsqrt _ _ _ _
  | .fmin _ _ _ _
  | .fmax _ _ _ _
  | .feq _ _ _ _
  | .flt _ _ _ _
  | .fle _ _ _ _
  | .fclass _ _ _
  | .fcvt _ _ _ _ _ _
  | .fma _ _ _ _ _
  | .fnma _ _ _ _ _
  | .vadd _ _ _ _ _ _
  | .vsub _ _ _ _ _ _
  | .vmul _ _ _ _ _ _
  | .vmulh _ _ _ _ _ _
  | .vmin _ _ _ _ _ _
  | .vmax _ _ _ _ _ _
  | .vand _ _ _ _ _ _
  | .vor _ _ _ _ _ _
  | .vxor _ _ _ _ _ _
  | .vsll _ _ _ _ _ _
  | .vsrl _ _ _ _ _ _
  | .vsra _ _ _ _ _ _
  | .vcmp _ _ _ _ _ _ _
  | .vsel _ _ _ _ _ _
  | .vredAdd _ _ _ _ _
  | .vredMin _ _ _ _ _
  | .vredMax _ _ _ _ _
  | .vscanAdd _ _ _ _ _
  | .vdot4 _ _ _ _ _
  | .vcvtI _ _ _ _ _ _ _
  | .vfadd _ _ _ _ _ _
  | .vfsub _ _ _ _ _ _
  | .vfmul _ _ _ _ _ _
  | .vfdiv _ _ _ _ _ _
  | .vfmin _ _ _ _ _ _
  | .vfmax _ _ _ _ _ _
  | .vfsqrt _ _ _ _ _
  | .vfcmp _ _ _ _ _ _ _
  | .vcvt _ _ _ _ _ _ _
  | .vredFadd _ _ _ _ _
  | .vredFmin _ _ _ _ _
  | .vredFmax _ _ _ _ _
  | .vscanFadd _ _ _ _ _
  | .vexp2 _ _ _ _
  | .vlog2 _ _ _ _
  | .vrcp _ _ _ _
  | .vrsq _ _ _ _
  | .vsin _ _ _ _
  | .vcos _ _ _ _
  | .vtsb _ _ _ _ _
  | .vtsblt _ _ _ _ _ _
  | .vsettsb _ _ _ _ _ _
  | .vperm _ _ _ _ _
  | .vslideUp _ _ _ _ _
  | .vslideDn _ _ _ _ _
  | .vexch _ _ _ _
  | .xtov _ _ _ _
  | .vtox _ _ _ _
  | .vtoxa _ _ _ _
  | .mtox _ _ _
  | .xtom _ _ _
  | .mand _ _ _ _
  | .mor _ _ _ _
  | .mxor _ _ _ _
  | .mnot _ _ _
  | .mpop _ _ _
  | .mfirst _ _ _
  | .vportr _ _ _ _
  | .vportw _ _ _ _
  | .vfma _ _ _ _ _ _ _
  | .vfnma _ _ _ _ _ _ _
  | .vclip _ _ _ _ _ _ _
  | .ldB _ _ _ _
  | .ldBu _ _ _ _
  | .ldH _ _ _ _
  | .ldHu _ _ _ _
  | .ldW _ _ _ _
  | .ldWu _ _ _ _
  | .ldD _ _ _ _
  | .stB _ _ _ _
  | .stH _ _ _ _
  | .stW _ _ _ _
  | .stD _ _ _ _
  | .vld _ _ _ _
  | .vst _ _ _ _
  | .ldAcq _ _ _ _ _
  | .stRel _ _ _ _ _
  | .ldt _ _ _
  | .stt _ _ _
  | .vldx _ _ _ _ _
  | .vstx _ _ _ _ _
  | .amoadd _ _ _ _ _ _
  | .amoand _ _ _ _ _ _
  | .amoor _ _ _ _ _ _
  | .amoxor _ _ _ _ _ _
  | .amomin _ _ _ _ _ _
  | .amomax _ _ _ _ _ _
  | .amoswap _ _ _ _ _ _
  | .amocas _ _ _ _ _ _
  | .csrr _ _ _
  | .csrw _ _ _
  | .csrs _ _ _ _
  | .csrc _ _ _ _
  | .fence _ _ _
  | .sdrain _
  | .chkerr _ _
  | .chkerrClr _ _
  | .ecall _
  | .ebreak _
  | .tret _
  | .qtest _ _ _
  | .qtok _ _ _
  | .recfg _ _
  | .shadow _ _
  | .join _ _ _
  | .leave _ _
  | .gbar _ _
  | .gkill _ _
  | .tspawn _ _ _
  | .texit _
  | .evset _ _
  | .evclr _ _
  | .wfe _ _
  | .send _ _ _
  | .waitc _ _
  | .tld _ _ _ _
  | .tldH _ _ _ _
  | .tldHk _ _ _ _
  | .tst _ _ _
  | .tzero _ _
  | .mma _ _ _ _
  | .mmaNc _ _ _ _
  | .mmag _ _ _ _
  | .mmagNc _ _ _ _
  | .acz _ _
  | .tcsum _ _
  | .tcchk _ _ _
  | .tbound _ _
  | .acnv _ _ _ _
  | .alloc _ _ _ _
  | .sealTile _ _
  | .tpdrop _ _ _
  | .strm _ _ _
  | .spbset _ _ _
  | .swait _ _
  | .spillq _ _ _
  | .kerf _
  | .route _ _ _ _ _ _
  | .routec _ _ _ _ _ _
  | .steer _ _ _ _ _
  | .merge _ _ _ _ _
  | .emit _ _ _ _ _
  | .waittok _ _ _ _ _ _
  | .loop _ _
  | .bnz _ _
  | .jmp _
  | .halt
  | .sfdrop _
  | .sfrpl _
  | .streamAbort _ _
  | .streamResume _ _
  | .tshpWrite _ _ _
  | .switchFlitPass _ _
  | .seamRetryFailure _ _
  | .loadDataReturn _ _
  | .storeTranslationDone _ _
  | .streamElement _ _
  | .streamComplete _ _
  | .ringEos _ _
  | .allocServe _ _
  | .readAdmission _ _
  | .compressTile _ _
  | .expandTile _ _
  | .convert _ _
  | .tldDelivery _ _
  | .nodePass _
  | .nodeRow _
  | .read _
  | .write _
  | .atomic _
  | .readReply _
  | .writeAcknowledgement _
  | .taskRecord _
  | .activeMessage _
  | .inboxAcknowledgement _
  | .poolRequest _
  | .poolReply _
  | .walkRequest _
  | .walkReply _
  | .interrupt _
  | .purge _
  | .purgeAcknowledgement _
  | .copy _
  | .copy2d _
  | .fill _
  | .tcopy _
  | .reduce _
  | .bcast _
  | .dispatch _
  | .ageing _
  | .waveOpen _
  | .kiCut _
  | .releaseCommitTimeout _
  | .kerfPart _ _
  | .waveComplete _
  | .rollbackDrainTimeout _
  | .rollbackRestore _
  | .cfgParity _ _
  | .configLoadComplete _
  | .shadowFetchDone _
  | .cellSwap _
  | .drainComplete _
  | .preemptTimeout _
  | .stallWatchdog _
  | .hang _
  | .replyTimeout _
  | .inboxWrite _ _ _
  | .openRegion _ _
  | .map _ _
  | .unmap _ _
  | .loadcfg _ _
  | .spawn _ _
  | .signal _ _
  | .preempt _ _
  | .resume _ _
  | .kill _ _
  | .query _ _
  | .attest _ _
  | .fwupd _ _
  | .coldReset
  | .pfFunctionLevelReset
  | .vfReset _
  | .thermalTrip
  | .throttle _ _
  | .plimitWrite _
  | .vfrectWrite _ _
  | .mgmtRegisterWrite _ _ _
  | .scarfLinkDown _
  | .scarfDeliveryFailure _
  | .illegal _
  | .fetchPage _
  | .debuggerHalt _ _ => none

/-- The 64-bit word of a switch instruction (R72). -/
def toSwitchWord : Instr → Option (BitVec 64)
  | .route n r0 r1 r2 r3 cnt => some (1#5 ++ n ++ 0#2 ++ r0 ++ r1 ++ r2 ++ r3 ++ cnt ++ 0#3)
  | .routec n r0 r1 r2 r3 kind => some (2#5 ++ n ++ 0#2 ++ r0 ++ r1 ++ r2 ++ r3 ++ kind ++ 0#12)
  | .steer inp out0 out1 ctl cnt => some (3#5 ++ inp ++ out0 ++ out1 ++ ctl ++ cnt ++ 0#27)
  | .merge in0 in1 out ctl cnt => some (4#5 ++ in0 ++ in1 ++ out ++ ctl ++ cnt ++ 0#27)
  | .emit out kind vc sb value => some (5#5 ++ out ++ kind ++ vc ++ sb ++ value ++ 0#8)
  | .waittok inp kind sb ld ck target => some (6#5 ++ inp ++ kind ++ sb ++ ld ++ ck ++ 0#30 ++ target)
  | .loop ck n => some (7#5 ++ ck ++ n ++ 0#33)
  | .bnz ck target => some (8#5 ++ ck ++ 0#45 ++ target)
  | .jmp target => some (9#5 ++ 0#47 ++ target)
  | .halt => some (10#5 ++ 0#59)
  | .add _ _ _ _
  | .sub _ _ _ _
  | .and _ _ _ _
  | .or _ _ _ _
  | .xor _ _ _ _
  | .sll _ _ _ _
  | .srl _ _ _ _
  | .sra _ _ _ _
  | .slt _ _ _ _
  | .sltu _ _ _ _
  | .min _ _ _ _
  | .max _ _ _ _
  | .minu _ _ _ _
  | .maxu _ _ _ _
  | .mul _ _ _ _
  | .mulh _ _ _ _
  | .mulhu _ _ _ _
  | .div _ _ _ _
  | .divu _ _ _ _
  | .rem _ _ _ _
  | .remu _ _ _ _
  | .clz _ _ _
  | .ctz _ _ _
  | .popc _ _ _
  | .lea _ _ _ _ _
  | .pset _ _ _ _ _
  | .addi _ _ _ _
  | .andi _ _ _ _
  | .ori _ _ _ _
  | .xori _ _ _ _
  | .slti _ _ _ _
  | .slli _ _ _ _
  | .srli _ _ _ _
  | .srai _ _ _ _
  | .lih _ _ _
  | .addpc _ _ _
  | .jalr _ _ _ _
  | .j _ _
  | .jal _ _
  | .beq _ _ _ _
  | .bne _ _ _ _
  | .blt _ _ _ _
  | .bge _ _ _ _
  | .bltu _ _ _ _
  | .bgeu _ _ _ _
  | .bp _ _ _
  | .bany _ _ _
  | .ball _ _ _
  | .bnone _ _ _
  | .btsb _ _ _ _
  | .fadd _ _ _ _ _
  | .fsub _ _ _ _ _
  | .fmul _ _ _ _ _
  | .fdiv _ _ _ _ _
  | .fsqrt _ _ _ _
  | .fmin _ _ _ _
  | .fmax _ _ _ _
  | .feq _ _ _ _
  | .flt _ _ _ _
  | .fle _ _ _ _
  | .fclass _ _ _
  | .fcvt _ _ _ _ _ _
  | .fma _ _ _ _ _
  | .fnma _ _ _ _ _
  | .vadd _ _ _ _ _ _
  | .vsub _ _ _ _ _ _
  | .vmul _ _ _ _ _ _
  | .vmulh _ _ _ _ _ _
  | .vmin _ _ _ _ _ _
  | .vmax _ _ _ _ _ _
  | .vand _ _ _ _ _ _
  | .vor _ _ _ _ _ _
  | .vxor _ _ _ _ _ _
  | .vsll _ _ _ _ _ _
  | .vsrl _ _ _ _ _ _
  | .vsra _ _ _ _ _ _
  | .vcmp _ _ _ _ _ _ _
  | .vsel _ _ _ _ _ _
  | .vredAdd _ _ _ _ _
  | .vredMin _ _ _ _ _
  | .vredMax _ _ _ _ _
  | .vscanAdd _ _ _ _ _
  | .vdot4 _ _ _ _ _
  | .vcvtI _ _ _ _ _ _ _
  | .vfadd _ _ _ _ _ _
  | .vfsub _ _ _ _ _ _
  | .vfmul _ _ _ _ _ _
  | .vfdiv _ _ _ _ _ _
  | .vfmin _ _ _ _ _ _
  | .vfmax _ _ _ _ _ _
  | .vfsqrt _ _ _ _ _
  | .vfcmp _ _ _ _ _ _ _
  | .vcvt _ _ _ _ _ _ _
  | .vredFadd _ _ _ _ _
  | .vredFmin _ _ _ _ _
  | .vredFmax _ _ _ _ _
  | .vscanFadd _ _ _ _ _
  | .vexp2 _ _ _ _
  | .vlog2 _ _ _ _
  | .vrcp _ _ _ _
  | .vrsq _ _ _ _
  | .vsin _ _ _ _
  | .vcos _ _ _ _
  | .vtsb _ _ _ _ _
  | .vtsblt _ _ _ _ _ _
  | .vsettsb _ _ _ _ _ _
  | .vperm _ _ _ _ _
  | .vslideUp _ _ _ _ _
  | .vslideDn _ _ _ _ _
  | .vexch _ _ _ _
  | .xtov _ _ _ _
  | .vtox _ _ _ _
  | .vtoxa _ _ _ _
  | .mtox _ _ _
  | .xtom _ _ _
  | .mand _ _ _ _
  | .mor _ _ _ _
  | .mxor _ _ _ _
  | .mnot _ _ _
  | .mpop _ _ _
  | .mfirst _ _ _
  | .vportr _ _ _ _
  | .vportw _ _ _ _
  | .vfma _ _ _ _ _ _ _
  | .vfnma _ _ _ _ _ _ _
  | .vclip _ _ _ _ _ _ _
  | .ldB _ _ _ _
  | .ldBu _ _ _ _
  | .ldH _ _ _ _
  | .ldHu _ _ _ _
  | .ldW _ _ _ _
  | .ldWu _ _ _ _
  | .ldD _ _ _ _
  | .stB _ _ _ _
  | .stH _ _ _ _
  | .stW _ _ _ _
  | .stD _ _ _ _
  | .vld _ _ _ _
  | .vst _ _ _ _
  | .ldAcq _ _ _ _ _
  | .stRel _ _ _ _ _
  | .ldt _ _ _
  | .stt _ _ _
  | .vldx _ _ _ _ _
  | .vstx _ _ _ _ _
  | .amoadd _ _ _ _ _ _
  | .amoand _ _ _ _ _ _
  | .amoor _ _ _ _ _ _
  | .amoxor _ _ _ _ _ _
  | .amomin _ _ _ _ _ _
  | .amomax _ _ _ _ _ _
  | .amoswap _ _ _ _ _ _
  | .amocas _ _ _ _ _ _
  | .csrr _ _ _
  | .csrw _ _ _
  | .csrs _ _ _ _
  | .csrc _ _ _ _
  | .fence _ _ _
  | .sdrain _
  | .chkerr _ _
  | .chkerrClr _ _
  | .ecall _
  | .ebreak _
  | .tret _
  | .qtest _ _ _
  | .qtok _ _ _
  | .recfg _ _
  | .shadow _ _
  | .join _ _ _
  | .leave _ _
  | .gbar _ _
  | .gkill _ _
  | .tspawn _ _ _
  | .texit _
  | .evset _ _
  | .evclr _ _
  | .wfe _ _
  | .send _ _ _
  | .waitc _ _
  | .tld _ _ _ _
  | .tldH _ _ _ _
  | .tldHk _ _ _ _
  | .tst _ _ _
  | .tzero _ _
  | .mma _ _ _ _
  | .mmaNc _ _ _ _
  | .mmag _ _ _ _
  | .mmagNc _ _ _ _
  | .acz _ _
  | .tcsum _ _
  | .tcchk _ _ _
  | .tbound _ _
  | .acnv _ _ _ _
  | .alloc _ _ _ _
  | .sealTile _ _
  | .tpdrop _ _ _
  | .strm _ _ _
  | .spbset _ _ _
  | .swait _ _
  | .spillq _ _ _
  | .kerf _
  | .cMv _ _
  | .cAdd _ _
  | .cSub _ _
  | .cAnd _ _
  | .cOr _ _
  | .cXor _ _
  | .cAddi _ _
  | .cLi _ _
  | .cSlli _ _
  | .cSrli _ _
  | .cSrai _ _
  | .cAndi _ _
  | .cLdd _ _
  | .cStd _ _
  | .cLdw _ _
  | .cStw _ _
  | .cJ _
  | .cBeqz _ _
  | .cBnez _ _
  | .cJr _
  | .cJalr _
  | .cNop
  | .cTexit
  | .cEbreak
  | .cSlt _ _
  | .cSltu _ _
  | .cMul _ _
  | .sfdrop _
  | .sfrpl _
  | .streamAbort _ _
  | .streamResume _ _
  | .tshpWrite _ _ _
  | .switchFlitPass _ _
  | .seamRetryFailure _ _
  | .loadDataReturn _ _
  | .storeTranslationDone _ _
  | .streamElement _ _
  | .streamComplete _ _
  | .ringEos _ _
  | .allocServe _ _
  | .readAdmission _ _
  | .compressTile _ _
  | .expandTile _ _
  | .convert _ _
  | .tldDelivery _ _
  | .nodePass _
  | .nodeRow _
  | .read _
  | .write _
  | .atomic _
  | .readReply _
  | .writeAcknowledgement _
  | .taskRecord _
  | .activeMessage _
  | .inboxAcknowledgement _
  | .poolRequest _
  | .poolReply _
  | .walkRequest _
  | .walkReply _
  | .interrupt _
  | .purge _
  | .purgeAcknowledgement _
  | .copy _
  | .copy2d _
  | .fill _
  | .tcopy _
  | .reduce _
  | .bcast _
  | .dispatch _
  | .ageing _
  | .waveOpen _
  | .kiCut _
  | .releaseCommitTimeout _
  | .kerfPart _ _
  | .waveComplete _
  | .rollbackDrainTimeout _
  | .rollbackRestore _
  | .cfgParity _ _
  | .configLoadComplete _
  | .shadowFetchDone _
  | .cellSwap _
  | .drainComplete _
  | .preemptTimeout _
  | .stallWatchdog _
  | .hang _
  | .replyTimeout _
  | .inboxWrite _ _ _
  | .openRegion _ _
  | .map _ _
  | .unmap _ _
  | .loadcfg _ _
  | .spawn _ _
  | .signal _ _
  | .preempt _ _
  | .resume _ _
  | .kill _ _
  | .query _ _
  | .attest _ _
  | .fwupd _ _
  | .coldReset
  | .pfFunctionLevelReset
  | .vfReset _
  | .thermalTrip
  | .throttle _ _
  | .plimitWrite _
  | .vfrectWrite _ _
  | .mgmtRegisterWrite _ _ _
  | .scarfLinkDown _
  | .scarfDeliveryFailure _
  | .illegal _
  | .fetchPage _
  | .debuggerHalt _ _ => none

/-- The instruction a function table selects, before its other fields are checked (R50). -/
def candOp (tk : Tok) (f : Fields) : Option Instr :=
  match (f.f8.extractLsb' 3 5).toNat with
  | 0 =>
    match (f.f8.extractLsb' 0 3).toNat with
    | 0 => some (.add tk f.rd f.ra f.rb)
    | 1 => some (.sub tk f.rd f.ra f.rb)
    | 2 => some (.and tk f.rd f.ra f.rb)
    | 3 => some (.or tk f.rd f.ra f.rb)
    | 4 => some (.xor tk f.rd f.ra f.rb)
    | 5 => some (.sll tk f.rd f.ra f.rb)
    | 6 => some (.srl tk f.rd f.ra f.rb)
    | 7 => some (.sra tk f.rd f.ra f.rb)
    | _ => none
  | 1 =>
    match (f.f8.extractLsb' 0 3).toNat with
    | 0 => some (.slt tk f.rd f.ra f.rb)
    | 1 => some (.sltu tk f.rd f.ra f.rb)
    | 2 => some (.min tk f.rd f.ra f.rb)
    | 3 => some (.max tk f.rd f.ra f.rb)
    | 4 => some (.minu tk f.rd f.ra f.rb)
    | 5 => some (.maxu tk f.rd f.ra f.rb)
    | _ => none
  | 2 =>
    match (f.f8.extractLsb' 0 3).toNat with
    | 0 => some (.mul tk f.rd f.ra f.rb)
    | 1 => some (.mulh tk f.rd f.ra f.rb)
    | 2 => some (.mulhu tk f.rd f.ra f.rb)
    | 4 => some (.div tk f.rd f.ra f.rb)
    | 5 => some (.divu tk f.rd f.ra f.rb)
    | 6 => some (.rem tk f.rd f.ra f.rb)
    | 7 => some (.remu tk f.rd f.ra f.rb)
    | _ => none
  | 3 =>
    match (f.f8.extractLsb' 0 3).toNat with
    | 0 => some (.clz tk f.rd f.ra)
    | 1 => some (.ctz tk f.rd f.ra)
    | 2 => some (.popc tk f.rd f.ra)
    | _ => none
  | 6 =>
    match (f.f8.extractLsb' 2 1).toNat with
    | 0 => some (.lea tk (f.f8.extractLsb' 0 2) f.rd f.ra f.rb)
    | _ => none
  | 8 =>
    match IntCC.ofCode (f.f8.extractLsb' 0 3) with
    | some cc => some (.pset tk cc (f.rd.extractLsb' 0 2) f.ra f.rb)
    | none => none
  | _ => none

/-- The instruction a function table selects, before its other fields are checked (R51). -/
def candShi (tk : Tok) (f : Fields) : Option Instr :=
  match (f.f8.extractLsb' 1 7).toNat with
  | 0 => some (.slli tk f.rd f.ra (f.f8.extractLsb' 0 1 ++ f.rb))
  | 1 => some (.srli tk f.rd f.ra (f.f8.extractLsb' 0 1 ++ f.rb))
  | 2 => some (.srai tk f.rd f.ra (f.f8.extractLsb' 0 1 ++ f.rb))
  | _ => none

/-- The instruction a function table selects, before its other fields are checked (R52). -/
def candBcond (tk : Tok) (f : Fields) : Option Instr :=
  match f.rd.toNat with
  | 0 => some (.bp tk (f.ra.extractLsb' 0 2) (f.f8 ++ f.rb))
  | 1 => some (.bany tk (f.ra.extractLsb' 0 3) (f.f8 ++ f.rb))
  | 2 => some (.ball tk (f.ra.extractLsb' 0 3) (f.f8 ++ f.rb))
  | 3 => some (.bnone tk (f.ra.extractLsb' 0 3) (f.f8 ++ f.rb))
  | _ => none

/-- The instruction a function table selects, before its other fields are checked (R53). -/
def candOpf (tk : Tok) (f : Fields) : Option Instr :=
  match (f.f8.extractLsb' 6 2).toNat with
  | 0 =>
    match (f.f8.extractLsb' 3 3).toNat with
    | 0 => some (.fadd tk (f.f8.extractLsb' 0 3) f.rd f.ra f.rb)
    | 1 => some (.fsub tk (f.f8.extractLsb' 0 3) f.rd f.ra f.rb)
    | 2 => some (.fmul tk (f.f8.extractLsb' 0 3) f.rd f.ra f.rb)
    | 3 => some (.fdiv tk (f.f8.extractLsb' 0 3) f.rd f.ra f.rb)
    | 4 => some (.fsqrt tk (f.f8.extractLsb' 0 3) f.rd f.ra)
    | 5 =>
      match (f.f8.extractLsb' 0 3).toNat with
      | 0 => some (.fmin tk f.rd f.ra f.rb)
      | _ => none
    | 6 =>
      match (f.f8.extractLsb' 0 3).toNat with
      | 0 => some (.fmax tk f.rd f.ra f.rb)
      | _ => none
    | _ => none
  | 1 =>
    match (f.f8.extractLsb' 0 6).toNat with
    | 0 => some (.feq tk f.rd f.ra f.rb)
    | 8 => some (.flt tk f.rd f.ra f.rb)
    | 16 => some (.fle tk f.rd f.ra f.rb)
    | 24 => some (.fclass tk f.rd f.ra)
    | _ => none
  | 2 => some (.fcvt tk (f.f8.extractLsb' 3 3) (f.f8.extractLsb' 0 3) (f.rb.extractLsb' 0 3) f.rd f.ra)
  | _ => none

/-- The instruction a function table selects, before its other fields are checked (R53). -/
def candOpf3 (tk : Tok) (f : Fields) : Option Instr :=
  match (f.f8.extractLsb' 5 3).toNat with
  | 0 => some (.fma tk f.rd f.ra f.rb (f.f8.extractLsb' 0 5))
  | 1 => some (.fnma tk f.rd f.ra f.rb (f.f8.extractLsb' 0 5))
  | _ => none

/-- The instruction a function table selects, before its other fields are checked (R55). -/
def candVmisc (tk : Tok) (f : Fields) : Option Instr :=
  match (f.f8.extractLsb' 3 5).toNat with
  | 0 => some (.vperm tk (f.f8.extractLsb' 0 3) f.rd f.ra f.rb)
  | 1 => some (.vslideUp tk (f.f8.extractLsb' 0 3) f.rd f.ra f.rb)
  | 2 => some (.vslideDn tk (f.f8.extractLsb' 0 3) f.rd f.ra f.rb)
  | 3 =>
    match (f.f8.extractLsb' 0 3).toNat with
    | 0 => some (.vexch tk f.rd f.ra f.rb)
    | _ => none
  | 4 => some (.xtov tk (f.f8.extractLsb' 0 3) f.rd f.ra)
  | 5 => some (.vtox tk (f.f8.extractLsb' 0 3) f.rd f.ra)
  | 6 => some (.vtoxa tk (f.f8.extractLsb' 0 3) f.rd f.ra)
  | 7 =>
    match (f.f8.extractLsb' 0 3).toNat with
    | 0 => some (.mtox tk f.rd (f.ra.extractLsb' 0 3))
    | _ => none
  | 8 =>
    match (f.f8.extractLsb' 0 3).toNat with
    | 0 => some (.xtom tk (f.rd.extractLsb' 0 3) f.ra)
    | _ => none
  | 9 =>
    match (f.f8.extractLsb' 0 3).toNat with
    | 0 => some (.mand tk (f.rd.extractLsb' 0 3) (f.ra.extractLsb' 0 3) (f.rb.extractLsb' 0 3))
    | _ => none
  | 10 =>
    match (f.f8.extractLsb' 0 3).toNat with
    | 0 => some (.mor tk (f.rd.extractLsb' 0 3) (f.ra.extractLsb' 0 3) (f.rb.extractLsb' 0 3))
    | _ => none
  | 11 =>
    match (f.f8.extractLsb' 0 3).toNat with
    | 0 => some (.mxor tk (f.rd.extractLsb' 0 3) (f.ra.extractLsb' 0 3) (f.rb.extractLsb' 0 3))
    | _ => none
  | 12 =>
    match (f.f8.extractLsb' 0 3).toNat with
    | 0 => some (.mnot tk (f.rd.extractLsb' 0 3) (f.ra.extractLsb' 0 3))
    | _ => none
  | 13 =>
    match (f.f8.extractLsb' 0 3).toNat with
    | 0 => some (.mpop tk f.rd (f.ra.extractLsb' 0 3))
    | _ => none
  | 14 =>
    match (f.f8.extractLsb' 0 3).toNat with
    | 0 => some (.mfirst tk f.rd (f.ra.extractLsb' 0 3))
    | _ => none
  | 15 => some (.vportr tk (f.f8.extractLsb' 0 3) f.rd (f.ra.extractLsb' 0 2))
  | 16 => some (.vportw tk (f.f8.extractLsb' 0 3) (f.rd.extractLsb' 0 2) f.ra)
  | _ => none

/-- The instruction a function table selects, before its other fields are checked (R57). -/
def candMemx (tk : Tok) (f : Fields) : Option Instr :=
  match (f.f8.extractLsb' 3 5).toNat with
  | 0 => some (.ldAcq tk (f.f8.extractLsb' 0 3) f.rd f.ra (f.rb.extractLsb' 0 3))
  | 1 =>
    match (f.f8.extractLsb' 2 1).toNat with
    | 0 => some (.stRel tk (f.f8.extractLsb' 0 2) f.rb f.ra (f.rd.extractLsb' 0 3))
    | _ => none
  | 2 =>
    match (f.f8.extractLsb' 0 3).toNat with
    | 0 => some (.ldt tk f.rd f.ra)
    | 1 => some (.stt tk f.rb f.ra)
    | _ => none
  | 3 => some (.vldx tk (f.f8.extractLsb' 0 3) f.rd f.ra f.rb)
  | 4 => some (.vstx tk (f.f8.extractLsb' 0 3) f.rd f.ra f.rb)
  | _ => none

/-- The instruction a function table selects, before its other fields are checked (R59). -/
def candAmo (tk : Tok) (f : Fields) : Option Instr :=
  match (f.f8.extractLsb' 5 3).toNat with
  | 0 => some (.amoadd tk (f.f8.extractLsb' 2 3) (f.f8.extractLsb' 1 1) f.rd f.ra f.rb)
  | 1 => some (.amoand tk (f.f8.extractLsb' 2 3) (f.f8.extractLsb' 1 1) f.rd f.ra f.rb)
  | 2 => some (.amoor tk (f.f8.extractLsb' 2 3) (f.f8.extractLsb' 1 1) f.rd f.ra f.rb)
  | 3 => some (.amoxor tk (f.f8.extractLsb' 2 3) (f.f8.extractLsb' 1 1) f.rd f.ra f.rb)
  | 4 => some (.amomin tk (f.f8.extractLsb' 2 3) (f.f8.extractLsb' 1 1) f.rd f.ra f.rb)
  | 5 => some (.amomax tk (f.f8.extractLsb' 2 3) (f.f8.extractLsb' 1 1) f.rd f.ra f.rb)
  | 6 => some (.amoswap tk (f.f8.extractLsb' 2 3) (f.f8.extractLsb' 1 1) f.rd f.ra f.rb)
  | 7 => some (.amocas tk (f.f8.extractLsb' 2 3) (f.f8.extractLsb' 1 1) f.rd f.ra f.rb)
  | _ => none

/-- The instruction a function table selects, before its other fields are checked (R60). -/
def candCsr (tk : Tok) (f : Fields) : Option Instr :=
  match (f.f8.extractLsb' 6 2).toNat with
  | 0 => some (.csrr tk f.rd (f.f8.extractLsb' 0 6 ++ f.rb))
  | 1 => some (.csrw tk f.ra (f.f8.extractLsb' 0 6 ++ f.rb))
  | 2 => some (.csrs tk f.rd f.ra (f.f8.extractLsb' 0 6 ++ f.rb))
  | 3 => some (.csrc tk f.rd f.ra (f.f8.extractLsb' 0 6 ++ f.rb))
  | _ => none

/-- The instruction a function table selects, before its other fields are checked (R61). -/
def candSys (tk : Tok) (f : Fields) : Option Instr :=
  match f.f8.toNat with
  | 0 => some (.fence tk (f.rd.extractLsb' 0 2) (f.ra.extractLsb' 0 3))
  | 1 => some (.sdrain tk )
  | 2 => some (.chkerr tk f.rd)
  | 3 => some (.chkerrClr tk f.rd)
  | 4 => some (.ecall tk )
  | 5 => some (.ebreak tk )
  | 6 => some (.tret tk )
  | 8 => some (.qtest tk (f.rd.extractLsb' 0 2) (f.ra.extractLsb' 0 3))
  | 9 => some (.qtok tk f.rd (f.ra.extractLsb' 0 3))
  | 12 => some (.recfg tk f.ra)
  | 13 => some (.shadow tk f.ra)
  | _ => none

/-- The instruction a function table selects, before its other fields are checked (R62). -/
def candTask (tk : Tok) (f : Fields) : Option Instr :=
  match f.f8.toNat with
  | 0 => some (.join tk f.ra f.rb)
  | 1 => some (.leave tk f.ra)
  | 2 => some (.gbar tk f.ra)
  | 3 => some (.gkill tk f.ra)
  | 4 => some (.tspawn tk f.ra f.rb)
  | 5 => some (.texit tk )
  | 6 => some (.evset tk (f.rb.extractLsb' 0 3 ++ f.ra))
  | 7 => some (.evclr tk (f.rb.extractLsb' 0 3 ++ f.ra))
  | 8 => some (.wfe tk (f.rb.extractLsb' 0 3 ++ f.ra))
  | 9 => some (.send tk f.ra f.rb)
  | 10 => some (.waitc tk f.ra)
  | _ => none

/-- The instruction a function table selects, before its other fields are checked (R63). -/
def candMatrix (tk : Tok) (f : Fields) : Option Instr :=
  match (f.f8.extractLsb' 4 4).toNat with
  | 0 =>
    match (f.f8.extractLsb' 0 4).toNat with
    | 0 => some (.tld tk (f.rd.extractLsb' 0 3) f.ra f.rb)
    | 1 => some (.tldH tk (f.rd.extractLsb' 0 3) f.ra f.rb)
    | 2 => some (.tldHk tk (f.rd.extractLsb' 0 3) f.ra f.rb)
    | 3 => some (.tst tk (f.rb.extractLsb' 0 3) f.ra)
    | 4 => some (.tzero tk (f.rd.extractLsb' 0 3))
    | 5 => some (.mma tk (f.rd.extractLsb' 0 2) (f.ra.extractLsb' 0 3) (f.rb.extractLsb' 0 3))
    | 6 => some (.mmaNc tk (f.rd.extractLsb' 0 2) (f.ra.extractLsb' 0 3) (f.rb.extractLsb' 0 3))
    | 7 => some (.mmag tk (f.rd.extractLsb' 0 2) (f.ra.extractLsb' 0 3) f.rb)
    | 8 => some (.mmagNc tk (f.rd.extractLsb' 0 2) (f.ra.extractLsb' 0 3) f.rb)
    | 9 => some (.acz tk (f.rd.extractLsb' 0 2))
    | 10 => some (.tcsum tk (f.rd.extractLsb' 0 3))
    | 11 => some (.tcchk tk (f.rd.extractLsb' 0 2) (f.ra.extractLsb' 0 3))
    | 12 => some (.tbound tk f.ra)
    | _ => none
  | 1 => some (.acnv tk (f.f8.extractLsb' 0 4) (f.rd.extractLsb' 0 3) (f.ra.extractLsb' 0 2))
  | _ => none

/-- The instruction a function table selects, before its other fields are checked (R64). -/
def candStream (tk : Tok) (f : Fields) : Option Instr :=
  match f.f8.toNat with
  | 0 => some (.alloc tk f.rd f.ra (f.rb.extractLsb' 0 2))
  | 1 => some (.sealTile tk f.ra)
  | 2 => some (.tpdrop tk f.ra f.rb)
  | 3 => some (.strm tk f.ra f.rb)
  | 4 => some (.spbset tk (f.rd.extractLsb' 0 3) f.ra)
  | 5 => some (.swait tk (f.rb.extractLsb' 0 3))
  | 6 => some (.spillq tk (f.rd.extractLsb' 0 3) f.ra)
  | 7 => some (.kerf tk )
  | _ => none

/-- The instruction a function table selects, before its other fields are checked (R54). -/
def candVi (tk : Tok) (e : IntW) (f : Fields) : Option Instr :=
  match (f.f8.extractLsb' 3 5).toNat with
  | 0 => some (.vadd tk e (f.f8.extractLsb' 0 3) f.rd f.ra f.rb)
  | 1 => some (.vsub tk e (f.f8.extractLsb' 0 3) f.rd f.ra f.rb)
  | 2 => some (.vmul tk e (f.f8.extractLsb' 0 3) f.rd f.ra f.rb)
  | 3 => some (.vmulh tk e (f.f8.extractLsb' 0 3) f.rd f.ra f.rb)
  | 4 => some (.vmin tk e (f.f8.extractLsb' 0 3) f.rd f.ra f.rb)
  | 5 => some (.vmax tk e (f.f8.extractLsb' 0 3) f.rd f.ra f.rb)
  | 6 => some (.vand tk e (f.f8.extractLsb' 0 3) f.rd f.ra f.rb)
  | 7 => some (.vor tk e (f.f8.extractLsb' 0 3) f.rd f.ra f.rb)
  | 8 => some (.vxor tk e (f.f8.extractLsb' 0 3) f.rd f.ra f.rb)
  | 9 => some (.vsll tk e (f.f8.extractLsb' 0 3) f.rd f.ra f.rb)
  | 10 => some (.vsrl tk e (f.f8.extractLsb' 0 3) f.rd f.ra f.rb)
  | 11 => some (.vsra tk e (f.f8.extractLsb' 0 3) f.rd f.ra f.rb)
  | 18 => some (.vsel tk e (f.f8.extractLsb' 0 3) f.rd f.ra f.rb)
  | 20 => some (.vredAdd tk e (f.f8.extractLsb' 0 3) f.rd f.ra)
  | 21 => some (.vredMin tk e (f.f8.extractLsb' 0 3) f.rd f.ra)
  | 22 => some (.vredMax tk e (f.f8.extractLsb' 0 3) f.rd f.ra)
  | 23 => some (.vscanAdd tk e (f.f8.extractLsb' 0 3) f.rd f.ra)
  | 25 => some (.vcvtI tk e (f.f8.extractLsb' 0 3) f.rd f.ra (f.rb.extractLsb' 3 2) (f.rb.extractLsb' 0 3))
  | 12 => some (.vcmp tk e .eq (f.f8.extractLsb' 0 3) (f.rd.extractLsb' 0 3) f.ra f.rb)
  | 13 => some (.vcmp tk e .ne (f.f8.extractLsb' 0 3) (f.rd.extractLsb' 0 3) f.ra f.rb)
  | 14 => some (.vcmp tk e .lt (f.f8.extractLsb' 0 3) (f.rd.extractLsb' 0 3) f.ra f.rb)
  | 15 => some (.vcmp tk e .ge (f.f8.extractLsb' 0 3) (f.rd.extractLsb' 0 3) f.ra f.rb)
  | 16 => some (.vcmp tk e .ltu (f.f8.extractLsb' 0 3) (f.rd.extractLsb' 0 3) f.ra f.rb)
  | 17 => some (.vcmp tk e .geu (f.f8.extractLsb' 0 3) (f.rd.extractLsb' 0 3) f.ra f.rb)
  | _ => none

/-- The instruction a function table selects, before its other fields are checked (R54). -/
def candVf (tk : Tok) (e : FltW) (f : Fields) : Option Instr :=
  match (f.f8.extractLsb' 3 5).toNat with
  | 0 => some (.vfadd tk e (f.f8.extractLsb' 0 3) f.rd f.ra f.rb)
  | 1 => some (.vfsub tk e (f.f8.extractLsb' 0 3) f.rd f.ra f.rb)
  | 2 => some (.vfmul tk e (f.f8.extractLsb' 0 3) f.rd f.ra f.rb)
  | 3 => some (.vfdiv tk e (f.f8.extractLsb' 0 3) f.rd f.ra f.rb)
  | 4 => some (.vfsqrt tk e (f.f8.extractLsb' 0 3) f.rd f.ra)
  | 5 => some (.vfmin tk e (f.f8.extractLsb' 0 3) f.rd f.ra f.rb)
  | 6 => some (.vfmax tk e (f.f8.extractLsb' 0 3) f.rd f.ra f.rb)
  | 10 => some (.vcvt tk e (f.f8.extractLsb' 0 3) f.rd f.ra (f.rb.extractLsb' 3 2) (f.rb.extractLsb' 0 3))
  | 11 => some (.vredFadd tk e (f.f8.extractLsb' 0 3) f.rd f.ra)
  | 12 => some (.vredFmin tk e (f.f8.extractLsb' 0 3) f.rd f.ra)
  | 13 => some (.vredFmax tk e (f.f8.extractLsb' 0 3) f.rd f.ra)
  | 14 => some (.vscanFadd tk e (f.f8.extractLsb' 0 3) f.rd f.ra)
  | 24 => some (.vtsb tk e (f.f8.extractLsb' 0 3) f.rd f.ra)
  | 25 => some (.vtsblt tk e (f.f8.extractLsb' 0 3) (f.rd.extractLsb' 0 3) f.ra f.rb)
  | 26 => some (.vsettsb tk e (f.f8.extractLsb' 0 3) f.rd f.ra f.rb)
  | 7 => some (.vfcmp tk e .eq (f.f8.extractLsb' 0 3) (f.rd.extractLsb' 0 3) f.ra f.rb)
  | 8 => some (.vfcmp tk e .lt (f.f8.extractLsb' 0 3) (f.rd.extractLsb' 0 3) f.ra f.rb)
  | 9 => some (.vfcmp tk e .le (f.f8.extractLsb' 0 3) (f.rd.extractLsb' 0 3) f.ra f.rb)
  | _ => none

/-- The instruction a function table selects, before its other fields are checked (R54: vdot4 stands in VI8 only). -/
def candDot (tk : Tok) (f : Fields) : Option Instr :=
  if f.f8.extractLsb' 3 5 = 24#5 then some (.vdot4 tk (f.f8.extractLsb' 0 3) f.rd f.ra f.rb) else candVi tk .i8 f

/-- The instruction a function table selects, before its other fields are checked (R54: the special functions stand in VF32 only). -/
def candSpec (tk : Tok) (f : Fields) : Option Instr :=
  match (f.f8.extractLsb' 3 5).toNat with
  | 16 => some (.vexp2 tk (f.f8.extractLsb' 0 3) f.rd f.ra)
  | 17 => some (.vlog2 tk (f.f8.extractLsb' 0 3) f.rd f.ra)
  | 18 => some (.vrcp tk (f.f8.extractLsb' 0 3) f.rd f.ra)
  | 19 => some (.vrsq tk (f.f8.extractLsb' 0 3) f.rd f.ra)
  | 20 => some (.vsin tk (f.f8.extractLsb' 0 3) f.rd f.ra)
  | 21 => some (.vcos tk (f.f8.extractLsb' 0 3) f.rd f.ra)
  | _ => candVf tk .f32 f

/-- The instruction that the major opcode map (R49) and the function tables select; `decodeWord` checks the rest. -/
def candidate (f : Fields) : Option Instr :=
  let tk : Tok := ⟨f.s, f.w⟩
  match f.maj.toNat with
  | 1 => candOp tk f
  | 2 => some (.addi tk f.rd f.ra (f.f8 ++ f.rb))
  | 3 => some (.andi tk f.rd f.ra (f.f8 ++ f.rb))
  | 4 => some (.ori tk f.rd f.ra (f.f8 ++ f.rb))
  | 5 => some (.xori tk f.rd f.ra (f.f8 ++ f.rb))
  | 6 => some (.slti tk f.rd f.ra (f.f8 ++ f.rb))
  | 7 => candShi tk f
  | 8 => some (.lih tk f.rd (f.f8 ++ f.rb ++ f.ra))
  | 9 => some (.addpc tk f.rd (f.f8 ++ f.rb ++ f.ra))
  | 10 => some (.jalr tk f.rd f.ra (f.f8 ++ f.rb))
  | 11 => some (.j tk (f.f8 ++ f.rb ++ f.ra ++ f.rd))
  | 12 => some (.jal tk (f.f8 ++ f.rb ++ f.ra ++ f.rd))
  | 13 => some (.beq tk f.ra f.rb (f.f8 ++ f.rd))
  | 14 => some (.bne tk f.ra f.rb (f.f8 ++ f.rd))
  | 15 => some (.blt tk f.ra f.rb (f.f8 ++ f.rd))
  | 16 => some (.bge tk f.ra f.rb (f.f8 ++ f.rd))
  | 17 => some (.bltu tk f.ra f.rb (f.f8 ++ f.rd))
  | 18 => some (.bgeu tk f.ra f.rb (f.f8 ++ f.rd))
  | 19 => candBcond tk f
  | 20 => some (.btsb tk f.ra f.rd (f.f8 ++ f.rb))
  | 21 => candOpf tk f
  | 22 => candOpf3 tk f
  | 24 => candVi tk .i32 f
  | 25 => candVi tk .i16 f
  | 26 => candDot tk f
  | 27 => candSpec tk f
  | 28 => candVf tk .f16 f
  | 29 => candVf tk .bf16 f
  | 30 => candVmisc tk f
  | 32 => some (.vfma tk .f32 (f.f8.extractLsb' 5 3) f.rd f.ra f.rb (f.f8.extractLsb' 0 5))
  | 33 => some (.vfnma tk .f32 (f.f8.extractLsb' 5 3) f.rd f.ra f.rb (f.f8.extractLsb' 0 5))
  | 34 => some (.vfma tk .f16 (f.f8.extractLsb' 5 3) f.rd f.ra f.rb (f.f8.extractLsb' 0 5))
  | 35 => some (.vfnma tk .f16 (f.f8.extractLsb' 5 3) f.rd f.ra f.rb (f.f8.extractLsb' 0 5))
  | 36 => some (.vfma tk .bf16 (f.f8.extractLsb' 5 3) f.rd f.ra f.rb (f.f8.extractLsb' 0 5))
  | 37 => some (.vfnma tk .bf16 (f.f8.extractLsb' 5 3) f.rd f.ra f.rb (f.f8.extractLsb' 0 5))
  | 38 => some (.vclip tk 0#1 (f.f8.extractLsb' 5 3) f.rd f.ra f.rb (f.f8.extractLsb' 0 5))
  | 39 => some (.vclip tk 1#1 (f.f8.extractLsb' 5 3) f.rd f.ra f.rb (f.f8.extractLsb' 0 5))
  | 40 => some (.ldB tk f.rd f.ra (f.f8 ++ f.rb))
  | 41 => some (.ldBu tk f.rd f.ra (f.f8 ++ f.rb))
  | 42 => some (.ldH tk f.rd f.ra (f.f8 ++ f.rb))
  | 43 => some (.ldHu tk f.rd f.ra (f.f8 ++ f.rb))
  | 44 => some (.ldW tk f.rd f.ra (f.f8 ++ f.rb))
  | 45 => some (.ldWu tk f.rd f.ra (f.f8 ++ f.rb))
  | 46 => some (.ldD tk f.rd f.ra (f.f8 ++ f.rb))
  | 48 => some (.stB tk f.rb f.ra (f.f8 ++ f.rd))
  | 49 => some (.stH tk f.rb f.ra (f.f8 ++ f.rd))
  | 50 => some (.stW tk f.rb f.ra (f.f8 ++ f.rd))
  | 51 => some (.stD tk f.rb f.ra (f.f8 ++ f.rd))
  | 52 => some (.vld tk f.rd f.ra (f.f8 ++ f.rb))
  | 53 => some (.vst tk f.rb f.ra (f.f8 ++ f.rd))
  | 54 => candMemx tk f
  | 55 => candAmo tk f
  | 56 => candCsr tk f
  | 57 => candSys tk f
  | 58 => candTask tk f
  | 59 => candMatrix tk f
  | 60 => candStream tk f
  | _ => none

/-- The compressed instruction that cop selects (R65). -/
def candidateParcel (p : BitVec 16) : Option Instr :=
  match (p.extractLsb' 11 5).toNat with
  | 1 => some (.cMv (p.extractLsb' 6 5) (p.extractLsb' 1 5))
  | 2 => some (.cAdd (p.extractLsb' 6 5) (p.extractLsb' 1 5))
  | 3 => some (.cSub (p.extractLsb' 6 5) (p.extractLsb' 1 5))
  | 4 => some (.cAnd (p.extractLsb' 6 5) (p.extractLsb' 1 5))
  | 5 => some (.cOr (p.extractLsb' 6 5) (p.extractLsb' 1 5))
  | 6 => some (.cXor (p.extractLsb' 6 5) (p.extractLsb' 1 5))
  | 7 => some (.cAddi (p.extractLsb' 6 5) (p.extractLsb' 1 5))
  | 8 => some (.cLi (p.extractLsb' 6 5) (p.extractLsb' 1 5))
  | 9 => some (.cSlli (p.extractLsb' 6 5) (p.extractLsb' 1 5))
  | 10 => some (.cSrli (p.extractLsb' 6 5) (p.extractLsb' 1 5))
  | 11 => some (.cSrai (p.extractLsb' 6 5) (p.extractLsb' 1 5))
  | 12 => some (.cAndi (p.extractLsb' 6 5) (p.extractLsb' 1 5))
  | 13 => some (.cLdd (p.extractLsb' 6 5) (p.extractLsb' 1 5))
  | 14 => some (.cStd (p.extractLsb' 6 5) (p.extractLsb' 1 5))
  | 15 => some (.cLdw (p.extractLsb' 6 5) (p.extractLsb' 1 5))
  | 16 => some (.cStw (p.extractLsb' 6 5) (p.extractLsb' 1 5))
  | 17 => some (.cJ (p.extractLsb' 1 10))
  | 18 => some (.cBeqz (p.extractLsb' 6 5) (p.extractLsb' 1 5))
  | 19 => some (.cBnez (p.extractLsb' 6 5) (p.extractLsb' 1 5))
  | 20 => some (.cJr (p.extractLsb' 6 5))
  | 21 => some (.cJalr (p.extractLsb' 6 5))
  | 22 => some (.cNop)
  | 23 => some (.cTexit)
  | 24 => some (.cEbreak)
  | 25 => some (.cSlt (p.extractLsb' 6 5) (p.extractLsb' 1 5))
  | 26 => some (.cSltu (p.extractLsb' 6 5) (p.extractLsb' 1 5))
  | 27 => some (.cMul (p.extractLsb' 6 5) (p.extractLsb' 1 5))
  | _ => none

/-- The switch instruction that sop selects (R72). -/
def candidateSwitch (w : BitVec 64) : Option Instr :=
  match (w.extractLsb' 59 5).toNat with
  | 1 => some (.route (w.extractLsb' 57 2) (w.extractLsb' 45 10) (w.extractLsb' 35 10) (w.extractLsb' 25 10) (w.extractLsb' 15 10) (w.extractLsb' 3 12))
  | 2 => some (.routec (w.extractLsb' 57 2) (w.extractLsb' 45 10) (w.extractLsb' 35 10) (w.extractLsb' 25 10) (w.extractLsb' 15 10) (w.extractLsb' 12 3))
  | 3 => some (.steer (w.extractLsb' 54 5) (w.extractLsb' 49 5) (w.extractLsb' 44 5) (w.extractLsb' 39 5) (w.extractLsb' 27 12))
  | 4 => some (.merge (w.extractLsb' 54 5) (w.extractLsb' 49 5) (w.extractLsb' 44 5) (w.extractLsb' 39 5) (w.extractLsb' 27 12))
  | 5 => some (.emit (w.extractLsb' 54 5) (w.extractLsb' 51 3) (w.extractLsb' 46 5) (w.extractLsb' 40 6) (w.extractLsb' 8 32))
  | 6 => some (.waittok (w.extractLsb' 54 5) (w.extractLsb' 51 3) (w.extractLsb' 45 6) (w.extractLsb' 44 1) (w.extractLsb' 42 2) (w.extractLsb' 0 12))
  | 7 => some (.loop (w.extractLsb' 57 2) (w.extractLsb' 33 24))
  | 8 => some (.bnz (w.extractLsb' 57 2) (w.extractLsb' 0 12))
  | 9 => some (.jmp (w.extractLsb' 0 12))
  | 10 => some (.halt)
  | _ => none

/-- What the encoder answers: a 16-bit parcel, a 32-bit word or a 64-bit switch word (R42, R71). -/
inductive Code where
  | parcel (p : BitVec 16)
  | word (x : BitVec 32)
  | switchWord (x : BitVec 64)
  deriving DecidableEq, Repr

/-- Why bytes decode to no instruction. -/
inductive Reject where
  /-- no byte at all, or one byte of a parcel -/
  | short
  /-- R66: no instruction has this parcel or word, zero-extended to 32 bits -/
  | illegal (x : BitVec 32)
  /-- R72: no switch instruction has this word -/
  | badSwitchWord (x : BitVec 64)
  deriving DecidableEq, Repr

/-- The encoding of an instruction; none for the rows that have no encoding. -/
def encode (i : Instr) : Option Code :=
  match toFields i with
  | some f => some (.word (packFields f))
  | none =>
    match toParcel i with
    | some p => some (.parcel p)
    | none =>
      match toSwitchWord i with
      | some x => some (.switchWord x)
      | none => none

/-- A 32-bit word decodes to the one well-formed instruction it encodes (R66). -/
def decodeWord (x : BitVec 32) : Option Instr :=
  match candidate (unpackFields x) with
  | some i => if i.wf = true ∧ toFields i = some (unpackFields x) ∧ x.getLsbD 0 = true then some i else none
  | none => none

/-- A 16-bit parcel decodes to the one well-formed compressed instruction it encodes (R65, R66). -/
def decodeParcel (p : BitVec 16) : Option Instr :=
  match candidateParcel p with
  | some i => if i.wf = true ∧ toParcel i = some p then some i else none
  | none => none

/-- A switch word decodes to the one well-formed switch instruction it encodes (R72). -/
def decodeSwitchWord (x : BitVec 64) : Option Instr :=
  match candidateSwitch x with
  | some i => if i.wf = true ∧ toSwitchWord i = some x then some i else none
  | none => none

/-- Decoding what the encoder answers. -/
def decode : Code → Option Instr
  | .parcel p => decodeParcel p
  | .word x => decodeWord x
  | .switchWord x => decodeSwitchWord x

/-- The parcel of two bytes, little-endian (R42). -/
def parcelOf (lo hi : Byte) : BitVec 16 := hi ++ lo

/-- A hart instruction from the bytes at its address, with the bytes after it: 32 bits when bit 0 of the first parcel
is 1, else one parcel (R42). -/
def decodeHartBytes : List Byte → Except Reject (Instr × List Byte)
  | b0 :: b1 :: rest =>
    if b0.getLsbD 0 then
      match rest with
      | b2 :: b3 :: rest' =>
        match decodeWord (b3 ++ b2 ++ b1 ++ b0) with
        | some i => .ok (i, rest')
        | none => .error (.illegal (b3 ++ b2 ++ b1 ++ b0))
      | _ => .error .short
    else
      match decodeParcel (parcelOf b0 b1) with
      | some i => .ok (i, rest)
      | none => .error (.illegal ((parcelOf b0 b1).setWidth 32))
  | _ => .error .short

/-- A switch instruction from eight bytes, little-endian (R5, R71). -/
def decodeSwitchBytes : List Byte → Except Reject (Instr × List Byte)
  | b0 :: b1 :: b2 :: b3 :: b4 :: b5 :: b6 :: b7 :: rest =>
    match decodeSwitchWord (b7 ++ b6 ++ b5 ++ b4 ++ b3 ++ b2 ++ b1 ++ b0) with
    | some i => .ok (i, rest)
    | none => .error (.badSwitchWord (b7 ++ b6 ++ b5 ++ b4 ++ b3 ++ b2 ++ b1 ++ b0))
  | _ => .error .short

/-- The `n` low bytes of `w`, lowest first. -/
def leBytes : Nat → Nat → List Byte
  | 0, _ => []
  | n + 1, w => BitVec.ofNat 8 (w % 256) :: leBytes n (w / 256)

/-- The instruction whose bits are `w`, laid out as the hardware stores it (R5, R42, R71): `nbits` above 32 is a switch
word, otherwise the bytes of a hart instruction. -/
def decodeTableWord (nbits w : Nat) : Option Instr :=
  if 32 < nbits then
    match decodeSwitchBytes (leBytes 8 w) with
    | .ok (i, _) => some i
    | .error _ => none
  else
    match decodeHartBytes (leBytes 4 w) with
    | .ok (i, _) => some i
    | .error _ => none

end Sys2Proof
end

