-- ==== Sys2Proof/Machine/State.lean ====
section
/-! DEFINITION. The state of the machine as plain data, the reasons a step can stop, and the state after reset. -/

namespace Sys2Proof.Machine

/-- A flit that stands at a port register of a compute hart (R123, R273): the scale byte of each of its elements when
its format has block scales, whether its channel is tagged, and its tag flit's data once that is in (R274). A KERF
stands in its place as a flit of kind 4 and takes no entry (R474). -/
structure PortItem where
  flit : Flit
  /-- the cell input the flit arrived on (R273) -/
  input : Nat
  scales : List Byte
  tagged : Bool
  tags : Option Word
  deriving DecidableEq, Repr

/-- Block scales in use at a delivery (R106): the scale bytes still to use, the elements of the present block already
taken, and the poison of the scale flit. -/
structure ScaleState where
  left : List Byte
  taken : Nat
  poison : Bool
  deriving DecidableEq, Repr

/-! Harts (R115, R232). -/

/-- Why a hart waits (R28). The watchdogs read the kind (R447-R450). A tie is named by its code: 0-7 queues,
16-31 token FIFOs, 32-39 rings (R81), 64-71 a port of the hart (64 + port, 68 + port for output). -/
inductive Wait where
  /-- a read or pop of an empty tie -/
  | empty (tie : Nat)
  /-- a push to a full tie -/
  | full (tie : Nat)
  /-- translation, a load's data, or a drain of older stores -/
  | memory
  /-- join, gbar, vexch -/
  | group
  /-- wfe -/
  | event
  /-- waitc -/
  | completion
  /-- an SPB slot, or a stream endpoint in use (R241, R245, R249, R264) -/
  | slot
  /-- alloc, or a pool read (R312, R315) -/
  | pool
  /-- a commit (R434), recfg, shadow, kerf, tspawn, send or another engine -/
  | control
  deriving DecidableEq, Repr

/-- How far the instruction at the pc has come before it retires (R32, R48, R190). -/
inductive Stage where
  /-- nothing of it has happened -/
  | fresh
  /-- its W pop has been made (R30) -/
  | wPopped
  /-- it has arrived at a group wait, or has started the engine it waits for -/
  | arrived
  deriving DecidableEq, Repr

/-- A destination that an outstanding load will write (R195, R199). -/
inductive LoadDst where
  | xreg (d : BitVec 5)
  | vreg (d : BitVec 5)
  /-- a store queue, whose entry is reserved -/
  | queue (q : Nat)
  deriving DecidableEq, Repr

/-- How the bytes of an outstanding load become its value (R199-R205). -/
inductive LoadKind where
  /-- width in bytes, sign extension, and whether a tag byte comes with it -/
  | scalar (bytes : Nat) (signed : Bool)
  /-- ldt: the tag byte comes from the shadow when the page has TAG -/
  | tagged
  /-- vld and vldx: the active lanes -/
  | vector (mask : Word)
  deriving DecidableEq, Repr

/-- One piece of a load: its lane, the physical address of its bytes, and of its shadow byte if it has one (R205). -/
structure Piece where
  lane : Nat
  pa : Nat
  bytes : Nat
  shadow : Option Nat
  deriving DecidableEq, Repr

/-- A line of 64 bytes a load waits for, or has: physical address, bytes once they are in, poison of its units. -/
structure LoadLine where
  pa : Nat
  data : Option (List Byte × List Bool)
  deriving DecidableEq, Repr

/-- An outstanding load (R195): its pieces are fixed at translation, its lines arrive from memory. -/
structure Load where
  id : Nat
  dst : LoadDst
  kind : LoadKind
  pieces : List Piece
  /-- the poison of the value where a lane was suppressed for a poisoned index (R211) -/
  suppressed : Word
  lines : List LoadLine
  /-- virtual byte ranges (first, count), for R203 -/
  ranges : List (Nat × Nat)
  deriving DecidableEq, Repr

/-- One contiguous part of a store: virtual address, bytes, and the poison of the store. -/
structure StorePart where
  lane : Nat
  va : Nat
  bytes : List Byte
  poison : Bool
  /-- the tag byte that goes to the shadow when the page keeps one (R205) -/
  tag : Option Byte
  deriving DecidableEq, Repr

/-- A retired store that is not yet performed (R225): its kind as SWID codes it, or 8 for a tile store that waits inside the matrix
engine (R337, R346); its parts in lane order, and the INSTRET value just after it retired. -/
structure PendingStore where
  swid : Nat
  parts : List StorePart
  retired : Word
  deriving DecidableEq, Repr

/-- A store-fault record (R225): the cause, the lowest faulting address, SWID, SKID, and the part not performed. -/
structure SfRecord where
  cause : Nat
  addr : Word
  swid : Nat
  skid : Nat
  parts : List StorePart
  deriving DecidableEq, Repr

/-- The state of an SPB slot (R255). -/
inductive SlotState where
  | empty
  | idle
  | active
  | faulted (cause : Nat) (tval : Word)
  deriving DecidableEq, Repr

/-- A stream command's fields (R73), with the context and the region of the task that issued it. -/
structure StreamCmd where
  ctx : Nat
  region : Nat
  op : Nat
  ep : Nat
  vc : Nat
  tkp : Bool
  tkf : Nat
  space : Nat
  cell : Nat
  base : Nat
  deriving DecidableEq, Repr

/-- An SPB slot: its image as eight dwords, its state, the running command and its progress (R232, R263). -/
structure Slot where
  state : SlotState
  image : List Word
  cmd : Option StreamCmd
  /-- the element the stream stands at -/
  elem : Nat
  /-- chase: the address of the current node (R244) -/
  chase : Nat
  /-- SEG: 0 before the SOT, 1 in the elements, 2 after the EOT; SEG = 0 streams stand at 1 -/
  segPhase : Nat
  /-- bytes of a partly filled or partly used flit, and their poison (R246, R253) -/
  part : List (Byte × Bool)
  /-- LOADC and SPACE 2: the pool read has been admitted (R315) -/
  admitted : Bool
  /-- bytes a SPACE 2 STORE has written, as ranges; bytes a pool read has covered -/
  covered : List (Nat × Nat)
  deriving DecidableEq, Repr

/-- The task a hart runs (R26, R388): its context, region, configuration and record fields it needs until its end. -/
structure TaskInfo where
  ctx : Nat
  region : Nat
  cfgid : Nat
  setMask : BitVec 256
  /-- function and sequence number of the SPAWN that sent it -/
  fromHost : Option (Nat × Nat)
  deriving DecidableEq, Repr

/-- One hart: compute hart P0-P3 or streamer hart (R115, R130, R232, R235). A streamer uses the registers, the slots
and the CSRs that R232 and R235 give it. -/
structure Hart where
  pc : Word
  x : Vector UVal 24
  p : Vector Bool 4
  v : Vector VVal 28
  m : Vector Word 8
  /-- HSTAT.HND, NUT and SFRF (R216) -/
  hnd : Bool
  nut : Bool
  sfrf : Bool
  sstat : Word
  tvec : Word
  tepc : Word
  tval : Word
  tcause : Word
  /-- FCSR bits 7:0 (R160) -/
  fcsr : BitVec 8
  /-- SIGTHR.EN and THR (R187) -/
  sigEn : Bool
  sigThr : BitVec 5
  tagbase : Word
  chkiv : BitVec 5
  gid : Word
  pchan : BitVec 6
  tksel : BitVec 8
  instret : Word
  /-- the running task, none when the hart is idle -/
  task : Option TaskInfo
  /-- the context of the hart's previous task since reset (R120) -/
  lastCtx : Option Nat
  /-- the first clk in which it counts as idle after its task's end (R388) -/
  idleFrom : Nat
  /-- the first clk in which the present task fetches: the one after its start (R394) -/
  fetchFrom : Nat
  stage : Stage
  wait : Option Wait
  /-- entries popped by the instruction at the pc, which waits to retire: tie code and entry, in pop order (R127) -/
  held : List (Nat × Entry)
  /-- flits a vector port write still has to push (R124), and one more than the buffer key they go to; 0 for none under
  way -/
  portOut : List Flit
  portKey : Nat
  /-- an instruction that has issued and whose effect goes on until it retires (R124); it is not fetched again -/
  issued : Option Instr
  /-- the destination entry that an issued instruction has reserved: tie code and number of the place (R48) -/
  dstHeld : Option (Nat × Nat)
  /-- the task record that an issued tspawn has read, and its poison, while it waits for room in the store of its own bay (R397) -/
  record : Option (List Byte × List Bool)
  loads : List Load
  stores : List PendingStore
  sfrq : List SfRecord
  /-- a record has been written in the handler, whose trap is due (R222, R225) -/
  sfNew : Bool
  /-- the S bit of the instruction that waits in a JOIN (R30, R190) -/
  sBit : Bool
  /-- the end of its task stands at the rings that count it, and waits for room for an EOS (R296) -/
  leaving : Bool
  slots : Vector Slot 8
  /-- per port and channel (2·port + channel), flits collected for a vector read (R123) -/
  collected : List (Nat × List PortItem)
  /-- what another engine answered to the instruction at the pc: a handle (R311) -/
  reply : Option Word
  deriving DecidableEq, Repr

/-! Ties of a cell (R27-R32, R121, R289-R297). -/

/-- One place of a queue or ring: an entry with the slot of its producer, an entry moved to the k-th place of the spill
area (R259), an entry reserved by outstanding load id (R48), or a KERF of wave w, which takes no entry (R474). -/
inductive QItem where
  | entry (e : Entry) (src : Nat)
  | spilled (k : Nat) (src : Nat)
  | reserved (id : Nat) (src : Nat)
  | kerf (w : Nat) (src : Nat)
  deriving DecidableEq, Repr

/-- An attached spill area (R259): base, capacity, the next place to write, and whether the controller attached it. -/
structure SpillExt where
  base : Nat
  cap : Nat
  next : Nat
  byController : Bool
  deriving DecidableEq, Repr

/-- A load queue, store queue or ring queue. -/
structure Queue where
  depth : Nat
  items : List QItem
  ext : Option SpillExt
  /-- ring: the slot that holds the segment lock (R295) -/
  lock : Option Nat
  /-- ring: slots of counted producers whose task has ended (R296) -/
  ended : List Nat
  /-- ring: every counted producer has ended, the last of them at the slot given, and EOS waits for a free slot (R296) -/
  eosDue : Option Nat
  /-- ring: the slot of its storage in which the head stands (R291) -/
  head : Nat
  deriving DecidableEq, Repr

/-- A token of a token FIFO with the slot of its producer, or a KERF of wave w in it (R30, R474). -/
inductive TItem where
  | token (src : Nat)
  | kerf (w : Nat) (src : Nat)
  deriving DecidableEq, Repr

/-! The static network of a cell (R265-R277). Buffers are named by a key: 0-7 the channel inputs; 64 + 8·l + s the
sub-stream s of local input l (lp0-lp3: s = 2·direction + channel; others: s = channel); 128 + 16·l + s the delivery
of local output l (s = channel) but lp0-lp3 and lmxe, whose flits stand in the cell's ports; l is the port code less 8. -/

/-- A buffer of flits, head first; KERF and SWT flits stand in it and take no entry (R474). -/
abbrev Fifo := List Flit

/-- A switch processor (R276): pc, counters, progress of each route or of the items of steer and merge, HALT. -/
structure Switch where
  pc : Nat
  c : Vector (BitVec 24) 4
  /-- flits still to pass per route; items still to pass in place 0; empty before the word has begun -/
  left : List Nat
  halt : Bool
  deriving DecidableEq, Repr

/-! The tile pool of an M-cell (R305-R320). -/

/-- The state of a pool slot that is not FREE (R310). -/
inductive PoolState where
  | filling
  | sealed
  /-- retired in the kerf interval given -/
  | retired (interval : Nat)
  deriving DecidableEq, Repr

/-- A pool slot (R310): first granule, granules, partition, state, descriptor, owner hart, COUNT, CLAIMS, PINS, the
sidecar words, a sidecar that arrived with the tile, and the bytes written since alloc. -/
structure PoolSlot where
  first : Nat
  n : Nat
  part : Nat
  state : PoolState
  desc : Word
  owner : Nat
  count : Nat
  claims : Nat
  pins : Nat
  sidecar : List Word32
  arrived : Option (List Word32)
  /-- byte ranges (from, to) written since alloc -/
  written : List (Nat × Nat)
  deriving DecidableEq, Repr

/-- A pool partition (R306): context, own range, MAX, USED, and the spill granules the watchdog added (R448). -/
structure Partition where
  ctx : Nat
  base : Nat
  min : Nat
  max : Nat
  used : Nat
  /-- the first granule of each group of four spill granules -/
  spill : List Nat
  deriving DecidableEq, Repr

/-- A waiting alloc (R311, R312): hart, granules, and the operand. -/
structure AllocReq where
  hart : Nat
  n : Nat
  desc : Word
  deriving DecidableEq, Repr

/-- The pool of an M-cell. -/
structure Pool where
  granules : Nat
  /-- generation of each granule that is not 0 (R305) -/
  gens : List (Nat × Nat)
  slots : List PoolSlot
  parts : List (Nat × Partition)
  /-- allocation queue of each partition, arrival order -/
  queues : List (Nat × List AllocReq)
  deriving DecidableEq, Repr

/-! Translation (R360-R365). -/

/-- A TLB entry (R364): context, virtual base, size, physical base, permissions and TAG. -/
structure TlbEntry where
  ctx : Nat
  va : Nat
  size : Nat
  pa : Nat
  r : Bool
  w : Bool
  x : Bool
  tag : Bool
  deriving DecidableEq, Repr

/-! The compressor and the converter (R324-R330). -/

/-- One channel and VC of the compressor (R324-R327), key 32·channel + vc: the flits of the tile taken so far, and the flits
still to emit. -/
structure CompState where
  key : Nat
  flits : List Flit
  out : List Flit
  deriving DecidableEq, Repr

/-- One channel and VC of the converter (R328-R330), key 32·channel + vc: the scales in use, the bits of EC8 input that make no
whole block yet, the exact values that make no whole block yet, E4M3 codes that make no whole EC8 block yet, the scale bytes
and the data bytes of the group so far, each with its poison, and the flits still to emit. -/
structure ConvState where
  key : Nat
  scale : ScaleState
  /-- the tag flit of the last data flit is due (R274) -/
  tagDue : Bool
  bits : List (Bool × Bool)
  elems : List (XR × Bool)
  codes : List (Nat × Bool)
  scalesOut : List (Byte × Bool)
  bytesOut : List (Byte × Bool)
  out : List Flit
  deriving DecidableEq, Repr

/-! Memory: bytes and poison bits (R5, R211, R303). -/

/-- A memory: the bytes that differ from 0 at strictly rising addresses, and the 8-byte units whose poison bit is set.
An unlisted byte reads as 0 (assumption 1). -/
structure Mem where
  bytes : List Host.Cell
  poison : List Nat
  deriving DecidableEq, Repr

/-! The matrix engine of a C-cell (R331-R357). -/

/-- A tile register: data, scale store, row tags (rows whose tag is not 24), sidecar words, STALE. -/
structure Tile where
  data : Mem
  scales : Mem
  rowTags : List (Nat × Nat)
  sidecar : List (Nat × Word32)
  stale : Bool
  deriving DecidableEq, Repr

/-- The kind of an accumulator (R335). -/
inductive AccKind where
  | empty
  | fp32
  | int32
  deriving DecidableEq, Repr

/-- An accumulator: 64 × 64 elements (element 64·i + j, unlisted 0), checksums, row tags (unlisted 24), and the
poison of pairs of elements. -/
structure Acc where
  kind : AccKind
  elems : List (Nat × Word32)
  rowSums : List (Nat × Word32)
  colSums : List (Nat × Word32)
  rowTags : List (Nat × Nat)
  poison : List Nat
  deriving DecidableEq, Repr

/-- A tile load that is accepted and whose bytes have not all been delivered (R337, R342, R344): tile, issuing hart, bytes
still to be delivered, the physical address of its barrier object, the pool read it ends (cell, first granule, consuming),
and whether its sums differed from the slot's. What the tile holds at the end stands in it from the acceptance: whatever
names the tile waits for it (assumption 30). -/
structure PendingTld where
  tile : Nat
  hart : Nat
  left : Nat
  barrier : Option Nat
  pool : Option (Nat × (Nat × Bool))
  bad : Bool
  deriving DecidableEq, Repr

/-- A piece of work that the matrix engine has accepted (R337), its operands taken at acceptance. Tile registers and accumulators by
number. -/
inductive MxOp where
  /-- a product, checked or not -/
  | mul (check : Bool) (d a b : Nat)
  /-- the groups of a group row table -/
  | groups (check : Bool) (d a : Nat) (table : List (Nat × Nat))
  /-- a tile load: data, scales, poisoned units, the sidecar brought, the barrier object, the pool read -/
  | tld (t : Nat) (data scales : List Byte) (poison : List Nat) (sums : Option (List Word32)) (barrier : Option Nat)
      (pool : Option (Nat × (Nat × Bool)))
  /-- a tile store: physical address and bytes of its pieces -/
  | tst (b : Nat) (places : List (Nat × Nat))
  | tzero (t : Nat)
  | tcsum (t : Nat)
  | acz (a : Nat)
  /-- format, tile, accumulator, rounding mode -/
  | acnv (f t a rm : Nat)
  /-- a write of a shape register -/
  | tshp (n : Nat) (v : Word)
  deriving DecidableEq, Repr

/-- Work that waits inside a matrix engine for a stream that holds its tile, or behind such work (R337, R345; assumption
98): the hart that issued it. -/
structure MxWork where
  hart : Nat
  op : MxOp
  deriving DecidableEq, Repr

/-- The running matrix node (R353-R357): trip counts, pass and row, the latched B with its shape, what it has taken of the
present row of A (data flits, the table entry they were read under, scale bytes from the row's first block on, the least
tag), the rows and sidecar words of the pass so far, the predictions of the group so far, and the flits still to emit. -/
structure Node where
  m : Nat
  n : Nat
  k : Nat
  pass : Nat
  row : Nat
  latched : Option (Tile × Word)
  stopped : Bool
  entry : Nat
  input : List Flit
  scales : List Byte
  /-- whether the flit of each of those scale bytes was poisoned (R339) -/
  scalePoison : List Bool
  /-- the tag flit of the last data flit is due (R274) -/
  tagDue : Bool
  rowTag : Nat
  /-- rows of A in the present pass: element codes and scale bytes -/
  rows : List (List Nat × List Byte)
  sidecar : List Word32
  rowPred : List Word32
  colPred : List Word32
  output : List Flit
  /-- the channels of the flits that stand at its input, in the order in which they were passed (R353) -/
  order : List Nat
  deriving DecidableEq, Repr

/-- The matrix engine of a C-cell (R331). -/
structure Mxe where
  tiles : Vector Tile 8
  tshp : Vector Word 8
  accs : Vector Acc 4
  /-- the group row table: tile register and rows of each entry (R351) -/
  groupTable : List (Nat × Nat)
  pending : List PendingTld
  node : Node
  /-- elements of the next results that the array gets wrong (4096·accumulator + 64·row + column), with the bits it flips (R112; the model's, assumption 48) -/
  flips : List (Nat × BitVec 32)
  /-- tile registers whose endpoint, in use by a stream, holds the KERF of the wave in flight (R261) -/
  kerfs : List Nat
  /-- accepted work that waits, in the order of acceptance (R337) -/
  work : List MxWork
  deriving DecidableEq, Repr

/-! The configuration of a cell (R80, R81, R105, R106, R324, R328, R353, R424-R427). -/

/-- A queue-map entry (R27, R81): name code, depth of a ring, consumer and producer parties (8 is the MXE). -/
structure QMap where
  code : Nat
  depth : Nat
  consumer : Nat
  producers : List Nat
  deriving DecidableEq, Repr

/-- The configuration of one cell. Table entries not listed hold their reset value. -/
structure CellCfg where
  program : List Word
  /-- channel format table: 32·input + vc, and the entry (R105) -/
  cft : List (Nat × Nat)
  /-- scale registers SC0-SC15 (R106) -/
  scale : List (Nat × Nat)
  queueMap : List QMap
  node : Word
  cmpt : List (Nat × Nat)
  convt : List (Nat × Nat)
  rate : List Nat
  /-- declared heavy units by code (R39, R81) -/
  budget : List Nat
  /-- the cell data section: pieces of offset and bytes (R425) -/
  data : List (Nat × List Byte)
  deriving DecidableEq, Repr

/-- The empty configuration. -/
def CellCfg.none : CellCfg := ⟨[], [], [], [], 0#64, [], [], [], [], []⟩

/-- How far a cell is with fetching a configuration: nothing asked, sections to fetch (with the digests that differed so far, and
whether the last fetch faulted), fetched. -/
inductive Fetch where
  | idle
  | pending (cfgid : Nat) (mismatches : Nat) (stalled : Bool)
  | ready (cfgid : Nat) (cfg : Option CellCfg)
  deriving DecidableEq, Repr

/-! Bulk engines (R409-R420). -/

/-- A message in an inbox or on the way (R409-R411), with its sender's hart, context, region. -/
structure Message where
  dwords : List Word
  sender : Nat
  ctx : Nat
  region : Nat
  deriving DecidableEq, Repr

/-- An operation that has ended and whose completion update waits for a commit and for the acknowledgements of peers, by
their tags (R413, R421). -/
structure Completion where
  /-- the number of the operation -/
  id : Nat
  ctx : Nat
  /-- the virtual address of the object; 0 for none -/
  obj : Nat
  status : Nat
  fva : Nat
  interval : Nat
  acks : List Nat
  deriving DecidableEq, Repr

/-- The operation that an engine has begun on the message at the head of its inbox (R416-R419): its number, the bytes done so
far, whether poison was among them, the addresses of its LIST, the scarf link of its writes to a peer. -/
structure EngineRun where
  id : Nat
  pos : Nat
  poison : Bool
  list : List Nat
  link : Nat
  deriving DecidableEq, Repr

/-! A cell. -/

/-- A line that the L1 of a cell holds: its address, its 64 bytes and the poison of their units (R20, R195). -/
structure L1Line where
  pa : Nat
  bytes : List Byte
  poison : List Bool
  deriving DecidableEq, Repr

/-- A translated store of a hart that waits for room in its commit buffer (R433): the hart, its region, the M-cell that
translated it, its interval, its writes with their poison. -/
structure Parked where
  hart : Nat
  region : Nat
  unit : Nat
  interval : Nat
  writes : List (Bool × (Nat × List Byte))
  deriving DecidableEq, Repr

/-- A cell (R20): its ties, engines and memories. C-cells use the L1 and the MXE; M-cells the pool, the TLB, the copy
engine, the compressor and (some) the converter. -/
structure Cell where
  queues : List (Nat × Queue)
  fifos : List (Nat × List TItem)
  bufs : List (Nat × Fifo)
  /-- deliveries to port registers: 8·slot + 2·direction + channel (R123); 56-57, 48-49, 50-51 and 52-53 are the inputs of the
  matrix node, the converter, the compressor and the copy engine by channel -/
  ports : List (Nat × List PortItem)
  /-- how many places at the end of each tie came in this clk, which no pop of this clk returns (R29): queues and rings by code,
  token FIFO n as 16 + n, buffers as 256 + key, port deliveries as 512 + key -/
  young : List (Nat × Nat)
  /-- block scales at the deliveries to port registers: 256·port key + 32·input + vc (R106) -/
  scaleAt : List (Nat × ScaleState)
  sw : Switch
  /-- the C-cell SRAM or the M-cell scratchpad (R237, R301) -/
  sram : Mem
  mxe : Mxe
  pool : Pool
  /-- SPADCFG.SNAPU and POOLG (R302) -/
  snapu : Nat
  cecnt : Nat
  tlb : List TlbEntry
  /-- pages whose walk found no leaf, until the access that asked takes its fault (R364) -/
  walkFaults : List (Nat × Nat)
  /-- walks asked for and not yet answered: context and page -/
  walks : List (Nat × Nat)
  /-- lines that the L1 holds, oldest first (R20, R195) -/
  l1 : List L1Line
  /-- stores of the cell's harts that wait for room in a commit buffer, in program order (R433) -/
  parked : List Parked
  inbox : List Message
  run : Option EngineRun
  comp : List CompState
  conv : List ConvState
  cfg : CellCfg
  /-- the configuration ID the task unit keeps for the cell; 0 for none (R401) -/
  cfgid : Nat
  shadow : Fetch
  /-- data flits per port since the last part of a wave: port, or 32 + port for an output (R427) -/
  counts : List (Nat × Nat)
  /-- enlargements of buffers by key: extra flits (R448) -/
  grown : List (Nat × Nat)
  /-- the configuration before the last swap, with its ID: both stay fetched (R444) -/
  prev : Option (Nat × CellCfg)
  /-- queue maps that harts with a task of CFGID 0 keep across a swap, by slot (R401) -/
  kept : List (Nat × List QMap)
  deriving DecidableEq, Repr

/-! The task unit of a bay (R383-R401). -/

/-- A task record in the store (R385, R387). -/
structure Record where
  id : Nat
  ctx : Nat
  region : Nat
  pc : Word
  cfgid : Nat
  cells : BitVec 16
  classes : Byte
  consume : Bool
  prio : Nat
  waits : BitVec 256
  setm : BitVec 256
  args : List Word
  argPoison : List Bool
  fromHost : Option (Nat × Nat)
  /-- the kerf interval of the tspawn that sent it -/
  interval : Nat
  deriving DecidableEq, Repr

/-- A bay: event bits, what this clk adds and removes, the store in arrival order, the ready queues with ages, the
inbox of the collective engine, the added records of a watchdog enlargement. -/
structure Bay where
  events : BitVec 256
  cons : BitVec 256
  clrs : BitVec 256
  sets : BitVec 256
  store : List Record
  ready : Vector (List (Nat × Nat)) 4
  inbox : List Message
  run : Option EngineRun
  extra : Nat
  /-- 16-message enlargements of the inbox (R448) -/
  extraMsgs : Nat
  deriving DecidableEq, Repr

/-! Packets (R406). -/

/-- A packet of the dynamic network (R406): the head's fields, and the payload with the poison of its flits. -/
structure Packet where
  type : Nat
  reply : Bool
  dev : Nat
  dst : Nat
  src : Nat
  ctx : Nat
  xid : Nat
  addr : Nat
  payload : List Byte
  poison : List Bool
  deriving DecidableEq, Repr

/-- What an outstanding request is for: a line of a load, a walk, a pool request, an engine write to a peer. -/
inductive ReqFor where
  | line (hart : Nat) (load : Nat) (pa : Nat)
  | walk (cell : Nat) (ctx : Nat) (va : Nat)
  | pool (hart : Nat)
  | peer (region : Nat)
  deriving DecidableEq, Repr

/-- An outstanding dynamic-network request (R406, R449): tag, region, clk of sending. -/
structure Request where
  xid : Nat
  region : Nat
  sent : Nat
  what : ReqFor
  deriving DecidableEq, Repr

/-! Regions (R423-R450). -/

/-- The states of a region (R428). -/
inductive RState where
  | idle | loading | active | rollback | draining | preempted | resuming | frozen | teardown
  deriving DecidableEq, Repr

/-- A group (R190-R194). -/
structure Group where
  size : Nat
  members : List Nat
  complete : Bool
  /-- members waiting in the present GBAR -/
  atBar : List Nat
  /-- members waiting in the present VEXCH: hart, chunk, value -/
  atExch : List (Nat × (Nat × VVal))
  /-- results of a finished or broken instance not yet taken: hart, and 0 done, 1 broken, 5 or 6 trap reason -/
  verdicts : List (Nat × (Nat × List (Nat × (Nat × VVal))))
  /-- a member has left since JOIN -/
  left : Bool
  /-- the GBARs that each member has executed since JOIN, where there is one (R192) -/
  bars : List (Nat × Nat)
  deriving DecidableEq, Repr

/-- A write in a commit buffer (R432): M-cell, interval, physical address, bytes (none where a later write of the byte has
drained before it), poison of the units it touches. -/
structure CWrite where
  cell : Nat
  interval : Nat
  pa : Nat
  bytes : List (Option Byte)
  units : List (Nat × Bool)
  deriving DecidableEq, Repr

/-- A write to a peer that leaves at the commit of its interval (R421). -/
structure PeerWrite where
  interval : Nat
  /-- the operation that made it -/
  op : Nat
  peer : Nat
  pctx : Nat
  link : Nat
  addr : Nat
  bytes : List Byte
  poison : List Bool
  deriving DecidableEq, Repr

/-- What the parties of a wave record (R430). Keys: cell·64 + queue code, cell·16 + token FIFO, cell·256 + buffer key, cell·64 + port key;
harts for stream slots; bays; cells. -/
structure Snapshot where
  wave : Nat
  queues : List (Nat × Queue)
  fifos : List (Nat × List TItem)
  bufs : List (Nat × Fifo)
  ports : List (Nat × List PortItem)
  switches : List (Nat × Switch)
  slots : List (Nat × Vector Slot 8)
  nodes : List (Nat × Node)
  bays : List (Nat × (BitVec 256 × List Record))
  pools : List (Nat × Pool)
  /-- contents of FILLING slots: cell, and offset with bytes and the poison of their units -/
  filling : List (Nat × (Nat × (List Byte × List Bool)))
  /-- the configuration ID of a cell, and 256 more when it had swapped in a switch wave in flight -/
  cfgids : List (Nat × Nat)
  owners : List (Nat × (Nat × (Nat × Option Nat)))
  /-- scale states of the deliveries of a cell, as its switch takes its part -/
  scales : List (Nat × List (Nat × ScaleState))
  /-- what the compressor and the converter hold as a KERF passes them, by 2·cell + channel -/
  comps : List (Nat × List CompState)
  convs : List (Nat × List ConvState)
  deriving DecidableEq, Repr

/-- A region: allocation, the registers of R423, waves, commit, rollback, watchdogs, groups, ownership. -/
structure Region where
  ctx : Nat
  bx : Nat
  by' : Nat
  bw : Nat
  bh : Nat
  /-- the region holds its bays (not while PREEMPTED and released, R25) -/
  holds : Bool
  poolg : Nat
  snapu : Nat
  pmin : Nat
  pmax : Nat
  state : RState
  /-- RSTAT (R423) -/
  wave : Nat
  acfg : Nat
  scfg : Nat
  sws : Nat
  /-- RCAUSE -/
  causes : Nat
  code : Nat
  /-- the clk in which CODE was recorded (R435) -/
  codeAt : Option Nat
  /-- causes whose action waits for the region to be ACTIVE or DRAINING (R428) -/
  waitCauses : List Nat
  /-- RPARM -/
  rparm : Word
  /-- RCNT -/
  corr : Nat
  leak : Nat
  killed : Nat
  /-- RPOIS.SUM -/
  pois : BitVec 5
  rspill : Word
  rdiag : Word
  /-- bytes of the spill area in use -/
  spillUsed : Nat
  /-- bytes of the spill area that the snapshot of the last complete wave takes beyond its halves, and those that the records of the wave
  in flight take (R430) -/
  snapSpill : Nat
  takeSpill : Nat
  /-- the kill record: hart and cause (R222, R230) -/
  kills : List (Nat × Nat)
  /-- a wave is in flight; a cause asks for the next one; parties that have taken their part (R429-R431) -/
  inFlight : Bool
  wanted : Bool
  parted : List Nat
  /-- data elements moved since the last opening (R429) -/
  moved : Nat
  snap : Option Snapshot
  taking : Option Snapshot
  /-- commit buffers, youngest write first (R432); added buffers of 512 KiB per cell (R448) -/
  commit : List CWrite
  commitExtra : List (Nat × Nat)
  peerWrites : List PeerWrite
  updates : List Completion
  /-- SPAWN completions that wait for a commit: interval, function, sequence number, result -/
  spawnEnds : List (Nat × (Nat × (Nat × Word)))
  /-- records of SPAWNs that have reached their bays, until their journal entries end (assumption 36) -/
  hostRecords : List (Nat × Record)
  /-- device-scope releases that wait for their commit: interval, and region-active clk waited (R429) -/
  releases : List (Nat × Nat)
  /-- exposed until this wave is complete (R434) -/
  exposed : Option Nat
  /-- consecutive rollbacks to the same wave (R436); the first imbalance since the last commit (R437) -/
  rollbacks : Nat
  imbalance : Option (Nat × (Nat × Nat))
  /-- rollback in progress: the cause, the drain clk so far, and whether the region was DRAINING -/
  cause : Nat
  drainClk : Nat
  wasDraining : Bool
  /-- the clk in which the rollback or the freeze began (R435) -/
  actedAt : Option Nat
  /-- the rollback is the forced cut of R446, in which the region is DRAINING (R428) -/
  forced : Bool
  /-- TEARDOWN because the last configuration has ended (R405, R442), not by KILL -/
  emptied : Bool
  /-- drain clk of a pre-emption (R446) and its final wave (R445) -/
  pdl : Nat
  finalWave : Bool
  /-- watchdogs (R448-R450) -/
  swd : Nat
  hng : Nat
  fired : Bool
  spillOut : Bool
  debugHalt : Bool
  /-- switch wave (R440-R442): requested in a kerf interval; cells that have swapped; the active ID before the last complete
  one, with its request (R444) -/
  requested : Option Nat
  swapped : List Nat
  prevSwitch : Option (Nat × Option Nat)
  groups : List (Nat × Group)
  /-- groups that a gkill has ended in this clk (R231) -/
  killedNow : List Nat
  /-- ownership table: base, size, owner (R380-R382) -/
  owners : List (Nat × (Nat × (Nat × Option Nat)))
  /-- commands whose end the region decides, by function and sequence number: LOADCFG with the configuration ID, PREEMPT, RESUME -/
  loadCmd : Option (Nat × (Nat × Nat))
  preemptCmd : Option (Nat × Nat)
  resumeCmd : Option (Nat × Nat)
  /-- the saved context of a pre-empted region (R445) -/
  saved : Option Snapshot
  /-- enlargements of a region that holds no bays: 4·cell, with buffer keys, and 4·bay + 1, with 0 its store and 1 its inbox (R448) -/
  enlarged : List (Nat × List (Nat × Nat))
  /-- messages that a forced cut keeps (R420): 65536·kind + target, in order -/
  kept : List (Nat × List Message)
  deriving DecidableEq, Repr

/-! Contexts, functions and the package (R360, R421, R426, R451-R472). -/

/-- A section of an installed image (R426): kind, slot, cell, offset, length, the digest prefix. -/
structure Section where
  kind : Nat
  slot : Nat
  cell : Nat
  offset : Nat
  length : Nat
  digest : List Byte
  deriving DecidableEq, Repr

/-- An installed image (R426). -/
structure Image where
  va : Nat
  total : Nat
  empty : Bool
  rparm : Word
  place : List Nat
  sections : List Section
  /-- the ownership entries in the order of their records: cell, base, size, owner (R380) -/
  owners : List (Nat × (Nat × (Nat × Nat)))
  /-- SHAKE256 over every byte before the signature block (R469) -/
  digest : List Byte
  deriving DecidableEq, Repr

/-- A context (R24, R360, R421): its function, translation record, peers, images, and its KILL in progress. -/
structure Context where
  fn : Nat
  root : Nat
  tagbase : Word
  peers : List Word
  images : List (Nat × Image)
  /-- a KILL in progress: PURGE acknowledgements still to come (R462) -/
  killing : Option Nat
  deriving DecidableEq, Repr

/-- A page that Haltin has given to a context, or a page table of it (R361, R457). -/
structure Page where
  pa : Nat
  size : Nat
  ctx : Nat
  deriving DecidableEq, Repr

/-- A journal entry (R458), with the record's operands. -/
structure JEntry where
  op : Nat
  ctx : Nat
  state : Nat
  htag : Word
  ops : List Word
  result : Word
  tacc : Nat
  tstart : Nat
  tend : Nat
  /-- waves that must be complete before it ends: region and wave (R366) -/
  waits : List (Nat × Nat)
  /-- pages that are freed as it ends: address and size -/
  freed : List (Nat × Nat)
  deriving DecidableEq, Repr

/-- A function (R451-R460, R472): journal by sequence number, refusal log by index, counters, rectangle. -/
structure Fn where
  journal : List (Nat × JEntry)
  refusals : List (Nat × (Word × Word))
  jacc : Nat
  refcnt : Nat
  inboxdrop : Nat
  inboxerr : Nat
  rect : Word
  /-- a function-level reset waits for its KILLs (R470) -/
  resetting : Bool
  deriving DecidableEq, Repr

/-- The package: host inbox, management registers, boot, links (R422, R453, R464-R472). -/
structure Pkg where
  inbox : List (Nat × List Byte)
  bootstat : Nat
  plimit : Nat
  trip : Bool
  throttled : List Nat
  vferr : Nat
  /-- capacity of the CXL ports in 256 GB units, as found at the last reset (R464) -/
  cxl : List Nat
  linksDown : List Nat
  /-- packets dropped at their receiver (R406) -/
  ioErrors : Nat
  /-- interrupts that have reached Haltin: source node, what it says, and its payload (R408) -/
  interrupts : List (Nat × (Nat × List Byte))
  /-- units that drop what bears a context: node and context (R462) -/
  purged : List (Nat × Nat)
  /-- a staged Haltin image's security version; the fused counter; the running image's version (R466-R468) -/
  staged : Option Nat
  fused : Nat
  running : Nat
  deriving DecidableEq, Repr

/-- The machine. Entries that a map does not list hold their reset value. -/
structure State where
  clk : Nat
  /-- the hart whose instruction runs -/
  cur : Nat
  /-- the resets so far, from which the schedule goes on (assumption 3) -/
  resets : Nat
  /-- the turns still to take in this clk (assumption 3) -/
  agenda : List Turn
  /-- how far the order of the events of this clk has come (R29, R231, R319, R387, R411) -/
  phase : Nat
  /-- the model's own counter of free values (assumption 2) -/
  fresh : Nat
  /-- device physical memory (R359) -/
  mem : Mem
  /-- host bus memory that DMA reads and writes (R457) -/
  hostMem : List Host.Cell
  /-- packets in flight, oldest first (R406) -/
  net : List Packet
  requests : List Request
  nextXid : Nat
  /-- misses that stand at the walker of a bay, in the order in which they are served, with the clk of their arrival (R365) -/
  walkers : List (Nat × List (Nat × Packet))
  harts : List (Nat × Hart)
  cells : List (Nat × Cell)
  bays : List (Nat × Bay)
  regions : List (Nat × Region)
  ctxs : List (Nat × Context)
  pages : List Page
  fns : List (Nat × Fn)
  pkg : Pkg
  deriving DecidableEq, Repr

/-- Why the machine can stop for good. -/
inductive Fault where
  /-- Translation gave a physical address that no memory backs (R359): Haltin maps no such page, and the spec gives no
  effect. Raised by `translate`. Safe. -/
  | unbacked (pa : Nat)
  /-- A switch word that the loader refuses stands at the switch pc (R72, R287: such a word never runs). Raised by the
  step of a switch. Safe. -/
  | switchWord (w : Word)
  deriving DecidableEq, Repr

/-- Why the model refuses to go on. -/
inductive Refusal where
  /-- The instruction has no meaning in the model yet. Raised by `exec`. Safe. -/
  | notModelled (mnemonic : String)
  deriving DecidableEq, Repr

/-! The state after cold reset (R466). Values the spec does not give are 0 or empty (assumption 4). -/

/-- The value of an empty memory. -/
def Mem.empty : Mem := ⟨[], []⟩

/-- An SPB slot after reset (R255). -/
def Slot.reset : Slot := ⟨.empty, [], Option.none, 0, 0, 0, [], false, []⟩

/-- A hart after reset: idle, registers as R120 clears them. -/
def Hart.reset : Hart where
  pc := 0#64
  x := Vector.replicate 24 (UVal.plain 0#64)
  p := Vector.replicate 4 false
  v := Vector.replicate 28 VVal.zero18
  m := Vector.replicate 8 0#64
  hnd := false
  nut := false
  sfrf := false
  sstat := 0#64
  tvec := 0#64
  tepc := 0#64
  tval := 0#64
  tcause := 0#64
  fcsr := 0#8
  sigEn := false
  sigThr := 0#5
  tagbase := 0#64
  chkiv := 0#5
  gid := 0#64
  pchan := 0#6
  tksel := 0#8
  instret := 0#64
  task := Option.none
  lastCtx := Option.none
  idleFrom := 0
  fetchFrom := 0
  stage := .fresh
  wait := Option.none
  held := []
  portOut := []
  portKey := 0
  issued := Option.none
  dstHeld := Option.none
  record := Option.none
  loads := []
  stores := []
  sfrq := []
  sfNew := false
  sBit := false
  leaving := false
  slots := Vector.replicate 8 Slot.reset
  collected := []
  reply := Option.none

/-- A tile register as cleared: every byte 0, sidecar 0, STALE (R336). -/
def Tile.reset : Tile := ⟨Mem.empty, Mem.empty, [], [], true⟩

/-- An accumulator after reset. -/
def Acc.reset : Acc := ⟨.empty, [], [], [], [], []⟩

/-- A node at rest. -/
def Node.reset : Node := ⟨1, 1, 1, 0, 0, Option.none, false, 0, [], [], [], false, 24, [], [], [], [], [], []⟩

/-- A matrix engine after reset (R332, R336). -/
def Mxe.reset : Mxe :=
  ⟨Vector.replicate 8 Tile.reset, Vector.replicate 8 0#64, Vector.replicate 4 Acc.reset, [], [], Node.reset, [], [], []⟩

/-- A switch at the start of a configuration (R276). -/
def Switch.reset : Switch := ⟨0, Vector.replicate 4 0#24, [], false⟩

/-- A pool without granules. -/
def Pool.reset : Pool := ⟨0, [], [], [], []⟩

/-- A cell after reset: SNAPU 2 (R302). -/
def Cell.reset : Cell where
  queues := []
  fifos := []
  bufs := []
  ports := []
  young := []
  scaleAt := []
  sw := Switch.reset
  sram := Mem.empty
  mxe := Mxe.reset
  pool := Pool.reset
  snapu := 2
  cecnt := 0
  tlb := []
  walkFaults := []
  walks := []
  l1 := []
  parked := []
  inbox := []
  run := Option.none
  comp := []
  conv := []
  cfg := CellCfg.none
  cfgid := 0
  shadow := .idle
  counts := []
  grown := []
  prev := Option.none
  kept := []

/-- A bay after reset. -/
def Bay.reset : Bay := ⟨0#256, 0#256, 0#256, 0#256, [], Vector.replicate 4 [], [], Option.none, 0, 0⟩

/-- A function after reset. -/
def Fn.reset : Fn := ⟨[], [], 0, 0, 0, 0, 0#64, false⟩

/-- RPARM at reset (R423): KI 65,536, TOLK 4, SWDX 14, HNGX 22, MTOX 24, PDLX 20. -/
def rparmReset : Word := BitVec.ofNat 64 (65536 * 2 ^ 32 + 4 * 2 ^ 24 + 14 * 2 ^ 19 + 22 * 2 ^ 14 + 24 * 2 ^ 9 + 20 * 2 ^ 4)

/-- A region just allocated (R423, R428). -/
def Region.reset : Region where
  ctx := 0
  bx := 0
  by' := 0
  bw := 0
  bh := 0
  holds := false
  poolg := 0
  snapu := 2
  pmin := 0
  pmax := 0
  state := .idle
  wave := 0
  acfg := 0
  scfg := 0
  sws := 0
  causes := 0
  code := 0
  codeAt := Option.none
  waitCauses := []
  rparm := rparmReset
  corr := 0
  leak := 0
  killed := 0
  pois := 0#5
  rspill := 0#64
  rdiag := 0#64
  spillUsed := 0
  snapSpill := 0
  takeSpill := 0
  kills := []
  inFlight := false
  wanted := false
  parted := []
  moved := 0
  snap := Option.none
  taking := Option.none
  commit := []
  commitExtra := []
  peerWrites := []
  updates := []
  spawnEnds := []
  hostRecords := []
  releases := []
  exposed := Option.none
  rollbacks := 0
  imbalance := Option.none
  cause := 0
  drainClk := 0
  wasDraining := false
  actedAt := Option.none
  forced := false
  emptied := false
  pdl := 0
  finalWave := false
  swd := 0
  hng := 0
  fired := false
  spillOut := false
  debugHalt := false
  requested := Option.none
  prevSwitch := Option.none
  swapped := []
  groups := []
  killedNow := []
  owners := []
  loadCmd := Option.none
  preemptCmd := Option.none
  resumeCmd := Option.none
  saved := Option.none
  enlarged := []
  kept := []

/-- A context just opened. -/
def Context.reset : Context := ⟨0, 0, 0#64, List.replicate 15 0#64, [], Option.none⟩

/-- The package after cold reset with every boot step done (R466): PLIMIT 2,800 (R472). -/
def Pkg.reset : Pkg where
  inbox := []
  bootstat := 31
  plimit := 2800
  trip := false
  throttled := []
  vferr := 0
  cxl := List.replicate 8 0
  linksDown := []
  ioErrors := 0
  interrupts := []
  purged := []
  staged := Option.none
  fused := 0
  running := 0

/-- The machine right after cold reset (R466): no context, no region, every hart idle. -/
def State.reset : State where
  clk := 0
  cur := 0
  resets := 0
  agenda := []
  phase := 0
  fresh := 0
  mem := Mem.empty
  hostMem := []
  net := []
  requests := []
  nextXid := 0
  walkers := []
  harts := []
  cells := []
  bays := []
  regions := []
  ctxs := []
  pages := []
  fns := []
  pkg := Pkg.reset

end Sys2Proof.Machine
end

