-- ==== Sys2Proof/Machine/Ops.lean ====
section
/-! DEFINITION. The named operations over the machine: geometry, lookups, memory and the commit buffers, translation,
ties, taking a trap and returning from one, ending a task, and how an instruction of a hart runs and retires. -/

namespace Sys2Proof.Machine

/-! Geometry (R15-R23, R308). -/

/-- The cell of a hart ID (R18). -/
def cellOf (h : Nat) : Nat := h / 8

/-- The slot of a hart ID (R18). -/
def slotOf (h : Nat) : Nat := h % 8

/-- Column, row and die of a cell ID (R17). -/
def cellX (c : Nat) : Nat := c % 32
/-- Row of a cell ID (R17). -/
def cellY (c : Nat) : Nat := c / 32 % 32
/-- Die of a cell ID (R17). -/
def cellDie (c : Nat) : Nat := c / 1024

/-- Whether an ID names a cell (R17). -/
def isCell (c : Nat) : Bool := decide (c < 4096) && decide (cellX c < 24)

/-- Whether a node ID names a cell or an endpoint of an I/O die: a head hart, the Host Inbox of die W, a CXL port, a scarf link, the root of
trust or the management (R406, R465). -/
def isNode (n : Nat) : Bool :=
  isCell n || (decide (cellDie n < 2) && (
    (decide (cellX n = 24) && decide (cellY n < 4)) || (decide (cellX n = 25) && decide (cellY n = 0) && decide (cellDie n = 0)) ||
    (decide (cellX n = 26) && decide (cellY n < 4)) || (decide (cellX n = 27) && decide (cellY n < 6)) ||
    (decide (cellX n = 28) && decide (cellY n = 0))))

/-- Whether a cell is a C-cell (R16). -/
def isC (c : Nat) : Bool := decide ((cellX c + cellY c) % 2 = 0)

/-- Whether a cell is an M-cell (R16). -/
def isM (c : Nat) : Bool := isCell c && !isC c

/-- A cell ID from die and die coordinates (R17). -/
def mkCell (die x y : Nat) : Nat := die * 1024 + y * 32 + x

/-- Package coordinates of a cell (R15). -/
def pkgX (c : Nat) : Nat := cellDie c % 2 * 24 + cellX c
/-- Package row of a cell (R15). -/
def pkgY (c : Nat) : Nat := cellDie c / 2 * 32 + cellY c

/-- The cell at package coordinates (R15). -/
def cellAt (X Y : Nat) : Nat := mkCell (X / 24 + 2 * (Y / 32)) (X % 24) (Y % 32)

/-- Package bay number of a cell (R19). -/
def bayOf (c : Nat) : Nat := cellDie c * 48 + cellY c / 4 * 6 + cellX c / 4

/-- Package bay coordinates of a bay number (R19). -/
def bayX (b : Nat) : Nat := b / 48 % 2 * 6 + b % 48 % 6
/-- Package bay row of a bay number (R19). -/
def bayY (b : Nat) : Nat := b / 48 / 2 * 8 + b % 48 / 6

/-- The bay number at package bay coordinates (R19). -/
def bayAt (BX BY : Nat) : Nat := (BX / 6 + 2 * (BY / 8)) * 48 + BY % 8 * 6 + BX % 6

/-- The sixteen cells of a bay, ascending (R19). -/
def cellsOfBay (b : Nat) : List Nat :=
  (List.range 4).flatMap (fun ly => (List.range 4).map (fun lx =>
    mkCell (b / 48) (b % 48 % 6 * 4 + lx) (b % 48 / 6 * 4 + ly)))

/-- The cell where a bay's task unit and collective engine stand (R402). -/
def taskUnitCell (b : Nat) : Nat := mkCell (b / 48) (b % 48 % 6 * 4 + 1) (b % 48 / 6 * 4 + 1)

/-- The partner cell at die coordinates (x XOR 1, y) (R308, R364). -/
def partner (c : Nat) : Nat := mkCell (cellDie c) (cellX c ^^^ 1) (cellY c)

/-- The M-cell whose translation unit, commit buffer and pool serve a cell (R308, R364). -/
def unitOf (c : Nat) : Nat := if isC c then partner c else c

/-- Whether a hart ID names a hart, the switch processor included (R18). -/
def isHart (h : Nat) : Bool :=
  isCell (cellOf h) && decide (h < 32768) && (isC (cellOf h) || decide (slotOf h = 0) || decide (slotOf h = 7))

/-- Whether a hart is a streamer (R18, R232). -/
def isStreamer (h : Nat) : Bool :=
  if isC (cellOf h) then decide (4 ≤ slotOf h) && decide (slotOf h ≤ 6) else decide (slotOf h = 0)

/-- Whether a hart is a compute hart (R18). -/
def isCompute (h : Nat) : Bool := isC (cellOf h) && decide (slotOf h < 4)

/-- Whether a cell carries a converter (R22). -/
def hasConverter (c : Nat) : Bool := decide (cellX c % 4 = 1) && decide (cellY c % 2 = 0)

/-- The HBM stack that a cell is a stream port of (R23). -/
def hbmPort (c : Nat) : Option Nat :=
  if isM c && ((decide (cellDie c < 2) && decide (cellY c = 0)) || (decide (2 ≤ cellDie c) && decide (cellY c = 31)))
  then some (3 * cellDie c + cellX c / 8) else none

/-! Lookups. -/

/-- The hart with an ID. -/
def State.hartAt (s : State) (h : Nat) : Hart := lookupD Hart.reset h s.harts

/-- The state with a hart replaced. -/
def State.setHart (s : State) (h : Nat) (x : Hart) : State := { s with harts := insertAt h x s.harts }

/-- The hart whose instruction runs. -/
def State.hart (s : State) : Hart := s.hartAt s.cur

/-- The state with the running hart changed. -/
def State.modHart (s : State) (f : Hart → Hart) : State := s.setHart s.cur (f s.hart)

/-- The cell with an ID. -/
def State.cellAt (s : State) (c : Nat) : Cell := lookupD Cell.reset c s.cells

/-- The state with a cell replaced. -/
def State.setCell (s : State) (c : Nat) (x : Cell) : State := { s with cells := insertAt c x s.cells }

/-- The cell of the running hart. -/
def State.cell (s : State) : Cell := s.cellAt (cellOf s.cur)

/-- The state with a cell changed. -/
def State.modCell (s : State) (c : Nat) (f : Cell → Cell) : State := s.setCell c (f (s.cellAt c))

/-- The L1 of a cell holds no line: what its harts read next, they read afresh (R372, R376). -/
def State.dropLines (s : State) (c : Nat) : State := s.modCell c (fun x => { x with l1 := [] })

/-- The bay with a number. -/
def State.bayAt (s : State) (b : Nat) : Bay := lookupD Bay.reset b s.bays

/-- The state with a bay changed. -/
def State.modBay (s : State) (b : Nat) (f : Bay → Bay) : State := { s with bays := insertAt b (f (s.bayAt b)) s.bays }

/-- The region with a number, if it exists. -/
def State.region? (s : State) (r : Nat) : Option Region := lookup r s.regions

/-- The state with a region changed; nothing when the region does not exist. -/
def State.modRegion (s : State) (r : Nat) (f : Region → Region) : State :=
  match s.region? r with
  | some g => { s with regions := insertAt r (f g) s.regions }
  | none => s

/-- The context with an ID, if it is open. -/
def State.ctx? (s : State) (c : Nat) : Option Context := lookup c s.ctxs

/-- The state with a context changed. -/
def State.modCtx (s : State) (c : Nat) (f : Context → Context) : State :=
  match s.ctx? c with
  | some x => { s with ctxs := insertAt c (f x) s.ctxs }
  | none => s

/-- The function with a number. -/
def State.fnAt (s : State) (n : Nat) : Fn := lookupD Fn.reset n s.fns

/-- The state with a function changed. -/
def State.modFn (s : State) (n : Nat) (f : Fn → Fn) : State := { s with fns := insertAt n (f (s.fnAt n)) s.fns }

/-- The context of a hart's task; 0 between tasks (R132). -/
def Hart.ctxId (h : Hart) : Nat := (h.task.map TaskInfo.ctx).getD 0

/-- The region of a hart's task; 0 between tasks (R132). -/
def Hart.regionId (h : Hart) : Nat := (h.task.map TaskInfo.region).getD 0

/-- Whether a region covers a bay (R24). -/
def Region.hasBay (g : Region) (b : Nat) : Bool :=
  decide (g.bx ≤ bayX b) && decide (bayX b < g.bx + g.bw) && decide (g.by' ≤ bayY b) && decide (bayY b < g.by' + g.bh)

/-- Whether a region covers a cell. -/
def Region.hasCell (g : Region) (c : Nat) : Bool := isCell c && g.hasBay (bayOf c)

/-- The bays of a region, ascending. -/
def Region.bays (g : Region) : List Nat := (List.range 192).filter g.hasBay

/-- The cells of a region, ascending. -/
def Region.cells (g : Region) : List Nat := ((List.range 4096).filter isCell).filter g.hasCell

/-- The region that holds a bay (R25). -/
def State.regionOfBay (s : State) (b : Nat) : Option Nat :=
  (s.regions.find? (fun p => p.2.holds && p.2.hasBay b)).map Prod.fst

/-- The region that holds a cell. -/
def State.regionOfCell (s : State) (c : Nat) : Option Nat := if isCell c then s.regionOfBay (bayOf c) else none

/-! Memory (R5, R211, R359). -/

/-- The byte at an address: an unlisted byte is 0 (assumption 1). -/
def Mem.byte (m : Mem) (a : Nat) : Byte := lookupD 0#8 a m.bytes

/-- The memory with one byte set; a byte 0 is not listed. -/
def Mem.setByte (m : Mem) (a : Nat) (b : Byte) : Mem :=
  { m with bytes := if b = 0#8 then removeAt a m.bytes else insertAt a b m.bytes }

/-- The memory with bytes set from an address up. -/
def Mem.setBytes (m : Mem) (a : Nat) : List Byte → Mem
  | [] => m
  | b :: bs => (m.setByte a b).setBytes (a + 1) bs

/-- The poison bit of an 8-byte unit. -/
def Mem.poisoned (m : Mem) (u : Nat) : Bool := m.poison.contains u

/-- The memory with the poison bit of a unit set or cleared. -/
def Mem.setPoison (m : Mem) (u : Nat) (p : Bool) : Mem :=
  { m with poison := if p then insertNat u m.poison else m.poison.filter (fun x => x ≠ u) }

/-- Bytes from an address up. -/
def Mem.read (m : Mem) (a n : Nat) : List Byte := (List.range n).map (fun i => m.byte (a + i))

/-- The 8-byte units that n bytes at an address touch. -/
def unitsOf (a n : Nat) : List Nat := (List.range (if n = 0 then 0 else (a + n - 1) / 8 - a / 8 + 1)).map (fun i => a / 8 + i)

/-- Whether n bytes at an address cover a whole unit. -/
def covers (a n u : Nat) : Bool := decide (a ≤ 8 * u) && decide (8 * u + 8 ≤ a + n)

/-- A write with its poison: a unit written whole takes the write's poison, another ORs it with its own (R211). -/
def Mem.write (m : Mem) (a : Nat) (bs : List Byte) (p : Bool) : Mem :=
  (unitsOf a bs.length).foldl (fun m u => m.setPoison u (p || (!covers a bs.length u && m.poisoned u))) (m.setBytes a bs)

/-- A memory with bytes written, each 8-byte unit of them with its own poison, from the first unit on. -/
def Mem.writeUnits (m : Mem) (a : Nat) : List Byte → List Bool → Mem
  | bs, [] => m.write a bs false
  | bs, [p] => m.write a bs p
  | bs, p :: ps =>
    let k := 8 - a % 8
    (m.write a (bs.take k) p).writeUnits (a + k) (bs.drop k) ps

/-- Whether a unit that n bytes touch is poisoned. -/
def Mem.anyPoison (m : Mem) (a n : Nat) : Bool := (unitsOf a n).any m.poisoned

/-- The form every memory keeps: addresses strictly rising, no listed byte 0, poisoned units strictly rising. -/
abbrev Mem.wf (m : Mem) : Prop :=
  m.bytes.Pairwise (fun a b => a.1 < b.1) ∧ (∀ c ∈ m.bytes, c.2 ≠ 0#8) ∧ m.poison.Pairwise (· < ·)

/-- Whether device physical memory backs an address (R359, R464). -/
def State.backed (s : State) (pa : Nat) : Bool :=
  if pa < 0x10000000000 then decide (pa / 0x1000000000 < 12) && decide (pa % 0x1000000000 < 64000000000)
  else decide (0x100000000000 ≤ pa) && decide (pa < 0x100000000000 + 8 * 0x20000000000) &&
    decide (pa % 0x20000000000 < (s.pkg.cxl.getD ((pa - 0x100000000000) / 0x20000000000) 0) * 256000000000)

/-- The byte a write of the commit buffer holds for an address. -/
def CWrite.byteAt (w : CWrite) (pa : Nat) : Option Byte :=
  if w.pa ≤ pa then (w.bytes[pa - w.pa]?).join else none

/-- The writes a region has not committed, youngest first; none outside a region. -/
def State.pending (s : State) (r : Nat) : List CWrite := ((s.region? r).map Region.commit).getD []

/-- A byte as the threads of a region see it: the youngest uncommitted write, else memory (R37, R378). -/
def State.viewByte (s : State) (r pa : Nat) : Byte :=
  ((s.pending r).findSome? (fun w => w.byteAt pa)).getD (s.mem.byte pa)

/-- A poison bit as the threads of a region see it. -/
def State.viewPoison (s : State) (r u : Nat) : Bool :=
  ((s.pending r).findSome? (fun w => lookup u w.units)).getD (s.mem.poisoned u)

/-- Bytes as a region sees them. -/
def State.view (s : State) (r pa n : Nat) : List Byte := (List.range n).map (fun i => s.viewByte r (pa + i))

/-- Whether a unit that n bytes touch is poisoned for a region. -/
def State.viewAnyPoison (s : State) (r pa n : Nat) : Bool := (unitsOf pa n).any (s.viewPoison r)

/-- The kerf interval of a party: one more than the last complete wave, or two more once the party has taken its part
of the wave in flight (R432). -/
def Region.interval (g : Region) (party : Nat) : Nat :=
  g.wave + 1 + (if g.inFlight && g.parted.contains party then 1 else 0)

/-- The interval of a party of a region. -/
def State.interval (s : State) (r party : Nat) : Nat := ((s.region? r).map (fun g => g.interval party)).getD 0

/-- The interval of what a stream that has not ended writes while its streamer is in an interval: none that commits (R432;
assumption 97). The number holds that interval, the hart and the slot. -/
def streamInterval (h n iv : Nat) : Nat := 2 ^ 80 + iv * 2 ^ 24 + 8 * h + n

/-- The hart and the slot of a stream that has not ended, from the interval of a write. -/
def streamOf (i : Nat) : Option (Nat × Nat) := if i < 2 ^ 80 then none else some (i % 2 ^ 24 / 8, i % 8)

/-- The interval in which a write was made: of a stream that has not ended, the one its streamer was in. -/
def madeIn (i : Nat) : Nat := if i < 2 ^ 80 then i else (i - 2 ^ 80) / 2 ^ 24

/-- Bytes of a cell's commit buffer in use (R432). -/
def Region.commitUsed (g : Region) (cell : Nat) : Nat :=
  ((g.commit.filter (fun w => w.cell = cell)).map (fun w => w.bytes.length)).foldl (· + ·) 0

/-- Size of a cell's commit buffer with its enlargements (R432, R448). -/
def Region.commitCap (g : Region) (cell : Nat) : Nat := 524288 * (1 + lookupD 0 cell g.commitExtra)

/-- Whether n more bytes fit in the commit buffer of a cell. -/
def State.commitRoom (s : State) (r cell n : Nat) : Bool :=
  match s.region? r with
  | some g => decide (g.commitUsed cell + n ≤ g.commitCap cell)
  | none => true

/-- A write of a thread of a region with the poison of its units given: it enters the commit buffer of the M-cell that translated
it, and the region sees it at once (R37, R432). A buffer three-quarters full asks for a wave (R429). Outside a region it goes to
memory. -/
def State.writeAs (s : State) (r cell interval pa : Nat) (bs : List Byte) (us : List (Nat × Bool)) : State :=
  match s.region? r with
  | none => { s with mem := us.foldl (fun m u => m.setPoison u.1 u.2) (s.mem.setBytes pa bs) }
  | some g =>
    let g := { g with commit := ⟨cell, interval, pa, bs.map some, us⟩ :: g.commit }
    { s with regions := insertAt r { g with
        wanted := g.wanted || decide (3 * g.commitCap cell ≤ 4 * g.commitUsed cell) } s.regions }

/-- A write of a thread of a region: a unit written whole takes the write's poison, another ORs it with its own (R211). -/
def State.write (s : State) (r cell interval pa : Nat) (bs : List Byte) (p : Bool) : State :=
  s.writeAs r cell interval pa bs
    ((unitsOf pa bs.length).map (fun u => (u, p || (!covers pa bs.length u && s.viewPoison r u))))

/-- A memory with the bytes of a write set that it still has. -/
def Mem.setSome (m : Mem) (a : Nat) : List (Option Byte) → Mem
  | [] => m
  | some b :: bs => (m.setByte a b).setSome (a + 1) bs
  | none :: bs => m.setSome (a + 1) bs

/-- A write of the commit buffers reaches memory (R432). -/
def Mem.apply (m : Mem) (w : CWrite) : Mem :=
  w.units.foldl (fun m u => m.setPoison u.1 u.2) (m.setSome w.pa w.bytes)

/-- An older write gives up the bytes and units that a later write of another interval has taken to memory before it. -/
def CWrite.yield (w later : CWrite) : CWrite :=
  { w with
    bytes := w.bytes.zipIdx.map (fun b => if (later.byteAt (w.pa + b.2)).isSome then none else b.1)
    units := w.units.filter (fun u => (lookup u.1 later.units).isNone) }

/-- The writes, youngest first, that remain as those a test selects drain. -/
def keepWrites (p : CWrite → Bool) : List CWrite → List CWrite
  | [] => []
  | w :: rest => if p w then (keepWrites p rest).map (fun o => o.yield w) else w :: keepWrites p rest

/-- The writes of a region that a test selects drain to memory, oldest first (R432, R434); the region fires (R447). -/
def State.drainWrites (s : State) (r : Nat) (p : CWrite → Bool) : State :=
  match s.region? r with
  | none => s
  | some g =>
    { s with mem := ((g.commit.filter p).reverse).foldl Mem.apply s.mem,
             regions := insertAt r { g with
               commit := keepWrites p g.commit, fired := g.fired || g.commit.any p } s.regions }

/-- The marked fact that a party of a region acted in this clk (R447). -/
def State.fire (s : State) (r : Nat) : State := s.modRegion r (fun g => { g with fired := true })

/-! Region causes (R408, R423, R435). -/

/-- A region with a cause counted and recorded: the last one, of one clk the lowest code (R423, R435). -/
def Region.count (g : Region) (clk code : Nat) : Region :=
  { g with
    causes := min (g.causes + 1) (2 ^ 32 - 1)
    code := if g.codeAt = some clk then min g.code code else code
    codeAt := some clk }

/-- A region cause is counted, recorded and reported to Haltin by an interrupt (R408, R423, R435). -/
def State.report (s : State) (r code : Nat) : State :=
  let s := s.modRegion r (fun g => g.count s.clk code)
  { s with net := s.net ++ [⟨12, false, 0, 24, 0, 0, 0, r * 256 + code, [], []⟩] }

/-- A region cause that arises within an access: it is counted and reported, and acted on at the edge of the clk (R435). -/
def State.causeLater (s : State) (r code : Nat) : State :=
  (s.report r code).modRegion r (fun g => { g with waitCauses := g.waitCauses ++ [code] })

/-! Packets (R406, R407). -/

/-- A packet sent: it stands behind every packet sent before. -/
def State.send (s : State) (p : Packet) : State := { s with net := s.net ++ [p] }

/-- A request sent: it takes a fresh tag and is remembered until its reply (R406). -/
def State.request (s : State) (r : Nat) (what : ReqFor) (p : Packet) : State :=
  { s with
    net := s.net ++ [{ p with xid := s.nextXid }],
    requests := s.requests ++ [⟨s.nextXid, r, s.clk, what⟩],
    nextXid := s.nextXid + 1 }

/-- The node that serves a physical address: a port cell of the HBM stack, or the CXL port's endpoint (R23, R465). -/
def memNode (pa : Nat) : Nat :=
  if pa < 0x10000000000 then
    let st := pa / 0x1000000000
    if st < 6 then mkCell (st / 3) (st % 3 * 8 + 1) 0 else mkCell (st / 3) (st % 3 * 8) 31
  else
    let c := (pa - 0x100000000000) / 0x20000000000
    mkCell (c / 4) 26 (c % 4)

/-! Translation (R358-R364). -/

/-- What translation gives. -/
inductive Trans where
  | hit (pa : Nat) (e : TlbEntry)
  | miss
  | page
  | perm
  | unbacked (pa : Nat)
  deriving DecidableEq, Repr

/-- The 8 KiB page of an address. -/
def pageOf (va : Nat) : Nat := va / 8192

/-- Whether a TLB entry maps an address of a context. -/
def TlbEntry.maps (e : TlbEntry) (ctx va : Nat) : Bool :=
  decide (e.ctx = ctx) && decide (e.va ≤ va) && decide (va < e.va + e.size)

/-- What a leaf gives an access that needs the permissions (R362, R363). -/
def State.applyLeaf (s : State) (e : TlbEntry) (va : Nat) (r w x : Bool) : Trans :=
  if (r && !e.r) || (w && !e.w) || (x && !e.x) then .perm
  else if s.backed (e.pa + (va - e.va)) then .hit (e.pa + (va - e.va)) e
  else .unbacked (e.pa + (va - e.va))

/-- Translation by the unit of an M-cell for a hart: the TLB answers, or a walk must (R364, R365). -/
def State.translate (s : State) (unit ctx va : Nat) (r w x : Bool) : Trans :=
  match (s.cellAt unit).tlb.find? (fun e => e.maps ctx va) with
  | some e => s.applyLeaf e va r w x
  | none => if (s.cellAt unit).walkFaults.contains (ctx, pageOf va) then .page else .miss

/-- A miss asks the bay's walker once per page (R365). -/
def State.askWalk (s : State) (unit ctx va : Nat) : State :=
  if (s.cellAt unit).walks.contains (ctx, pageOf va) then s
  else
    let s := s.modCell unit (fun c => { c with walks := c.walks ++ [(ctx, pageOf va)] })
    s.request ((s.regionOfCell unit).getD 0) (.walk unit ctx (pageOf va))
      ⟨10, false, 0, taskUnitCell (bayOf unit), unit, ctx, 0, va, [], []⟩

/-- The page fault of a walk has been taken: the next access walks again (R364, R367). -/
def State.takeWalkFault (s : State) (unit ctx va : Nat) : State :=
  s.modCell unit (fun c => { c with walkFaults := c.walkFaults.filter (fun f => f ≠ (ctx, pageOf va)) })

/-- A page-table entry is malformed (R361). -/
def pteBad (lv e : Nat) : Bool :=
  decide (bits e 63 62 ≠ 0) || decide (bits e 60 57 ≠ 0) || decide (bits e 12 6 ≠ 0) || decide (bits e 2 2 ≠ 0) ||
    (if bits e 1 1 = 1 then
      decide (lv = 0) || (decide (lv = 1) && decide (bits e 32 13 ≠ 0)) || (decide (lv = 2) && decide (bits e 22 13 ≠ 0))
    else decide (lv = 3) || decide (bits e 61 61 ≠ 0) || decide (bits e 5 3 ≠ 0))

/-- The index of an address at a level (R361). -/
def pteIndex (lv va : Nat) : Nat :=
  match lv with
  | 0 => bits va 51 43
  | 1 => bits va 42 33
  | 2 => bits va 32 23
  | _ => bits va 22 13

/-- The levels of a walk: a leaf, or no translation; and whether an entry was read poisoned (R362). -/
def State.walkFrom (s : State) (ctx va : Nat) : Nat → Nat → Nat → Option TlbEntry × Bool
  | 0, _, _ => (none, false)
  | n + 1, lv, base =>
    let a := base + 8 * pteIndex lv va
    let e := dwordAt (s.mem.read a 8) 0
    if s.mem.poisoned (a / 8) then (none, true)
    else if bits e 0 0 = 0 || pteBad lv e then (none, false)
    else if bits e 1 1 = 1 then
      let size := 2 ^ (13 + 10 * (3 - lv))
      (some ⟨ctx, va / size * size, size, bits e 56 13 * 8192, decide (bits e 3 3 = 1), decide (bits e 4 4 = 1),
        decide (bits e 5 5 = 1), decide (bits e 61 61 = 1)⟩, false)
    else s.walkFrom ctx va n (lv + 1) (bits e 56 13 * 8192)

/-- The walk of an address of a context (R362). -/
def State.walk (s : State) (ctx va : Nat) : Option TlbEntry × Bool :=
  match s.ctx? ctx with
  | some c => if va < 2 ^ 52 then s.walkFrom ctx va 4 0 c.root else (none, false)
  | none => (none, false)

/-- Translation for an engine: the TLB, or a walk whose time is not shown (R364). -/
def State.translateNow (s : State) (unit ctx va : Nat) (r w x : Bool) : Trans :=
  match (s.cellAt unit).tlb.find? (fun e => e.maps ctx va) with
  | some e => s.applyLeaf e va r w x
  | none =>
    match (s.walk ctx va).1 with
    | some e => s.applyLeaf e va r w x
    | none => .page

/-- The physical pieces of n bytes of an engine access, cut at 8 KiB pages; or the first address that faults, with
whether the fault is one of permission, or the unbacked address. -/
def State.spanNow (s : State) (unit ctx : Nat) (r w : Bool) : Nat → Nat → Nat → Except (Nat × Trans) (List (Nat × Nat))
  | 0, _, _ => .ok []
  | fuel + 1, va, n =>
    if n = 0 then .ok []
    else
      match s.translateNow unit ctx va r w false with
      | .hit pa _ =>
        let k := min n (8192 - va % 8192)
        match s.spanNow unit ctx r w fuel (va + k) (n - k) with
        | .ok rest => .ok ((pa, k) :: rest)
        | .error e => .error e
      | t => .error (va, t)

/-- Pieces of an access of any length. -/
def State.span (s : State) (unit ctx : Nat) (r w : Bool) (va n : Nat) : Except (Nat × Trans) (List (Nat × Nat)) :=
  s.spanNow unit ctx r w (n / 8192 + 2) va n

/-- Whether the walk of an access that has no translation read a poisoned entry (R362). -/
def State.walkLost (s : State) (unit ctx va n : Nat) : Bool :=
  match s.span unit ctx false false va n with
  | .error (a, .page) => (s.walk ctx a).2
  | _ => false

/-- An access of a region whose walk read a poisoned entry is an uncorrectable error of the region (R362). -/
def State.noteWalk (s : State) (r unit ctx va n : Nat) : State := if s.walkLost unit ctx va n then s.causeLater r 0x48 else s

/-- The bytes of pieces, as a region sees them, and whether one is poisoned. -/
def State.readPieces (s : State) (rg : Nat) (ps : List (Nat × Nat)) : List Byte × Bool :=
  (ps.flatMap (fun p => s.view rg p.1 p.2), ps.any (fun p => s.viewAnyPoison rg p.1 p.2))

/-- Bytes written over pieces by a party of a region. -/
def State.writePieces (s : State) (rg unit interval : Nat) (p : Bool) : List (Nat × Nat) → List Byte → State
  | [], _ => s
  | (pa, n) :: ps, bs => (s.write rg unit interval pa (bs.take n) p).writePieces rg unit interval p ps (bs.drop n)

/-! Waves and parties (R430). A party is a hart by its hart ID, a switch by slot 7 of its cell, an MXE node by
32768 + cell, a task unit by 65536 + bay, a pool manager by 131072 + cell. -/

/-- Whether a party has taken its part of the wave in flight. -/
def State.taken (s : State) (r party : Nat) : Bool :=
  match s.region? r with
  | some g => g.inFlight && g.parted.contains party
  | none => false

/-- Whether what a producer pushes now is channel content of the wave in flight: its consumer has taken its part, and
it has not (R430). -/
def State.late (s : State) (r producer consumer : Nat) : Bool :=
  match s.region? r with
  | some g => g.inFlight && g.parted.contains consumer && !g.parted.contains producer
  | none => false

/-- The snapshot being taken, changed. -/
def State.modTaking (s : State) (r : Nat) (f : Snapshot → Snapshot) : State :=
  s.modRegion r (fun g => { g with taking := g.taking.map f })

/-! Changes of a tile pool (R310, R316, R317, R430). -/

/-- The pool with a slot changed. -/
def Pool.modSlot (p : Pool) (g : Nat) (f : PoolSlot → PoolSlot) : Pool :=
  { p with slots := p.slots.map (fun t => if t.first = g then f t else t) }

/-- A slot becomes FREE: the generations of its granules rise, its granules leave USED (R317). -/
def Pool.free (p : Pool) (t : PoolSlot) : Pool :=
  { p with
    slots := p.slots.filter (fun u => u.first ≠ t.first)
    gens := (List.range t.n).foldl (fun g i =>
      let v := (lookupD 0 (t.first + i) g + 1) % 16
      if v = 0 then removeAt (t.first + i) g else insertAt (t.first + i) v g) p.gens
    parts := p.parts.map (fun q => if q.1 = t.part then (q.1, { q.2 with used := q.2.used - t.n }) else q) }

/-- Whether a slot is FILLING or SEALED. -/
def PoolState.live : PoolState → Bool
  | .filling => true
  | .sealed => true
  | .retired _ => false

/-- The partitions of a context without the spill granules that a watchdog added: what stands in one stays until it is FREE (R442,
R448). -/
def Pool.shrink (p : Pool) (ctx : Nat) : Pool :=
  { p with parts := p.parts.map (fun q =>
      if q.2.ctx = ctx then (q.1, { q.2 with max := q.2.max - 4 * q.2.spill.length, spill := [] }) else q) }

/-- Retired slots whose interval has committed and that no read holds become FREE (R317). -/
def Pool.sweep (p : Pool) (wave : Nat) : Pool :=
  (p.slots.filter (fun t => match t.state with
    | .retired i => decide (i ≤ wave) && decide (t.pins = 0)
    | _ => false)).foldl Pool.free p

/-- The last complete wave of the region of a cell. -/
def State.waveOf (s : State) (c : Nat) : Nat := (((s.regionOfCell c).bind s.region?).map Region.wave).getD 0

/-- The end of a read that does not complete (R316). -/
def Pool.abortRead (p : Pool) (first : Nat) (consuming : Bool) : Pool :=
  p.modSlot first (fun t => if consuming then { t with claims := t.claims - 1 } else { t with pins := t.pins - 1 })

/-- A change of a pool by a hart, made also to the recorded state while the pool manager's part is open and the hart has not
taken its part (R430). -/
def State.modPool (s : State) (c h : Nat) (f : Pool → Pool) : State :=
  let s := s.modCell c (fun x => { x with pool := f x.pool })
  match s.regionOfCell c with
  | none => s
  | some r =>
    match s.region? r with
    | none => s
    | some g =>
      if g.inFlight && !g.parted.contains (131072 + c) && !g.parted.contains h then
        s.modTaking r (fun k => { k with pools := k.pools.map (fun p => if p.1 = c then (c, f p.2) else p) })
      else s

/-- Bytes written into a FILLING slot by a hart, recorded likewise. -/
def State.fillPool (s : State) (c h off : Nat) (bs : List Byte) (p : Bool) : State :=
  let s := s.modCell c (fun x => { x with sram := x.sram.write off bs p })
  match s.regionOfCell c with
  | none => s
  | some r =>
    match s.region? r with
    | none => s
    | some g =>
      if g.inFlight && !g.parted.contains (131072 + c) && !g.parted.contains h then
        s.modTaking r (fun k => { k with filling := k.filling ++ (if (lookup c k.pools).isSome then [(c, (off, (bs, (unitsOf off bs.length).map (fun _ => p))))] else []) })
      else s

/-! Queues and rings (R27-R29, R121, R259, R260, R290-R297). -/

/-- A queue that nothing has changed (R27). -/
def Queue.fresh : Queue := ⟨8, [], none, none, [], none, 0⟩

/-- The queue map that binds a slot: that of the active configuration, or one kept across a swap (R122, R401). -/
def Cell.mapFor (c : Cell) (slot : Nat) : List QMap := (lookup slot c.kept).getD c.cfg.queueMap

/-- The entry of a name code in a queue map. -/
def findMap (ms : List QMap) (code : Nat) : Option QMap := ms.find? (fun q => q.code = code)

/-- Whether a slot is the named consumer (R27). -/
def consumes (ms : List QMap) (slot code : Nat) : Bool := (findMap ms code).any (fun q => q.consumer = slot)

/-- Whether a slot is a named producer (R27). -/
def produces (ms : List QMap) (slot code : Nat) : Bool := (findMap ms code).any (fun q => q.producers.contains slot)

/-- The tie a compute hart reads as iq n: ring n when a compute hart is that ring's consumer (R292). -/
def readCode (ms : List QMap) (n : Nat) : Nat :=
  if (findMap ms (32 + n)).any (fun q => q.consumer < 4) then 32 + n else n

/-- The tie a compute hart writes as oq n: ring n when a compute hart is a producer of that ring (R292). -/
def writeCode (ms : List QMap) (n : Nat) : Nat :=
  if (findMap ms (32 + n)).any (fun q => q.producers.any (fun p => p < 4)) then 32 + n else 4 + n

/-- The queue of a code in a cell. -/
def Cell.queue (c : Cell) (code : Nat) : Queue := lookupD Queue.fresh code c.queues

/-! What came in a clk (R29): ties as `Cell.young` numbers them. -/

/-- How many places at the end of a tie came in this clk. -/
def Cell.youngOf (c : Cell) (tie : Nat) : Nat := lookupD 0 tie c.young

/-- The cell with n places at the end of a tie that came in this clk. -/
def Cell.setYoung (c : Cell) (tie n : Nat) : Cell := { c with young := insertAt tie n c.young }

/-- The cell after n pushes to a tie. -/
def Cell.pushed (c : Cell) (tie n : Nat) : Cell := c.setYoung tie (c.youngOf tie + n)

/-- The places of a tie that came before this clk, and those that came in it (R29). -/
def Cell.ripe {α : Type} (c : Cell) (tie : Nat) (xs : List α) : List α × List α :=
  xs.splitAt (xs.length - c.youngOf tie)

/-- The cell with a queue replaced. -/
def Cell.setQueue (c : Cell) (code : Nat) (q : Queue) : Cell := { c with queues := insertAt code q c.queues }

/-- Whether a place is a KERF. -/
def QItem.isKerf : QItem → Bool
  | .kerf _ _ => true
  | _ => false

/-- Entries of a queue, KERFs not counted (R474). -/
def Queue.count (q : Queue) : Nat := (q.items.filter (fun i => !i.isKerf)).length

/-- The place a read would take, and what remains: a KERF at the head blocks until the reader has taken its part of the
wave (R430), and stands aside afterwards (R431). -/
def Queue.take (q : Queue) (taken : Bool) : Option (QItem × List QItem) :=
  let ks := q.items.takeWhile QItem.isKerf
  if ks.isEmpty || taken then
    match q.items.dropWhile QItem.isKerf with
    | [] => none
    | .reserved _ _ :: _ => none
    | i :: rest => some (i, ks ++ rest)
  else none

/-- What a pop of a queue of a cell takes, and what remains: nothing that came in this clk (R29). -/
def Cell.takeQueue (c : Cell) (code : Nat) (taken : Bool) : Option (QItem × List QItem) :=
  let q := c.queue code
  let (old, new) := c.ripe code q.items
  (Queue.take { q with items := old } taken).map (fun p => (p.1, p.2 ++ new))

/-- A spill entry's bytes (R260). -/
def spillBytes (e : Entry) : List Byte :=
  match e with
  | .uniform u =>
    natBytes 8 u.val.toNat ++ List.replicate 248 0#8 ++ [u.tag.setWidth 8] ++ List.replicate 63 0#8 ++
      natBytes 4 (b2n u.poison) ++ [0#8] ++ List.replicate 187 0#8
  | .vector v =>
    v.bytes ++ (List.range 64).map (fun k => (v.lane k).tag) ++
      natBytes 4 ((List.range 32).foldr (fun j acc => b2n (v.poisonOf (2 * j)) + 2 * acc) 0) ++ [1#8] ++
      List.replicate 187 0#8
  | .token t => natBytes 8 t.raw.toNat ++ List.replicate 316 0#8 ++ [2#8] ++ List.replicate 187 0#8

/-- The entry that spill bytes hold (R260); software that overwrote them gets what it wrote (R259). -/
def spillEntry (bs : List Byte) : Entry :=
  match byteAt bs 324 % 4 with
  | 0 => .uniform ⟨BitVec.ofNat 64 (dwordAt bs 0), BitVec.ofNat 5 (byteAt bs 256), decide (byteAt bs 320 % 2 = 1)⟩
  | 1 => .vector (VVal.ofFn (fun k => ⟨BitVec.ofNat 32 (wordAt bs (4 * k)), bs.getD (256 + k) 0#8⟩)
      (fun j => decide (wordAt bs 320 / 2 ^ j % 2 = 1)))
  | _ =>
    let d := BitVec.ofNat 64 (dwordAt bs 0)
    .token ⟨d.setWidth 3, d.extractLsb' 3 5, d.extractLsb' 8 6, d.extractLsb' 32 32⟩

/-- The bytes of a virtual range as a region sees them; what has no translation reads 0. -/
def State.readVa (s : State) (rg unit ctx va n : Nat) : List Byte × Bool :=
  match s.span unit ctx true false va n with
  | .ok ps => s.readPieces rg ps
  | .error _ => (List.replicate n 0#8, false)

/-- Bytes written to a virtual range by a party; nothing where it has no translation. -/
def State.writeVa (s : State) (rg unit ctx interval va : Nat) (bs : List Byte) (p : Bool) : State :=
  match s.span unit ctx false true va bs.length with
  | .ok ps => s.writePieces rg unit interval p ps bs
  | .error _ => s

/-- The context that owns what a cell holds now. -/
def State.cellCtx (s : State) (c : Nat) : Nat :=
  ((s.regionOfCell c).bind (fun r => (s.region? r).map Region.ctx)).getD 0

/-- The region number of a cell; 192, which no region has, outside regions. -/
def State.cellRegion (s : State) (c : Nat) : Nat := (s.regionOfCell c).getD 192

/-- The entry at a place of a queue of a cell. -/
def State.entryOf (s : State) (c : Nat) (q : Queue) : QItem → Entry
  | .entry e _ => e
  | .spilled k _ =>
    match q.ext with
    | some x => spillEntry (s.readVa (s.cellRegion c) (unitOf c) (s.cellCtx c) (x.base + 512 * k) 512).1
    | none => .uniform (UVal.plain 0#64)
  | .reserved _ _ => .uniform (UVal.plain 0#64)
  | .kerf _ _ => .uniform (UVal.plain 0#64)

/-- Whether a place is a spilled entry. -/
def QItem.isSpilled : QItem → Bool
  | .spilled _ _ => true
  | _ => false

/-- The walks of the entries that move up from a spill area to the first n places (R259, R362). -/
def State.noteSpilled (s : State) (c : Nat) (x : SpillExt) (n : Nat) (is : List QItem) : State :=
  ((is.filter (fun i => !i.isKerf)).take n).foldl (fun s i => match i with
    | .spilled k _ => s.noteWalk (s.cellRegion c) (unitOf c) (s.cellCtx c) (x.base + 512 * k) 512
    | _ => s) s

/-- Places of a queue when the first n entries stand in the queue itself: an entry that moves up from the spill area is
read back (R259). -/
def State.promote (s : State) (c : Nat) (q : Queue) : Nat → List QItem → List QItem
  | _, [] => []
  | n, i :: rest =>
    if i.isKerf then i :: s.promote c q n rest
    else
      match n, i with
      | n + 1, .spilled k src => .entry (s.entryOf c q (.spilled k src)) src :: s.promote c q n rest
      | n + 1, i => i :: s.promote c q n rest
      | 0, i => i :: rest

/-! Ring storage (R291, R303). -/

/-- The depth that the queue map of a cell gives a ring; 0 for what is no ring of it. -/
def Cell.ringDepth (c : Cell) (code : Nat) : Nat :=
  if 32 ≤ code && code < 40 then ((findMap c.cfg.queueMap code).map QMap.depth).getD 0 else 0

/-- Where the storage of a ring begins in the SRAM (R291). -/
def Cell.ringBase (c : Cell) (code : Nat) : Nat :=
  0x180000 - 320 * ((List.range (code - 31)).map (fun k => c.ringDepth (32 + k))).foldl (· + ·) 0

/-- The poison of the units of a ring slot that holds an entry: 32 of data, 8 of tag fields (R291). -/
def Entry.unitPoison (e : Entry) (u : Nat) : Bool :=
  match e with
  | .uniform x => decide (u = 0) && x.poison
  | .vector v => decide (u < 32) && v.poisonOf (2 * u)
  | .token _ => false

/-- The entry of a ring slot one of whose units is lost: a unit of tag fields poisons the data units of its lanes (R303; assumption
89). -/
def Entry.lose (e : Entry) (u : Nat) : Entry :=
  match e with
  | .uniform x => .uniform { x with poison := x.poison || decide (u = 0) || decide (u = 32) }
  | .vector v => .vector { v with poison := Vector.ofFn (fun j => v.poison[j] || (decide (j.val = u) || (decide (32 ≤ u) && decide (j.val / 4 = u - 32)))) }
  | .token t => .token t

/-- The entry at place p of a ring laid into its slot of the SRAM: 256 data bytes, then 64 tag-field bytes (R291). -/
def Cell.storeRing (c : Cell) (code p : Nat) (e : Entry) : Cell :=
  let d := c.ringDepth code
  if p < d then
    let at' := c.ringBase code + 320 * (((c.queue code).head + p) % d)
    { c with sram := c.sram.writeUnits at' ((spillBytes e).take 320) ((List.range 40).map e.unitPoison) }
  else c

/-- The entry that stands at place p of a ring laid into its slot, if one does. -/
def Cell.storePlace (c : Cell) (code p : Nat) : Cell :=
  match (((c.queue code).items.filter (fun i => !i.isKerf))[p]?) with
  | some (.entry e _) => c.storeRing code p e
  | _ => c

/-- Every entry of the rings of a cell laid into its slot. -/
def Cell.storeRings (c : Cell) : Cell :=
  c.queues.foldl (fun c q => (List.range (c.ringDepth q.1)).foldl (fun c p => c.storePlace q.1 p) c) c

/-- The places with the p-th entry's unit u lost. -/
def loseAt (u : Nat) : Nat → List QItem → List QItem
  | _, [] => []
  | p, .kerf w src :: rest => .kerf w src :: loseAt u p rest
  | 0, .entry e src :: rest => .entry (e.lose u) src :: rest
  | 0, i :: rest => i :: rest
  | p + 1, i :: rest => i :: loseAt u p rest

/-- A lost word of the SRAM poisons the ring entry that lies there (R291, R303). -/
def Cell.loseWord (c : Cell) (word : Nat) : Cell :=
  (List.range 8).foldl (fun c k =>
    let code := 32 + k
    let d := c.ringDepth code
    let base := c.ringBase code
    if base ≤ 8 * word && 8 * word < base + 320 * d then
      let q := c.queue code
      let slot := (8 * word - base) / 320
      c.setQueue code { q with items := loseAt ((8 * word - base) % 320 / 8) ((slot + d - q.head % d) % d) q.items }
    else c) c

/-- The queue with a read's entry gone: the head of a ring stands one slot on, and an entry that moves up from a spill area takes the
slot that is free (R259, R291). -/
def State.dropHead (s : State) (c code : Nat) (rest : List QItem) : State :=
  let q := (s.cellAt c).queue code
  let s := match q.ext with
    | some e => s.noteSpilled c e (q.depth - e.cap) rest
    | none => s
  s.modCell c (fun x =>
    let d := x.ringDepth code
    let y := x.setQueue code
      { q with
        items := match q.ext with
          | some e => s.promote c q (q.depth - e.cap) rest
          | none => rest
        head := if d = 0 then q.head else (q.head + 1) % d }
    if q.ext.isSome && decide (0 < d) then y.storePlace code (d - 1) else y)

/-- Whether a producer may push an entry now: there is room (R28), no other producer holds a segment lock (R295), and
the producer has not ended its part of a run whose EOS is still to come (R296). -/
def Queue.accepts (q : Queue) (slot : Nat) : Bool :=
  decide (q.count < q.depth) && (q.lock.isNone || decide (q.lock = some slot)) && !q.ended.contains slot

/-- A party code of a queue map as a party: 8 is the matrix engine (R81). -/
def mapParty (c p : Nat) : Nat := if p = 8 then 32768 + c else 8 * c + p

/-- The segment lock of a ring after a push of a producer (R295). -/
def lockAfter (code slot : Nat) (e : Entry) (lock : Option Nat) : Option Nat :=
  match e with
  | .token t => if 32 ≤ code then (if t.kind = 1#3 then some slot else if t.kind = 2#3 then none else lock) else lock
  | _ => lock

/-- A change of the recorded lock and ended producers of a ring, made with the same change of the ring by a party that has not taken
its part of the wave in flight (R297, R430). -/
def State.recordRing (s : State) (c code slot : Nat) (f : Queue → Queue) : State :=
  let r := s.cellRegion c
  if s.taken r (mapParty c slot) then s
  else s.modTaking r (fun k => { k with queues := k.queues.map (fun p => if p.1 = c * 64 + code then (p.1, f p.2) else p) })

/-- A change of the lock or the ended producers of a ring by a producer (R295-R297). -/
def State.modRing (s : State) (c code slot : Nat) (f : Queue → Queue) : State :=
  (s.modCell c (fun x => x.setQueue code (f (x.queue code)))).recordRing c code slot f

/-- A push that has room: order is kept, entries beyond the queue itself go to the spill area, SOT and EOT move the
segment lock of a ring, and channel content of a wave is recorded (R29, R259, R291, R295, R430). -/
def State.pushQueue (s : State) (c code slot : Nat) (e : Entry) : State :=
  let q := (s.cellAt c).queue code
  let r := s.cellRegion c
  let q := { q with lock := lockAfter code slot e q.lock }
  let s := if code < 32 then s else s.recordRing c code slot (fun k => { k with lock := lockAfter code slot e k.lock })
  let consumer := ((findMap (s.cellAt c).cfg.queueMap code).map QMap.consumer).getD 8
  let s := if s.late r (mapParty c slot) (mapParty c consumer) then
      s.modTaking r (fun k =>
        let old := lookupD { q with items := [] } (c * 64 + code) k.queues
        { k with queues := insertAt (c * 64 + code) { old with items := old.items ++ [.entry e slot] } k.queues })
    else s
  match q.ext with
  | some x =>
    if q.depth - x.cap ≤ q.count && x.cap ≠ 0 then
      let s := (s.noteWalk r (unitOf c) (s.cellCtx c) (x.base + 512 * x.next) 512).writeVa r (unitOf c) (s.cellCtx c)
        (s.interval r (mapParty c slot)) (x.base + 512 * x.next) (spillBytes e) false
      s.modCell c (fun y => (y.setQueue code
        { q with items := q.items ++ [.spilled x.next slot], ext := some { x with next := (x.next + 1) % x.cap } }).pushed code 1)
    else s.modCell c (fun y => ((y.setQueue code { q with items := q.items ++ [.entry e slot] }).pushed code 1).storeRing code q.count e)
  | none => s.modCell c (fun y => ((y.setQueue code { q with items := q.items ++ [.entry e slot] }).pushed code 1).storeRing code q.count e)

/-- The place that an outstanding load or an issued instruction reserved takes its entry (R48). -/
def fillReserved (id : Nat) (e : Entry) : List QItem → List QItem
  | [] => []
  | .reserved j src :: rest => if j = id then .entry e src :: rest else .reserved j src :: fillReserved id e rest
  | i :: rest => i :: fillReserved id e rest

/-- Whether a place is the one reserved under a number. -/
def QItem.isReserved (id : Nat) : QItem → Bool
  | .reserved j _ => decide (j = id)
  | _ => false

/-- A reserved place of a queue of a cell takes its entry: it becomes visible as a push of this clk (R29, R48). -/
def Cell.fillPlace (c : Cell) (code id : Nat) (e : Entry) : Cell :=
  let q := c.queue code
  let behind := (q.items.dropWhile (fun i => !i.isReserved id)).length
  let ahead := ((q.items.takeWhile (fun i => !i.isReserved id)).filter (fun i => !i.isKerf)).length
  ((c.setQueue code { q with items := fillReserved id e q.items }).setYoung code (max (c.youngOf code) behind)).storePlace code ahead

/-- A place reserved at the end of a queue of a cell under a number (R48). -/
def Cell.addPlace (c : Cell) (code id slot : Nat) : Cell :=
  let q := c.queue code
  c.setQueue code { q with items := q.items ++ [.reserved id slot] }

/-- A reserved place of a queue of a cell passes to another number. -/
def Cell.movePlace (c : Cell) (code id new : Nat) : Cell :=
  let q := c.queue code
  c.setQueue code { q with items := q.items.map (fun i => match i with
    | .reserved j src => .reserved (if j = id then new else j) src
    | i => i) }

/-- A reserved place of a queue of a cell is released (R127, R230). -/
def Cell.freePlace (c : Cell) (code id : Nat) : Cell :=
  let q := c.queue code
  c.setQueue code { q with items := q.items.filter (fun i => !i.isReserved id) }

/-! Token FIFOs (R30-R32). -/

/-- Whether a place of a token FIFO is a KERF. -/
def TItem.isKerf : TItem → Bool
  | .kerf _ _ => true
  | .token _ => false

/-- A token FIFO of a cell. -/
def Cell.fifo (c : Cell) (n : Nat) : List TItem := lookupD [] n c.fifos

/-- Tokens in a FIFO (R474). -/
def tokenCount (f : List TItem) : Nat := (f.filter (fun t => !t.isKerf)).length

/-- The FIFO after a pop, if a token can be popped (R30, R430). -/
def takeToken (f : List TItem) (taken : Bool) : Option (List TItem) :=
  let ks := f.takeWhile TItem.isKerf
  if ks.isEmpty || taken then
    match f.dropWhile TItem.isKerf with
    | [] => none
    | _ :: rest => some (ks ++ rest)
  else none

/-- The cell with a token FIFO replaced. -/
def Cell.setFifo (c : Cell) (n : Nat) (f : List TItem) : Cell := { c with fifos := insertAt n f c.fifos }

/-- One token pushed, recorded when it is channel content of the wave in flight (R30, R430). -/
def State.pushToken (s : State) (c n slot : Nat) : State :=
  let r := s.cellRegion c
  let consumer := ((findMap (s.cellAt c).cfg.queueMap (16 + n)).map QMap.consumer).getD 8
  let s := if s.late r (mapParty c slot) (mapParty c consumer) then
      s.modTaking r (fun k => { k with fifos := insertAt (c * 16 + n) (lookupD [] (c * 16 + n) k.fifos ++ [.token slot]) k.fifos })
    else s
  s.modCell c (fun x => (x.setFifo n (x.fifo n ++ [.token slot])).pushed (16 + n) 1)

/-- A token FIFO of a cell after a pop, if a token that came before this clk can be popped (R29, R30, R430). -/
def Cell.popFifo (c : Cell) (n : Nat) (taken : Bool) : Option (List TItem) :=
  let (old, new) := c.ripe (16 + n) (c.fifo n)
  (takeToken old taken).map (· ++ new)

/-! Flit buffers (R267-R272). Keys: 0-7 channel inputs; 64 + 8·l + s sub-streams; 128 + 16·l + s deliveries. -/

/-- A flit buffer of a cell. -/
def Cell.buf (c : Cell) (key : Nat) : Fifo := lookupD [] key c.bufs

/-- The cell with a flit buffer replaced. -/
def Cell.setBuf (c : Cell) (key : Nat) (f : Fifo) : Cell := { c with bufs := insertAt key f c.bufs }

/-- Whether a flit is a KERF or SWT token, which takes no entry (R269, R474). -/
def Flit.isMarker (f : Flit) : Bool := decide (f.kind = 4#3) || decide (f.kind = 5#3)

/-- Whether a flit is a data flit (R265). -/
def Flit.isData (f : Flit) : Bool := decide (f.kind = 0#3) || decide (f.kind = 7#3)

/-- The neighbour at a channel port, if the port has a link: north is y + 1, east is x + 1 (R15, R71, R271). -/
def neighbour (c p : Nat) : Option Nat :=
  let X := pkgX c
  let Y := pkgY c
  match p / 2 with
  | 0 => if Y < 63 then some (cellAt X (Y + 1)) else none
  | 1 => if X < 47 then some (cellAt (X + 1) Y) else none
  | 2 => if 0 < Y then some (cellAt X (Y - 1)) else none
  | 3 => if 0 < X then some (cellAt (X - 1) Y) else none
  | _ => none

/-- The channel input at which a flit sent through a channel port arrives. -/
def facing (p : Nat) : Nat := (p / 2 + 2) % 4 * 2 + p % 2

/-- Whether a channel input comes over a die seam (R34). -/
def isSeam (c p : Nat) : Bool := (neighbour c p).any (fun n => decide (cellDie n ≠ cellDie c))

/-- Flits a buffer holds at most: the depths of A0 and B0 and what the watchdog added (R268, R404, R448). -/
def State.bufCap (s : State) (c key : Nat) : Nat :=
  (if decide (key < 8) && isSeam c key then 32 else 2) + lookupD 0 key (s.cellAt c).grown

/-- Flits in a buffer, markers not counted (R474). -/
def flitCount (f : Fifo) : Nat := (f.filter (fun x => !x.isMarker)).length

/-- Whether a buffer has room for n more flits. -/
def State.bufRoom (s : State) (c key n : Nat) : Bool := decide (flitCount ((s.cellAt c).buf key) + n ≤ s.bufCap c key)

/-- The flit at the head of a buffer for a party, and what remains. -/
def takeFlit (f : Fifo) (taken : Bool) : Option (Flit × Fifo) :=
  let ks := f.takeWhile (fun x => decide (x.kind = 4#3))
  if ks.isEmpty || taken then
    match f.dropWhile (fun x => decide (x.kind = 4#3)) with
    | [] => none
    | x :: rest => if x.isMarker then none else some (x, ks ++ rest)
  else none

/-- The consumer of a buffer as a party: the switch for channel inputs and sub-streams, the engine for deliveries. -/
def bufConsumer (c key : Nat) : Nat :=
  if key < 128 then 8 * c + 7
  else
    let l := (key - 128) / 16
    if isC c then (if l < 7 then 8 * c + l else 32768 + c) else (if l ≤ 1 then 8 * c else 131072 + c)

/-- Flits pushed to a buffer, recorded when they are channel content of the wave in flight (R267, R430). -/
def State.pushFlits (s : State) (c key producer : Nat) (fs : List Flit) : State :=
  let r := s.cellRegion c
  let s := if s.late r producer (bufConsumer c key) then
      s.modTaking r (fun k => { k with
        bufs := insertAt (c * 256 + key) (lookupD [] (c * 256 + key) k.bufs ++ fs.filter (fun f => f.kind ≠ 4#3)) k.bufs })
    else s
  s.modCell c (fun x => (x.setBuf key (x.buf key ++ fs)).pushed (256 + key) fs.length)

/-- The flit that a party takes from a buffer of a cell, and what remains: none that came in this clk (R29). -/
def Cell.popBuf (c : Cell) (key : Nat) (taken : Bool) : Option (Flit × Fifo) :=
  let (old, new) := c.ripe (256 + key) (c.buf key)
  (takeFlit old taken).map (fun p => (p.1, p.2 ++ new))

/-! The paths of a configuration (R71, R271, R274). -/

/-- The input and output ports that a switch word names together; 31 stands for none. What a merge passes counts as
in0's (R271). -/
def wordPorts (i : Instr) : List (Nat × Nat) :=
  let r := fun (b : BitVec 10) => (b.toNat / 32, b.toNat % 32)
  match i with
  | .route n r0 r1 r2 r3 _ => [r r0, r r1, r r2, r r3].take (n.toNat + 1)
  | .routec n r0 r1 r2 r3 _ => [r r0, r r1, r r2, r r3].take (n.toNat + 1)
  | .steer i o0 o1 ctl _ => [(i.toNat, o0.toNat), (i.toNat, o1.toNat), (ctl.toNat, 31)]
  | .merge i0 i1 o ctl _ => [(i0.toNat, o.toNat), (i1.toNat, 31), (ctl.toNat, 31)]
  | .emit o _ _ _ _ => [(31, o.toNat)]
  | .waittok i _ _ _ _ _ => [(i.toNat, 31)]
  | _ => []

/-- The ports that a switch program names, in pairs. -/
def Cell.portPairs (c : Cell) : List (Nat × Nat) := distinctPairs ((c.cfg.program.filterMap decodeSwitchWord).flatMap wordPorts)
where
  /-- A list of pairs without repeats. -/
  distinctPairs : List (Nat × Nat) → List (Nat × Nat)
    | [] => []
    | a :: r => a :: (distinctPairs r).filter (fun b => b ≠ a)

/-- The ways of flits through a cell: an input, the output they go to, and the input whose direction and channel count there, which
for a merge is in0 (R271, R283). -/
def wordPaths (i : Instr) : List (Nat × (Nat × Nat)) :=
  match i with
  | .merge i0 i1 o ctl _ => [(i0.toNat, (o.toNat, i0.toNat)), (i1.toNat, (o.toNat, i0.toNat)), (ctl.toNat, (31, ctl.toNat))]
  | i => (wordPorts i).map (fun p => (p.1, (p.2, p.1)))

/-- The ways that a switch program gives flits. -/
def Cell.paths (c : Cell) : List (Nat × (Nat × Nat)) := (c.cfg.program.filterMap decodeSwitchWord).flatMap wordPaths

/-- The outputs that a program gives the flits of an input, of the channel given when the input is local (R272). -/
def Cell.outputsOf (c : Cell) (inp ch : Nat) : List Nat :=
  (c.paths.filter (fun p => decide (p.1 = inp) && decide (p.2.1 < 16) &&
    (decide (inp < 8) || decide (8 ≤ p.2.1) || decide (p.2.1 % 2 = ch)))).map (fun p => p.2.1)

/-- The channel inputs that flits reach from channel inputs, those themselves among them: each next round adds what their
cells route them to. -/
def State.reached (s : State) : Nat → List (Nat × Nat) → List (Nat × Nat) → List (Nat × Nat)
  | 0, _, seen => seen
  | n + 1, front, seen =>
    let next := front.flatMap (fun p => ((s.cellAt p.1).outputsOf p.2 0).filterMap (fun o =>
      if o < 8 then (neighbour p.1 o).map (fun d => (d, facing o)) else none))
    let new := Cell.portPairs.distinctPairs (next.filter (fun p => !seen.contains p))
    if new.isEmpty then seen else s.reached n new (seen ++ new)

/-- The channel inputs that flits which leave a cell by outputs reach. -/
def State.inputsFrom (s : State) (c : Nat) (outs : List Nat) : List (Nat × Nat) :=
  let first := outs.filterMap (fun o => if o < 8 then (neighbour c o).map (fun d => (d, facing o)) else none)
  s.reached 4096 first first

/-- The table entries of a virtual channel at channel inputs (R105). -/
def State.entriesAt (s : State) (ps : List (Nat × Nat)) (vc : Nat) : List Nat :=
  ps.map (fun p => lookupD 0 (32 * p.2 + vc) (s.cellAt p.1).cfg.cft)

/-- The table entries of a virtual channel at every channel input that flits which leave a cell by outputs reach (R274). -/
def State.entriesPast (s : State) (c : Nat) (outs : List Nat) (vc : Nat) : List Nat := s.entriesAt (s.inputsFrom c outs) vc

/-- Those at the channel inputs where such flits are delivered to a local output (R105, R108, R322). -/
def State.entriesFrom (s : State) (c : Nat) (outs : List Nat) (vc : Nat) : List Nat :=
  s.entriesAt ((s.inputsFrom c outs).filter (fun p => ((s.cellAt p.1).outputsOf p.2 0).any (fun o => decide (8 ≤ o)))) vc

/-- Whether a sub-stream that leaves a cell by outputs is tagged: its flits reach an input whose entry has TGM = 1 (R274). -/
def State.taggedFrom (s : State) (c : Nat) (outs : List Nat) (vc : Nat) : Bool :=
  (s.entriesPast c outs vc).any (fun e => decide (bits e 11 10 = 1))

/-! Running an instruction of a hart. -/

/-- What the body of an instruction does. -/
inductive Act where
  /-- its effect is complete: it retires, and the next instruction follows -/
  | done (s : State)
  /-- it retires and control goes to an address -/
  | jump (s : State) (pc : Word)
  /-- it waits; the function makes what it asks of others, on the state before it -/
  | wait (w : Wait) (f : State → State)
  /-- it traps precisely, with a cause and a value -/
  | trap (code : Nat) (value : Word)
  /-- it traps so, and what the function does stands (the notes of R211) -/
  | trapWith (f : State → State) (code : Nat) (value : Word)
  /-- its task has ended -/
  | ended (s : State)
  /-- nothing in the spec gives it an effect -/
  | stop (f : Fault)

/-- A body whose traps leave a note standing (R211). -/
def Act.noting (a : Act) (f : State → State) : Act :=
  match a with
  | .trap c v => .trapWith f c v
  | a => a

/-- The outcome type of this machine. -/
abbrev Out := Host.Outcome State Fault Refusal

/-- Bytes of an instruction (R42). -/
def instrLen (i : Instr) : Nat := if (toParcel i).isSome then 2 else 4

/-- The instruction word as TVAL takes it (R67). -/
def instrWord (i : Instr) : Word :=
  match encode i with
  | some (.parcel p) => p.setWidth 64
  | some (.word w) => w.setWidth 64
  | some (.switchWord w) => w
  | none => 0#64

/-- Whether the class of a hart may execute an instruction (R66, R234). -/
def legalFor (h : Nat) (i : Instr) : Bool := if isStreamer h then i.inStreamer else i.inCompute

/-- Whether the region of the running hart drains for a rollback (R439). -/
def State.draining (s : State) : Bool :=
  match s.region? s.hart.regionId with
  | some g => decide (g.state = .rollback)
  | none => false

/-- CHKIV bits set by a use of poisoned data (R211, R212): 0 LOAD, 1 CONTROL, 2 ADDRESS, 3 EXPORT, 4 SYSTEM. -/
def State.note (s : State) (p : Bool) (b : Nat) : State :=
  if p then s.modHart (fun h => { h with chkiv := h.chkiv ||| BitVec.ofNat 5 (2 ^ b) }) else s

/-- The cause code of a trap is a page fault of a walk (R220, R253). -/
def isPageCause (code : Nat) : Bool := decide (code = 0x08) || decide (code = 0x09) || decide (code = 0x0C) || decide (code = 0x25)

/-- Entries that stand popped while an instruction waits to retire go back to the heads of their ties, and the destination entry
it has reserved is released (R127). -/
def State.returnHeld (s : State) : State :=
  let s := match s.hart.dstHeld with
    | some d => s.modCell (cellOf s.cur) (fun c => c.freePlace d.1 d.2)
    | none => s
  s.hart.held.reverse.foldl (fun s e =>
    s.modCell (cellOf s.cur) (fun c =>
      let q := c.queue e.1
      let d := c.ringDepth e.1
      c.setQueue e.1 { q with items := .entry e.2 8 :: q.items, head := if d = 0 then q.head else (q.head + d - 1) % d })) s


/-- The GBARs that a member has executed since JOIN (R192). -/
def Group.barCount (g : Group) (h : Nat) : Nat := lookupD 0 h g.bars

/-- A hart no longer waits in a group instance: its arrival at a JOIN that is not complete, a GBAR or a VEXCH is undone. -/
def Group.forget (g : Group) (h : Nat) : Group :=
  { g with
    bars := if g.atBar.contains h then insertAt h (g.barCount h - 1) g.bars else g.bars
    members := if g.complete then g.members else g.members.filter (· ≠ h)
    atBar := g.atBar.filter (· ≠ h)
    atExch := g.atExch.filter (fun p => p.1 ≠ h)
    verdicts := g.verdicts.filter (fun p => p.1 ≠ h) }

/-- Whether no member is left and no verdict stands: the group ID is free (R191). -/
def Group.unused (g : Group) : Bool := g.members.isEmpty && g.verdicts.isEmpty

/-- The groups of a region after a hart's waiting instruction is abandoned. -/
def Region.forget (r : Region) (h : Nat) : Region :=
  { r with groups := (r.groups.map (fun g => (g.1, g.2.forget h))).filter (fun g => !g.2.unused) }

/-- A pool slot that was given out and never reached its hart is FREE again, its generation unchanged (R311). -/
def Pool.undo (p : Pool) (first : Nat) : Pool :=
  match p.slots.find? (fun t => t.first = first) with
  | some t =>
    { p with
      slots := p.slots.filter (fun u => u.first ≠ first)
      parts := p.parts.map (fun q => if q.1 = t.part then (q.1, { q.2 with used := q.2.used - t.n }) else q) }
  | none => p

/-- An alloc that a hart gives up leaves no trace: its place in the queue, its packets, a slot already chosen for it
(R254, R311). -/
def State.dropAlloc (s : State) (h : Nat) : State :=
  let c := unitOf (cellOf h)
  let mine := fun (x : Nat) => s.requests.any (fun q => decide (q.xid = x) && decide (q.what = .pool h))
  let given := (s.net.filter (fun p => decide (p.type = 9) && mine p.xid)).map (fun p => leNat (p.payload.take 2) % 4096) ++
    (match (s.hartAt h).reply with
    | some w => [w.toNat % 4096]
    | none => [])
  let s := s.modCell c (fun x =>
    let p := { x.pool with queues := x.pool.queues.map (fun q => (q.1, q.2.filter (fun a => a.hart ≠ h))) }
    { x with pool := given.foldl Pool.undo p })
  { s with
    net := s.net.filter (fun p => !((decide (p.type = 8) || decide (p.type = 9)) && mine p.xid))
    requests := s.requests.filter (fun q => q.what ≠ .pool h) }

/-- The instruction at the pc is abandoned: what it popped returns, what it waits for is forgotten (R127, R226). -/
def State.abandon (s : State) : State :=
  let r := s.hart.regionId
  let s := if s.hart.stage = .arrived && isStreamer s.cur then s.dropAlloc s.cur else s
  let s := if s.hart.stage = .arrived then s.modRegion r (fun g => g.forget s.cur) else s
  s.returnHeld.modHart (fun h => { h with stage := .fresh, wait := none, held := [], portOut := [], portKey := 0, issued := none, dstHeld := none, record := none, reply := none })

/-- The kill record of a region takes a task (R222, R230). -/
def State.recordKill (s : State) (r h code : Nat) : State :=
  s.modRegion r (fun g => { g with kills := g.kills ++ [(h, code)], killed := min (g.killed + 1) 65535 })

/-- A counted producer of a ring has ended its task: its own EOS is absorbed, and the last one's makes the ring's EOS due (R296). -/
def Queue.endAt (slot : Nat) (counted : List Nat) (k : Queue) : Queue :=
  let ended := if k.ended.contains slot then k.ended else k.ended ++ [slot]
  { k with ended := ended, eosDue := if counted.all ended.contains then some slot else k.eosDue }

/-- The EOS of a ring is in: its ended producers go on (R296). -/
def Queue.eosIn (k : Queue) : Queue := if k.eosDue.isSome then { k with ended := [], eosDue := none } else k

/-- The EOS of a ring that is due is placed where the ring has a free slot (R294, R296). In the cut of a wave in flight it counts
with the producer that completed the count, or, where that cut has no EOS due, with one that had taken its part before it ended. -/
def State.placeEos (s : State) (c code : Nat) : State :=
  let q := (s.cellAt c).queue code
  match q.eosDue with
  | none => s
  | some slot =>
    if q.count < q.depth then
      let r := s.cellRegion c
      let cut := ((s.region? r).bind Region.taking).bind (fun k => lookup (c * 64 + code) k.queues)
      let src := if cut.any (fun k => k.eosDue.isNone) then (q.ended.find? (fun p => s.taken r (mapParty c p))).getD slot else slot
      ((s.modCell c (fun x => x.setQueue code q.eosIn)).recordRing c code slot Queue.eosIn).pushQueue c code src
        (.token ⟨3#3, 0#5, 0#6, 0#32⟩)
    else s

/-- A streamer has ended its task at the rings that count it, and each EOS that this makes due is placed where there is room (R296). -/
def State.endProducer (s : State) (h : Nat) : State :=
  let c := cellOf h
  let slot := slotOf h
  ((s.cellAt c).mapFor slot).foldl (fun s q =>
    if 32 ≤ q.code && q.code < 40 && q.consumer < 4 && q.producers.contains slot && 4 ≤ slot then
      (s.modRing c q.code slot (Queue.endAt slot (q.producers.filter (fun p => 4 ≤ p)))).placeEos c q.code
    else s) s

/-- The rings of a cell whose EOS waits for room behind the end of a task of a hart (R296). -/
def State.eosWaits (s : State) (h : Nat) : List Nat :=
  ((s.cellAt (cellOf h)).queues.filter (fun q => q.2.eosDue = some (slotOf h))).map Prod.fst

/-- What the end of a streamer's task does at its rings: it stands there once, and its EOS is placed as there is room (R296). -/
def State.leaveRings (s : State) (h : Nat) : State :=
  let s := if (s.hartAt h).leaving then (s.eosWaits h).foldl (fun s code => s.placeEos (cellOf h) code) s else s.endProducer h
  s.setHart h { s.hartAt h with leaving := true }

/-- A verdict given to the members that wait in a group instance (R194). -/
def Group.break (g : Group) : Group :=
  { g with
    verdicts := g.verdicts ++ g.atBar.map (fun h => (h, (1, []))) ++ g.atExch.map (fun p => (p.1, (1, []))),
    atBar := [], atExch := [] }

/-- Whether every member has executed the barrier instance that a member waits in (R192). -/
def Group.reached (g : Group) (h : Nat) : Bool := g.members.all (fun m => decide (g.barCount h ≤ g.barCount m))

/-- A GBAR instance that every member has executed completes at those that wait in it (R191, R192). -/
def Group.settle (g : Group) : Group :=
  { g with verdicts := g.verdicts ++ (g.atBar.filter g.reached).map (fun h => (h, (0, []))),
           atBar := g.atBar.filter (fun h => !g.reached h) }

/-- A member executes its next GBAR since JOIN (R192). -/
def Group.arriveBar (g : Group) (h : Nat) : Group :=
  Group.settle { g with atBar := insertNat h g.atBar, bars := insertAt h (g.barCount h + 1) g.bars }

/-- A member leaves its group (R191): a pending VEXCH traps at the others, a GBAR may complete, an empty group is free. -/
def Region.leaveGroup (r : Region) (h gid : Nat) (broken : Bool) : Region :=
  match lookup gid r.groups with
  | none => r
  | some g =>
    if g.members.contains h then
      let g := if broken then { (Group.break { g with atBar := g.atBar.filter (· ≠ h), atExch := g.atExch.filter (fun p => p.1 ≠ h) }) with
            members := g.members.filter (· ≠ h), left := true, bars := removeAt h g.bars }
        else { g with
          members := g.members.filter (· ≠ h), left := true, bars := removeAt h g.bars,
          verdicts := g.verdicts ++ (g.atExch.filter (fun p => p.1 ≠ h)).map (fun p => (p.1, (6, []))),
          atExch := [], atBar := g.atBar.filter (· ≠ h) }
      let g := g.settle
      { r with groups := if g.unused then removeAt gid r.groups else insertAt gid g r.groups }
    else r

/-- The task of a hart has ended (R222, R230, R388, R398): the hart is idle from the next clk. What its loads have reserved is
released, and their results are discarded. The poison summary takes CHKIV; a task that the host spawned forces a wave, and its journal entry waits for that commit (R214, R429, R457). -/
def State.endTask (s : State) (h : Nat) (fatal : Option Nat) : State :=
  let x := s.hartAt h
  match x.task with
  | none => s
  | some t =>
    let r := t.region
    let s := s.modRegion r (fun g => { g with pois := g.pois ||| x.chkiv })
    let s := if x.leaving then s else s.endProducer h
    let s := s.modCell (cellOf h) (fun c => { c with kept := removeAt (slotOf h) c.kept })
    let s := x.loads.foldl (fun s l => match l.dst with
      | .queue q => s.modCell (cellOf h) (fun c => c.freePlace q l.id)
      | _ => s) s
    let s := match fatal with
      | some code => s.recordKill r h code
      | none => s
    let s := match t.fromHost with
      | some (fn, seq) =>
        let res : Word := BitVec.ofNat 64 (fatal.getD 0 * 2 ^ 32)
        s.modRegion r (fun g => { g with wanted := true, spawnEnds := g.spawnEnds ++ [(g.interval h, (fn, (seq, res)))] })
      | none => s
    s.setHart h { x with
      task := none, lastCtx := some t.ctx, idleFrom := s.clk + 1, stage := .fresh, wait := none, held := [], portOut := [], portKey := 0,
      issued := none, dstHeld := none, record := none, loads := [],
      stores := [], sfrq := [], sfNew := false, leaving := false, reply := none,
      hnd := if fatal.isSome then false else x.hnd, nut := if fatal.isSome then false else x.nut,
      sfrf := if fatal.isSome then false else x.sfrf, gid := if fatal.isSome then 0#64 else x.gid }

/-- FATAL (R222): the running hart's task ends as a killed member, and its fellows' instances break (R194, R231). -/
def State.fatal (s : State) (code : Nat) : State :=
  let x := s.hart
  let s := s.abandon
  let s := if x.gid.getLsbD 31 then s.modRegion x.regionId (fun g => g.leaveGroup s.cur (x.gid.toNat % 64) true) else s
  s.endTask s.cur (some code)

/-- Bits 51:1 of an address, as TVEC and TEPC hold it (R218). -/
def evenAddr (a : Word) : Word := a &&& 0x000FFFFFFFFFFFFE#64

/-- Taking a trap (R222), once the hart's stores have been translated: a store-fault record at the head of the queue
takes the place of the cause; in a handler the task is lost, but for BAD_SSTAT; without a handler it is lost; otherwise
the trap registers are saved and control goes to TVEC. -/
def State.takeTrap (s : State) (code : Nat) (value epc : Word) : State :=
  let s := s.abandon
  let x := s.hart
  let (code, value, skid, swid) := match x.sfrq with
    | q :: _ => (q.cause, q.addr, q.skid, q.swid)
    | [] => (code, value, 0, 0)
  let tc : Word := BitVec.ofNat 64 (skid % 65536 * 2 ^ 48 + swid % 8 * 2 ^ 8 + code % 128)
  if x.hnd then
    if code = 0x03 then s.modHart (fun h => { h with tcause := 0x03#64, tval := h.sstat, pc := h.tvec })
    else s.fatal code
  else if x.tvec = 0#64 then s.fatal code
  else
    let str := isStreamer s.cur
    s.modHart (fun h => { h with
      sstat := if str then 0#64 else b2w h.nut ||| (b2w h.sigEn <<< 1),
      sigEn := if str then h.sigEn else false, nut := if str then h.nut else false, hnd := true, sfNew := false,
      tcause := tc, tval := value, tepc := evenAddr epc, pc := h.tvec })

/-- Return from a handler (R223), in a handler and with the reserved bits of SSTAT at 0. -/
def State.leaveTrap (s : State) : State :=
  let str := isStreamer s.cur
  s.modHart (fun h => { h with
    sigEn := if str then h.sigEn else h.sstat.getLsbD 1, nut := if str then h.nut else h.sstat.getLsbD 0, hnd := false })

/-- A hart that waits: the reason is kept for the watchdogs (R28, R447). -/
def State.waiting (s : State) (w : Wait) : State := s.modHart (fun h => { h with wait := some w })

/-- A precise trap of the running instruction: its older stores are translated first (R210, R222). -/
def State.trapNow (s : State) (code : Nat) (value : Word) : State :=
  if s.hart.stores.isEmpty then
    let s := if isPageCause code then s.takeWalkFault (unitOf (cellOf s.cur)) s.hart.ctxId value.toNat else s
    s.takeTrap code value s.hart.pc
  else s.waiting .memory

/-- A stream fault to deliver: the lowest FAULTED slot (R254). -/
def Hart.streamFault (h : Hart) : Option (Nat × Word) :=
  (List.range 8).findSome? (fun k => match (h.slots[k]?.getD Slot.reset).state with
    | .faulted c v => some (c, v)
    | _ => none)

/-- Whether a group instance that the running hart waits in has ended: its instruction is past abandoning, and only takes what it
was given (R190-R194). -/
def State.settled (s : State) : Bool :=
  decide (s.hart.stage = .arrived) && (((s.region? s.hart.regionId).map Region.groups).getD []).any (fun g =>
    g.2.verdicts.any (fun p => decide (p.1 = s.cur)))

/-- What stands to be delivered before the running hart issues: a store-fault record or a stream fault; in a handler, the record
that was written there (R222, R226, R254). -/
def State.dueTrap (s : State) : Option (Nat × Word) :=
  let x := s.hart
  if x.hnd && !x.sfNew then none
  else
    match x.sfrq with
    | q :: _ => some (q.cause, q.addr)
    | [] => x.streamFault

/-- Retirement (R30, R132): the pc moves, INSTRET counts, the region has fired. -/
def State.retire (s : State) (pc : Word) : State :=
  (s.modHart (fun h => { h with
    pc := pc, instret := h.instret + 1#64, stage := .fresh, wait := none, held := [], portOut := [], portKey := 0, issued := none,
    dstHeld := none, record := none, reply := none })).fire
    s.hart.regionId

/-- The FIFO that W pops and the FIFO that S pushes (R31). -/
def Hart.wsel (h : Hart) : Nat := h.tksel.toNat / 16
/-- The FIFO that S pushes (R31). -/
def Hart.ssel (h : Hart) : Nat := h.tksel.toNat % 16

/-- An S or W bit that names a FIFO of which the hart is not the party: W first (R27). -/
def State.tokenParty (s : State) (tk : Tok) : Option Nat :=
  let ms := s.cell.mapFor (slotOf s.cur)
  if tk.w && !consumes ms (slotOf s.cur) (16 + s.hart.wsel) then some s.hart.wsel
  else if tk.s && !produces ms (slotOf s.cur) (16 + s.hart.ssel) then some s.hart.ssel
  else none

/-- The W pop (R30, R32): the state after it, or none while the FIFO is empty. -/
def State.popW (s : State) (tk : Tok) : Option State :=
  if tk.w && decide (s.hart.stage = .fresh) then
    match s.cell.popFifo s.hart.wsel (s.taken s.hart.regionId s.cur) with
    | some f => some ((s.modCell (cellOf s.cur) (fun c => c.setFifo s.hart.wsel f)).modHart (fun h => { h with stage := .wPopped }))
    | none => if s.draining then some (s.modHart (fun h => { h with stage := .wPopped })) else none
  else some s

/-- The S push (R30, R32): the state after it, or none while the FIFO is full. -/
def State.pushS (s : State) (tk : Tok) : Option State :=
  if tk.s then
    if tokenCount (s.cell.fifo s.hart.ssel) < 16 then some (s.pushToken (cellOf s.cur) s.hart.ssel (slotOf s.cur))
    else if s.draining then some s
    else none
  else some s

/-- Codes of the ties a compute hart can pop (R292). -/
def popCodes : List Nat := [0, 1, 2, 3, 32, 33, 34, 35]

/-- Codes of the ties a compute hart can push (R292). -/
def pushCodes : List Nat := [4, 5, 6, 7, 32, 33, 34, 35]

/-- What stands at a delivery of a cell that came before this clk (R29). -/
def Cell.ripePort (c : Cell) (pk : Nat) : List PortItem := (c.ripe (512 + pk) (lookupD [] pk c.ports)).1

/-- The first n flits of a delivery gone, KERFs standing (R121, R474). -/
def dropItems : Nat → List PortItem → List PortItem
  | 0, is => is
  | _, [] => []
  | n + 1, i :: is => if i.flit.kind = 4#3 then i :: dropItems (n + 1) is else dropItems n is

/-- The destination entry that an issued instruction writes stays reserved for it until it retires (R48). -/
def State.reserve (s after : State) : State :=
  let c := cellOf s.cur
  if s.hart.dstHeld.isSome then s
  else
  match pushCodes.find? (fun code => decide (((s.cellAt c).queue code).items.length < ((after.cellAt c).queue code).items.length)) with
  | none => s
  | some code =>
    { ((s.modCell c (fun x => x.addPlace code s.fresh (slotOf s.cur))).modHart (fun h =>
        { h with dstHeld := some (code, s.fresh) })) with fresh := s.fresh + 1 }

/-- The instruction has issued and waits for room to push its token (R32): the entries it popped stay popped, in `held`
or, for ports, in the port register, and its destination entry stays reserved (R48). -/
def State.hold (s after : State) : State :=
  let c := cellOf s.cur
  let s := s.reserve after
  let s := popCodes.foldl (fun s code =>
    let q := (s.cellAt c).queue code
    let n := q.items.length - ((after.cellAt c).queue code).items.length
    let es := (q.items.filter (fun i => !i.isKerf)).take n
    if n = 0 then s
    else
      (s.modCell c (fun x =>
        let y := x.setQueue code ((after.cellAt c).queue code)
        if q.ext.isSome then y.storePlace code (y.ringDepth code - 1) else y)).modHart (fun h =>
        { h with held := h.held ++ es.map (fun i => (code, s.entryOf c q i)) })) s
  (List.range 8).foldl (fun s p =>
    let key := 8 * slotOf s.cur + p
    let b := lookupD [] key (s.cellAt c).ports
    let n := b.length - (lookupD [] key (after.cellAt c).ports).length
    if n = 0 then s
    else
      (s.modCell c (fun x => { x with ports := insertAt key (dropItems n b) x.ports })).modHart (fun h =>
        { h with collected := insertAt p (lookupD [] p h.collected ++ (b.filter (fun i => i.flit.kind ≠ 4#3)).take n) h.collected })) s

/-- The end of an instruction whose effect is complete: its token, then its retirement (R30, R32). -/
def State.finish (s after : State) (tk : Tok) (pc : Word) : State :=
  match after.pushS tk with
  | some t => t.retire pc
  | none => (s.hold after).waiting (.full (16 + s.hart.ssel))

/-- The cause of a body's trap where R221 takes it before QUEUE_MAP: ILLEGAL, ILL_TRET, BAD_SSTAT and PRIV. -/
def Act.early (a : Act) : Option (Nat × Word) :=
  match a with
  | .trap c v => if c ≤ 4 then some (c, v) else none
  | .trapWith _ c v => if c ≤ 4 then some (c, v) else none
  | _ => none

/-- Whether a body waits for what older loads of its hart will give it. -/
def Act.forLoads (a : Act) (s : State) : Bool :=
  match a with
  | .wait .memory _ => !s.hart.loads.isEmpty
  | _ => false

/-- A token bit names FIFO n, of which the running hart is not the party: QUEUE_MAP, but for the causes that come before it, with the
W pop that R68 makes (R27, R68, R221). -/
def State.tokenTrap (s : State) (tk : Tok) (n : Nat) (body : State → Act) : State :=
  if (body s).forLoads s then s.waiting .memory
  else
    match (body s).early with
    | none => s.trapNow 0x10 (BitVec.ofNat 64 (64 + n))
    | some (code, value) =>
      match s.popW { tk with w := tk.w && consumes (s.cell.mapFor (slotOf s.cur)) (slotOf s.cur) (16 + s.hart.wsel) } with
      | none => s.waiting (.empty (16 + s.hart.wsel))
      | some t => t.trapNow code value

/-- How an instruction of a hart runs (R27, R30-R32, R66, R67, R222, R226, R254). A due trap comes first, but one that has issued
goes on until it retires (R124, assumption 56), and one whose group instance has ended takes its end; then the class
of the hart, the parties of the token FIFOs, the W pop, the body, the S push, retirement. -/
def runHart (i : Instr) (tk : Tok) (s : State) (body : State → Act) : Out :=
  match (if s.hart.issued.isSome || s.settled then none else s.dueTrap) with
  | some (code, value) => .next (s.trapNow code value)
  | none =>
    if !legalFor s.cur i then .next (s.trapNow 0x01 (instrWord i))
    else
      match (if s.hart.stage = .fresh then s.tokenParty tk else none) with
      | some n => .next (s.tokenTrap tk n body)
      | none =>
        match s.popW tk with
        | none => .next (s.waiting (.empty (16 + s.hart.wsel)))
        | some s1 =>
          match body s1 with
          | .done s2 => .next (s1.finish s2 tk (s.hart.pc + BitVec.ofNat 64 (instrLen i)))
          | .jump s2 pc => .next (s1.finish s2 tk pc)
          | .wait w f => .next ((f s1).waiting w)
          | .trap code value => .next (s1.trapNow code value)
          | .trapWith f code value => .next ((f s1).trapNow code value)
          | .ended s2 => .next s2
          | .stop f => .fault f

end Sys2Proof.Machine
end

