-- ==== Sys2Proof/Machine/Operands.lean ====
section
/-! DEFINITION. The operand forms: registers, queues, rings, ports, masks and predicates as sources and destinations
(R46-R48, R115-R127, R211), and the decoding of flits at a port (R107, R114, R273, R274). -/

namespace Sys2Proof.Machine

/-! Registers (R46, R115-R119). -/

/-- An outstanding load will write this uniform register (R195). -/
def Hart.xBusy (h : Hart) (r : Reg) : Bool := h.loads.any (fun l => decide (l.dst = .xreg r) && decide (r ≠ 0#5))

/-- An outstanding load will write this vector register (R195). -/
def Hart.vBusy (h : Hart) (r : Reg) : Bool := h.loads.any (fun l => decide (l.dst = .vreg r))

/-- A uniform register: x0 reads 0 with tag 24 (R46, R116). -/
def Hart.xval (h : Hart) (r : Reg) : UVal := if r = 0#5 then UVal.plain 0#64 else h.x[r.toNat]?.getD (UVal.plain 0#64)

/-- A uniform register written: a write to x0 is discarded (R46). -/
def Hart.setX (h : Hart) (r : Reg) (v : UVal) : Hart := if r = 0#5 then h else { h with x := h.x.setIfInBounds r.toNat v }

/-- A vector register. -/
def Hart.vval (h : Hart) (r : Reg) : VVal := h.v[r.toNat]?.getD VVal.zero18

/-- A vector register written. -/
def Hart.setV (h : Hart) (r : Reg) (v : VVal) : Hart := { h with v := h.v.setIfInBounds r.toNat v }

/-- A mask: m0 reads all ones (R115, R144). -/
def Hart.mval (h : Hart) (m : MReg) : Word := if m = 0#3 then maskAll else h.m[m.toNat]?.getD 0#64

/-- A mask written. -/
def Hart.setM (h : Hart) (m : MReg) (v : Word) : Hart := if m = 0#3 then h else { h with m := h.m.setIfInBounds m.toNat v }

/-- A predicate (R119). -/
def Hart.pval (h : Hart) (p : PReg) : Bool := h.p[p.toNat]?.getD false

/-- A predicate written. -/
def Hart.setP (h : Hart) (p : PReg) (v : Bool) : Hart := { h with p := h.p.setIfInBounds p.toNat v }

/-- The status bit p3 written (R158). -/
def Hart.setP3 (h : Hart) (v : Bool) : Hart := h.setP 3#2 v

/-! Flits at a port (R84, R107, R114, R123, R273, R274). -/

/-- The table entry of a virtual channel at a channel input (R105). -/
def Cell.cftEntry (c : Cell) (input vc : Nat) : Nat := lookupD 0 (32 * input + vc) c.cfg.cft

/-- A scale register (R106): SCALE 0x7F at reset. -/
def Cell.scaleReg (c : Cell) (n : Nat) : Nat := lookupD 0x7F n c.cfg.scale

/-- Bits per element of a format code (R82). -/
def fmtBits (f : Nat) : Nat :=
  match f with
  | 0 => 64
  | 1 => 32
  | 2 => 16
  | 3 => 16
  | 4 => 8
  | 5 => 8
  | 6 => 4
  | 7 => 8
  | 8 => 8
  | 9 => 16
  | 10 => 32
  | _ => 8

/-- The float format of a format code (R82). -/
def fmtFloat (f : Nat) : Option FFmt :=
  match f with
  | 1 => some .fp32
  | 2 => some .bf16
  | 3 => some .fp16
  | 4 => some .e4m3
  | 5 => some .e5m2
  | 6 => some .e2m1
  | _ => none

/-- Lanes that one flit of a format fills when it is decoded (R107, R123). -/
def blockLanes (f : Nat) : Nat := if f = 6 then 64 else if f = 4 || f = 5 || f = 7 || f = 8 then 32 else 8

/-- Elements per block of a BLK code (R105). -/
def blkSize (blk : Nat) : Nat := match blk with
  | 1 => 16
  | 2 => 32
  | 3 => 64
  | _ => 0

/-- A widened element (R95, R96, R107): element times scale, with overflow to infinity; tag q, or 0 for infinity and
NaN (R114, R180). A cell input raises no flag, an E5M2 signalling NaN there neither: R90 gives the flags to hart
instructions (DEDUCED, assumption 84). -/
def widenElem (f scale code : Nat) : Word32 × Nat :=
  let x := match fmtFloat f with
    | some g => decodeF g code
    | none => intToX (if f = 7 then signedOf 8 code else (code : Int))
  let c := if scale = 0xFF then 0x7FC00000 else (roundX .fp32 .rne (xscale x ((scale : Int) - 127))).1
  let q := match fmtFloat f with
    | some g => g.prec
    | none => 24
  (BitVec.ofNat 32 c, if bits c 30 23 = 255 then 0 else q)

/-- Whether a 16-bit or 32-bit float code is an infinity or a NaN. -/
def isSpecialCode (f : FFmt) (c : Nat) : Bool := (decodeF f c).isNan || (decodeF f c).isInf

/-- Tag field of a lane that is not widened and not tagged (R114, R117). -/
def plainTag (f : Nat) (lane : Word32) : Byte :=
  match f with
  | 1 => if isSpecialCode .fp32 lane.toNat then 0#8 else 0x18#8
  | 2 => tagField 16 ((List.range 2).map (fun j => if isSpecialCode .bf16 (elemU lane 16 j) then 0 else 8))
  | 3 => tagField 16 ((List.range 2).map (fun j => if isSpecialCode .fp16 (elemU lane 16 j) then 0 else 11))
  | 9 => 0xBB#8
  | _ => 0x18#8

/-- The tag field of a lane whose flit carries a tag byte for it: an infinity or NaN has tag 0 all the same (R114, R117). -/
def carriedTag (f : Nat) (lane : Word32) (t : Byte) : Byte :=
  let kept := fun (g : FFmt) => tagField 16 ((List.range 2).map (fun j => if isSpecialCode g (elemU lane 16 j) then 0 else laneTag 16 t j))
  match f with
  | 1 => if isSpecialCode .fp32 lane.toNat then 0#8 else t
  | 2 => kept .bf16
  | 3 => kept .fp16
  | _ => t

/-- The lanes a flit decodes to, by its table entry: FMT, SCR, BLK and TGM (R105, R107, R114, R274). -/
def decodeItem (c : Cell) (entry : Nat) (i : PortItem) : List Lane :=
  let f := entry % 16
  let n := blockLanes f
  let d := i.flit.data.toNat
  let tagOf := fun (unit : Nat) (t : Byte) => match i.tags with
    | some w => BitVec.ofNat 8 (w.toNat / 256 ^ unit)
    | none => t
  if n = 8 then
    (List.range 8).map (fun k =>
      let l := BitVec.ofNat 32 (d / 2 ^ (32 * k))
      ⟨l, carriedTag f l (tagOf k (plainTag f l))⟩)
  else
    let w := 256 / n
    (List.range n).map (fun k =>
      let code := d / 2 ^ (w * k) % 2 ^ w
      let sc := match i.scales with
        | [] => bits (c.scaleReg (bits entry 7 4)) 7 0
        | ss => byteAt ss k
      if (f = 7 || f = 8) && sc = 0x7F && i.scales.isEmpty then
        ⟨BitVec.ofInt 32 (if f = 7 then signedOf 8 code else (code : Int)), tagOf (w * k / 32) 0x18#8⟩
      else
        let (v, t) := widenElem f sc code
        ⟨v, if t = 0 then 0#8 else tagOf (w * k / 32) (BitVec.ofNat 8 t)⟩)

/-- The token that a control flit reads as (R121). -/
def flitToken (f : Flit) : Token :=
  if f.kind = 6#3 then
    let sub := f.data.extractLsb' 32 6
    ⟨6#3, f.vc, if 1 ≤ sub.toNat && sub.toNat ≤ 6 then sub else 0x3F#6, f.data.extractLsb' 0 32⟩
  else ⟨f.kind, f.vc, 0#6, 0#32⟩

/-- Entries that stand at a port for a read: collected flits first, then the delivery buffer up to a KERF that blocks
(R123, R430). A tagged data flit stands there once its tag flit is in. -/
def State.portItems (s : State) (p : Nat) : List PortItem :=
  let key := 8 * slotOf s.cur + p
  let b := s.cell.ripePort key
  let b := if s.taken s.hart.regionId s.cur then b.filter (fun i => i.flit.kind ≠ 4#3)
    else b.takeWhile (fun i => i.flit.kind ≠ 4#3)
  (lookupD [] p s.hart.collected ++ b).takeWhile (fun i => !i.tagged || !i.flit.isData || i.tags.isSome)

/-- The state with n entries of a port consumed. -/
def State.dropPort (s : State) (p n : Nat) : State :=
  let k := lookupD [] p s.hart.collected
  let s := s.modHart (fun h => { h with collected := insertAt p (k.drop n) h.collected })
  if n ≤ k.length then s
  else
    let key := 8 * slotOf s.cur + p
    s.modCell (cellOf s.cur) (fun c => { c with ports := insertAt key (dropItems (n - k.length) (lookupD [] key c.ports)) c.ports })

/-- The port key of a direction (0 hn, 1 he, 2 hs, 3 hw) on the hart's channel (R131). -/
def Hart.portOf (h : Hart) (dir : Nat) : Nat := 2 * dir + h.pchan.toNat % 2

/-- The sub-stream key of a write through a port register (R124, R272). -/
def Hart.outKey (h : Hart) (slot dir : Nat) : Nat := 64 + 8 * slot + h.portOf dir

/-- Whether the sub-stream that a port write feeds is tagged: its flits reach a table entry with TGM = 1 (R274). -/
def State.taggedOut (s : State) (c port vc : Nat) : Bool :=
  s.taggedFrom c (((s.cellAt c).outputsOf (8 + slotOf s.cur) (port % 2)).filter (fun o => decide (o = port))) vc

/-! Sources. -/

/-- Poison of a popped entry enters the hart (R211). -/
def State.popNote (s : State) (p : Bool) : State := s.note p 0

/-- What a blocked read yields in the drain of a rollback (R439). -/
def drainedU : UVal := ⟨0#64, 0#5, true⟩

/-- A vector that a blocked read yields in the drain of a rollback (R439). -/
def drainedV : VVal := VVal.ofFn (fun _ => ⟨0#32, 0#8⟩) (fun _ => true)

/-- The entry that the running hart would take from load queue n, with the state after the pop: an entry that stands
popped for this instruction comes first (R32, R48). -/
def State.popQueue (s : State) (n : Nat) : Option (Entry × State) :=
  let code := readCode (s.cell.mapFor (slotOf s.cur)) n
  match s.hart.held.find? (fun e => e.1 = code) with
  | some e => some (e.2, s.modHart (fun h => { h with held := h.held.erase e }))
  | none =>
    match s.cell.takeQueue code (s.taken s.hart.regionId s.cur) with
    | some (i, rest) => some (s.entryOf (cellOf s.cur) (s.cell.queue code) i, s.dropHead (cellOf s.cur) code rest)
    | none => none

/-- A uniform source names a queue of which the hart is not the consumer (R27). -/
def State.badSrcU (s : State) (r : Reg) : Bool :=
  decide (24 ≤ r.toNat) && decide (r.toNat < 28) &&
    !consumes (s.cell.mapFor (slotOf s.cur)) (slotOf s.cur) (readCode (s.cell.mapFor (slotOf s.cur)) (r.toNat - 24))

/-- A uniform destination names a queue of which the hart is not a producer (R27). -/
def State.badDstU (s : State) (r : Reg) : Bool :=
  decide (24 ≤ r.toNat) && decide (r.toNat < 28) &&
    !produces (s.cell.mapFor (slotOf s.cur)) (slotOf s.cur) (writeCode (s.cell.mapFor (slotOf s.cur)) (r.toNat - 24))

/-- A vector source names a queue of which the hart is not the consumer (R27). -/
def State.badSrcV (s : State) (r : Reg) : Bool :=
  decide (28 ≤ r.toNat) &&
    !consumes (s.cell.mapFor (slotOf s.cur)) (slotOf s.cur) (readCode (s.cell.mapFor (slotOf s.cur)) (r.toNat - 28))

/-- A vector destination names a queue of which the hart is not a producer (R27). -/
def State.badDstV (s : State) (r : Reg) : Bool :=
  decide (28 ≤ r.toNat) &&
    !produces (s.cell.mapFor (slotOf s.cur)) (slotOf s.cur) (writeCode (s.cell.mapFor (slotOf s.cur)) (r.toNat - 28))

/-- QUEUE_MAP for the first operand that names a queue wrongly, with the specifier as value (R27, R220). -/
def guardMap (bads : List (Bool × Reg)) (k : Act) : Act :=
  match bads.find? (fun b => b.1) with
  | some b => .trap 0x10 (b.2.setWidth 64)
  | none => k

/-- An entry of the other namespace is popped: the instruction traps once it can issue, that is when no other operand
of it has to wait (R48). -/
def wrongKind (r : Reg) (rest : Act) : Act :=
  match rest with
  | .wait w f => .wait w f
  | _ => .trap 0x10 (r.setWidth 64)

/-- What reading an operand comes to. -/
inductive Read (α : Type) where
  /-- its value, and the state after its pop -/
  | got (v : α) (s : State)
  /-- it is not there yet -/
  | wait (w : Wait)
  /-- an entry of the other namespace, popped (R48) -/
  | wrong (s : State)

/-- A uniform source operand read (R46, R48, R121, R123). -/
def State.readU (s : State) (r : Reg) : Read UVal :=
  if r.toNat < 24 then
    if s.hart.xBusy r then .wait .memory else .got (s.hart.xval r) s
  else if r.toNat < 28 then
    match s.popQueue (r.toNat - 24) with
    | none => if s.draining then .got drainedU s else .wait (.empty (readCode (s.cell.mapFor (slotOf s.cur)) (r.toNat - 24)))
    | some (.uniform u, s) => .got u (s.popNote u.poison)
    | some (.token t, s) => .got (UVal.plain t.dword) s
    | some (.vector _, s) => .wrong s
  else
    let p := s.hart.portOf (r.toNat - 28)
    match s.portItems p with
    | [] => if s.draining then .got drainedU s else .wait (.empty (64 + p))
    | i :: _ =>
      let s1 := s.dropPort p 1
      if i.flit.isData then
        let ls := decodeItem s.cell (s.cell.cftEntry i.input i.flit.vc.toNat) i
        let l0 := ls.getD 0 Lane.zero18
        let l1 := ls.getD 1 Lane.zero18
        let f := s.cell.cftEntry i.input i.flit.vc.toNat % 16
        let t : Nat := if f = 2 || f = 3 then l0.tag.toNat % 16 else if f = 9 then 24 else l0.tag.toNat % 32
        let po := decide (i.flit.kind = 7#3)
        .got ⟨l1.bits ++ l0.bits, BitVec.ofNat 5 t, po⟩ (s1.popNote po)
      else .got (UVal.plain (flitToken i.flit).dword) s1

/-- A vector source operand read (R46, R48, R121). -/
def State.readV (s : State) (r : Reg) : Read VVal :=
  if r.toNat < 28 then
    if s.hart.vBusy r then .wait .memory else .got (s.hart.vval r) s
  else
    match s.popQueue (r.toNat - 28) with
    | none => if s.draining then .got drainedV s else .wait (.empty (readCode (s.cell.mapFor (slotOf s.cur)) (r.toNat - 28)))
    | some (.vector v, s) => .got v (s.popNote (v.poison.toList.any (fun b => b)))
    | some (_, s) => .wrong s

/-- A body that goes on with a uniform source operand (R48). -/
def srcU (s : State) (r : Reg) (k : UVal → State → Act) : Act :=
  match s.readU r with
  | .got v t => k v t
  | .wait w => .wait w id
  | .wrong t => wrongKind r (k (UVal.plain 0#64) t)

/-- A body that goes on with a vector source operand (R48). -/
def srcV (s : State) (r : Reg) (k : VVal → State → Act) : Act :=
  match s.readV r with
  | .got v t => k v t
  | .wait w => .wait w id
  | .wrong t => wrongKind r (k VVal.zero18 t)

/-! Destinations. -/

/-- The flits of a uniform port write: one, and its tag flit on a tagged sub-stream (R124, R274). A uniform value has one tag, that
of its bits 31:0, and R274 names no byte for the other units: the tag flit holds 0 for them (DESIGN CHOICE, assumption 81). -/
def flitsOfU (v : UVal) (vc : BitVec 5) (tagged : Bool) : List Flit :=
  ⟨if v.poison then 7#3 else 0#3, vc, v.val.setWidth 256⟩ ::
    (if tagged then [⟨0#3, vc, (v.tag.setWidth 256)⟩] else [])

/-- An entry, poisoned or not, pushed to a queue of the cell by the running hart, which has room for it or has reserved a place
(R48, R211); or what it waits for. -/
def State.putQueue (s : State) (code : Nat) (e : Entry) (p : Bool) : Except Wait State :=
  let c := cellOf s.cur
  match s.hart.dstHeld with
  | some (k, id) =>
    if k = code then
      .ok (((s.modCell c (fun x => x.fillPlace code id e)).modHart (fun h => { h with dstHeld := none })).note p 3)
    else .error (.full code)
  | none =>
    if (s.cell.queue code).accepts (slotOf s.cur) then .ok ((s.pushQueue c code (slotOf s.cur) e).note p 3)
    else if s.draining then .ok s
    else .error (.full code)

/-- A uniform destination operand written (R46, R48, R124, R211); or what it waits for. -/
def State.putU (s : State) (r : Reg) (v : UVal) : Except Wait State :=
  if r.toNat < 24 then
    if s.hart.xBusy r then .error .memory else .ok (s.modHart (fun h => h.setX r v))
  else if r.toNat < 28 then
    let code := writeCode (s.cell.mapFor (slotOf s.cur)) (r.toNat - 24)
    s.putQueue code (.uniform v) v.poison
  else
    let c := cellOf s.cur
    let key := s.hart.outKey (slotOf s.cur) (r.toNat - 28)
    let vc := s.hart.pchan.extractLsb' 1 5
    let fs := flitsOfU v vc (s.taggedOut c (s.hart.portOf (r.toNat - 28)) vc.toNat)
    if s.bufRoom c key fs.length then .ok ((s.pushFlits c key s.cur fs).note v.poison 3)
    else if s.draining then .ok s
    else .error (.full key)

/-- A vector destination operand written: a register, whose inactive lanes keep their contents, or a store queue, whose inactive
lanes are 0 (R126). The function gives the result from the old value. -/
def State.putV (s : State) (r : Reg) (f : VVal → Bool → VVal) : Except Wait State :=
  if r.toNat < 28 then
    if s.hart.vBusy r then .error .memory else .ok (s.modHart (fun h => h.setV r (f (h.vval r) true)))
  else
    let code := writeCode (s.cell.mapFor (slotOf s.cur)) (r.toNat - 28)
    let v := f VVal.zero18 false
    s.putQueue code (.vector v) (v.poison.toList.any (fun b => b))

/-- A write that is made, or waited for. -/
def Act.ofPut (r : Except Wait State) : Act :=
  match r with
  | .ok t => .done t
  | .error w => .wait w id

/-- A body that ends with a uniform destination operand. -/
def dstU (s : State) (r : Reg) (v : UVal) : Act := Act.ofPut (s.putU r v)

/-- A body that ends with a vector destination operand. -/
def dstV (s : State) (r : Reg) (f : VVal → Bool → VVal) : Act := Act.ofPut (s.putV r f)

/-- A body that goes on after a destination has been written. -/
def Act.andThen (a : Act) (k : State → Act) : Act :=
  match a with
  | .done s => k s
  | .jump s pc => .jump s pc
  | .wait w f => .wait w f
  | .trap c v => .trap c v
  | .trapWith f c v => .trapWith f c v
  | .ended s => .ended s
  | .stop f => .stop f

/-- Two uniform sources and a uniform destination (R48). -/
def uniform2 (s : State) (d a b : Reg) (f : UVal → UVal → State → State × UVal) : Act :=
  guardMap [(s.badSrcU a, a), (s.badSrcU b, b), (s.badDstU d, d)]
    (srcU s a fun x s => srcU s b fun y s => let r := f x y s; dstU r.1 d r.2)

/-- One uniform source and a uniform destination (R48). -/
def uniform1 (s : State) (d a : Reg) (f : UVal → State → State × UVal) : Act :=
  guardMap [(s.badSrcU a, a), (s.badDstU d, d)] (srcU s a fun x s => let r := f x s; dstU r.1 d r.2)

/-- A result with tag 24 (R116) and the poison of its sources (R211). -/
def intResult (v : Word) (p : Bool) : UVal := ⟨v, 24#5, p⟩

/-- Two vector sources and a vector destination under a mask (R48, R118, R126). -/
def vector2 (s : State) (d a b : Reg) (f : VVal → VVal → VVal → Bool → VVal) : Act :=
  guardMap [(s.badSrcV a, a), (s.badSrcV b, b), (s.badDstV d, d)]
    (srcV s a fun x s => srcV s b fun y s => dstV s d (f x y))

/-- One vector source and a vector destination (R48, R118, R126). -/
def vector1 (s : State) (d a : Reg) (f : VVal → VVal → Bool → VVal) : Act :=
  guardMap [(s.badSrcV a, a), (s.badDstV d, d)] (srcV s a fun x s => dstV s d (f x))

end Sys2Proof.Machine
end

