-- ==== Sys2Proof/Machine/Flags.lean ====
section
/-! DEFINITION. Conditions, status bits and flags: the conditions of branches, predicates and masks, the effective rounding
mode, the accrued flags of FCSR, significance loss, and the status bit p3 (R139, R140, R158, R160, R162, R187, R188). -/

namespace Sys2Proof.Machine

/-- A condition on two uniform values (R139, R140). -/
def wordCond (c : IntCC) (a b : Word) : Bool :=
  match c with
  | .eq => decide (a = b)
  | .ne => decide (a ≠ b)
  | .lt => a.slt b
  | .ge => !a.slt b
  | .ltu => a.ult b
  | .geu => !a.ult b

/-- The effective rounding mode: rm, or FCSR.RM when rm is 5 (R162). -/
def Hart.mode (h : Hart) (rm : BitVec 3) : RMode :=
  RMode.ofCode (if rm = 5#3 then h.fcsr.toNat / 32 else rm.toNat)

/-- The mode of every vector float instruction and of the fused forms (R164, R170). -/
def Hart.dynMode (h : Hart) : RMode := h.mode 5#3

/-- The armed threshold of significance loss (R187, R188). -/
def Hart.thr (h : Hart) : Option Nat := if h.sigEn then some h.sigThr.toNat else none

/-- Flags ORed into FCSR (R160, R162). -/
def State.raise (s : State) (f : FFlags) : State :=
  s.modHart (fun h => { h with fcsr := h.fcsr ||| BitVec.ofNat 8 f.toBits })

/-- The status bit p3 written (R158). -/
def State.status (s : State) (v : Bool) : State := s.modHart (fun h => h.setP3 v)

/-- A float element as a uniform register holds it (R159, R116). -/
def UVal.fin (u : UVal) : FIn := ⟨u.val.toNat % 2 ^ 32, u.tag.toNat⟩

/-- The end of a uniform float instruction: significance loss traps with TVAL 1, else the flags are ORed and the result is
written (R159, R162, R188). -/
def floatDone (s : State) (d : Reg) (r : ElemRes) (p : Bool) : Act :=
  if r.fails then .trap 0x0D 1#64
  else dstU (s.raise r.flags) d ⟨BitVec.ofNat 64 r.code, BitVec.ofNat 5 r.tag, p⟩

/-- The end of a vector float instruction (R170, R188). The flags and the failing lanes do not depend on the old
contents. -/
def vecDone (s : State) (d : Reg) (f : VVal → Bool → VecRes) : Act :=
  let r := f VVal.zero18 false
  if r.failMap ≠ 0#64 then .trap 0x0D r.failMap
  else dstV (s.raise r.flags) d (fun old keep => (f old keep).out)

/-- Poisoned data decides control (R211). -/
def State.control (s : State) (p : Bool) : State := s.note p 1

/-- A mask written, with the control note of its poison (R211). -/
def maskDone (s : State) (d : MReg) (m : Word) (p : Bool) : Act :=
  .done ((s.control p).modHart (fun h => h.setM d m))

end Sys2Proof.Machine
end

