-- ==== Sys2Proof/Machine/UInt.lean ====
section
/-! DEFINITION. The uniform integer and address instructions, the predicate set, and their compressed forms (R65,
R134-R139). -/

namespace Sys2Proof.Machine

/-- A two-source integer operation: the result has tag 24 and the poison of both sources (R116, R135, R211). -/
def intOp (d a b : Reg) (f : Word → Word → Word) (s : State) : Act :=
  uniform2 s d a b (fun x y s => (s, intResult (f x.val y.val) (x.poison || y.poison)))

/-- An operation with an immediate in place of xb (R137). -/
def intImm (d a : Reg) (f : Word → Word) (s : State) : Act :=
  uniform1 s d a (fun x s => (s, intResult (f x.val) x.poison))

/-- A division: the result, and p3, which poisoned operands decide (R136, R158, R211). -/
def divOp (d a b : Reg) (f : Word → Word → Word × Bool) (s : State) : Act :=
  uniform2 s d a b (fun x y s =>
    let r := f x.val y.val
    ((s.control (x.poison || y.poison)).status r.2, intResult r.1 (x.poison || y.poison)))

/-- A constant written to a uniform register (R138). -/
def intConst (d : Reg) (v : Word) (s : State) : Act := guardMap [(s.badDstU d, d)] (dstU s d (intResult v false))

/-- The shift amount of a register form: bits 5:0 (R135). -/
def shiftAmount (b : Word) : Nat := b.toNat % 64

/-- The high half of the signed product (R135). -/
def mulHigh (a b : Word) : Word := BitVec.ofInt 64 (a.toInt * b.toInt / 2 ^ 64)

/-- The high half of the unsigned product (R135). -/
def mulHighU (a b : Word) : Word := BitVec.ofNat 64 (a.toNat * b.toNat / 2 ^ 64)

/-- The one overflow of signed division (R136). -/
def divOverflows (a b : Word) : Bool := decide (a = BitVec.intMin 64) && decide (b = BitVec.allOnes 64)

/-- Signed quotient and p3 (R136). -/
def divS (a b : Word) : Word × Bool :=
  if b = 0#64 then (0#64, true)
  else if divOverflows a b then (BitVec.intMax 64, true)
  else (BitVec.ofInt 64 (a.toInt.tdiv b.toInt), false)

/-- Unsigned quotient and p3 (R136). -/
def divU (a b : Word) : Word × Bool := if b = 0#64 then (0#64, true) else (BitVec.ofNat 64 (a.toNat / b.toNat), false)

/-- Signed remainder and p3 (R136). -/
def remS (a b : Word) : Word × Bool :=
  if b = 0#64 then (a, true)
  else if divOverflows a b then (0#64, true)
  else (BitVec.ofInt 64 (a.toInt.tmod b.toInt), false)

/-- Unsigned remainder and p3 (R136). -/
def remU (a b : Word) : Word × Bool := if b = 0#64 then (a, true) else (BitVec.ofNat 64 (a.toNat % b.toNat), false)

/-- Leading zero bits, 64 for 0 (R135). -/
def leadingZeros (a : Word) : Word := if a = 0#64 then 64#64 else BitVec.ofNat 64 (63 - Nat.log2 a.toNat)

/-- Trailing zero bits, 64 for 0 (R135). -/
def trailingZeros (a : Word) : Word := BitVec.ofNat 64 (lowestOne 64 a.toNat)

/-- One bits (R135). -/
def onesOf (a : Word) : Word := BitVec.ofNat 64 (popCount 64 a.toNat)

/-- pset: a predicate from a comparison of two uniform values (R139, R211). -/
def psetOp (cc : IntCC) (p : PReg) (a b : Reg) (s : State) : Act :=
  guardMap [(s.badSrcU a, a), (s.badSrcU b, b)]
    (srcU s a fun x s => srcU s b fun y s =>
      .done ((s.control (x.poison || y.poison)).modHart (fun h => h.setP p (wordCond cc x.val y.val))))

/-- ADD (R135). -/
def execAdd (tk : Tok) (d a b : Reg) (s : State) : Out :=
  runHart (.add tk d a b) tk s (intOp d a b (fun a b => a + b))

/-- SUB (R135). -/
def execSub (tk : Tok) (d a b : Reg) (s : State) : Out :=
  runHart (.sub tk d a b) tk s (intOp d a b (fun a b => a - b))

/-- AND (R135). -/
def execAnd (tk : Tok) (d a b : Reg) (s : State) : Out :=
  runHart (.and tk d a b) tk s (intOp d a b (fun a b => a &&& b))

/-- OR (R135). -/
def execOr (tk : Tok) (d a b : Reg) (s : State) : Out :=
  runHart (.or tk d a b) tk s (intOp d a b (fun a b => a ||| b))

/-- XOR (R135). -/
def execXor (tk : Tok) (d a b : Reg) (s : State) : Out :=
  runHart (.xor tk d a b) tk s (intOp d a b (fun a b => a ^^^ b))

/-- SLL (R135). -/
def execSll (tk : Tok) (d a b : Reg) (s : State) : Out :=
  runHart (.sll tk d a b) tk s (intOp d a b (fun a b => a <<< shiftAmount b))

/-- SRL (R135). -/
def execSrl (tk : Tok) (d a b : Reg) (s : State) : Out :=
  runHart (.srl tk d a b) tk s (intOp d a b (fun a b => a >>> shiftAmount b))

/-- SRA (R135). -/
def execSra (tk : Tok) (d a b : Reg) (s : State) : Out :=
  runHart (.sra tk d a b) tk s (intOp d a b (fun a b => a.sshiftRight (shiftAmount b)))

/-- SLT (R135). -/
def execSlt (tk : Tok) (d a b : Reg) (s : State) : Out :=
  runHart (.slt tk d a b) tk s (intOp d a b (fun a b => b2w (a.slt b)))

/-- SLTU (R135). -/
def execSltu (tk : Tok) (d a b : Reg) (s : State) : Out :=
  runHart (.sltu tk d a b) tk s (intOp d a b (fun a b => b2w (a.ult b)))

/-- MIN (R135). -/
def execMin (tk : Tok) (d a b : Reg) (s : State) : Out :=
  runHart (.min tk d a b) tk s (intOp d a b (fun a b => if b.slt a then b else a))

/-- MAX (R135). -/
def execMax (tk : Tok) (d a b : Reg) (s : State) : Out :=
  runHart (.max tk d a b) tk s (intOp d a b (fun a b => if a.slt b then b else a))

/-- MINU (R135). -/
def execMinu (tk : Tok) (d a b : Reg) (s : State) : Out :=
  runHart (.minu tk d a b) tk s (intOp d a b (fun a b => if b.ult a then b else a))

/-- MAXU (R135). -/
def execMaxu (tk : Tok) (d a b : Reg) (s : State) : Out :=
  runHart (.maxu tk d a b) tk s (intOp d a b (fun a b => if a.ult b then b else a))

/-- MUL (R135). -/
def execMul (tk : Tok) (d a b : Reg) (s : State) : Out :=
  runHart (.mul tk d a b) tk s (intOp d a b (fun a b => a * b))

/-- MULH (R135). -/
def execMulh (tk : Tok) (d a b : Reg) (s : State) : Out :=
  runHart (.mulh tk d a b) tk s (intOp d a b (fun a b => mulHigh a b))

/-- MULHU (R135). -/
def execMulhu (tk : Tok) (d a b : Reg) (s : State) : Out :=
  runHart (.mulhu tk d a b) tk s (intOp d a b (fun a b => mulHighU a b))

/-- DIV (R136). -/
def execDiv (tk : Tok) (d a b : Reg) (s : State) : Out :=
  runHart (.div tk d a b) tk s (divOp d a b divS)

/-- DIVU (R136). -/
def execDivu (tk : Tok) (d a b : Reg) (s : State) : Out :=
  runHart (.divu tk d a b) tk s (divOp d a b divU)

/-- REM (R136). -/
def execRem (tk : Tok) (d a b : Reg) (s : State) : Out :=
  runHart (.rem tk d a b) tk s (divOp d a b remS)

/-- REMU (R136). -/
def execRemu (tk : Tok) (d a b : Reg) (s : State) : Out :=
  runHart (.remu tk d a b) tk s (divOp d a b remU)

/-- CLZ (R135). -/
def execClz (tk : Tok) (d a : Reg) (s : State) : Out :=
  runHart (.clz tk d a) tk s (intImm d a leadingZeros)

/-- CTZ (R135). -/
def execCtz (tk : Tok) (d a : Reg) (s : State) : Out :=
  runHart (.ctz tk d a) tk s (intImm d a trailingZeros)

/-- POPC (R135). -/
def execPopc (tk : Tok) (d a : Reg) (s : State) : Out :=
  runHart (.popc tk d a) tk s (intImm d a onesOf)

/-- LEA (R135, R138). -/
def execLea (tk : Tok) (sh : BitVec 2) (d a b : Reg) (s : State) : Out :=
  runHart (.lea tk sh d a b) tk s (intOp d a b (fun a b => a + b <<< sh.toNat))

/-- PSET (R139). -/
def execPset (tk : Tok) (cc : IntCC) (p : PReg) (a b : Reg) (s : State) : Out :=
  runHart (.pset tk cc p a b) tk s (psetOp cc p a b)

/-- ADDI (R137). -/
def execAddi (tk : Tok) (d a : Reg) (imm : BitVec 13) (s : State) : Out :=
  runHart (.addi tk d a imm) tk s (intImm d a (fun a => a + sext64 imm))

/-- ANDI (R137). -/
def execAndi (tk : Tok) (d a : Reg) (imm : BitVec 13) (s : State) : Out :=
  runHart (.andi tk d a imm) tk s (intImm d a (fun a => a &&& zext64 imm))

/-- ORI (R137). -/
def execOri (tk : Tok) (d a : Reg) (imm : BitVec 13) (s : State) : Out :=
  runHart (.ori tk d a imm) tk s (intImm d a (fun a => a ||| zext64 imm))

/-- XORI (R137). -/
def execXori (tk : Tok) (d a : Reg) (imm : BitVec 13) (s : State) : Out :=
  runHart (.xori tk d a imm) tk s (intImm d a (fun a => a ^^^ zext64 imm))

/-- SLTI (R137). -/
def execSlti (tk : Tok) (d a : Reg) (imm : BitVec 13) (s : State) : Out :=
  runHart (.slti tk d a imm) tk s (intImm d a (fun a => b2w (a.slt (sext64 imm))))

/-- SLLI (R51, R137). -/
def execSlli (tk : Tok) (d a : Reg) (sh : BitVec 6) (s : State) : Out :=
  runHart (.slli tk d a sh) tk s (intImm d a (fun a => a <<< sh.toNat))

/-- SRLI (R51, R137). -/
def execSrli (tk : Tok) (d a : Reg) (sh : BitVec 6) (s : State) : Out :=
  runHart (.srli tk d a sh) tk s (intImm d a (fun a => a >>> sh.toNat))

/-- SRAI (R51, R137). -/
def execSrai (tk : Tok) (d a : Reg) (sh : BitVec 6) (s : State) : Out :=
  runHart (.srai tk d a sh) tk s (intImm d a (fun a => a.sshiftRight sh.toNat))

/-- LIH (R138). -/
def execLih (tk : Tok) (d : Reg) (imm : BitVec 18) (s : State) : Out :=
  runHart (.lih tk d imm) tk s (intConst d (sext64 imm <<< 13))

/-- ADDPC (R138). -/
def execAddpc (tk : Tok) (d : Reg) (imm : BitVec 18) (s : State) : Out :=
  runHart (.addpc tk d imm) tk s (fun s => intConst d (s.hart.pc + sext64 imm <<< 13) s)

/-! Compressed forms (R65): the effect of the 32-bit instruction, with no token bits. -/

/-- Compressed parcels carry no token bits (R30). -/
def noTok : Tok := ⟨false, false⟩

/-- C_MV (R65). -/
def execCMv (d b : Reg) (s : State) : Out :=
  runHart (.cMv d b) noTok s (intOp d 0#5 b (fun a b => a + b))

/-- C_ADD (R65). -/
def execCAdd (d b : Reg) (s : State) : Out :=
  runHart (.cAdd d b) noTok s (intOp d d b (fun a b => a + b))

/-- C_SUB (R65). -/
def execCSub (d b : Reg) (s : State) : Out :=
  runHart (.cSub d b) noTok s (intOp d d b (fun a b => a - b))

/-- C_AND (R65). -/
def execCAnd (d b : Reg) (s : State) : Out :=
  runHart (.cAnd d b) noTok s (intOp d d b (fun a b => a &&& b))

/-- C_OR (R65). -/
def execCOr (d b : Reg) (s : State) : Out :=
  runHart (.cOr d b) noTok s (intOp d d b (fun a b => a ||| b))

/-- C_XOR (R65). -/
def execCXor (d b : Reg) (s : State) : Out :=
  runHart (.cXor d b) noTok s (intOp d d b (fun a b => a ^^^ b))

/-- C_SLT (R65). -/
def execCSlt (d b : Reg) (s : State) : Out :=
  runHart (.cSlt d b) noTok s (intOp d d b (fun a b => b2w (a.slt b)))

/-- C_SLTU (R65). -/
def execCSltu (d b : Reg) (s : State) : Out :=
  runHart (.cSltu d b) noTok s (intOp d d b (fun a b => b2w (a.ult b)))

/-- C_MUL (R65). -/
def execCMul (d b : Reg) (s : State) : Out :=
  runHart (.cMul d b) noTok s (intOp d d b (fun a b => a * b))

/-- C_ADDI (R65). -/
def execCAddi (d : Reg) (i : BitVec 5) (s : State) : Out :=
  runHart (.cAddi d i) noTok s (intImm d d (fun a => a + sext64 i))

/-- C_LI (R65). -/
def execCLi (d : Reg) (i : BitVec 5) (s : State) : Out :=
  runHart (.cLi d i) noTok s (intImm d 0#5 (fun a => a + sext64 i))

/-- C_SLLI (R65). -/
def execCSlli (d : Reg) (i : BitVec 5) (s : State) : Out :=
  runHart (.cSlli d i) noTok s (intImm d d (fun a => a <<< i.toNat))

/-- C_SRLI (R65). -/
def execCSrli (d : Reg) (i : BitVec 5) (s : State) : Out :=
  runHart (.cSrli d i) noTok s (intImm d d (fun a => a >>> i.toNat))

/-- C_SRAI (R65). -/
def execCSrai (d : Reg) (i : BitVec 5) (s : State) : Out :=
  runHart (.cSrai d i) noTok s (intImm d d (fun a => a.sshiftRight i.toNat))

/-- C_ANDI (R65). -/
def execCAndi (d : Reg) (i : BitVec 5) (s : State) : Out :=
  runHart (.cAndi d i) noTok s (intImm d d (fun a => a &&& zext64 i))

/-- C_NOP (R65). -/
def execCNop (s : State) : Out :=
  runHart (.cNop) noTok s (fun s => .done s)

end Sys2Proof.Machine
end

