-- ==== Sys2Proof/Machine/Memory.lean ====
section
/-! DEFINITION. Loads, stores, atomics and fences of harts, the store-fault record queue, and the steps that finish loads and
stores (R195-R211, R225-R228, R371, R378, R434). -/

namespace Sys2Proof.Machine

/-! Ranges and overlaps (R203). -/

/-- Whether two byte ranges (first, count) share a byte. -/
def overlaps (a b : Nat × Nat) : Bool := decide (a.1 < b.1 + b.2) && decide (b.1 < a.1 + a.2)

/-- The shadow address of the tag byte of a word (R204). -/
def shadowOf (tagbase : Word) (va : Nat) : Nat := (tagbase.toNat % 2 ^ 52 + va / 4) % 2 ^ 52

/-- The bytes that a part of a store may write: its data and its tag byte. -/
def StorePart.ranges (tb : Word) (p : StorePart) : List (Nat × Nat) :=
  (p.va, p.bytes.length) :: (if p.tag.isSome then [(shadowOf tb p.va, 1)] else [])

/-- The bytes that a store may write. -/
def PendingStore.ranges (tb : Word) (st : PendingStore) : List (Nat × Nat) := st.parts.flatMap (StorePart.ranges tb)

/-- Whether an untranslated store of a hart overlaps ranges (R203). -/
def Hart.storeOverlap (h : Hart) (rs : List (Nat × Nat)) : Bool :=
  h.stores.any (fun st => (st.ranges h.tagbase).any (fun a => rs.any (overlaps a)))

/-- Whether an outstanding load of a hart overlaps ranges (R203). -/
def Hart.loadOverlap (h : Hart) (rs : List (Nat × Nat)) : Bool :=
  h.loads.any (fun l => l.ranges.any (fun a => rs.any (overlaps a)))

/-! Translation of the accesses of an instruction (R195, R197, R221). -/

/-- An access of the running hart at an address: beyond 52 bits it is refused (R195). -/
def State.access (s : State) (va : Nat) (r w : Bool) : Trans :=
  if 2 ^ 52 ≤ va then .perm else s.translate (unitOf (cellOf s.cur)) s.hart.ctxId va r w false

/-- What an access that is not a hit does to its instruction: it waits for a walk, traps with the codes of R197, or stops
the machine. -/
def missed (t : Trans) (va page access : Nat) : Act :=
  match t with
  | .miss => .wait .memory (fun s => s.askWalk (unitOf (cellOf s.cur)) s.hart.ctxId va)
  | .page => .trap page (BitVec.ofNat 64 va)
  | .unbacked pa => .stop (.unbacked pa)
  | _ => .trap access (BitVec.ofNat 64 va)

/-- One access of a load: lane, virtual address, bytes. -/
structure Access where
  lane : Nat
  va : Nat
  bytes : Nat
  deriving DecidableEq, Repr

/-- What an access of a load comes to: its piece, with its shadow byte where the form moves tags and the page has TAG (R205), or the
first of its two accesses that is no hit, with its address. -/
def State.placeOne (s : State) (tagged : Bool) (a : Access) : Except (Trans × Nat) Piece :=
  match s.access a.va true false with
  | .hit pa e =>
    if tagged && e.tag then
      let sv := shadowOf s.hart.tagbase a.va
      match s.access sv true false with
      | .hit sp _ => .ok ⟨a.lane, pa, a.bytes, some sp⟩
      | t => .error (t, sv)
    else .ok ⟨a.lane, pa, a.bytes, none⟩
  | t => .error (t, a.va)

/-- The accesses of a load that are no hits, in the order of its lanes. -/
def State.misplaced (s : State) (tagged : Bool) (as : List Access) : List (Trans × Nat) :=
  as.filterMap (fun a => match s.placeOne tagged a with
    | .error x => some x
    | .ok _ => none)

/-- The one of several failed accesses that decides (R221): a walk that is awaited before any fault; of the faults the one of the
lowest lane, or else the one at the lowest address. -/
def deciding (byLane : Bool) (xs : List (Trans × Nat)) : Option (Trans × Nat) :=
  match xs.find? (fun x => x.1 = .miss) with
  | some x => some x
  | none =>
    match xs with
    | [] => none
    | x :: r => some (if byLane then x else r.foldl (fun b y => if y.2 < b.2 then y else b) x)

/-- The pieces of a load, or what its failed accesses do to it (R197, R205, R221). -/
def State.placeBy (s : State) (byLane tagged : Bool) (as : List Access) : Except Act (List Piece) :=
  match deciding byLane (s.misplaced tagged as) with
  | some (t, va) => .error (missed t va 0x08 0x0A)
  | none => .ok (as.filterMap (fun a => (s.placeOne tagged a).toOption))

/-- The pieces of a load whose faults are decided by address. -/
def State.place (s : State) (tagged : Bool) (as : List Access) : Except Act (List Piece) := s.placeBy false tagged as

/-! The data of a load. -/

/-- The lines a piece touches. -/
def Piece.lines (p : Piece) : List Nat :=
  p.pa / 64 * 64 :: (match p.shadow with
    | some sp => [sp / 64 * 64]
    | none => [])

/-- The bytes and poison of a line as a region sees it. -/
def State.lineData (s : State) (rg pa : Nat) : List Byte × List Bool :=
  (s.view rg pa 64, (List.range 8).map (fun u => s.viewPoison rg (pa / 8 + u)))

/-- The poison with which a list of writes leaves a byte: that of the last of them that writes it. -/
def lastPoison (ws : List (Bool × (Nat × List Byte))) (a : Nat) : Option Bool :=
  ws.foldl (fun o w => if w.2.1 ≤ a ∧ a < w.2.1 + w.2.2.length then some w.1 else o) none

/-- The poison of a unit after a store: that of the parts whose bytes stand in it, and the old one while the store leaves a
byte of the unit as it was (R211). -/
def unitPoison (ws : List (Bool × (Nat × List Byte))) (old : Bool) (u : Nat) : Bool :=
  (List.range 8).any (fun i => (lastPoison ws (8 * u + i)).getD old)

/-- A line with the writes of one store laid over it (R211, R433). -/
def overlay (pa : Nat) (ws : List (Bool × (Nat × List Byte))) (d : List Byte × List Bool) : List Byte × List Bool :=
  ((List.range 64).map (fun i => ws.foldl (fun o w =>
      if w.2.1 ≤ pa + i ∧ pa + i < w.2.1 + w.2.2.length then w.2.2.getD (pa + i - w.2.1) 0#8 else o) (d.1.getD i 0#8)),
    (List.range 8).map (fun u => unitPoison ws (d.2.getD u false) (pa / 8 + u)))

/-- A line with the stores of a cell laid over it that wait for their commit buffer: they have performed at cell scope (R433). -/
def Cell.overlaid (c : Cell) (pa : Nat) (d : List Byte × List Bool) : List Byte × List Bool :=
  c.parked.foldl (fun d p => overlay pa p.writes d) d

/-- Whether a store of a cell that waits for its commit buffer writes one of n bytes (R433). -/
def Cell.parkedAt (c : Cell) (pa n : Nat) : Bool :=
  c.parked.any (fun p => p.writes.any (fun w => overlaps (w.2.1, w.2.2.length) (pa, n)))

/-- A byte of memory and the poison of its unit as a thread of a cell and a region reads them past the L1 (R377, R433). -/
def State.cellByte (s : State) (c rg pa : Nat) : Byte × Bool :=
  let line := pa / 64 * 64
  if (s.cellAt c).parkedAt line 64 then
    let d := (s.cellAt c).overlaid line (s.lineData rg line)
    (d.1.getD (pa % 64) 0#8, d.2.getD (pa % 64 / 8) false)
  else (s.viewByte rg pa, s.viewPoison rg (pa / 8))

/-- A line as the running hart reads it past the L1. -/
def State.cellData (s : State) (pa : Nat) : List Byte × List Bool := s.cell.overlaid pa (s.lineData s.hart.regionId pa)

/-- What the running hart's cell answers for a line: the line as the L1 holds it for a compute hart, or one in which a store
waits (R195, R433). -/
def State.heldLine (s : State) (pa : Nat) : Option (List Byte × List Bool) :=
  match if isCompute s.cur then s.cell.l1.find? (fun l => l.pa = pa) else none with
  | some l => some (s.cell.overlaid pa (l.bytes, l.poison))
  | none => if s.cell.parkedAt pa 64 then some (s.cellData pa) else none

/-- A line that an instruction of the running hart reads at once. -/
def State.lineNow (s : State) (pa : Nat) : List Byte × List Bool := (s.heldLine pa).getD (s.cellData pa)

/-- The lines of a cell's L1 that ranges of physical bytes touch take the bytes that the region sees. -/
def State.refresh (s : State) (c rg : Nat) (rs : List (Nat × Nat)) : State :=
  s.modCell c (fun x => { x with
    l1 := x.l1.map (fun l => if rs.any (overlaps (l.pa, 64)) then
      let d := s.lineData rg l.pa
      ⟨l.pa, d.1, d.2⟩ else l) })

/-- The byte of a load's lines at a physical address. -/
def Load.byte (l : Load) (pa : Nat) : Byte :=
  match l.lines.find? (fun x => x.pa = pa / 64 * 64) with
  | some x => ((x.data.map Prod.fst).getD []).getD (pa % 64) 0#8
  | none => 0#8

/-- The poison of the unit of a physical address. -/
def Load.poisonAt (l : Load) (pa : Nat) : Bool :=
  match l.lines.find? (fun x => x.pa = pa / 64 * 64) with
  | some x => ((x.data.map Prod.snd).getD []).getD (pa % 64 / 8) false
  | none => false

/-- Whether every line of a load is in. -/
def Load.ready (l : Load) : Bool := l.lines.all (fun x => x.data.isSome)

/-- The value of a piece's bytes. -/
def Load.pieceNat (l : Load) (p : Piece) : Nat := leNat ((List.range p.bytes).map (fun i => l.byte (p.pa + i)))

/-- The poison of a piece and of its shadow byte. -/
def Load.piecePoison (l : Load) (p : Piece) : Bool :=
  l.poisonAt p.pa || (match p.shadow with
    | some sp => l.poisonAt sp
    | none => false)

/-- The tag byte of a piece: that of its shadow, or the default. -/
def Load.tagByte (l : Load) (p : Piece) (d : Byte) : Byte :=
  match p.shadow with
  | some sp => l.byte sp
  | none => d

/-- The uniform value of a scalar load (R199, R205). -/
def Load.uval (l : Load) : UVal :=
  match l.pieces with
  | [] => ⟨0#64, 24#5, true⟩
  | p :: _ =>
    let v := l.pieceNat p
    let sg := match l.kind with
      | .scalar _ b => b
      | _ => true
    ⟨if sg then BitVec.ofInt 64 (signedOf (8 * p.bytes) v) else BitVec.ofNat 64 v,
      match l.kind with
        | .tagged => (l.tagByte p 24#8).setWidth 5
        | _ => 24#5,
      l.piecePoison p⟩

/-- The lanes of a vector load (R200, R201, R205): a suppressed lane is 0, poisoned (R211). -/
def Load.vec (l : Load) (mask : Word) (old : VVal) (keep : Bool) : VVal :=
  updateLanes old keep (fun k =>
    if mask.getLsbD k then
      match l.pieces.find? (fun p => p.lane = k) with
      | some p => some ⟨BitVec.ofNat 32 (l.pieceNat p), l.tagByte p 0xFF#8, l.piecePoison p⟩
      | none => some ⟨0#32, 0xFF#8, true⟩
    else none)

/-- Whether a load brings poison (R211). -/
def Load.poisoned (l : Load) : Bool := l.pieces.any l.piecePoison

/-- The entry a load pushes to a store queue. -/
def Load.entry (l : Load) : Entry :=
  match l.kind with
  | .vector m => .vector (l.vec m VVal.zero18 false)
  | _ => .uniform l.uval

/-- The running hart's load has its data: its destination is written (R195, R199). -/
def State.deliver (s : State) (l : Load) : State :=
  let s := s.note l.poisoned 0
  match l.dst with
  | .xreg d => s.modHart (fun h => h.setX d l.uval)
  | .vreg d =>
    s.modHart (fun h => match l.kind with
      | .vector m => h.setV d (l.vec m (h.vval d) true)
      | _ => h)
  | .queue q =>
    let s := s.note (l.poisoned || decide (l.suppressed ≠ 0#64)) 3
    s.modCell (cellOf s.cur) (fun c => c.fillPlace q l.id l.entry)

/-- A list of numbers without repeats, first ones kept. -/
def distinct : List Nat → List Nat
  | [] => []
  | a :: r => a :: (distinct r).filter (fun b => b ≠ a)

/-- A load with its pieces placed begins: lines that the cell's L1 holds are there at once, the others are asked of memory
(R195). A load with every line there writes its destination at once. -/
def State.beginLoad (s : State) (dst : LoadDst) (kind : LoadKind) (ps : List Piece) (sup : Word)
    (ranges : List (Nat × Nat)) : State :=
  let rg := s.hart.regionId
  let pas := distinct (ps.flatMap Piece.lines)
  let l : Load := ⟨s.fresh, dst, kind, ps, sup, pas.map (fun pa => ⟨pa, s.heldLine pa⟩), ranges⟩
  let s := { s with fresh := s.fresh + 1 }
  if l.ready then s.deliver l
  else
    let s := s.modHart (fun h => { h with loads := h.loads ++ [l] })
    (pas.filter (fun pa => (s.heldLine pa).isNone)).foldl (fun s pa =>
      s.request rg (.line s.cur l.id pa) ⟨0, false, 0, memNode pa, cellOf s.cur, s.hart.ctxId, 0, pa, [], []⟩) s

/-- The virtual bytes that a load may read, with its shadow bytes where its form moves tags (R203, R205). -/
def accessRanges (tb : Word) (tagged : Bool) (as : List Access) : List (Nat × Nat) :=
  as.flatMap (fun a => (a.va, a.bytes) :: (if tagged then [(shadowOf tb a.va, 1)] else []))

/-- A load in order: its destination is free, older overlapping accesses are done, its accesses are placed, a queue
destination is reserved (R48, R195, R203, R221). -/
def loadTo (dst : LoadDst) (kind : LoadKind) (byLane tagged : Bool) (as : List Access) (sup : Word) (s : State) : Act :=
  let rs := accessRanges s.hart.tagbase tagged as
  if s.hart.storeOverlap rs || s.hart.loadOverlap rs then .wait .memory id
  else
    match s.placeBy byLane tagged as with
    | .error x => x
    | .ok ps =>
      match dst with
      | .queue q =>
        match s.hart.dstHeld with
        | some (k, id) =>
          if k = q then
            .done (((s.modCell (cellOf s.cur) (fun c => c.movePlace q id s.fresh)).modHart (fun h =>
              { h with dstHeld := none })).beginLoad dst kind ps sup rs)
          else .wait (.full q) (fun s => s)
        | none =>
          if (s.cell.queue q).accepts (slotOf s.cur) then
            .done ((s.modCell (cellOf s.cur) (fun c => c.addPlace q s.fresh (slotOf s.cur))).beginLoad dst kind ps sup rs)
          else if s.draining then .done s
          else .wait (.full q) (fun s => s)
      | _ => .done (s.beginLoad dst kind ps sup rs)

/-- The destination of a scalar load. -/
def State.loadDst (s : State) (d : Reg) : LoadDst :=
  if d.toNat < 24 then .xreg d else .queue (writeCode (s.cell.mapFor (slotOf s.cur)) (d.toNat - 24))

/-- The destination of a vector load. -/
def State.loadDstV (s : State) (d : Reg) : LoadDst :=
  if d.toNat < 28 then .vreg d else .queue (writeCode (s.cell.mapFor (slotOf s.cur)) (d.toNat - 28))

/-- A scalar load of n bytes (R196, R199, R211). A port destination takes the value at once (R124). -/
def scalarLoad (kind : LoadKind) (n : Nat) (d a : Reg) (off : Word) (s : State) : Act :=
  guardMap [(s.badDstU d, d)]
    (srcU s a fun x s =>
      let ea := x.val + off
      if s.hart.xBusy d then .wait .memory id
      else if x.poison then dstU (s.note true 2) d ⟨0#64, 24#5, true⟩
      else if ea.toNat % n ≠ 0 then .trap 0x05 ea
      else if 28 ≤ d.toNat then
        let tagged := decide (kind = .tagged)
        let rs := accessRanges s.hart.tagbase tagged [⟨0, ea.toNat, n⟩]
        if s.hart.storeOverlap rs || s.hart.loadOverlap rs then .wait .memory id
        else
          match s.place tagged [⟨0, ea.toNat, n⟩] with
          | .error e => e
          | .ok ps =>
            let l : Load := ⟨0, .xreg d, kind, ps, 0#64, (distinct (ps.flatMap Piece.lines)).map
              (fun pa => ⟨pa, some (s.lineNow pa)⟩), []⟩
            dstU (s.note l.poisoned 0) d l.uval
      else loadTo (s.loadDst d) kind false (decide (kind = .tagged)) [⟨0, ea.toNat, n⟩] 0#64 s)

/-- The vector load (R196, R200, R205). -/
def vectorLoad (d a : Reg) (off : Word) (s : State) : Act :=
  guardMap [(s.badDstV d, d)]
    (srcU s a fun x s =>
      let ea := x.val + off
      if s.hart.vBusy d && decide (d.toNat < 28) then .wait .memory id
      else if x.poison then
        dstV (s.note true 2) d (fun _ _ => VVal.ofFn (fun _ => ⟨0#32, 0xFF#8⟩) (fun _ => true))
      else if ea.toNat % 4 ≠ 0 then .trap 0x05 ea
      else
        loadTo (s.loadDstV d) (.vector maskAll) false true
          ((List.range 64).map (fun k => ⟨k, (ea + BitVec.ofNat 64 (4 * k)).toNat, 4⟩)) 0#64 s)

/-- The address of a lane of a gather or scatter (R201). -/
def laneAddr (x : Word) (idx : VVal) (k : Nat) : Word := x + sext64 (idx.lane k).bits

/-- The active lanes of a gather or scatter whose address is not poisoned (R211). -/
def addressed (mask : Word) (xp : Bool) (idx : VVal) : List Nat :=
  (activeLanes mask).filter (fun k => !(xp || idx.poisonOf k))

/-- The gather (R126, R196, R201, R211). -/
def gather (k : MReg) (d a b : Reg) (s : State) : Act :=
  guardMap [(s.badDstV d, d)]
    (srcU s a fun x s => srcV s b fun idx s =>
      let m := s.hart.mval k
      let ls := addressed m x.poison idx
      let sup := (activeLanes m).filter (fun i => !ls.contains i)
      if s.hart.vBusy d && decide (d.toNat < 28) then .wait .memory id
      else
        match ls.find? (fun i => (laneAddr x.val idx i).toNat % 4 ≠ 0) with
        | some i => .trap 0x05 (laneAddr x.val idx i)
        | none =>
          loadTo (s.loadDstV d) (.vector m) true true
            (ls.map (fun i => ⟨i, (laneAddr x.val idx i).toNat, 4⟩)) (maskOf (fun i => sup.contains i))
            (s.note (!sup.isEmpty) 2))

/-! Stores (R199-R203, R225, R234). -/

/-- The physical writes of a part of a store: address and bytes; or the access that misses, with what is left of the
part. -/
inductive PartRes where
  | ok (ws : List (Nat × List Byte))
  | bad (t : Trans) (va : Nat) (ws : List (Nat × List Byte)) (left : StorePart)
  deriving DecidableEq, Repr

/-- The translation of a part: the data, then its tag byte where the page keeps one (R205). -/
def State.placePart (s : State) (p : StorePart) : PartRes :=
  match s.access p.va false true with
  | .hit pa e =>
    match p.tag with
    | some t =>
      if e.tag then
        let sv := shadowOf s.hart.tagbase p.va
        match s.access sv false true with
        | .hit sp _ => .ok [(pa, p.bytes), (sp, [t])]
        | x => .bad x sv [(pa, p.bytes)] { p with va := sv, bytes := [t], tag := none }
      else .ok [(pa, p.bytes)]
    | none => .ok [(pa, p.bytes)]
  | x => .bad x p.va [] p

/-- Physical writes of the running hart enter the commit buffer (R37, R432). -/
def State.writeAll (s : State) (poison : Bool) (ws : List (Nat × List Byte)) : State :=
  ws.foldl (fun s w => s.write s.hart.regionId (unitOf (cellOf s.cur)) (s.interval s.hart.regionId s.cur) w.1 w.2 poison) s

/-- The writes of a part. -/
def PartRes.writes : PartRes → List (Nat × List Byte)
  | .ok ws => ws
  | .bad _ _ ws _ => ws

/-- The first part whose translation is not a hit for a test. -/
def firstBad (f : Trans → Bool) (rs : List (StorePart × PartRes)) : Option (Trans × Nat) :=
  rs.findSome? (fun r => match r.2 with
    | .bad t va _ _ => if f t then some (t, va) else none
    | .ok _ => none)

/-- Translation awaits a walk. -/
def Trans.isMiss : Trans → Bool
  | .miss => true
  | _ => false

/-- Translation reached an address that nothing backs. -/
def Trans.isUnbacked : Trans → Bool
  | .unbacked _ => true
  | _ => false

/-- Translation faults. -/
def Trans.isFault : Trans → Bool
  | .page => true
  | .perm => true
  | _ => false

/-- The cause of a faulting store access (R197). -/
def storeCause (t : Trans) : Nat := match t with
  | .page => 0x09
  | _ => 0x0B

/-- What is left of a store after its parts have been tried. -/
def leftParts (rs : List (StorePart × PartRes)) : List StorePart :=
  rs.filterMap (fun r => match r.2 with
    | .bad _ _ _ p => some p
    | .ok _ => none)

/-- A store performed: its writes enter the commit buffer as one store, and the lines of its cell's L1 take them (R37, R211, R377,
R432). -/
def State.performAs (s : State) (p : Parked) : State :=
  (p.writes.foldl (fun t w => t.writeAs p.region p.unit p.interval w.2.1 w.2.2
    ((unitsOf w.2.1 w.2.2.length).map (fun u => (u, unitPoison p.writes (s.viewPoison p.region u) u)))) s).refresh (cellOf p.hart)
      p.region (p.writes.map (fun w => (w.2.1, w.2.2.length)))

/-- A store of the running hart whose parts have been translated. -/
def State.translated (s : State) (rs : List (StorePart × PartRes)) : Parked :=
  let rg := s.hart.regionId
  ⟨s.cur, rg, unitOf (cellOf s.cur), s.interval rg s.cur, rs.flatMap (fun r => r.2.writes.map (fun w => (r.1.poison, w)))⟩

/-- A store's parts performed by the running hart (R37, R211, R432). -/
def State.performParts (s : State) (rs : List (StorePart × PartRes)) : State := s.performAs (s.translated rs)

/-- The bytes that a store adds to its commit buffer. -/
def Parked.size (p : Parked) : Nat := (p.writes.map (fun w => w.2.2.length)).foldl (· + ·) 0

/-- Whether a store of a hart's cell waits for room in its commit buffer (R433). -/
def State.unentered (s : State) (h : Nat) : Bool := !(s.cellAt (cellOf h)).parked.isEmpty

/-- A store that is performed, or that waits for room in its commit buffer behind the other stores of its hart's cell that do, whose order
at the point of coherence agrees with that of the L1 (R377, R433). -/
def State.enterStore (s : State) (p : Parked) : State :=
  if s.unentered s.cur || !s.commitRoom p.region p.unit p.size then s.modCell (cellOf s.cur) (fun c => { c with parked := c.parked ++ [p] })
  else s.performAs p

/-- A retired store of the running hart that has been translated (R433). -/
def State.performStore (s : State) (rs : List (StorePart × PartRes)) : State := s.enterStore (s.translated rs)

/-- The waiting stores of a cell enter their commit buffers in their order, up to the first that has no room (R377, R433). -/
def State.enterParked (s : State) (c : Nat) : State :=
  let r := (s.cellAt c).parked.foldl (fun (a : State × List Parked) p =>
    if !a.2.isEmpty || !a.1.commitRoom p.region p.unit p.size then (a.1, a.2 ++ [p]) else (a.1.performAs p, a.2)) (s, [])
  r.1.modCell c (fun x => { x with parked := r.2 })

/-- A line leaves the L1 of a cell: its replacement is free (R195; assumption 58). -/
def State.evict (s : State) (c pa : Nat) : State := s.modCell c (fun x => { x with l1 := x.l1.filter (fun l => l.pa ≠ pa) })

/-- An acquire of the running hart whose scope is wider than its cell: its cell reads afresh what other cells have released (R372,
R376). -/
def State.acquired (s : State) : State := s.dropLines (cellOf s.cur)

/-- Whether a scope reaches beyond the cell (R58). -/
def farScope (sc : ScopeCode) : Bool := decide (2 ≤ sc.toNat)

/-- An acquire of a scope that has read lines: one within the cell only keeps its hart from reading them older again (R370, R376). -/
def State.acquiredAt (s : State) (sc : ScopeCode) (pas : List Nat) : State :=
  if farScope sc then s.acquired else s.refresh (cellOf s.cur) s.hart.regionId (pas.map (fun pa => (pa, 64)))

/-- The bytes that writes add to the commit buffer. -/
def writeSize (rs : List (StorePart × PartRes)) : Nat :=
  (rs.map (fun r => (r.2.writes.map (fun w => w.2.length)).foldl (· + ·) 0)).foldl (· + ·) 0

/-- A store that translates before it retires: of a streamer, of a tile, or a release (R225, R234, R346). A fault of a streamer is precise;
of a compute hart it becomes a record of the given kind, which traps at this instruction. -/
def storeAt (swid : Nat) (parts : List StorePart) (k : List (StorePart × PartRes) → State → Act) (s : State) : Act :=
  let rs := parts.map (fun p => (p, s.placePart p))
  match firstBad Trans.isMiss rs with
  | some (t, va) => missed t va 0x09 0x0B
  | none =>
    match firstBad Trans.isUnbacked rs with
    | some (t, va) => missed t va 0x09 0x0B
    | none =>
      match firstBad Trans.isFault rs with
      | some (t, va) =>
        if isStreamer s.cur || s.hart.hnd then .trap (storeCause t) (BitVec.ofNat 64 va)
        else
          .wait .memory (fun s =>
            let s := if storeCause t = 0x09 then s.takeWalkFault (unitOf (cellOf s.cur)) s.hart.ctxId va else s
            s.modHart (fun h => { h with sfrq := h.sfrq ++ [⟨storeCause t, BitVec.ofNat 64 va, swid, 0, leftParts rs⟩] }))
      | none => k rs s

/-- A store that translates before it retires; then it performs, or waits for room as a retired store (R433). -/
def storeNow (swid : Nat) (parts : List StorePart) (k : State → Act) (s : State) : Act :=
  storeAt swid parts (fun rs s => k (s.performStore rs)) s

/-- A store: it retires untranslated in a compute hart, at most 8 of them; in a streamer it translates first (R203, R225,
R234). -/
def storeOut (swid : Nat) (parts : List StorePart) (s : State) : Act :=
  let rs := parts.flatMap (StorePart.ranges s.hart.tagbase)
  if s.hart.storeOverlap rs || s.hart.loadOverlap rs then .wait .memory id
  else
    let s' := s.note (parts.any (fun p => p.poison)) 3
    if isStreamer s.cur then storeNow swid parts .done s'
    else if 8 ≤ s.hart.stores.length then .wait .memory id
    else if parts.isEmpty then .done s'
    else .done (s'.modHart (fun h => { h with stores := h.stores ++ [⟨swid, parts, h.instret + 1#64⟩] }))

/-- A scalar store of n bytes (R196, R199, R205, R211). -/
def scalarStore (swid n : Nat) (tagged : Bool) (b a : Reg) (off : Word) (s : State) : Act :=
  guardMap [(s.badSrcU b, b)]
    (srcU s a fun x s => srcU s b fun y s =>
      let ea := x.val + off
      if x.poison then .done (s.note true 2)
      else if ea.toNat % n ≠ 0 then .trap 0x05 ea
      else storeOut swid [⟨0, ea.toNat, natBytes n y.val.toNat, y.poison,
        if tagged then some (y.tag.setWidth 8) else none⟩] s)

/-- The parts of a vector store at given lane addresses. -/
def vectorParts (v : VVal) (lanes : List Nat) (addr : Nat → Word) : List StorePart :=
  lanes.map (fun k => ⟨k, (addr k).toNat, natBytes 4 (v.lane k).bits.toNat, v.poisonOf k, some (v.lane k).tag⟩)

/-- The vector store (R196, R200, R205). -/
def vectorStore (b a : Reg) (off : Word) (s : State) : Act :=
  guardMap [(s.badSrcV b, b)]
    (srcU s a fun x s => srcV s b fun v s =>
      let ea := x.val + off
      if x.poison then .done (s.note true 2)
      else if ea.toNat % 4 ≠ 0 then .trap 0x05 ea
      else storeOut 4 (vectorParts v (List.range 64) (fun k => ea + BitVec.ofNat 64 (4 * k))) s)

/-- The scatter (R196, R201, R211). -/
def scatter (k : MReg) (d a b : Reg) (s : State) : Act :=
  guardMap [(s.badSrcV d, d)]
    (srcU s a fun x s => srcV s b fun idx s => srcV s d fun v s =>
      let m := s.hart.mval k
      let ls := addressed m x.poison idx
      match ls.find? (fun i => (laneAddr x.val idx i).toNat % 4 ≠ 0) with
      | some i => .trap 0x05 (laneAddr x.val idx i)
      | none =>
        storeOut 5 (vectorParts v ls (laneAddr x.val idx)) (s.note (decide (ls.length < (activeLanes m).length)) 2))

/-! Ordered forms, atomics and fences (R202, R206-R210, R371, R434). -/

/-- The drain of a releasing instruction: every older store of the hart is translated and every older load is there
(R210, R371). A record that stands then, in a handler, is a store fault there (R222). -/
def drained (k : State → Act) (s : State) : Act :=
  if s.hart.stores.isEmpty && s.hart.loads.isEmpty then
    match s.hart.sfrq with
    | q :: _ => .trap q.cause q.addr
    | [] => k s
  else .wait .memory id

/-- The drain of an instruction that need not wait for loads (R210): a record that stands in a handler is a store fault
there (R222). -/
def drainStores (k : State → Act) (s : State) : Act :=
  if !s.hart.stores.isEmpty then .wait .memory id
  else
    match s.hart.sfrq with
    | q :: _ => .trap q.cause q.addr
    | [] => k s

/-- A release: the drain, and every store of the hart's cell has entered its commit buffer; within the cell the L1 suffices (R371,
R433; assumption 76). -/
def released (far : Bool) (k : State → Act) (s : State) : Act :=
  drained (fun s => if far && s.unentered s.cur && !s.draining then .wait (.full 302) id else k s) s

/-- Bytes and sign of the load majors in their order (R57). -/
def loadShape (w : BitVec 3) : Nat × Bool :=
  match w.toNat with
  | 0 => (1, true)
  | 1 => (1, false)
  | 2 => (2, true)
  | 3 => (2, false)
  | 4 => (4, true)
  | 5 => (4, false)
  | _ => (8, true)

/-- An acquiring load: it reads before any younger access (R202, R371). -/
def acquireLoad (w : BitVec 3) (d a : Reg) (sc : ScopeCode) (s : State) : Act :=
  guardMap [(s.badDstU d, d)]
    (srcU s a fun x s =>
      let n := (loadShape w).1
      let ea := x.val
      if x.poison then dstU (s.note true 2) d ⟨0#64, 24#5, true⟩
      else if ea.toNat % n ≠ 0 then .trap 0x05 ea
      else if s.hart.storeOverlap [(ea.toNat, n)] || s.hart.loadOverlap [(ea.toNat, n)] then .wait .memory id
      else
        match s.place false [⟨0, ea.toNat, n⟩] with
        | .error e => e
        | .ok ps =>
          let pas := distinct (ps.flatMap Piece.lines)
          let s := s.acquiredAt sc pas
          let l : Load := ⟨0, .xreg d, .scalar n (loadShape w).2, ps, 0#64, pas.map (fun pa => ⟨pa, some (s.cellData pa)⟩), []⟩
          dstU (s.note l.poisoned 0) d l.uval)

/-- A scope that reaches beyond the region (R58). -/
def wideScope (sc : ScopeCode) : Bool := decide (sc = 4#3) || decide (sc = 5#3)

/-- A release beyond the region waits for the commit of its interval, which the region counts (R378, R429; assumption
99). -/
def State.noteRelease (s : State) (sc : ScopeCode) : State :=
  let iv := s.interval s.hart.regionId s.cur
  if wideScope sc then
    s.modRegion s.hart.regionId (fun g => { g with
      releases := if (lookup iv g.releases).isSome then g.releases else insertAt iv 0 g.releases })
  else s

/-- A releasing store (R202, R210, R225). -/
def releaseStore (w : BitVec 2) (b a : Reg) (sc : ScopeCode) (s : State) : Act :=
  released (farScope sc) (fun s =>
    guardMap [(s.badSrcU b, b)]
      (srcU s a fun x s => srcU s b fun y s =>
        let n := 2 ^ w.toNat
        if x.poison then .done (s.note true 2)
        else if x.val.toNat % n ≠ 0 then .trap 0x05 x.val
        else storeNow 7 [⟨0, x.val.toNat, natBytes n y.val.toNat, y.poison, none⟩] (fun s => .done (s.noteRelease sc))
          (s.note y.poison 3))) s

/-- The operations of the atomics (R207). -/
inductive AmoOp where
  | add | and | or | xor | min | max | swap | cas
  deriving DecidableEq, Repr

/-- The new value of an atomic on n-bit values; none when a compare fails (R207). -/
def amoValue (op : AmoOp) (n old b d : Nat) : Option Nat :=
  match op with
  | .add => some ((old + b) % 2 ^ n)
  | .and => some (old &&& b)
  | .or => some (old ||| b)
  | .xor => some (old ^^^ b)
  | .min => some (if signedOf n b < signedOf n old then b else old)
  | .max => some (if signedOf n old < signedOf n b then b else old)
  | .swap => some b
  | .cas => if old = d then some b else none

/-- The poison that an atomic writes: of the old value and xb where both contribute to the new one, of xb alone for a swap and for a
cas, whose compared values only decide whether it writes (R211; DEDUCED, assumption 86). -/
def amoPoison (op : AmoOp) (old b : Bool) : Bool :=
  match op with
  | .swap => b
  | .cas => b
  | _ => old || b

/-- The writes that an early commit at n bytes drains (R434; assumption 70): those of threads that have made them whole. What an engine or a
stream that has not ended writes is hb-before nothing (R374); of that only the bytes of the atomic go. -/
def CWrite.early (pa n : Nat) (w : CWrite) : Bool := decide (w.interval < 2 ^ 64) || overlaps (w.pa, w.bytes.length) (pa, n)

/-- Before an atomic of device or system scope performs at n bytes: the region's writes drain to memory, those that wait for room too, and
the region is exposed until the wave the atomic opens is complete (R208, R434). -/
def State.earlyCommit (s : State) (pa n : Nat) : State :=
  let r := s.hart.regionId
  let t := (((s.region? r).map Region.cells).getD []).foldl State.enterParked (s.drainWrites r (CWrite.early pa n))
  (t.drainWrites r (CWrite.early pa n)).modRegion r (fun g =>
    { g with wanted := true, exposed := some (g.wave + (if g.inFlight then 2 else 1)) })

/-- An atomic (R196, R207, R208, R211, R225). Within the cell it reads what the cell's waiting stores left, and its write waits
behind them (R377, R433). -/
def atomicOp (op : AmoOp) (sc : ScopeCode) (z : BitVec 1) (d a b : Reg) (s : State) : Act :=
  released (farScope sc) (fun s =>
    srcU s a fun x s => srcU s b fun y s => srcU s d fun e s =>
      let n := if z = 0#1 then 4 else 8
      let ea := x.val
      if s.draining && wideScope sc then dstU s d drainedU
      else if x.poison then dstU (s.note true 2) d ⟨0#64, 24#5, true⟩
      else if ea.toNat % n ≠ 0 then .trap 0x05 ea
      else
        match s.access ea.toNat true true with
        | .hit pa _ =>
          let rg := s.hart.regionId
          let waits := s.cell.parkedAt pa n
          if waits && farScope sc then .wait (.full 302) id else
          let d64 := s.cellData (pa / 64 * 64)
          let old := leNat (if waits then (d64.1.drop (pa % 64)).take n else s.view rg pa n)
          let oldP := if waits then d64.2.getD (pa % 64 / 8) false else s.viewAnyPoison rg pa n
          let new := amoValue op (8 * n) old (y.val.toNat % 2 ^ (8 * n)) (e.val.toNat % 2 ^ (8 * n))
          let p := amoPoison op oldP y.poison
          let out := fun (s : State) =>
            let s := s.acquiredAt sc [pa / 64 * 64]
            dstU ((s.note oldP 0).note (new.isSome && p) 3) d ⟨BitVec.ofInt 64 (signedOf (8 * n) old), 24#5, oldP⟩
          match new with
          | none => out (if wideScope sc then s.earlyCommit pa n else s)
          | some v =>
            if wideScope sc then
              let s := s.earlyCommit pa n
              out { s with mem := s.mem.write pa (natBytes n v) p }
            else if farScope sc then
              if s.commitRoom rg (unitOf (cellOf s.cur)) n then out (s.writeAll p [(pa, natBytes n v)]) else .wait (.full 302) id
            else out (s.performStore [(⟨0, ea.toNat, natBytes n v, p, none⟩, .ok [(pa, natBytes n v)])])
        | t =>
          if t.isFault then
            if isStreamer s.cur || s.hart.hnd then .trap (storeCause t) ea
            else
              .wait .memory (fun s =>
                let s := if storeCause t = 0x09 then s.takeWalkFault (unitOf (cellOf s.cur)) s.hart.ctxId ea.toNat else s
                s.modHart (fun h => { h with sfrq := h.sfrq ++ [⟨storeCause t, ea, 6, 0, []⟩] }))
          else missed t ea.toNat 0x09 0x0B) s

/-- A fence: acquire waits for older loads, release and both also for older stores (R209, R210, R371, R433); acquire and both make
the hart read afresh what its scope has released (R372, R376). Release and both make its later stores releases: beyond the region
they wait for a commit (R372, R378, R429). -/
def fenceOp (kk : BitVec 2) (sc : ScopeCode) (s : State) : Act :=
  let out := fun (s : State) =>
    let s := if kk = 1#2 then s else s.noteRelease sc
    Act.done (if kk ≠ 2#2 && farScope sc then s.acquired else s)
  if kk = 1#2 then (if s.hart.loads.isEmpty then out s else .wait .memory id) else released (farScope sc) out s

/-! The meanings. -/

/-- LD_B (R199). -/
def execLdB (tk : Tok) (d a : Reg) (imm : BitVec 13) (s : State) : Out :=
  runHart (.ldB tk d a imm) tk s (scalarLoad (.scalar 1 true) 1 d a (sext64 imm))

/-- LD_BU (R199). -/
def execLdBu (tk : Tok) (d a : Reg) (imm : BitVec 13) (s : State) : Out :=
  runHart (.ldBu tk d a imm) tk s (scalarLoad (.scalar 1 false) 1 d a (sext64 imm))

/-- LD_H (R199). -/
def execLdH (tk : Tok) (d a : Reg) (imm : BitVec 13) (s : State) : Out :=
  runHart (.ldH tk d a imm) tk s (scalarLoad (.scalar 2 true) 2 d a (sext64 imm))

/-- LD_HU (R199). -/
def execLdHu (tk : Tok) (d a : Reg) (imm : BitVec 13) (s : State) : Out :=
  runHart (.ldHu tk d a imm) tk s (scalarLoad (.scalar 2 false) 2 d a (sext64 imm))

/-- LD_W (R199). -/
def execLdW (tk : Tok) (d a : Reg) (imm : BitVec 13) (s : State) : Out :=
  runHart (.ldW tk d a imm) tk s (scalarLoad (.scalar 4 true) 4 d a (sext64 imm))

/-- LD_WU (R199). -/
def execLdWu (tk : Tok) (d a : Reg) (imm : BitVec 13) (s : State) : Out :=
  runHart (.ldWu tk d a imm) tk s (scalarLoad (.scalar 4 false) 4 d a (sext64 imm))

/-- LD_D (R199). -/
def execLdD (tk : Tok) (d a : Reg) (imm : BitVec 13) (s : State) : Out :=
  runHart (.ldD tk d a imm) tk s (scalarLoad (.scalar 8 true) 8 d a (sext64 imm))

/-- ST_B (R199). -/
def execStB (tk : Tok) (b a : Reg) (imm : BitVec 13) (s : State) : Out :=
  runHart (.stB tk b a imm) tk s (scalarStore 0 1 false b a (sext64 imm))

/-- ST_H (R199). -/
def execStH (tk : Tok) (b a : Reg) (imm : BitVec 13) (s : State) : Out :=
  runHart (.stH tk b a imm) tk s (scalarStore 1 2 false b a (sext64 imm))

/-- ST_W (R199). -/
def execStW (tk : Tok) (b a : Reg) (imm : BitVec 13) (s : State) : Out :=
  runHart (.stW tk b a imm) tk s (scalarStore 2 4 false b a (sext64 imm))

/-- ST_D (R199). -/
def execStD (tk : Tok) (b a : Reg) (imm : BitVec 13) (s : State) : Out :=
  runHart (.stD tk b a imm) tk s (scalarStore 3 8 false b a (sext64 imm))

/-- VLD (R200). -/
def execVld (tk : Tok) (d a : Reg) (imm : BitVec 13) (s : State) : Out :=
  runHart (.vld tk d a imm) tk s (vectorLoad d a (sext64 imm))

/-- VST (R200). -/
def execVst (tk : Tok) (b a : Reg) (imm : BitVec 13) (s : State) : Out :=
  runHart (.vst tk b a imm) tk s (vectorStore b a (sext64 imm))

/-- LD_ACQ (R202). -/
def execLdAcq (tk : Tok) (wd : BitVec 3) (d a : Reg) (sc : ScopeCode) (s : State) : Out :=
  runHart (.ldAcq tk wd d a sc) tk s (acquireLoad wd d a sc)

/-- ST_REL (R202). -/
def execStRel (tk : Tok) (wd : BitVec 2) (b a : Reg) (sc : ScopeCode) (s : State) : Out :=
  runHart (.stRel tk wd b a sc) tk s (releaseStore wd b a sc)

/-- LDT (R205). -/
def execLdt (tk : Tok) (d a : Reg) (s : State) : Out :=
  runHart (.ldt tk d a) tk s (scalarLoad .tagged 4 d a 0#64)

/-- STT (R205). -/
def execStt (tk : Tok) (b a : Reg) (s : State) : Out :=
  runHart (.stt tk b a) tk s (scalarStore 2 4 true b a 0#64)

/-- VLDX (R201). -/
def execVldx (tk : Tok) (k : MReg) (d a b : Reg) (s : State) : Out :=
  runHart (.vldx tk k d a b) tk s (gather k d a b)

/-- VSTX (R201). -/
def execVstx (tk : Tok) (k : MReg) (d a b : Reg) (s : State) : Out :=
  runHart (.vstx tk k d a b) tk s (scatter k d a b)

/-- AMOADD (R207). -/
def execAmoadd (tk : Tok) (sc : ScopeCode) (z : BitVec 1) (d a b : Reg) (s : State) : Out :=
  runHart (.amoadd tk sc z d a b) tk s (atomicOp .add sc z d a b)

/-- AMOAND (R207). -/
def execAmoand (tk : Tok) (sc : ScopeCode) (z : BitVec 1) (d a b : Reg) (s : State) : Out :=
  runHart (.amoand tk sc z d a b) tk s (atomicOp .and sc z d a b)

/-- AMOOR (R207). -/
def execAmoor (tk : Tok) (sc : ScopeCode) (z : BitVec 1) (d a b : Reg) (s : State) : Out :=
  runHart (.amoor tk sc z d a b) tk s (atomicOp .or sc z d a b)

/-- AMOXOR (R207). -/
def execAmoxor (tk : Tok) (sc : ScopeCode) (z : BitVec 1) (d a b : Reg) (s : State) : Out :=
  runHart (.amoxor tk sc z d a b) tk s (atomicOp .xor sc z d a b)

/-- AMOMIN (R207). -/
def execAmomin (tk : Tok) (sc : ScopeCode) (z : BitVec 1) (d a b : Reg) (s : State) : Out :=
  runHart (.amomin tk sc z d a b) tk s (atomicOp .min sc z d a b)

/-- AMOMAX (R207). -/
def execAmomax (tk : Tok) (sc : ScopeCode) (z : BitVec 1) (d a b : Reg) (s : State) : Out :=
  runHart (.amomax tk sc z d a b) tk s (atomicOp .max sc z d a b)

/-- AMOSWAP (R207). -/
def execAmoswap (tk : Tok) (sc : ScopeCode) (z : BitVec 1) (d a b : Reg) (s : State) : Out :=
  runHart (.amoswap tk sc z d a b) tk s (atomicOp .swap sc z d a b)

/-- AMOCAS (R207). -/
def execAmocas (tk : Tok) (sc : ScopeCode) (z : BitVec 1) (d a b : Reg) (s : State) : Out :=
  runHart (.amocas tk sc z d a b) tk s (atomicOp .cas sc z d a b)

/-- FENCE (R209). -/
def execFence (tk : Tok) (kk : BitVec 2) (sc : ScopeCode) (s : State) : Out :=
  runHart (.fence tk kk sc) tk s (fenceOp kk sc)

/-- SDRAIN (R210, R228). -/
def execSdrain (tk : Tok) (s : State) : Out :=
  runHart (.sdrain tk) tk s (drainStores .done)

/-- C_LDD (R65). -/
def execCLdd (d : Reg) (i : BitVec 5) (s : State) : Out :=
  runHart (.cLdd d i) noTok s (scalarLoad (.scalar 8 true) 8 d 2#5 (zext64 i <<< 3))

/-- C_STD (R65). -/
def execCStd (d : Reg) (i : BitVec 5) (s : State) : Out :=
  runHart (.cStd d i) noTok s (scalarStore 3 8 false d 2#5 (zext64 i <<< 3))

/-- C_LDW (R65). -/
def execCLdw (d : Reg) (i : BitVec 5) (s : State) : Out :=
  runHart (.cLdw d i) noTok s (scalarLoad (.scalar 4 true) 4 d 2#5 (zext64 i <<< 2))

/-- C_STW (R65). -/
def execCStw (d : Reg) (i : BitVec 5) (s : State) : Out :=
  runHart (.cStw d i) noTok s (scalarStore 2 4 false d 2#5 (zext64 i <<< 2))

/-! The steps that finish loads and stores. -/

/-- The state in which a step of another agent speaks of a hart. -/
def State.as (s : State) (h : Nat) : State := { s with cur := h }

/-- LOAD_DATA_RETURN (R195): an outstanding load of a hart whose data is there writes its destination. -/
def execLoadDataReturn (h idx : Nat) (s : State) : Out :=
  match (s.hartAt h).loads[idx]? with
  | some l =>
    if l.ready then
      .next (((s.as h).modHart (fun x => { x with loads := dropNth x.loads idx })).deliver l)
    else .next s
  | none => .next s

/-- A store-fault record as the trap will find it (R225). -/
def State.recordStoreFault (s : State) (t : Trans) (va : Nat) (st : PendingStore) (left : List StorePart) : State :=
  let s := if storeCause t = 0x09 then s.takeWalkFault (unitOf (cellOf s.cur)) s.hart.ctxId va else s
  s.modHart (fun h => { h with
    sfrq := h.sfrq ++ [⟨storeCause t, BitVec.ofNat 64 va, st.swid, (h.instret - st.retired).toNat, left⟩], sfNew := h.hnd })

/-- The kind of a tile store that waits inside the matrix engine among the stores of its hart: it has been translated, so no record
shows it (R337, R346). -/
def tstWaits : Nat := 8

/-- STORE_TRANSLATION_DONE (R225, R226, R433): a retired store of a hart, the idx-th of those that are not translated, is translated.
What succeeds is performed; what faults becomes a record once every older store is translated, whose trap in a handler is due like
any other and is fatal (R222). A miss asks for a walk. -/
def execStoreTranslationDone (h idx : Nat) (s : State) : Out :=
  match (s.hartAt h).stores[idx]? with
  | none => .next s
  | some st =>
    if st.swid = tstWaits then .next s else
    let rest := dropNth (s.hartAt h).stores idx
    let o := s
    let s := s.as h
    let rs := st.parts.map (fun p => (p, s.placePart p))
    match firstBad Trans.isMiss rs with
    | some (_, va) => .next (s.askWalk (unitOf (cellOf h)) s.hart.ctxId va)
    | none =>
      match firstBad Trans.isUnbacked rs with
      | some (.unbacked pa, _) => .fault (.unbacked pa)
      | _ =>
        let performed := (s.performStore rs).modHart (fun x => { x with stores := rest })
        match firstBad Trans.isFault rs with
        | none => .next performed
        | some (t, va) =>
          let s := performed
          if 0 < idx then .next o else .next (s.recordStoreFault t va st (leftParts rs))

/-- TCAUSE and TVAL show the head record, or 0 (R227). -/
def Hart.showHead (h : Hart) : Hart :=
  match h.sfrq with
  | q :: _ => { h with
      tcause := BitVec.ofNat 64 (q.skid % 65536 * 2 ^ 48 + q.swid % 8 * 2 ^ 8 + q.cause % 128), tval := q.addr }
  | [] => { h with tcause := 0#64, tval := 0#64 }

/-- The head record of the running hart is discarded, in a handler (R216, R227). -/
def State.dropRecord (s : State) : State :=
  if s.hart.hnd then s.modHart (fun h => { h with sfrq := h.sfrq.tail, sfrf := false }.showHead) else s

/-- The head record of the running hart is replayed, in a handler (R227): none while a walk is awaited, or while an older store of
the handler to its bytes is not translated, which the replay overwrites. Atomics and releases are discarded. -/
def State.replayRecord (s : State) : Except Act State :=
  if !s.hart.hnd then .ok s
  else
    match s.hart.sfrq with
    | [] => .ok s
    | q :: _ =>
      if 6 ≤ q.swid then .ok s.dropRecord
      else if s.hart.storeOverlap (q.parts.flatMap (StorePart.ranges s.hart.tagbase)) then .error (.wait .memory id)
      else
        let rs := q.parts.map (fun p => (p, s.placePart p))
        match firstBad Trans.isMiss rs with
        | some (t, va) => .error (missed t va 0x09 0x0B)
        | none =>
          match firstBad Trans.isUnbacked rs with
          | some (t, va) => .error (missed t va 0x09 0x0B)
          | none =>
            match firstBad Trans.isFault rs with
            | some (t, va) =>
              let s := if storeCause t = 0x09 then s.takeWalkFault (unitOf (cellOf s.cur)) s.hart.ctxId va else s
              .ok (s.modHart (fun h => { h with sfrf := true }))
            | none => .ok (s.performStore rs).dropRecord

/-- SFDROP (R227): a write of 1 to HSTAT.SFDROP of a hart discards its head record. -/
def execSfdrop (h : Nat) (s : State) : Out := .next (s.as h).dropRecord

/-- SFRPL (R227): a write of 1 to HSTAT.SFRPL of a hart replays its head record; it waits for a walk. -/
def execSfrpl (h : Nat) (s : State) : Out :=
  match (s.as h).replayRecord with
  | .ok t => .next t
  | .error (.wait _ f) => .next (f (s.as h))
  | .error (.stop f) => .fault f
  | .error _ => .next s

end Sys2Proof.Machine
end

