-- ==== Sys2Proof/Machine/Net.lean ====
section
/-! DEFINITION. Packets of the dynamic network as they are taken at their destination, and reads of an instruction that are made
at once (R406-R408, R195, R197). -/

namespace Sys2Proof.Machine

/-- Whether two packets share a class, a source and a destination (R407). -/
def Packet.samePair (a b : Packet) : Bool :=
  decide (a.reply = b.reply) && decide (a.src = b.src) && decide (a.dst = b.dst)

/-- Whether a packet is for a region that is FROZEN, and so waits at its boundary (R450): what memory ports and unit purges
serve is for no region. -/
def State.waitsOutside (s : State) (p : Packet) : Bool :=
  match s.regionOfCell p.dst with
  | some r =>
    ((s.region? r).map (fun g => decide (g.state = .frozen) && decide (g.ctx = p.ctx))).getD false &&
      !([0, 1, 2, 13].contains p.type)
  | none => false

/-- Packet n of a type taken at its destination: it must be the first of its pair (R407), and its region must not be
frozen (R450). -/
def State.takePacket (s : State) (n type : Nat) : Option (Packet × State) :=
  match s.net[n]? with
  | some p =>
    if p.type = type && !(s.net.take n).any p.samePair && !s.waitsOutside p then
      some (p, { s with net := dropNth s.net n })
    else none
  | none => none

/-- The outstanding request of a tag, removed (R406). -/
def State.takeRequest (s : State) (xid : Nat) : Option (Request × State) :=
  match s.requests.find? (fun q => q.xid = xid) with
  | some q => some (q, { s with requests := s.requests.filter (fun r => r.xid ≠ xid) })
  | none => none

/-- The outstanding request of a tag. -/
def State.requestOf (s : State) (xid : Nat) : Option Request := s.requests.find? (fun q => q.xid = xid)

/-- The reply to a packet (R406). -/
def Packet.answer (p : Packet) (type addr : Nat) (payload : List Byte) (poison : List Bool) : Packet :=
  ⟨type, true, p.dev, p.src, p.dst, p.ctx, p.xid, addr, payload, poison⟩

/-- Physical addresses of n bytes read by the running hart as loads, 64 bytes at a time; the first that misses decides. -/
def State.pasNow (s : State) : Nat → Nat → Except Act (List Nat)
  | 0, _ => .ok []
  | k + 1, va =>
    match s.access va true false with
    | .hit pa _ =>
      match s.pasNow k (va + 64) with
      | .ok ps => .ok (pa :: ps)
      | .error e => .error e
    | t => .error (missed t va 0x08 0x0A)

/-- n bytes, a multiple of 64 at a 64-byte boundary, read at once by the running hart, with the poison of their 8-byte
units. -/
def State.readNow (s : State) (va n : Nat) : Except Act (List Byte × List Bool) :=
  match s.pasNow (n / 64) va with
  | .error e => .error e
  | .ok ps =>
    .ok (ps.flatMap (fun pa => (s.lineNow pa).1), ps.flatMap (fun pa => (s.lineNow pa).2))

/-- A dword read at once by the running hart, with its poison. -/
def State.readDword (s : State) (va : Nat) : Except Act (Word × Bool) :=
  match s.access va true false with
  | .hit pa _ =>
    let d := s.lineNow (pa / 64 * 64)
    .ok (BitVec.ofNat 64 (leNat ((d.1.drop (pa % 64)).take 8)), d.2.getD (pa % 64 / 8) false)
  | t => .error (missed t va 0x08 0x0A)

/-! Reads (R195, R406). -/

/-- READ (R406): a read request is served at its memory port: 64 bytes, as the requester's region sees them. -/
def execRead (n : Nat) (s : State) : Out :=
  match s.takePacket n 0 with
  | none => .next s
  | some (p, t) =>
    match t.requestOf p.xid with
    | none => .next t
    | some q =>
      let d := t.lineData q.region p.addr
      .next (t.send (p.answer 3 p.addr d.1 d.2))

/-- READ_REPLY (R195, R406): a line arrives: a load of a hart has its bytes, and the L1 of a C-cell keeps the line, with the bytes that
it has now; the oldest of 1,024 lines leaves (R20, R376; assumption 58). -/
def execReadReply (n : Nat) (s : State) : Out :=
  match s.takePacket n 3 with
  | none => .next s
  | some (p, t) =>
    match t.takeRequest p.xid with
    | none => .next t
    | some (q, t) =>
      match q.what with
      | .line h id pa =>
        let x := t.hartAt h
        let fill := fun (l : Load) => if l.id = id then
            { l with lines := l.lines.map (fun k => if k.pa = pa then { k with data := some (p.payload, p.poison) } else k) }
          else l
        let t := t.setHart h { x with loads := x.loads.map fill }
        .next (if isCompute h && x.loads.any (fun l => l.id = id) then
            let d := t.lineData q.region pa
            t.modCell (cellOf h) (fun c =>
              let ls := c.l1.filter (fun l => l.pa ≠ pa) ++ [⟨pa, d.1, d.2⟩]
              { c with l1 := ls.drop (ls.length - 1024) })
          else t)
      | _ => .next t

end Sys2Proof.Machine
end

