-- ==== Sys2Proof/Machine/System.lean ====
section
/-! DEFINITION. The CSR and SYS instructions: control and status registers, error polling, calls, the return from a trap,
queue tests, reconfiguration (R128, R130-R133, R160, R187, R189, R213, R216-R224, R235, R236, R255-R257, R278, R404, R440,
R441, R472). -/

namespace Sys2Proof.Machine

/-! Reading a CSR. -/

/-- A number that is 1 when a test holds. -/
def bitAt (b : Bool) (n : Nat) : Nat := if b then 2 ^ n else 0

/-- HSTAT as it reads (R216, R236). -/
def Hart.hstat (h : Hart) (str : Bool) : Nat :=
  bitAt h.hnd 0 + (if str then 0 else
    bitAt h.nut 1 + bitAt (!h.sfrq.isEmpty) 9 + bitAt (!h.sfrq.isEmpty) 10 + bitAt h.sfrf 11 + min h.sfrq.length 15 * 2 ^ 12)

/-- HARTID (R132). -/
def Hart.hartId (h : Hart) (id : Nat) : Nat := h.ctxId % 4096 * 2 ^ 24 + h.regionId % 256 * 2 ^ 16 + id % 2 ^ 15

/-- The stepping constants (R404): LAUNCH is 34 on A0 and 30 on B0. -/
def latc : Nat := 0x00000E2022200000 + (if Config.stepB then 30 else 34)

/-- IDENT (R472): vendor, part, stepping, version of the running Haltin image. -/
def State.ident (s : State) : Nat :=
  0x4E494160 * 2 ^ 32 + (if Config.stepB then 0x10 else 0) * 2 ^ 24 + s.pkg.running % 65536

/-- The state code of a slot (R255). -/
def SlotState.code : SlotState → Nat
  | .empty => 0
  | .idle => 1
  | .active => 2
  | .faulted _ _ => 3

/-- Whether a slot is FAULTED. -/
def SlotState.isFaulted : SlotState → Bool
  | .faulted _ _ => true
  | _ => false

/-- Whether a slot is EMPTY or IDLE (R264). -/
def SlotState.atRest : SlotState → Bool
  | .empty => true
  | .idle => true
  | _ => false

/-- A slot of a hart. -/
def Hart.slot (h : Hart) (k : Nat) : Slot := h.slots[k]?.getD Slot.reset

/-- SLOTST (R255). -/
def Hart.slotst (h : Hart) : Nat := (List.range 8).foldr (fun k acc => acc + (h.slot k).state.code * 4 ^ k) 0

/-- SFLT: the lowest FAULTED slot (R256). -/
def Hart.sflt (h : Hart) : Nat :=
  ((List.range 8).findSome? (fun k => match (h.slot k).state with
    | .faulted c _ => some (2 ^ 63 + k * 2 ^ 60 + c % 128 * 2 ^ 48 + (h.slot k).elem % 2 ^ 40)
    | _ => none)).getD 0

/-- STRMCTL as it reads (R257). -/
def Hart.strmctl (h : Hart) : Nat :=
  (List.range 8).foldr (fun k acc => acc + bitAt (h.slot k).state.isFaulted k + bitAt (h.slot k).state.isFaulted (8 + k)) 0

/-- The writable bits of a TSHP register (R332). -/
def tshpMask : Word := 0xFE3FFF#64

/-- A shape register as the work that waits leaves it (R337). -/
def Mxe.nextShape (m : Mxe) (n : Nat) : Word :=
  m.work.foldl (fun v w => match w.op with
    | .tshp k x => if k = n then x &&& tshpMask else v
    | _ => v) (m.tshp[n]?.getD 0#64)

/-- A CSR of the running hart as it reads. -/
def State.csrRead (s : State) (n : Nat) : Word :=
  let h := s.hart
  let c := s.cell
  if n = 0x000 then BitVec.ofNat 64 (h.hstat (isStreamer s.cur))
  else if n = 0x001 then h.sstat
  else if n = 0x002 then h.tvec
  else if n = 0x003 then h.tcause
  else if n = 0x004 then h.tval
  else if n = 0x005 then h.tepc
  else if n = 0x010 then zext64 h.fcsr
  else if n = 0x011 then BitVec.ofNat 64 (bitAt h.sigEn 8 + h.sigThr.toNat)
  else if n = 0x012 then h.tagbase &&& 0x000FFFFFFFFFFFFF#64
  else if n = 0x013 then zext64 h.chkiv
  else if n = 0x020 then h.gid
  else if n = 0x021 then zext64 h.pchan
  else if n = 0x022 then zext64 h.tksel
  else if 0x030 ≤ n ∧ n ≤ 0x037 then c.mxe.nextShape (n - 0x030)
  else if n = 0x040 then BitVec.ofNat 64 s.clk
  else if n = 0x041 then h.instret
  else if n = 0x042 then BitVec.ofNat 64 (h.hartId s.cur)
  else if n = 0x050 then BitVec.ofNat 64 latc
  else if n = 0x051 then BitVec.ofNat 64 s.ident
  else if 0x060 ≤ n ∧ n ≤ 0x06F then BitVec.ofNat 64 (c.scaleReg (n - 0x060) % 2 ^ 32)
  else if n = 0x070 then BitVec.ofNat 64 (bitAt c.sw.halt 16 + c.sw.pc % 4096)
  else if 0x071 ≤ n ∧ n ≤ 0x074 then zext64 (c.sw.c[n - 0x071]?.getD 0#24)
  else if n = 0x080 then BitVec.ofNat 64 h.slotst
  else if n = 0x081 then BitVec.ofNat 64 h.sflt
  else if n = 0x082 then BitVec.ofNat 64 h.strmctl
  else 0#64

/-! Writing a CSR (R7, R219). -/

/-- Whether no stream of the cell holds a tile register (R345). -/
def State.tileFree (s : State) (c t : Nat) : Bool :=
  (List.range 3).all (fun i => (List.range 8).all (fun n =>
    let k := (s.hartAt (8 * c + 4 + i)).slot n
    !(k.admitted && k.cmd.any (fun m => decide (m.ep = 16 + t)))))

/-- What a piece of work names: tile registers (and their shapes) 0-7, accumulators from 8 on (R337). -/
def MxOp.names : MxOp → List Nat
  | .mul _ d a b => [8 + d, a, b]
  | .groups _ d a table => (8 + d) :: a :: table.map Prod.fst
  | .tld t _ _ _ _ _ _ => [t]
  | .tst b _ => [b]
  | .tzero t => [t]
  | .tcsum t => [t]
  | .acz a => [8 + a]
  | .acnv _ t a _ => [t, 8 + a]
  | .tshp n _ => [n]

/-- Whether work waits inside a matrix engine that names one of some registers (R337). -/
def Mxe.awaits (m : Mxe) (names : List Nat) : Bool := m.work.any (fun w => w.op.names.any names.contains)

/-- Whether a piece of work must wait inside the matrix engine of a cell: for a stream that holds a tile it names, or for work accepted
before it (R337, R345). -/
def State.mxBusy (s : State) (c : Nat) (op : MxOp) : Bool :=
  op.names.any (fun n => decide (n < 8) && !s.tileFree c n) || (s.cellAt c).mxe.awaits op.names

/-- A piece of work put behind what waits inside the matrix engine of the running hart. -/
def State.queueWork (s : State) (op : MxOp) : State :=
  s.modCell (cellOf s.cur) (fun c => { c with mxe := { c.mxe with work := c.mxe.work ++ [⟨s.cur, op⟩] } })

/-- Whether nothing at all is under way with a tile register: no stream holds it, no tile load of it is awaited, and no work waits that
names it (R337). -/
def State.tileAtRest (s : State) (c t : Nat) : Bool :=
  !(s.cellAt c).mxe.pending.any (fun p => decide (p.tile = t)) && s.tileFree c t && !(s.cellAt c).mxe.awaits [t]

/-- A write of TSHPn of a cell: a changed value makes the tile's sidecar stale (R338). -/
def Mxe.writeTshp (m : Mxe) (n : Nat) (v : Word) : Mxe :=
  let v := v &&& tshpMask
  if m.tshp[n]?.getD 0#64 = v then m
  else
    { m with
      tshp := m.tshp.setIfInBounds n v
      tiles := m.tiles.setIfInBounds n { (m.tiles[n]?.getD Tile.reset) with stale := true } }

/-- A stream of the running streamer is resumed at its element (R257). -/
def Slot.resume (k : Slot) : Slot := if k.state.isFaulted then { k with state := .active } else k

/-- A hart with a slot replaced. -/
def Hart.setSlot (h : Hart) (k : Nat) (x : Slot) : Hart := { h with slots := h.slots.setIfInBounds k x }

/-- A stream stopped without an end (R257, R439): its slot is IDLE. -/
def Slot.stop (k : Slot) : Slot :=
  match k.state with
  | .empty => k
  | _ => { k with state := .idle, cmd := none, elem := 0, chase := 0, segPhase := 0, part := [], admitted := false, covered := [] }

/-- A stream of a slot of a hart has ended: its writes belong to the interval that its streamer is in (R432). -/
def State.closeStream (s : State) (r h n : Nat) : State :=
  let iv := s.interval r h
  s.modRegion r (fun g => { g with
    commit := g.commit.map (fun w => if streamOf w.interval = some (h, n) then { w with interval := iv } else w) })

/-- A stream aborted (R257, R297, R316, R432): its slot is IDLE, a segment lock it held is released, its pool read ends, its writes
stand. -/
def State.abortStream (s : State) (h n : Nat) : State :=
  let k := (s.hartAt h).slot n
  let c := unitOf (cellOf h)
  let s := match k.cmd with
    | none => s
    | some m =>
      let s := if m.op ≠ 2 && 8 ≤ m.ep && m.ep < 16 && 1 ≤ k.segPhase && k.segPhase ≤ 2 then
          s.modRing (cellOf h) (24 + m.ep) (slotOf h) (fun q => if q.lock = some (slotOf h) then { q with lock := none } else q)
        else s
      let s := s.closeStream m.region h n
      let wave := s.waveOf c
      if m.space = 2 && m.op ≠ 2 && k.admitted then
        s.modPool c h (fun p => (p.abortRead (m.base % 4096) (decide (m.op = 3))).sweep wave)
      else s
  s.setHart h ((s.hartAt h).setSlot n k.stop)

/-- One bit of STRMCTL.ABT written with 1 (R257). -/
def State.abortFaulted (s : State) (h n : Nat) : State :=
  if ((s.hartAt h).slot n).state.isFaulted then s.abortStream h n else s

/-- A write of STRMCTL, in a handler (R257): a slot named by both fields is aborted. -/
def State.writeStrmctl (s : State) (v : Word) : State :=
  if s.hart.hnd then
    (List.range 8).foldl (fun s k =>
      if v.getLsbD (8 + k) then s.abortFaulted s.cur k
      else if v.getLsbD k then s.modHart (fun h => h.setSlot k (h.slot k).resume)
      else s) s
  else s

/-- HSTAT written: the record bits act first, then NUT is stored (R216, R236). -/
def State.writeHstat (s : State) (rw w1c : Word) : Except Act State :=
  if isStreamer s.cur then .ok s
  else
    let disposed := if w1c.getLsbD 9 then .ok s.dropRecord else if w1c.getLsbD 10 then s.replayRecord else .ok s
    match disposed with
    | .ok s => .ok (s.modHart (fun h => { h with nut := rw.getLsbD 1 }))
    | .error e => .error e

/-- A CSR of the running hart written: `rw` is what the RW fields take, `w1c` what the W1C fields receive. -/
def State.csrWrite (s : State) (n : Nat) (rw w1c : Word) : Except Act State :=
  if n = 0x000 then s.writeHstat rw w1c
  else if n = 0x001 then .ok (s.modHart (fun h => { h with sstat := rw }))
  else if n = 0x002 then .ok (s.modHart (fun h => { h with tvec := evenAddr rw }))
  else if n = 0x003 then .ok (s.modHart (fun h => { h with tcause := rw &&& 0xFFFF00000000077F#64 }))
  else if n = 0x004 then .ok (s.modHart (fun h => { h with tval := rw }))
  else if n = 0x005 then .ok (s.modHart (fun h => { h with tepc := evenAddr rw }))
  else if n = 0x010 then
    .ok (s.modHart (fun h => { h with
      fcsr := (if rw.toNat / 32 % 8 ≤ 4 then rw.extractLsb' 5 3 else h.fcsr.extractLsb' 5 3) ++ rw.extractLsb' 0 5 }))
  else if n = 0x011 then
    .ok (s.modHart (fun h => { h with
      sigEn := rw.getLsbD 8, sigThr := if 24 < rw.toNat % 32 then 24#5 else rw.setWidth 5 }))
  else if n = 0x021 then .ok (s.modHart (fun h => { h with pchan := rw.setWidth 6 }))
  else if n = 0x022 then .ok (s.modHart (fun h => { h with tksel := rw.setWidth 8 }))
  else if 0x030 ≤ n ∧ n ≤ 0x037 then
    if s.mxBusy (cellOf s.cur) (.tshp (n - 0x030) rw) then .ok (s.queueWork (.tshp (n - 0x030) rw))
    else .ok (s.modCell (cellOf s.cur) (fun c => { c with mxe := c.mxe.writeTshp (n - 0x030) rw }))
  else if n = 0x082 then .ok (s.writeStrmctl w1c)
  else .ok s

/-- CSRs that only a handler writes (R219). -/
def handlerCsr (n : Nat) : Bool := decide (n = 0x001) || decide (n = 0x003) || decide (n = 0x004) || decide (n = 0x005)

/-- A CSR instruction that writes (R219, R211): what the RW and the W1C fields receive comes from the old value and xa. -/
def csrModify (n : BitVec 11) (a : Reg) (rw : Word → Word → Word) (w1c : Word → Word) (k : Word → State → Act) (s : State) :
    Act :=
  if handlerCsr n.toNat && !s.hart.hnd then .trap 0x04 (n.setWidth 64)
  else
    srcU s a fun x s =>
      let old := s.csrRead n.toNat
      if x.poison then k old (s.note true 4)
      else
        match s.csrWrite n.toNat (rw old x.val) (w1c x.val) with
        | .ok t => k old t
        | .error e => e

/-- CSRR (R219). -/
def execCsrr (tk : Tok) (d : Reg) (n : BitVec 11) (s : State) : Out :=
  runHart (.csrr tk d n) tk s (fun s => dstU s d (intResult (s.csrRead n.toNat) false))

/-- CSRW (R219). -/
def execCsrw (tk : Tok) (a : Reg) (n : BitVec 11) (s : State) : Out :=
  runHart (.csrw tk a n) tk s (csrModify n a (fun _ x => x) (fun x => x) (fun _ s => .done s))

/-- CSRS (R219). -/
def execCsrs (tk : Tok) (d a : Reg) (n : BitVec 11) (s : State) : Out :=
  runHart (.csrs tk d a n) tk s
    (csrModify n a (fun o x => o ||| x) (fun x => x) (fun old s => dstU s d (intResult old false)))

/-- CSRC (R219). -/
def execCsrc (tk : Tok) (d a : Reg) (n : BitVec 11) (s : State) : Out :=
  runHart (.csrc tk d a n) tk s
    (csrModify n a (fun o x => o &&& ~~~x) (fun _ => 0#64) (fun old s => dstU s d (intResult old false)))

/-! Error polling (R213). -/

/-- chkerr: waits for the data of older loads, then reads CHKIV, and with a second form clears it. -/
def chkerrOp (clear : Bool) (d : Reg) (s : State) : Act :=
  if s.hart.loads.isEmpty then
    let v := zext64 s.hart.chkiv
    dstU (if clear then s.modHart (fun h => { h with chkiv := 0#5 }) else s) d (intResult v false)
  else .wait .memory id

/-- CHKERR (R213). -/
def execChkerr (tk : Tok) (d : Reg) (s : State) : Out := runHart (.chkerr tk d) tk s (chkerrOp false d)

/-- CHKERR_CLR (R213). -/
def execChkerrClr (tk : Tok) (d : Reg) (s : State) : Out := runHart (.chkerrClr tk d) tk s (chkerrOp true d)

/-! Calls and returns (R223, R224). -/

/-- ECALL (R224): the trap ECALL. -/
def execEcall (tk : Tok) (s : State) : Out := runHart (.ecall tk) tk s (fun _ => .trap 0x07 0#64)

/-- EBREAK (R224): the trap BREAK. -/
def execEbreak (tk : Tok) (s : State) : Out := runHart (.ebreak tk) tk s (fun _ => .trap 0x06 0#64)

/-- C_EBREAK (R65, R224): the trap BREAK. -/
def execCEbreak (s : State) : Out := runHart .cEbreak noTok s (fun _ => .trap 0x06 0#64)

/-- TRET (R223, R236): the return from a trap handler. -/
def execTret (tk : Tok) (s : State) : Out :=
  runHart (.tret tk) tk s (fun s =>
    if !s.hart.hnd then .trap 0x02 0#64
    else if s.hart.sstat.toNat / 4 ≠ 0 then .trap 0x03 s.hart.sstat
    else .jump s.leaveTrap s.hart.tepc)

/-! Queue tests (R128). -/

/-- The kind code of an entry as qtok gives it: 0 for data. -/
def Entry.kindCode : Entry → Nat
  | .token t => t.kind.toNat
  | _ => 0

/-- The kind of what stands at the head of a queue or port where a read would take it now. -/
def State.headKind (s : State) (q : QSel) : Option Nat :=
  if q.toNat < 4 then
    let code := readCode (s.cell.mapFor (slotOf s.cur)) q.toNat
    (s.cell.takeQueue code (s.taken s.hart.regionId s.cur)).map
      (fun i => (s.entryOf (cellOf s.cur) (s.cell.queue code) i.1).kindCode)
  else
    (s.portItems (s.hart.portOf (q.toNat - 4))).head?.map (fun i => if i.flit.isData then 0 else (flitToken i.flit).kind.toNat)

/-- The specifier that a queue selector stands for (R61). -/
def QSel.reg (q : QSel) : Reg := 3#2 ++ q

/-- QTEST (R128). -/
def execQtest (tk : Tok) (p : PReg) (q : QSel) (s : State) : Out :=
  runHart (.qtest tk p q) tk s (fun s =>
    guardMap [(decide (q.toNat < 4) && s.badSrcU (QSel.reg q), QSel.reg q)]
      (.done (s.modHart (fun h => h.setP p (s.headKind q).isSome))))

/-- QTOK (R128, R439). -/
def execQtok (tk : Tok) (d : Reg) (q : QSel) (s : State) : Out :=
  runHart (.qtok tk d q) tk s (fun s =>
    guardMap [(decide (q.toNat < 4) && s.badSrcU (QSel.reg q), QSel.reg q)]
      (match s.headKind q with
        | some k => dstU s d (intResult (BitVec.ofNat 64 k) false)
        | none =>
          if s.draining then dstU s d drainedU
          else .wait (.empty (if q.toNat < 4 then readCode (s.cell.mapFor (slotOf s.cur)) q.toNat
            else 64 + s.hart.portOf (q.toNat - 4))) id))

/-! Reconfiguration (R440, R441). -/

/-- The region of the running hart. -/
def State.myRegion (s : State) : Region := (s.region? s.hart.regionId).getD Region.reset

/-- An image installed for the context of the running hart. -/
def State.myImage (s : State) (id : Nat) : Option Image :=
  (s.ctx? s.hart.ctxId).bind (fun c => lookup id c.images)

/-- Placement of a region as an image states it (R424): BX, BY, BW, BH. -/
def Region.place (g : Region) : List Nat := [g.bx, g.by', g.bw, g.bh]

/-- A new shadow: every cell starts fetching its sections (R440). -/
def State.startShadow (s : State) (r id : Nat) : State :=
  let s := s.modRegion r (fun g => { g with scfg := id, sws := 1, requested := none })
  (((s.region? r).map Region.cells).getD []).foldl (fun s c => s.modCell c (fun x => { x with shadow := .pending id 0 false })) s

/-- SHADOW (R440, R211, R439): the ID is checked before the wait for a switch wave in flight, the placement after it. -/
def execShadow (tk : Tok) (a : Reg) (s : State) : Out :=
  runHart (.shadow tk a) tk s (fun s =>
    srcU s a fun x s =>
      let s := s.note x.poison 4
      let id := x.val.toNat % 256
      if s.draining then .done s
      else if s.hart.stage ≠ .arrived && (256 ≤ x.val.toNat || decide (id = 0) || decide (id = s.myRegion.acfg)) then .trap 0x0A x.val
      else
        match s.myImage id with
        | none => .trap 0x0A x.val
        | some im =>
          if s.myRegion.sws = 3 then .wait .control (fun s => s.modHart (fun h => { h with stage := .arrived }))
          else if im.place ≠ s.myRegion.place then .trap 0x0A x.val
          else .done (s.startShadow s.hart.regionId id))

/-- RECFG (R441, R211, R439). -/
def execRecfg (tk : Tok) (a : Reg) (s : State) : Out :=
  runHart (.recfg tk a) tk s (fun s =>
    srcU s a fun x s =>
      let s := s.note x.poison 4
      if s.draining then .done s
      else if 256 ≤ x.val.toNat || decide (s.myRegion.scfg = 0) || decide (x.val.toNat % 256 ≠ s.myRegion.scfg) then
        .trap 0x0A x.val
      else .done (s.modRegion s.hart.regionId (fun g => { g with requested := some (g.requested.getD (g.interval s.cur)) })))

/-! Steps that name a CSR's effect. -/

/-- STREAM_ABORT (R257): a write of 1 to STRMCTL.ABT of a slot of a streamer. -/
def execStreamAbort (h slot : Nat) (s : State) : Out :=
  .next (if (s.hartAt h).hnd then s.abortFaulted h slot else s)

/-- STREAM_RESUME (R257): a write of 1 to STRMCTL.RES of a slot of a streamer. -/
def execStreamResume (h slot : Nat) (s : State) : Out :=
  let x := s.hartAt h
  .next (if x.hnd then s.setHart h (x.setSlot slot (x.slot slot).resume) else s)

/-- TSHP_WRITE (R338): a value written to TSHPn of a cell. -/
def execTshpWrite (cell : Nat) (n : TReg) (v : Word) (s : State) : Out :=
  .next (s.modCell cell (fun c => { c with mxe := c.mxe.writeTshp n.toNat v }))

/-! The outcomes of a failed fetch (R43, R66, R67). -/

/-- A trap at the pc of the running hart after a due trap (R67, R222). -/
def trapAtFetch (code : Nat) (value : Word) (s : State) : Out :=
  match s.dueTrap with
  | some (c, v) => .next (s.trapNow c v)
  | none => .next (s.trapNow code value)

/-- ILLEGAL (R66, R67): the fetched bits decode to no instruction. -/
def execIllegal (word : BitVec 32) (s : State) : Out := trapAtFetch 0x01 (zext64 word) s

/-- FETCH_PAGE (R43): the fetch of the parcel at an address faults. -/
def execFetchPage (addr : Word) (s : State) : Out := trapAtFetch 0x0C addr s

end Sys2Proof.Machine
end

