-- ==== Sys2Proof/Machine/Region.lean ====
section
/-! DEFINITION. What a region does as a whole: its causes and their actions, the freeze of a rollback, the kill of a
context, the parties and ties of a kerf wave, and the part a party takes (R222, R230, R429-R431, R434-R439, R450,
R462, R474). -/

namespace Sys2Proof.Machine

/-! All harts, cells and bays of a region. -/

/-- The harts of a region's cells changed. -/
def State.mapHarts (s : State) (g : Region) (f : Nat → Hart → Hart) : State :=
  { s with harts := s.harts.map (fun p => if g.hasCell (cellOf p.1) then (p.1, f p.1 p.2) else p) }

/-- The cells of a region changed. -/
def State.mapCells (s : State) (g : Region) (f : Nat → Cell → Cell) : State :=
  { s with cells := s.cells.map (fun p => if g.hasCell p.1 then (p.1, f p.1 p.2) else p) }

/-- The bays of a region changed. -/
def State.mapBays (s : State) (g : Region) (f : Nat → Bay → Bay) : State :=
  { s with bays := s.bays.map (fun p => if g.hasBay p.1 then (p.1, f p.1 p.2) else p) }

/-- The harts of a region that run a task. -/
def State.running (s : State) (r : Nat) : List Nat :=
  (s.harts.filter (fun p => p.2.task.isSome && decide (p.2.regionId = r))).map Prod.fst

/-- A member of a group ends by gkill, by a kill or by the end of a rollback's drain (R230, R439, R462): its instruction is
abandoned, its untranslated stores, records and loads are gone. The kill record takes it with a cause, unless none is
given. -/
def State.endMember (s : State) (h : Nat) (cause : Option Nat) : State :=
  { ((((s.as h).abandon).endTask h cause).modHart (fun x => { x with
      hnd := false, nut := false, sfrf := false, gid := 0#64 })) with cur := s.cur }

/-! Streams and engines of a region. -/

/-- Every stream of a hart stopped. -/
def Hart.stopStreams (h : Hart) : Hart := { h with slots := Vector.ofFn (fun k => h.slots[k].stop) }

/-- Every stream of a region stopped, which releases the segment locks, its store-fault records and untranslated stores discarded, and
its engine operations abandoned: what is in an inbox, what travels to one, what has ended and is not committed (R229, R297, R420,
R439). -/
def State.haltWork (s : State) (r : Nat) (g : Region) : State :=
  let s := s.mapHarts g (fun _ h => { h.stopStreams with stores := [], sfrq := [] })
  let s := s.mapCells g (fun _ c => { c with inbox := [], run := none, queues := c.queues.map (fun q => (q.1, { q.2 with lock := none })) })
  let s := s.mapBays g (fun _ b => { b with inbox := [], run := none })
  { (s.modRegion r (fun g => { g with
      updates := g.updates.filter (fun u => u.interval ≤ g.wave),
      peerWrites := g.peerWrites.filter (fun u => u.interval ≤ g.wave),
      spawnEnds := g.spawnEnds.filter (fun u => u.1 ≤ g.wave) })) with
    net := s.net.filter (fun p => !(decide (p.type = 6) && g.hasCell p.dst)) }

/-! The kill of a context (R462). -/

/-- Everything that is sent a PURGE: the M-cells, the 12 HBM controllers at their ports, the 8 CXL ports and the 12 scarf
interfaces, with the kind in the address. -/
def purgeTargets : List (Nat × Nat) :=
  ((List.range 4096).filter isM).map (fun c => (c, 0)) ++
    (List.range 12).map (fun k => (memNode (k * 0x1000000000), 1)) ++
    (List.range 8).map (fun k => (mkCell (k / 4) 26 (k % 4), 2)) ++
    (List.range 12).map (fun k => (mkCell (k / 6) 27 (k % 6), 3))

/-- A region of a killed context: dispatch is held, streams and engine operations end, every task ends as a member of a
group does, its uncommitted writes are discarded; a rollback or a pre-emption in progress is abandoned (R462). -/
def State.killRegion (s : State) (r : Nat) (g : Region) : State :=
  let s := s.haltWork r g
  let s := (s.running r).foldl (fun s h => s.endMember h (some 0)) s
  s.modRegion r (fun g => { g with
    state := .teardown, commit := [], updates := [], peerWrites := [], groups := [], inFlight := false,
    wanted := false, parted := [], taking := none, snap := none, saved := none, requested := none, loadCmd := none,
    preemptCmd := none, resumeCmd := none, exposed := none, forced := false, finalWave := false, emptied := false, waitCauses := [] })

/-- A context is killed, by its host's command or by the controller: its regions end, and every unit is told to drop its
later writes (R428, R462). A context that is being killed goes on being killed. -/
def State.killContext (s : State) (ctx : Nat) : State :=
  match s.ctx? ctx with
  | none => s
  | some c =>
    if c.killing.isSome then s
    else
      let s := s.regions.foldl (fun s p => if p.2.ctx = ctx then s.killRegion p.1 p.2 else s) s
      let s := s.modCtx ctx (fun c => { c with killing := some purgeTargets.length })
      { s with net := s.net ++ purgeTargets.map (fun t => ⟨13, false, 0, t.1, 24, ctx, 0, t.2, [], []⟩) }

/-! Rollback and freeze (R435, R436, R439, R450). -/

/-- The freeze step of a rollback (R439): the wave in flight is abandoned. -/
def State.startRollback (s : State) (r code : Nat) : State :=
  match s.region? r with
  | none => s
  | some g =>
    (s.haltWork r g).modRegion r (fun g => { g with
      state := .rollback, cause := code, drainClk := 0, actedAt := some s.clk,
      wasDraining := g.wasDraining || decide (g.state = .draining), rollbacks := g.rollbacks + 1,
      inFlight := false, parted := [], taking := none, takeSpill := 0, finalWave := false, waitCauses := [] })

/-- The freeze of a region (R428, R435, R450): nothing of it moves any more. A rollback that began in the same clk is no action of its
own. -/
def State.freeze (s : State) (r code : Nat) : State :=
  s.modRegion r (fun g => { g with
    state := .frozen, cause := code, actedAt := some s.clk
    wasDraining := g.wasDraining || decide (g.state = .draining)
    rollbacks := if g.state = .rollback then g.rollbacks - 1 else g.rollbacks })

/-- The action of a region cause (R435). -/
inductive CauseAction where
  | rollback | kill | freeze | none
  deriving DecidableEq, Repr

/-- The action table of R435; what is refused or warned of has none here. -/
def causeAction (code : Nat) : CauseAction :=
  match code with
  | 0x40 => .rollback
  | 0x41 => .rollback
  | 0x42 => .kill
  | 0x43 => .rollback
  | 0x44 => .freeze
  | 0x45 => .rollback
  | 0x46 => .rollback
  | 0x48 => .rollback
  | 0x49 => .freeze
  | _ => .none

/-- Whether a cause can be acted on in the state of a region (R428): it is ACTIVE or DRAINING. -/
def Region.live (g : Region) : Bool := decide (g.state = .active) || decide (g.state = .draining)

/-- The action of a cause waits until the region leaves its state (R428). -/
def State.postpone (s : State) (r code : Nat) : State :=
  s.modRegion r (fun g => { g with waitCauses := g.waitCauses ++ [code] })

/-- The action of a region cause (R428, R434-R436, R439). A rollback of an exposed region, the eighth one to the same wave, and one
without a snapshot kill the context. In a rollback a cause leads to no other, but for UE in the snapshot it needs; of the causes of one
clk a freeze is taken before a rollback (R435). In a state that the table of R428 gives no such event the action waits
(assumption 96). -/
def State.act (s : State) (r code : Nat) : State :=
  match s.region? r with
  | none => s
  | some g =>
    let now := decide (g.actedAt = some s.clk)
    match causeAction code with
    | .none => s
    | .kill => s.killContext g.ctx
    | .freeze =>
      if g.live || (g.state = .rollback && now) then s.freeze r code
      else if g.state = .frozen then s
      else s.postpone r code
    | .rollback =>
      if g.live then
        if g.exposed.any (fun w => g.wave < w) || 7 ≤ g.rollbacks || g.snap.isNone then s.killContext g.ctx
        else s.startRollback r code
      else if g.state = .rollback then (if code = 0x48 && g.snap.isNone then s.killContext g.ctx else s)
      else if g.state = .frozen && now then s
      else s.postpone r code

/-- A region cause is raised: it is counted and reported, and its action follows (R435). -/
def State.cause (s : State) (r code : Nat) : State := (s.report r code).act r code

/-- The action of the causes that waited for a region to be ACTIVE or DRAINING again: one, the strictest (R428, R435). -/
def State.actWaiting (s : State) (r : Nat) : State :=
  match s.region? r with
  | none => s
  | some g =>
    let s := s.modRegion r (fun g => { g with waitCauses := [] })
    match (g.waitCauses.find? (fun c => causeAction c = .freeze)).or g.waitCauses.head? with
    | some c => s.act r c
    | none => s

/-! Ties of a wave (R430). -/

/-- A tie as a wave sees it: a queue or ring, a token FIFO, a buffer of flits, or a delivery to a port register. -/
inductive Tie where
  | queue (c code : Nat)
  | fifo (c n : Nat)
  | buf (c key : Nat)
  | port (c pk : Nat)
  deriving DecidableEq, Repr

/-- Whether a port code of a cell is lp0-lp3. -/
def isLp (c code : Nat) : Bool := isC c && decide (8 ≤ code) && decide (code < 12)

/-- The buffer a switch reads for an input port and the output it goes to (R272). -/
def inKey (c inp out : Nat) : Nat :=
  if inp < 8 then inp else 64 + 8 * (inp - 8) + (if isLp c inp then out % 8 else out % 2)

/-- Where a flit goes that a switch passes from an input to an output (R271): a channel input of the neighbour, a port
register, a channel of the matrix node (R268, R353), an input of the converter, the compressor or the copy engine, or a delivery to a
streamer. -/
def outTie (c inp out : Nat) : Option Tie :=
  let ch := if inp < 8 then inp % 2 else 0
  if out < 8 then (neighbour c out).map (fun n => .buf n (facing out))
  else if isLp c out then some (.port c (8 * (out - 8) + inp % 8))
  else if isC c && decide (out = 15) then some (.port c (56 + ch))
  else if isM c && decide (10 ≤ out) && decide (out ≤ 12) then some (.port c (48 + 2 * (out - 10) + ch))
  else if out < 16 then some (.buf c (128 + 16 * (out - 8) + ch))
  else none

/-- Whether a cell takes part in the configuration of its region (R425, R442). -/
def State.configured (s : State) (c : Nat) : Bool := decide ((s.cellAt c).cfgid ≠ 0)

/-- The ties of a cell whose consumers stand in it (R430): those that its queue map names, the inputs that its switch
program names, the sub-streams of the producers that the queue map names, and what its switch delivers. -/
def State.cellTies (s : State) (_g : Region) (c : Nat) : List Tie :=
  let k := s.cellAt c
  let maps := k.cfg.queueMap.map (fun q => if 16 ≤ q.code && q.code < 32 then Tie.fifo c (q.code - 16) else Tie.queue c q.code)
  let ins := k.portPairs.filterMap (fun p =>
    if p.1 < 8 then some (Tie.buf c p.1)
    else if p.1 < 16 && p.2 < 16 then some (Tie.buf c (inKey c p.1 p.2)) else none)
  let subs := (k.cfg.queueMap.flatMap (fun q => q.producers.filter (fun p => p < 7))).flatMap (fun p =>
    (List.range (if isC c && p < 4 then 8 else 2)).map (fun n => Tie.buf c (64 + 8 * p + n)))
  let outs := k.portPairs.filterMap (fun p => if 8 ≤ p.2 && p.2 < 16 then outTie c p.1 p.2 else none)
  distinctTies (maps ++ ins ++ subs ++ outs)
where
  /-- A list of ties without repeats. -/
  distinctTies : List Tie → List Tie
    | [] => []
    | a :: r => a :: (distinctTies r).filter (fun b => b ≠ a)

/-- The ties of a region. -/
def State.ties (s : State) (g : Region) : List Tie := (g.cells.filter s.configured).flatMap (s.cellTies g)

/-- The entry of the queue map that names a tie. -/
def State.tieMap (s : State) : Tie → Option QMap
  | .queue c code => findMap (s.cellAt c).cfg.queueMap code
  | .fifo c n => findMap (s.cellAt c).cfg.queueMap (16 + n)
  | _ => none

/-- The party that takes what stands in a tie; none for an engine that is no party (R430). -/
def State.tieConsumer (s : State) (t : Tie) : Option Nat :=
  match t with
  | .queue c _ => (s.tieMap t).map (fun q => mapParty c q.consumer)
  | .fifo c _ => (s.tieMap t).map (fun q => mapParty c q.consumer)
  | .port c pk => if 56 ≤ pk then some (32768 + c) else if 48 ≤ pk then none else some (8 * c + pk / 8)
  | .buf c key =>
    if key < 128 then some (8 * c + 7)
    else
      let l := (key - 128) / 16
      if isC c then some (bufConsumer c key) else if l ≤ 1 then some (8 * c) else none

/-- The parties that put something into a tie. A local input of a converter, compressor or copy engine has none: its
KERFs come through the engine. -/
def State.tieProducers (s : State) (t : Tie) : List Nat :=
  match t with
  | .queue c _ => ((s.tieMap t).map (fun q => q.producers.map (mapParty c))).getD []
  | .fifo c _ => ((s.tieMap t).map (fun q => q.producers.map (mapParty c))).getD []
  | .port c _ => [8 * c + 7]
  | .buf c key =>
    if key < 8 then ((neighbour c key).map (fun n => [8 * n + 7])).getD []
    else if key < 128 then
      let l := (key - 64) / 8
      if isC c then (if l < 7 then [8 * c + l] else [32768 + c]) else if l ≤ 1 then [8 * c] else []
    else [8 * c + 7]

/-- The KERF flit (R265). -/
def kerfFlit : Flit := ⟨4#3, 0#5, 0#256⟩

/-- A party's slot as the source of an entry. -/
def partySlot (p : Nat) : Nat := if 32768 ≤ p then 8 else p % 8

/-- A KERF of a party on a tie, behind everything it holds (R474). -/
def State.pushKerf (s : State) (w producer : Nat) (t : Tie) : State :=
  match t with
  | .queue c code => s.modCell c (fun x =>
      let q := x.queue code
      (x.setQueue code { q with items := q.items ++ [.kerf w (partySlot producer)] }).pushed code 1)
  | .fifo c n => s.modCell c (fun x => (x.setFifo n (x.fifo n ++ [.kerf w (partySlot producer)])).pushed (16 + n) 1)
  | .buf c key => s.modCell c (fun x => (x.setBuf key (x.buf key ++ [kerfFlit])).pushed (256 + key) 1)
  | .port c pk => s.modCell c (fun x => Cell.pushed { x with
      ports := insertAt pk (lookupD [] pk x.ports ++ [⟨kerfFlit, 0, [], false, none⟩]) x.ports } (512 + pk) 1)

/-- Whether a KERF stands at the head of a tie. -/
def State.kerfAtHead (s : State) (t : Tie) : Bool :=
  match t with
  | .queue c code => (((s.cellAt c).queue code).items.head?.map QItem.isKerf).getD false
  | .fifo c n => (((s.cellAt c).fifo n).head?.map TItem.isKerf).getD false
  | .buf c key => (((s.cellAt c).buf key).head?.map (fun f => decide (f.kind = 4#3))).getD false
  | .port c pk => ((lookupD [] pk (s.cellAt c).ports).head?.map (fun i => decide (i.flit.kind = 4#3))).getD false

/-- Whether every KERF that stands in a tie has reached its head: nothing else stands ahead of one (R431). -/
def State.kerfsThrough (s : State) (t : Tie) : Bool :=
  match t with
  | .queue c code => !((((s.cellAt c).queue code).items.dropWhile QItem.isKerf).any QItem.isKerf)
  | .fifo c n => !((((s.cellAt c).fifo n).dropWhile TItem.isKerf).any TItem.isKerf)
  | .buf c key => !((((s.cellAt c).buf key).dropWhile (fun f => decide (f.kind = 4#3))).any (fun f => decide (f.kind = 4#3)))
  | .port c pk =>
    !(((lookupD [] pk (s.cellAt c).ports).dropWhile (fun i => decide (i.flit.kind = 4#3))).any (fun i => decide (i.flit.kind = 4#3)))

/-- The places of a queue that its producers pushed before their KERFs (R430). -/
def aheadOfKerfs : List QItem → List Nat → List QItem
  | [], _ => []
  | .kerf _ src :: rest, ks => aheadOfKerfs rest (src :: ks)
  | .entry e src :: rest, ks => if ks.contains src then aheadOfKerfs rest ks else .entry e src :: aheadOfKerfs rest ks
  | .spilled k src :: rest, ks => if ks.contains src then aheadOfKerfs rest ks else .spilled k src :: aheadOfKerfs rest ks
  | .reserved k src :: rest, ks => if ks.contains src then aheadOfKerfs rest ks else .reserved k src :: aheadOfKerfs rest ks

/-- The tokens of a FIFO that their producers pushed before their KERFs. -/
def tokensAhead : List TItem → List Nat → List TItem
  | [], _ => []
  | .kerf _ src :: rest, ks => tokensAhead rest (src :: ks)
  | .token src :: rest, ks => if ks.contains src then tokensAhead rest ks else .token src :: tokensAhead rest ks

/-- What a tie holds of a wave as its consumer takes its part: the channel content of R430. Spilled entries are recorded
whole. -/
def State.recordTie (s : State) (t : Tie) (k : Snapshot) : Snapshot :=
  match t with
  | .queue c code =>
    let q := (s.cellAt c).queue code
    let items := (aheadOfKerfs q.items []).map (fun i => match i with
      | .spilled n src => QItem.entry (s.entryOf c q (.spilled n src)) src
      | i => i)
    let old := lookupD q (c * 64 + code) k.queues
    let now := { q with items := items, lock := old.lock, ended := old.ended, eosDue := old.eosDue }
    { k with queues := insertAt (c * 64 + code) now k.queues }
  | .fifo c n => { k with fifos := insertAt (c * 16 + n) (tokensAhead ((s.cellAt c).fifo n) []) k.fifos }
  | .buf c key =>
    let fs := ((s.cellAt c).buf key).takeWhile (fun f => f.kind ≠ 4#3)
    { k with bufs := insertAt (c * 256 + key) fs k.bufs }
  | .port c pk =>
    let is := (lookupD [] pk (s.cellAt c).ports).takeWhile (fun i => i.flit.kind ≠ 4#3)
    { k with ports := insertAt (c * 64 + pk) is k.ports }

/-! Parties and their parts (R430). -/

/-- The streamers that a pool serves (R308). -/
def poolStreamers (c : Nat) : List Nat := [8 * c, 8 * partner c + 4, 8 * partner c + 5, 8 * partner c + 6]

/-- The pool cell of a streamer (R308). -/
def poolCell (h : Nat) : Nat := unitOf (cellOf h)

/-- The harts of a cell. -/
def cellHarts (c : Nat) : List Nat := (taskSlots c).map (fun k => 8 * c + k)
where
  /-- The hart slots of a cell that tasks run on (R18). -/
  taskSlots (c : Nat) : List Nat := if isC c then [0, 1, 2, 3, 4, 5, 6] else [0]

/-- Whether the node of a cell is enabled (R353). -/
def Cell.nodeOn (c : Cell) : Bool := c.cfg.node.getLsbD 63

/-- The harts, switches and nodes of a cell that are parties. -/
def State.cellParties (s : State) (c : Nat) : List Nat :=
  if s.configured c then
    cellHarts c ++ [8 * c + 7] ++ (if isC c then (if (s.cellAt c).nodeOn then [32768 + c] else []) else [131072 + c])
  else []

/-- The parties of a region (R430). -/
def State.parties (s : State) (g : Region) : List Nat :=
  g.cells.flatMap s.cellParties ++ g.bays.map (fun b => 65536 + b)

/-- The ties that a party takes from. -/
def State.inputsOf (s : State) (ts : List Tie) (p : Nat) : List Tie := ts.filter (fun t => s.tieConsumer t = some p)

/-- A snapshot that nothing has been recorded in. -/
def Snapshot.empty (w : Nat) : Snapshot := ⟨w, [], [], [], [], [], [], [], [], [], [], [], [], [], [], []⟩

/-- The rings of a region without what they hold: their locks and ended producers as a wave opens (R297). -/
def State.ringStates (s : State) (g : Region) : List (Nat × Queue) :=
  ((s.cells.filter (fun c => g.hasCell c.1)).flatMap (fun c =>
    (c.2.queues.filter (fun q => 32 ≤ q.1)).map (fun q => (c.1 * 64 + q.1, { q.2 with items := [] })))).foldl
      (fun m q => insertAt q.1 q.2 m) []

/-- What the contents of FILLING slots in a snapshot take beyond the halves of their cells' snapshot areas (R301, R430). -/
def State.pastHalves (s : State) (k : Snapshot) : Nat :=
  (k.pools.map (fun p =>
    ((k.filling.filter (fun f => f.1 = p.1)).map (fun f => f.2.2.1.length)).foldl (· + ·) 0 - 32768 * (s.cellAt p.1).snapu)).foldl (· + ·) 0

/-- The next wave opens (R429): parties take their parts from now on. What their records take of the spill area besides the contents of
FILLING slots is free: the spec gives records no size (R430, assumption 42). -/
def State.openWave (s : State) (r : Nat) : State :=
  let n := (Config.freeWord s.fresh).toNat
  State.modRegion { s with fresh := s.fresh + 1 } r (fun g => { g with
    inFlight := true, wanted := false, parted := [], moved := 0, takeSpill := n,
    taking := some { Snapshot.empty (g.wave + 1) with owners := g.owners, queues := s.ringStates g } })

/-- POOLBASE of an M-cell (R301). -/
def Cell.poolBase (c : Cell) : Nat := (0x380000 - 65536 * c.snapu) - 4096 * c.pool.granules

/-- Where the bytes of a granule are held: in the pool, or beyond the scratchpad's offsets for a spill granule (R301, R448). -/
def Cell.slotBase (c : Cell) (g : Nat) : Nat := if g < 768 then c.poolBase + 4096 * g else 0x400000 + 4096 * (g - 768)

/-- A pool recorded at the start of its part, with the contents of its FILLING slots (R430). -/
def State.recordPool (s : State) (c : Nat) (k : Snapshot) : Snapshot :=
  let p := (s.cellAt c).pool
  let fill := (p.slots.filter (fun t => decide (t.state = .filling))).map (fun t =>
    let a := (s.cellAt c).slotBase t.first
    (c, (a, ((s.cellAt c).sram.read a (4096 * t.n), (unitsOf a (4096 * t.n)).map (s.cellAt c).sram.poisoned))))
  { k with pools := insertAt c p k.pools, filling := k.filling ++ fill }

/-- A task unit recorded at the start of its part (R430). -/
def State.recordBay (s : State) (b : Nat) (k : Snapshot) : Snapshot :=
  { k with bays := insertAt b ((s.bayAt b).events, (s.bayAt b).store) k.bays }

/-- What a hart's part starts: its bay's and its pool's parts. -/
def State.recordBegins (s : State) (h : Nat) (k : Snapshot) : Snapshot :=
  let b := bayOf (cellOf h)
  let k := if (lookup b k.bays).isNone then s.recordBay b k else k
  if isStreamer h && (lookup (poolCell h) k.pools).isNone then s.recordPool (poolCell h) k else k

/-- What a party records besides its ties (R430). -/
def State.recordParty (s : State) (p : Nat) (k : Snapshot) : Snapshot :=
  if p < 32768 then
    if p % 8 = 7 then
      let c := p / 8
      let swapped := ((s.regionOfCell c).bind s.region?).any (fun g => g.swapped.contains c)
      { k with
          switches := insertAt c (s.cellAt c).sw k.switches, cfgids := insertAt c ((s.cellAt c).cfgid + 256 * b2n swapped) k.cfgids,
          scales := insertAt c (s.cellAt c).scaleAt k.scales }
    else
      let k := s.recordBegins p k
      if isStreamer p then { k with slots := insertAt p (s.hartAt p).slots k.slots } else k
  else if p < 65536 then { k with nodes := insertAt (p - 32768) (s.cellAt (p - 32768)).mxe.node k.nodes }
  else if p < 131072 then (if (lookup (p - 65536) k.bays).isNone then s.recordBay (p - 65536) k else k)
  else if (lookup (p - 131072) k.pools).isNone then s.recordPool (p - 131072) k else k

/-- The first two ports of a cell's rate table whose counts do not balance (R427, R437). -/
def Cell.imbalance (c : Cell) : Option (Nat × Nat) :=
  let es := c.cfg.rate.filter (fun e => bits e 31 16 ≠ 0)
  let cnt := fun (e : Nat) => lookupD 0 (bits e 5 0) c.counts
  (es.flatMap (fun p => es.map (fun q => (p, q)))).findSome? (fun pq =>
    if cnt pq.1 * bits pq.2 31 16 = cnt pq.2 * bits pq.1 31 16 then none else some (bits pq.1 5 0, bits pq.2 5 0))

/-- The balance check of a cell as its switch takes its part (R437). -/
def State.checkBalance (s : State) (r c : Nat) : State :=
  match (s.cellAt c).imbalance with
  | none => s.modCell c (fun x => { x with counts := [] })
  | some pq =>
    if ((s.region? r).bind Region.imbalance) = some (c, pq) then s.cause r 0x42
    else (s.modRegion r (fun g => { g with imbalance := some (c, pq) })).cause r 0x41

/-- The outputs of a streamer that are configured inputs of no party: the channels of its local switch port that no word of the
program and no queue map names (R261, R430). -/
def looseOutputs (ts : List Tie) (p : Nat) : List Tie :=
  if isStreamer p then
    ((List.range 2).map (fun n => Tie.buf (cellOf p) (64 + 8 * (if isC (cellOf p) then slotOf p else 0) + n))).filter (fun t => !ts.contains t)
  else []

/-- The tile registers that are endpoints in use of the streams of a hart (R250, R261). -/
def Hart.tileEndpoints (x : Hart) : List Nat :=
  x.slots.toList.filterMap (fun k => match k.state, k.cmd with
    | .active, some m => if 16 ≤ m.ep then some (m.ep - 16) else none
    | _, _ => none)

/-- KERFs on the outputs of a streamer besides its configured ones: nothing waits for them (R261). -/
def State.pushLooseKerfs (s : State) (ts : List Tie) (w p : Nat) : State :=
  let s := (looseOutputs ts p).foldl (fun s t => s.pushKerf w p t) s
  if isStreamer p then
    s.modCell (cellOf p) (fun c => { c with mxe := { c.mxe with
      kerfs := (s.hartAt p).tileEndpoints.foldl (fun l t => insertNat t l) c.mxe.kerfs } })
  else s

/-- A party takes its part of the wave in flight (R430): it records, and it pushes one KERF on every tie it puts things
into, a streamer also on the outputs that no party takes from (R261). -/
def State.takePart (s : State) (r p : Nat) : State :=
  match s.region? r with
  | none => s
  | some g =>
    let ts := s.ties g
    let w := g.wave + 1
    let rec' := (s.inputsOf ts p ++ channels p).foldl (fun k t => s.recordTie t k)
    let k := (g.taking.map (fun k => rec' (s.recordParty p k)))
    let more := (k.map s.pastHalves).getD 0 - (g.taking.map s.pastHalves).getD 0
    let s := s.modRegion r (fun g => { g with parted := insertNat p g.parted, taking := k, takeSpill := g.takeSpill + more })
    let s := (ts.filter (fun t => (s.tieProducers t).contains p)).foldl (fun s t => s.pushKerf w p t) s
    let s := s.pushLooseKerfs ts w p
    if p < 32768 && p % 8 = 7 then s.checkBalance r (p / 8) else s
where
  /-- The channel inputs of a switch: what stands at one from a cell that is no party any more is recorded too. -/
  channels (p : Nat) : List Tie := if p < 32768 && p % 8 = 7 then (List.range 8).map (fun i => Tie.buf (p / 8) i) else []

/-- Whether a hart owes its part of the wave in flight, so that it starts no task before it (R430): it is at a task
boundary, and a KERF stands at one of its inputs or it has none. -/
def State.owesPart (s : State) (r h : Nat) : Bool :=
  match s.region? r with
  | some g =>
    g.inFlight && !g.parted.contains h && s.configured (cellOf h) &&
      (let ins := s.inputsOf (s.cellTies g (cellOf h)) h
       (ins.isEmpty || ins.any s.kerfAtHead))
  | none => false

/-- Whether a streamer has no configured input (R430). -/
def State.isSource (s : State) (h : Nat) : Bool :=
  isStreamer h &&
    match s.regionOfCell (cellOf h) with
    | some r => ((s.region? r).map (fun g => (s.inputsOf (s.cellTies g (cellOf h)) h).isEmpty)).getD false
    | none => false

/-- The outermost count of an image in elements: the elements of one iteration of its outermost level (R239, R263). -/
def outerStep (image : List Word) : Nat :=
  let levels := bits ((image.getD 0 0#64).toNat) 4 2
  ((List.range (levels - 1)).map (fun k => bits ((image.getD (2 + k) 0#64).toNat) 63 40 + 1)).foldl (· * ·) 1

/-- Whether a whole flit of finished elements of a LOAD still waits for its switch port: the element before which a KERF would stand is
not the one the stream stands at (R253, R263). -/
def Slot.flitDue (k : Slot) : Bool := k.cmd.any (fun m => decide (m.op ≠ 2)) && decide (32 ≤ k.part.length)

/-- Whether a running stream stands at an injection point (R430): with SEG = 1 before its SOT and after its EOT, else
between two iterations of its outermost level, with every whole flit of the elements before it emitted (R263). -/
def Slot.atInjection (k : Slot) : Bool :=
  let seg := bits ((k.image.getD 0 0#64).toNat) 12 12 = 1
  if k.flitDue then false
  else if seg then decide (k.segPhase = 0) || decide (k.segPhase = 3) else decide (k.elem % outerStep k.image = 0)

/-- Whether a stream of a source streamer stops because its part of the wave in flight is due (R430). -/
def State.stopsHere (s : State) (h : Nat) (k : Slot) : Bool :=
  match s.regionOfCell (cellOf h) with
  | some r => ((s.region? r).map (fun g => g.inFlight && !g.parted.contains h)).getD false && k.atInjection && s.isSource h
  | none => false

/-- The ownership table changed by a party; the recorded state takes the change too while the party has not taken its part
(R382, R430). -/
def State.modOwners (s : State) (r party : Nat) (f : List (Nat × (Nat × (Nat × Option Nat))) → List (Nat × (Nat × (Nat × Option Nat)))) :
    State :=
  let s := s.modRegion r (fun g => { g with owners := f g.owners })
  if s.taken r party then s else s.modTaking r (fun k => { k with owners := f k.owners })

/-- An event of a bay set by a hart or the host (R384, R430): by one who has not taken its part, the recorded state takes it
too while the task unit's part is open. -/
def State.setEvents (s : State) (b : Nat) (m : BitVec 256) (h : Option Nat) : State :=
  let s := s.modBay b (fun x => { x with sets := x.sets ||| m })
  match s.regionOfBay b with
  | none => s
  | some r =>
    match s.region? r with
    | none => s
    | some g =>
      if g.inFlight && !g.parted.contains (65536 + b) && !(h.any g.parted.contains) then
        s.modTaking r (fun k => { k with bays := k.bays.map (fun p => if p.1 = b then (b, (p.2.1 ||| m, p.2.2)) else p) })
      else s

end Sys2Proof.Machine
end

