-- ==== Sys2Proof/Machine/Journal.lean ====
section
/-! DEFINITION. What Haltin keeps: the clock of the device, the journal of a function, the end of a command, completion
updates, and the end of a KILL (R320, R366, R405, R412, R458-R463). -/

namespace Sys2Proof.Machine

/-! Journal entries (R458-R460). -/

/-- DTIME: nanoseconds since cold reset, at 1.4 GHz (R403, R472; assumption 41). -/
def State.dtime (s : State) : Nat := (s.clk * 5 + 6) / 7

/-- An entry of a journal. -/
def State.entry? (s : State) (fn seq : Nat) : Option JEntry := lookup seq (s.fnAt fn).journal

/-- An entry of a journal changed; nothing where there is none. -/
def State.modEntry (s : State) (fn seq : Nat) (f : JEntry → JEntry) : State :=
  match s.entry? fn seq with
  | some e => s.modFn fn (fun x => { x with journal := insertAt seq (f e) x.journal })
  | none => s

/-- Whether an entry has ended: completed, failed, or refused after it was accepted (R458, R460). -/
def JEntry.ended (e : JEntry) : Bool := decide (3 ≤ e.state)

/-- A command ends in a state with a result (R459). -/
def State.endCommand (s : State) (fn seq state : Nat) (result : Word) : State :=
  s.modEntry fn seq (fun e => { e with state := state, result := result, tend := s.dtime })

/-- A command is completed. -/
def State.complete (s : State) (fn seq : Nat) (result : Word) : State := s.endCommand fn seq 3 result

/-- A command has failed with a cause (R473). -/
def State.failed (s : State) (fn seq cause : Nat) : State := s.endCommand fn seq 4 (BitVec.ofNat 64 cause)

/-- A command is refused after it was accepted (R462). -/
def State.refuse (s : State) (fn seq : Nat) : State := s.endCommand fn seq 5 0#64

/-- JDONE: the highest number up to which every entry has ended (R460). The second argument counts down from JACC. -/
def Fn.doneFrom (f : Fn) : Nat → Nat → Nat
  | 0, n => n
  | k + 1, n =>
    match lookup (n + 1) f.journal with
    | some e => if e.ended then f.doneFrom k (n + 1) else n
    | none => n

/-- JDONE of a function. Entries that the journal has no room for any more have ended (R455). -/
def Fn.jdone (f : Fn) : Nat := f.doneFrom 65536 (f.jacc - 65536)

/-- The end of a SPAWN whose task has ended: the region's poison summary and kill count with the cause of a fatal end; the summary is
cleared (R214, R423, R457). -/
def State.endSpawn (s : State) (r : Nat) (e : Nat × (Nat × (Nat × Word))) : State :=
  let g := (s.region? r).getD Region.reset
  (s.complete e.2.1 e.2.2.1 (e.2.2.2 ||| BitVec.ofNat 64 (g.pois.toNat + g.killed * 2 ^ 16))).modRegion r
    (fun g => { g with pois := 0#5 })

/-! Completion updates (R412, R413). -/

/-- A dword of memory as the writes of a commit buffer, from one on to the oldest, leave it. -/
def dwordUnder (m : Mem) (ws : List CWrite) (pa : Nat) : Nat :=
  leNat ((List.range 8).map (fun i => (ws.findSome? (fun w => w.byteAt (pa + i))).getD (m.byte (pa + i))))

/-- The uncommitted writes of a dword, each changed as an atomic that precedes it in memory would have it. -/
def patchWrites (m : Mem) (pa : Nat) (f : Nat → Nat) : List CWrite → List CWrite
  | [] => []
  | w :: rest =>
    let bs := natBytes 8 (f (dwordUnder m (w :: rest) pa))
    { w with bytes := (List.range w.bytes.length).map (fun i =>
        if pa ≤ w.pa + i ∧ w.pa + i < pa + 8 then (w.byteAt (w.pa + i)).map (fun _ => bs.getD (w.pa + i - pa) 0#8) else w.byteAt (w.pa + i)) } ::
      patchWrites m pa f rest

/-- An atomic change of a dword in memory at device scope; the uncommitted writes of the dword keep it in their values
(R413, R432; assumption 35), and a poisoned dword stays poisoned (R207, R211). -/
def State.atomicAt (s : State) (pa : Nat) (f : Nat → Nat) : State :=
  { s with
    mem := s.mem.write pa (natBytes 8 (f (leNat (s.mem.read pa 8)))) (s.mem.anyPoison pa 8),
    regions := s.regions.map (fun p => (p.1, { p.2 with commit := patchWrites s.mem pa f p.2.commit })) }

/-- The completion update of an operation (R412); nothing without an object, or where the object's page is gone. -/
def State.signal (s : State) (c : Completion) : State :=
  if c.obj = 0 then s
  else
    match s.translateNow 0 c.ctx c.obj true true false with
    | .hit pa _ =>
      let s := s.atomicAt pa (fun v => (v + 2 ^ 64 - 1) % 2 ^ 64)
      let s := s.atomicAt (pa + 8) (fun v => v ||| c.status ||| 1)
      s.atomicAt (pa + 16) (fun v => if v = 0 then c.fva else v)
    | _ => s

/-- The completion updates of a region that are due: their intervals have committed and no peer's acknowledgement is awaited
(R413, R421). -/
def State.signalDue (s : State) (r : Nat) : State :=
  match s.region? r with
  | none => s
  | some g =>
    let due := fun (u : Completion) => decide (u.interval ≤ g.wave) && u.acks.isEmpty
    let s := s.modRegion r (fun g => { g with updates := g.updates.filter (fun u => !due u) })
    (g.updates.filter due).foldl (fun s u => (if u.obj = 0 then s else s.noteWalk r 0 u.ctx u.obj 1).signal u) s

/-! The end of a KILL (R320, R366, R405, R462, R463). -/

/-- Bytes of a memory set to 0, with their poison. -/
def Mem.clear (m : Mem) (a n : Nat) : Mem :=
  { bytes := m.bytes.filter (fun c => !(decide (a ≤ c.1) && decide (c.1 < a + n)))
    poison := m.poison.filter (fun u => !(decide (a ≤ 8 * u) && decide (8 * u < a + n))) }

/-- A page zeroed as it becomes free (R463). -/
def State.zeroPage (s : State) (p : Page) : State := { s with mem := s.mem.clear p.pa p.size }

/-- The cell of an M-cell without the partitions of a context (R320, R366). -/
def Cell.release (c : Cell) (ctx : Nat) : Cell :=
  let mine := c.pool.parts.filter (fun p => p.2.ctx = ctx)
  let p := (c.pool.slots.filter (fun t => mine.any (fun q => q.1 = t.part))).foldl Pool.free c.pool
  { c with
    pool := { p with
      parts := p.parts.filter (fun q => q.2.ctx ≠ ctx)
      queues := p.queues.filter (fun q => !mine.any (fun m => m.1 = q.1)) }
    tlb := c.tlb.filter (fun e => e.ctx ≠ ctx)
    walks := c.walks.filter (fun w => w.1 ≠ ctx)
    walkFaults := c.walkFaults.filter (fun w => w.1 ≠ ctx) }

/-- A SPAWN whose record is discarded is refused after it was accepted (R405, R462). -/
def State.discardSpawn (s : State) (h : Option (Nat × Nat)) : State :=
  match h with
  | some (fn, seq) => if (s.entry? fn seq).any (fun e => !e.ended) then s.refuse fn seq else s
  | none => s

/-- A cell as a region that ends leaves it: no configuration, nothing in a tie, its pool and its memories as they stand (R405,
R442). -/
def Cell.vacate (c : Cell) : Cell :=
  { Cell.reset with
    sram := c.sram, pool := c.pool, snapu := c.snapu, cecnt := c.cecnt, tlb := c.tlb, walkFaults := c.walkFaults, walks := c.walks,
    mxe := { Mxe.reset with tshp := c.mxe.tshp } }

/-- The SPAWN whose record a packet from Haltin carries (R457): function and sequence number. -/
def Packet.spawnOf (p : Packet) : Option (Nat × Nat) := if p.src = 24 then some (p.xid % 32, p.xid / 32) else none

/-- The task records that travel to the bays of a region are discarded (R405). -/
def State.dropTravelling (s : State) (g : Region) : State :=
  let mine := fun (p : Packet) => decide (p.type = 5) && decide (p.ctx = g.ctx) && g.hasBay (bayOf p.dst)
  (s.net.filter mine).foldl (fun s p => s.discardSpawn p.spawnOf) { s with net := s.net.filter (fun p => !mine p) }

/-- The task records of a region in the stores of its bays leave, and with them what their SPAWNs wait for (R405). -/
def State.dropRecords (s : State) (r : Nat) (g : Region) : State :=
  let rs := s.bays.flatMap (fun b => if g.hasBay b.1 then b.2.store.filter (fun k => k.region = r) else [])
  let s := s.mapBays g (fun _ b => { b with
    store := b.store.filter (fun k => k.region ≠ r), ready := Vector.replicate 4 [], inbox := [], run := none, extra := 0, extraMsgs := 0 })
  rs.foldl (fun s k => s.discardSpawn k.fromHost) s

/-- The commands of a context that have not ended when its KILL does: the KILLs are completed, the others refused (R462). -/
def State.endCommands (s : State) (ctx : Nat) : State :=
  s.fns.foldl (fun s f => f.2.journal.foldl (fun s e =>
    if e.2.ctx = ctx && !e.2.ended then (if e.2.op = 9 then s.complete f.1 e.1 0#64 else s.refuse f.1 e.1) else s) s) s

/-- A function-level reset of a virtual function is complete once no context of it is open: its journal, its refusal log and their counters
are cleared (R470). -/
def State.settleReset (s : State) : State :=
  { s with fns := s.fns.map (fun f =>
      if f.2.resetting && !s.ctxs.any (fun c => c.2.fn = f.1) then (f.1, { Fn.reset with rect := f.2.rect, inboxdrop := f.2.inboxdrop, inboxerr := f.2.inboxerr }) else f) }

/-- The end of a KILL, once every unit has acknowledged its PURGE (R462). A context opened later under the same ID is another
context, so no hart keeps registers for it (R120, assumption 46). -/
def State.finishKill (s : State) (ctx : Nat) : State :=
  let mine := s.regions.filter (fun p => p.2.ctx = ctx)
  let s : State := { s with cells := s.cells.map (fun c => (c.1, c.2.release ctx)) }
  let s := mine.foldl (fun s p =>
    let s := if p.2.holds then s.mapCells p.2 (fun _ c => c.vacate) else s
    (p.2.spawnEnds.foldl (fun s e => s.endSpawn p.1 e) ((s.dropRecords p.1 p.2).dropTravelling p.2))) s
  let s := s.endCommands ctx
  let s := (s.pages.filter (fun p => p.ctx = ctx)).foldl State.zeroPage s
  let s : State := { s with
    harts := s.harts.map (fun h => (h.1, { h.2 with lastCtx := if h.2.lastCtx = some ctx then none else h.2.lastCtx }))
    pages := s.pages.filter (fun p => p.ctx ≠ ctx)
    regions := s.regions.filter (fun p => p.2.ctx ≠ ctx)
    requests := s.requests.filter (fun q => !mine.any (fun p => p.1 = q.region))
    ctxs := removeAt ctx s.ctxs }
  s.settleReset

end Sys2Proof.Machine
end

