-- ==== Sys2Proof/Machine/Tasks.lean ====
section
/-! DEFINITION. Groups and exchange, tasks and events, messages to engines, and the task unit of a bay (R189-R194, R230, R231,
R383-R401, R405, R409-R411, R414). -/

namespace Sys2Proof.Machine

/-! Groups (R189-R194). -/

/-- A group of the running hart's region. -/
def State.group (s : State) (g : Nat) : Option Group := lookup g s.myRegion.groups

/-- The groups of the running hart's region with one replaced. -/
def State.setGroup (s : State) (g : Nat) (x : Group) : State :=
  s.modRegion s.hart.regionId (fun r => { r with groups := insertAt g x r.groups })

/-- A group without members or verdicts is free. -/
def State.tidyGroup (s : State) (g : Nat) : State :=
  s.modRegion s.hart.regionId (fun r => match lookup g r.groups with
    | some x => if x.unused then { r with groups := removeAt g r.groups } else r
    | none => r)

/-- Whether the running hart is in a group (R189). -/
def Hart.inGroup (h : Hart) : Bool := h.gid.getLsbD 31

/-- GID.GROUP (R189). -/
def Hart.groupId (h : Hart) : Nat := h.gid.toNat % 64

/-- GID.RANK (R189). -/
def Hart.rank (h : Hart) : Nat := bits h.gid.toNat 23 16

/-- GID of a member: rank, size, group (R189, R190). -/
def gidOf (rank size g : Nat) : Word := BitVec.ofNat 64 (2 ^ 31 + rank * 2 ^ 16 + (size - 1) * 2 ^ 8 + g)

/-- The state in which the running hart's instruction has arrived. -/
def State.arrive (s : State) : State := s.modHart (fun h => { h with stage := .arrived })

/-- A group nobody has joined. -/
def Group.fresh (n : Nat) : Group := ⟨n, [], false, [], [], [], false, []⟩

/-- The running hart is a member of a complete group, of rank by hart ID (R190). -/
def State.joined (s : State) (g : Nat) (x : Group) : State :=
  s.modHart (fun h => { h with gid := gidOf (indexOfNat s.cur x.members) x.size g })

/-- A member that waits in JOIN leaves it as the group is complete: its GID is set and it retires, or, while its token has no room,
it keeps the end of its JOIN as a verdict (R32, R190). -/
def State.passJoin (g : Nat) (x : Group) (s : State) (h : Nat) : State :=
  let t := (s.as h).joined g x
  let u := match t.pushS ⟨false, t.hart.sBit⟩ with
    | some u => u.retire (u.hart.pc + 4#64)
    | none => t.setGroup g { (t.group g).getD x with verdicts := ((t.group g).getD x).verdicts ++ [(h, (0, []))] }
  { u with cur := s.cur }

/-- A group is complete: it stands in the table, and the members that wait in JOIN leave it in the same clk (R190). -/
def State.completeJoin (s : State) (g : Nat) (x : Group) : State :=
  let x := { x with complete := true }
  (x.members.filter (· ≠ s.cur)).foldl (State.passJoin g x) ((s.setGroup g x).joined g x)

/-- The running hart takes its verdict of a group instance. -/
def State.takeVerdict (s : State) (g : Nat) : Option ((Nat × List (Nat × (Nat × VVal))) × State) :=
  match s.group g with
  | some k =>
    match lookup s.cur k.verdicts with
    | some v =>
      some (v, (s.setGroup g { k with verdicts := k.verdicts.filter (fun p => p.1 ≠ s.cur) }).tidyGroup g)
    | none => none
  | none => none

/-- The end of a group instance in which the running hart has waited, or what holds until it ends. -/
def atVerdict (g : Nat) (k : Nat × List (Nat × (Nat × VVal)) → State → Act) (pending : Act) (s : State) : Act :=
  if s.hart.stage = .arrived then
    match s.takeVerdict g with
    | some (v, t) => k v t
    | none => pending
  else pending

/-- join (R190, R439). -/
def joinOp (tk : Tok) (a b : Reg) (s : State) : Act :=
  srcU s a fun x s => srcU s b fun y s =>
    let s := s.note (x.poison || y.poison) 4
    let g := x.val.toNat
    let n := y.val.toNat
    atVerdict g (fun _ t => .done t)
    (if s.draining then .done (s.modRegion s.hart.regionId (fun r => r.forget s.cur))
    else if s.hart.stage = .arrived then .wait .group id
    else if 63 < g || n = 0 || 256 < n then .trap 0x0F 1#64
    else if s.hart.inGroup then .trap 0x0F 2#64
    else
      let k := (s.group g).getD (Group.fresh n)
      if k.size ≠ n || k.complete then .trap 0x0F 3#64
      else
        let k := { k with members := insertNat s.cur k.members }
        if k.members.length = n then .done (s.completeJoin g k)
        else .wait .group (fun s => (s.setGroup g k).arrive.modHart (fun h => { h with sBit := tk.s }))) s

/-- leave (R191). -/
def leaveOp (a : Reg) (s : State) : Act :=
  srcU s a fun x s =>
    let s := s.note x.poison 4
    if !s.hart.inGroup || x.val.toNat ≠ s.hart.groupId then .trap 0x0F 4#64
    else
      .done ((s.modRegion s.hart.regionId (fun r => r.leaveGroup s.cur x.val.toNat false)).modHart
        (fun h => { h with gid := 0#64 }))

/-- gbar (R192, R194, R210, R439). -/
def gbarOp (a : Reg) (s : State) : Act :=
  released true (fun s =>
    srcU s a fun x s =>
      let s := s.note x.poison 4
      let g := x.val.toNat
      atVerdict g (fun v t => .done (t.acquired.status (decide (v.1 ≠ 0))))
      (if s.draining then .done ((s.modRegion s.hart.regionId (fun r => r.forget s.cur)).status true)
      else if s.hart.stage = .arrived then .wait .group id
      else if !s.hart.inGroup || g ≠ s.hart.groupId then .trap 0x0F 4#64
      else
        match s.group g with
        | none => .trap 0x0F 4#64
        | some k =>
          let k := k.arriveBar s.cur
          match lookup s.cur k.verdicts with
          | some _ => .done ((s.setGroup g { k with verdicts := k.verdicts.filter (fun p => p.1 ≠ s.cur) }).acquired.status false)
          | none => .wait .group (fun s => (s.setGroup g k).arrive)) s) s

/-- A chunk size that VEXCH takes in a group of n (R193). -/
def chunkOk (c n : Nat) : Bool := [1, 2, 4, 8, 16, 32, 64].contains c && decide (n * c ≤ 64)

/-- A VEXCH that every member has reached gives its verdicts: the members' values, or trap reason 5 when the chunk sizes
differ (R193). -/
def Group.settleExch (g : Group) : Group :=
  if !g.atExch.isEmpty && g.members.all (fun m => g.atExch.any (fun p => p.1 = m)) then
    let c0 := (g.atExch.head?.map (fun p => p.2.1)).getD 0
    let code := if g.atExch.all (fun p => p.2.1 = c0) then 0 else 5
    { g with verdicts := g.verdicts ++ g.atExch.map (fun p => (p.1, (code, g.atExch))), atExch := [] }
  else g

/-- The lanes that VEXCH gives the member of rank r (R193): lane j·c + i is lane r·c + i of member j. -/
def exchanged (data : List (Nat × (Nat × VVal))) (c n r : Nat) (old : VVal) (keep : Bool) : VVal :=
  let src := fun (j : Nat) => ((data[j]?).map (fun p => p.2.2)).getD VVal.zero18
  updateLanes old keep (fun k =>
    if k < n * c then
      let v := src (k / c)
      let l := r * c + k % c
      some ⟨(v.lane l).bits, (v.lane l).tag, v.poisonOf l⟩
    else none)

/-- The end of a VEXCH with its verdict (R193, R194). -/
def vexchEnd (d : Reg) (c : Nat) (v : Nat × List (Nat × (Nat × VVal))) (s : State) : Act :=
  if v.1 = 0 then
    let data := sortBy (fun p => p.1) v.2
    dstV (s.status false) d (exchanged data c data.length s.hart.rank)
  else if v.1 = 1 then .done (s.status true)
  else .trap 0x0F (BitVec.ofNat 64 v.1)

/-- The running hart's verdict of a group is taken; the group is free once nothing is left of it. -/
def State.dropVerdict (g : Nat) (s : State) : State := ((s.takeVerdict g).map (fun p => p.2)).getD s

/-- What a body does once its destination has room, from the state in which that is taken (R48). -/
def Act.roomed (a : Act) (k : State → Act) : Act :=
  match a with
  | .done t => k t
  | a => a

/-- vexch (R193, R194, R439): it issues once its destination has room, which it reserves until every member has arrived (R48); a
trap leaves the verdicts standing that its arrival gave the others. -/
def vexchOp (d a b : Reg) (s : State) : Act :=
  guardMap [(s.badSrcV a, a), (s.badDstV d, d)]
    (srcV s a fun v t => srcU t b fun y t =>
      let c := y.val.toNat
      let g := s.hart.groupId
      atVerdict g (fun r u => (vexchEnd d c r u).noting (State.dropVerdict g))
      (if t.draining then .done ((t.modRegion t.hart.regionId (fun r => r.forget t.cur)).status true)
      else if s.hart.stage = .arrived then .wait .group id
      else if !s.hart.inGroup then .trap 0x0F 4#64
      else
        match s.group g with
        | none => .trap 0x0F 4#64
        | some k =>
          if k.left then .trap 0x0F 6#64
          else if !chunkOk c k.size then .trap 0x0F 5#64
          else
            let k := Group.settleExch { k with atExch := k.atExch ++ [(s.cur, (c, v))] }
            match lookup s.cur k.verdicts with
            | some r =>
              let own := { k with verdicts := k.verdicts.filter (fun p => p.1 ≠ s.cur) }
              (vexchEnd d c r (t.setGroup g own)).noting (fun u => u.setGroup g own)
            | none => (dstV t d (fun _ _ => VVal.zero18)).roomed (fun room =>
                .wait .group (fun s => ((s.hold room).setGroup g k).arrive))) t)

/-- JOIN (R190). -/
def execJoin (tk : Tok) (a b : Reg) (s : State) : Out := runHart (.join tk a b) tk s (joinOp tk a b)

/-- LEAVE (R191). -/
def execLeave (tk : Tok) (a : Reg) (s : State) : Out := runHart (.leave tk a) tk s (leaveOp a)

/-- GBAR (R192). -/
def execGbar (tk : Tok) (a : Reg) (s : State) : Out := runHart (.gbar tk a) tk s (gbarOp a)

/-- VEXCH (R193). -/
def execVexch (tk : Tok) (d a b : Reg) (s : State) : Out := runHart (.vexch tk d a b) tk s (vexchOp d a b)

/-- gkill (R230, R231): legal in a handler only. One that names a group which another gkill has ended in the same clk has that one's
effect. -/
def gkillOp (word : Word) (tk : Tok) (len : Nat) (a : Reg) (s : State) : Act :=
  if !s.hart.hnd then .trap 0x04 word
  else
    drainStores (fun s =>
      srcU s a fun x s =>
        let s := s.note x.poison 4
        match (if x.val.toNat ≤ 63 then s.group x.val.toNat else none) with
        | none => .done (s.status (!s.myRegion.killedNow.contains x.val.toNat))
        | some g =>
          let r := s.hart.regionId
          let cause := s.hart.tcause.toNat % 128
          let free := fun (s : State) => s.modRegion r (fun q => { q with
            groups := removeAt x.val.toNat q.groups, killedNow := insertNat x.val.toNat q.killedNow })
          if g.members.contains s.cur then
            match s.pushS tk with
            | none => .wait (.full (16 + s.hart.ssel)) id
            | some t =>
              let t := t.retire (t.hart.pc + BitVec.ofNat 64 len)
              .ended (free (g.members.foldl (fun t m => t.endMember m (some (if m = s.cur then cause else 0))) t))
          else .done (free (g.members.foldl (fun t m => t.endMember m (some 0)) (s.status false)))) s

/-- GKILL (R230). -/
def execGkill (tk : Tok) (a : Reg) (s : State) : Out :=
  runHart (.gkill tk a) tk s (gkillOp (instrWord (.gkill tk a)) tk 4 a)

/-! Events (R384, R399, R400). -/

/-- The bay of the running hart. -/
def State.myBay (s : State) : Nat := bayOf (cellOf s.cur)

/-- The set of one event bit. -/
def eventBit (n : BitVec 8) : BitVec 256 := 1#256 <<< n.toNat

/-- EVSET (R399, R439). -/
def execEvset (tk : Tok) (n : BitVec 8) (s : State) : Out :=
  runHart (.evset tk n) tk s (released true (fun s =>
    if s.draining then .done s else .done (s.setEvents s.myBay (eventBit n) (some s.cur))))

/-- EVCLR (R399). -/
def execEvclr (tk : Tok) (n : BitVec 8) (s : State) : Out :=
  runHart (.evclr tk n) tk s (fun s => .done (s.modBay s.myBay (fun b => { b with clrs := b.clrs ||| eventBit n })))

/-- WFE (R400, R439). -/
def execWfe (tk : Tok) (n : BitVec 8) (s : State) : Out :=
  runHart (.wfe tk n) tk s (fun s =>
    if s.draining then .done s
    else if (s.bayAt s.myBay).events.getLsbD n.toNat then .done s.acquired
    else .wait .event id)

/-! The end of a task (R398). -/

/-- texit: in a streamer it waits for the slots (R264) and for room for an EOS of a ring whose last counted producer it ends (R296);
a member leaves its group; the set mask and the token take effect as it retires (R398, R439). -/
def texitOp (tk : Tok) (len : Nat) (s : State) : Act :=
  released true (fun s =>
    if isStreamer s.cur && !(List.range 8).all (fun k => (s.hart.slot k).state.atRest) then .wait .slot id
    else
      let s := if isStreamer s.cur && !s.draining then s.leaveRings s.cur else s
      match s.eosWaits s.cur, s.pushS tk with
      | code :: _, _ => .wait (.full code) (fun s => s.leaveRings s.cur)
      | [], none => .wait (.full (16 + s.hart.ssel)) (fun s => if isStreamer s.cur then s.leaveRings s.cur else s)
      | [], some t =>
        let r := t.hart.regionId
        let t := if t.hart.inGroup then
            (t.modRegion r (fun q => q.leaveGroup t.cur t.hart.groupId false)).modHart (fun h => { h with gid := 0#64 })
          else t
        let t := match t.hart.task with
          | some k => if t.draining then t else t.setEvents t.myBay k.setMask (some t.cur)
          | none => t
        .ended ((t.retire (t.hart.pc + BitVec.ofNat 64 len)).endTask t.cur none)) s

/-- TEXIT (R398). -/
def execTexit (tk : Tok) (s : State) : Out := runHart (.texit tk) tk s (texitOp tk 4)

/-- C_TEXIT (R65, R398). -/
def execCTexit (s : State) : Out := runHart .cTexit noTok s (texitOp noTok 2)

/-! Task records (R385-R387, R397). -/

/-- Dword k of bytes. -/
def dwordOf (bs : List Byte) (k : Nat) : Nat := dwordAt bs (8 * k)

/-- Whether dword 1 gives the short form (R385). -/
def shortForm (d1 : Nat) : Bool := decide (bits d1 4 4 = 1)

/-- The class bit of a hart slot of a cell (R385). -/
def classBit (cell slot : Nat) : Nat := if isC cell then slot else 7

/-- The hart slots of a cell that a record can name, ascending (R385). -/
def taskSlots (cell : Nat) : List Nat := if isC cell then [0, 1, 2, 3, 4, 5, 6] else [0]

/-- The harts of a bay that CELLS and CLASS match, ascending hart IDs (R385). -/
def matching (b : Nat) (cells : BitVec 16) (classes : Byte) : List Nat :=
  sortBy id ((cellsOfBay b).zipIdx.flatMap (fun p =>
    if cells.getLsbD p.2 then
      ((taskSlots p.1).filter (fun k => classes.getLsbD (classBit p.1 k))).map (fun k => 8 * p.1 + k)
    else []))

/-- The first malformed dword of a record for a bay (R386). -/
def recordBad (b : Nat) (bs : List Byte) : Option Nat :=
  let d0 := dwordOf bs 0
  let d1 := dwordOf bs 1
  let cells : BitVec 16 := BitVec.ofNat 16 (bits d1 55 40)
  let classes : Byte := BitVec.ofNat 8 (bits d1 39 32)
  if bits d0 63 52 ≠ 0 || bits d0 0 0 ≠ 0 then some 0
  else if bits d1 31 5 ≠ 0 || bits d1 2 2 ≠ 0 || cells = 0#16 || classes = 0#8 || (matching b cells classes).isEmpty then
    some 1
  else if shortForm d1 then none
  else if dwordOf bs 14 ≠ 0 then some 14
  else if dwordOf bs 15 ≠ 0 then some 15
  else none

/-- The 256-bit mask that dwords k up to k + 3 of bytes hold. -/
def maskAt (bs : List Byte) (k : Nat) : BitVec 256 :=
  BitVec.ofNat 256 (dwordOf bs k + 2 ^ 64 * dwordOf bs (k + 1) + 2 ^ 128 * dwordOf bs (k + 2) + 2 ^ 192 * dwordOf bs (k + 3))

/-- The record that bytes hold (R385), with the poison of its argument dwords. -/
def parseRecord (id ctx region interval : Nat) (host : Option (Nat × Nat)) (bs : List Byte) (ps : List Bool) : Record :=
  let d1 := dwordOf bs 1
  let sh := shortForm d1
  let a0 := if sh then 4 else 10
  ⟨id, ctx, region, BitVec.ofNat 64 (dwordOf bs 0), bits d1 63 56, BitVec.ofNat 16 (bits d1 55 40),
    BitVec.ofNat 8 (bits d1 39 32), decide (bits d1 3 3 = 1), bits d1 1 0,
    if sh then BitVec.ofNat 256 (dwordOf bs 2) else maskAt bs 2,
    if sh then BitVec.ofNat 256 (dwordOf bs 3) else maskAt bs 6,
    (List.range 4).map (fun k => BitVec.ofNat 64 (dwordOf bs (a0 + k))),
    (List.range 4).map (fun k => ps.getD (a0 + k) false), host, interval⟩

/-- Room in the store of a bay: 1,024 records and what a watchdog added (R387, R448). -/
def Bay.hasRoom (b : Bay) : Bool := decide (b.store.length < 1024 + 64 * b.extra)

/-- A record enters the store of a bay; the recorded store of the wave in flight takes it too while the task unit's part is
open and its sender had not taken its part when it sent it (R430). -/
def State.enterRecord (s : State) (b : Nat) (r : Record) : State :=
  let r := { r with id := s.fresh }
  let s := { (s.modBay b (fun x => { x with store := x.store ++ [r] })) with fresh := s.fresh + 1 }
  match s.region? r.region with
  | none => s
  | some g =>
    if g.inFlight && !g.parted.contains (65536 + b) && decide (r.interval ≤ g.wave + 1) then
      s.modTaking r.region (fun k => { k with bays := k.bays.map (fun p => if p.1 = b then (b, (p.2.1, p.2.2 ++ [r])) else p) })
    else s

/-- The record of a tspawn at an address: what the instruction read as it issued, or what it reads now, as loads of its hart (R397). -/
def State.tspawnRead (s : State) (ea : Nat) : Except Act (List Byte × List Bool) :=
  match s.hart.record with
  | some r => .ok r
  | none =>
    match s.readDword (ea + 8) with
    | .error e => .error e
    | .ok (d1, _) => s.readNow ea (if shortForm d1.toNat then 64 else 128)

/-- tspawn (R397, R439): its record is read once, as it issues. -/
def tspawnOp (a b : Reg) (s : State) : Act :=
  if s.draining then .done s
  else
    released true (fun s =>
      srcU s a fun x s => srcU s b fun y s =>
        let s := s.note (x.poison || y.poison) 4
        let v := y.val.toNat
        let self := decide (bits v 8 8 = 1)
        let bay := if self then s.myBay else v % 256
        if 512 ≤ v || (self && v % 256 ≠ 0) || 192 ≤ bay || !s.myRegion.hasBay bay then .trap 0x0A y.val
        else if x.val.toNat % 64 ≠ 0 then .trap 0x05 x.val
        else
          match s.tspawnRead x.val.toNat with
          | .error e => e
          | .ok (bs, ps) =>
            match recordBad bay bs with
            | some k => .trap 0x0A (x.val + BitVec.ofNat 64 (8 * k))
            | none =>
              let s := s.note (ps.any (fun p => p)) 4
              let rg := s.hart.regionId
              let iv := s.interval rg s.cur
              if bay = s.myBay then
                if (s.bayAt bay).hasRoom then
                  .done (s.enterRecord bay (parseRecord 0 s.hart.ctxId rg iv none bs ps))
                else .wait (.full 300) (fun s => s.modHart (fun h => { h with record := some (bs, ps) }))
              else
                .done (s.send ⟨5, false, 0, taskUnitCell bay, cellOf s.cur, s.hart.ctxId, slotOf s.cur, iv, bs, ps⟩)) s

/-- TSPAWN (R397). -/
def execTspawn (tk : Tok) (a b : Reg) (s : State) : Out := runHart (.tspawn tk a b) tk s (tspawnOp a b)

/-- The region of a context that covers a bay, whether or not it holds it now. -/
def State.regionFor (s : State) (ctx b : Nat) : Option (Nat × Region) :=
  s.regions.find? (fun p => decide (p.2.ctx = ctx) && p.2.hasBay b)

/-- Whether what arrives for a region waits at its boundary: it is FROZEN, or holds no bays (R428, R450). -/
def Region.shut (g : Region) : Bool :=
  !g.holds || decide (g.state = .frozen) || decide (g.state = .preempted) || decide (g.state = .resuming)

/-- TASK_RECORD (R387, R397, R405, R450): a record arrives at a bay and enters its store once there is room; one for a region
that is gone or is being torn down is discarded, and one for a region that is shut waits. -/
def execTaskRecord (n : Nat) (s : State) : Out :=
  match s.takePacket n 5 with
  | none => .next s
  | some (p, t) =>
    let bay := bayOf p.dst
    let host := p.spawnOf
    match t.regionFor p.ctx bay with
    | none => .next (t.discardSpawn host)
    | some (r, g) =>
      if g.state = .teardown || (g.state = .idle && !g.holds) then .next (t.discardSpawn host)
      else if g.shut then .next s
      else if (t.bayAt bay).hasRoom then
        let k := parseRecord 0 p.ctx r p.addr host p.payload p.poison
        let t := if host.isSome then t.modRegion r (fun g => { g with hostRecords := g.hostRecords ++ [(bay, k)] }) else t
        .next (t.enterRecord bay k)
      else .next s

/-! Dispatch (R388-R395). -/

/-- The ready queues after R389: records that are not ready leave, newly ready ones are appended in arrival order. -/
def Bay.refresh (b : Bay) : Bay :=
  let ready := fun (r : Record) => decide (b.events &&& r.waits = r.waits)
  let isReady := fun (id : Nat) => b.store.any (fun r => decide (r.id = id) && ready r)
  let q := fun (i : Nat) => ((b.ready[i]?).getD []).filter (fun e => isReady e.1)
  let queued := fun (id : Nat) => [0, 1, 2, 3].any (fun i => (q i).any (fun e => e.1 = id))
  let new := b.store.filter (fun r => ready r && !queued r.id)
  let row := fun (i : Nat) => q i ++ (new.filter (fun r => r.prio = i)).map (fun r => (r.id, 0))
  { b with ready := #v[row 0, row 1, row 2, row 3] }

/-- Whether a region's dispatch is not held (R395, R449). -/
def State.dispatches (s : State) (r : Nat) : Bool :=
  match s.region? r with
  | some g => decide (g.state = .active) && g.holds && !g.debugHalt
  | none => false

/-- Whether a streamer is declared in the budget of the active configuration of its cell (R41, R388). -/
def Cell.declares (c : Cell) (slot : Nat) : Bool := c.cfg.budget.contains slot

/-- Whether a record is eligible for a hart (R388, R401); a cell without a section takes no task (R442). -/
def State.eligible (s : State) (r : Record) (h : Nat) : Bool :=
  let c := s.cellAt (cellOf h)
  (s.hartAt h).task.isNone && decide ((s.hartAt h).idleFrom ≤ s.clk) && (s.eosWaits h).isEmpty && decide (c.cfgid ≠ 0) && (decide (r.cfgid = 0) || decide (r.cfgid = c.cfgid)) &&
    (isCompute h || c.declares (slotOf h)) && s.dispatches r.region && !s.owesPart r.region h

/-- A hart as its task starts in a clk; it fetches from the next one on (R120, R161, R218, R233, R394). -/
def Hart.start (x : Hart) (clk : Nat) (str : Bool) (r : Record) (tagbase : Word) : Hart :=
  let y := if x.lastCtx = some r.ctx then x else
    { x with x := Hart.reset.x, v := Hart.reset.v, m := Hart.reset.m, p := Hart.reset.p }
  let arg := fun (k : Nat) => (⟨r.args.getD k 0#64, 24#5, r.argPoison.getD k false⟩ : UVal)
  let y := (List.range 4).foldl (fun (y : Hart) k => y.setX (BitVec.ofNat 5 (20 + k)) (arg k)) y
  { y with
    pc := r.pc, fcsr := 0#8, sigEn := false, sigThr := 0#5, gid := 0#64, hnd := false, nut := false, sfrf := false,
    sstat := 0#64, tvec := 0#64, tepc := 0#64, tval := 0#64, tcause := 0#64, chkiv := 0#5, pchan := 0#6, tksel := 0#8,
    tagbase := tagbase, fetchFrom := clk + 1, issued := none, dstHeld := none, record := none, sfNew := false, sBit := false, leaving := false, slots := if str then Vector.replicate 8 Slot.reset else y.slots,
    task := some ⟨r.ctx, r.region, r.cfgid, r.setm, r.fromHost⟩, stage := .fresh, wait := none, held := [], portOut := [], portKey := 0,
    loads := [], stores := [], sfrq := [], reply := none }

/-- A record started on a hart: it leaves the store, its bits are consumed, the region fires (R384, R390, R394, R447). -/
def State.startRecord (s : State) (b : Nat) (r : Record) (h : Nat) : State :=
  let tb := ((s.ctx? r.ctx).map Context.tagbase).getD 0#64
  let s := if isStreamer h then (List.range 8).foldl (fun s k => s.abortStream h k) s else s
  let s := s.setHart h ((s.hartAt h).start s.clk (isStreamer h) r tb)
  let s := if r.fromHost.isNone || decide (r.waits ≠ 0#256) then s.dropLines (cellOf h) else s
  (s.modBay b (fun x => { x with
    store := x.store.filter (fun q => q.id ≠ r.id)
    ready := Vector.ofFn (fun k => x.ready[k].filter (fun e => e.1 ≠ r.id))
    cons := if r.consume then x.cons ||| r.waits else x.cons })).fire r.region

/-- The records of the ready queues in the order of R390: Q3 first, each from head to tail. -/
def Bay.order (b : Bay) : List Record :=
  [3, 2, 1, 0].flatMap (fun q => ((b.ready[q]?).getD []).filterMap (fun e => b.store.find? (fun r => r.id = e.1)))

/-- The starts of one clk (R390): at most n more, the working copy of the event bits losing what is consumed. -/
def dispatchGo (b : Nat) : List Record → Nat → BitVec 256 → State → State
  | [], _, _, s => s
  | _, 0, _, s => s
  | r :: rs, n + 1, w, s =>
    if w &&& r.waits = r.waits then
      match (matching b r.cells r.classes).find? (s.eligible r) with
      | some h => dispatchGo b rs n (if r.consume then w &&& ~~~r.waits else w) (s.startRecord b r h)
      | none => dispatchGo b rs (n + 1) w s
    else dispatchGo b rs (n + 1) w s

/-- The clk for which a record stands before it moves up (R391). -/
def ageLimit : Nat := 4096

/-- The ready queues after R391: records that stood 4,096 clk in a queue below Q3 move to the tail of the next one, the higher
queue first. -/
def Bay.promote (b : Bay) : Bay :=
  let q := fun (i : Nat) => (b.ready[i]?).getD []
  let old := fun (i : Nat) => (q i).filter (fun e => decide (ageLimit ≤ e.2))
  let young := fun (i : Nat) => (q i).filter (fun e => decide (e.2 < ageLimit))
  let up := fun (i : Nat) => (old i).map (fun e => (e.1, 0))
  { b with ready := #v[young 0, young 1 ++ up 0, young 2 ++ up 1, q 3 ++ up 2] }

/-- DISPATCH (R389, R390): the task unit of a bay brings its queues up to date and starts records, four at most. -/
def execDispatch (bay : Nat) (s : State) : Out :=
  let s := s.modBay bay Bay.refresh
  let b := s.bayAt bay
  .next (dispatchGo bay b.order 4 (b.events &&& ~~~b.cons) s)

/-- AGEING (R391). -/
def execAgeing (bay : Nat) (s : State) : Out := .next (s.modBay bay Bay.promote)

/-! Messages (R409-R411, R414, R415, R418). -/

/-- The first malformed dword of a copy message (R409, R415). -/
def copyBad (d : Nat → Nat) : Option Nat :=
  let op := bits (d 0) 63 56
  let d0 := decide (bits (d 0) 51 32 ≠ 0) || decide (bits (d 0) 31 0 ≠ 0) || !(decide (1 ≤ op) && decide (op ≤ 4))
  let d1 := decide (bits (d 1) 63 52 ≠ 0) || decide (d 1 % 32 ≠ 0)
  let d2 := match op with
    | 1 => !(decide (1 ≤ d 2) && decide (d 2 ≤ 2 ^ 32))
    | 2 => !(decide (1 ≤ bits (d 2) 63 32) && decide (bits (d 2) 63 32 ≤ 2 ^ 20) && decide (1 ≤ bits (d 2) 31 0) &&
        decide (bits (d 2) 31 0 ≤ 2 ^ 24))
    | 3 => !(decide (8 ≤ d 2) && decide (d 2 ≤ 2 ^ 32) && decide (d 2 % 8 = 0))
    | _ => decide (8 ≤ d 2) || decide (d 2 % 4 = 0) || (decide (bits (d 0) 55 52 ≠ 0) && decide (bits (d 2) 1 1 = 1))
  let d4 := decide (op = 3) && decide (d 4 % 8 ≠ 0)
  let d5 := match op with
    | 2 => decide (bits (d 5) 63 32 < bits (d 2) 31 0) || decide (bits (d 5) 31 0 < bits (d 2) 31 0)
    | 4 => if bits (d 2) 0 0 = 0 then decide (2 ^ 34 ≤ d 5) || decide (11 < bits (d 5) 15 12) || decide (bits (d 5) 11 0 ≠ 0) else decide (d 5 ≠ 0)
    | _ => decide (d 5 ≠ 0)
  if d0 then some 0 else if d1 then some 1 else if d2 then some 2 else if d4 then some 4 else if d5 then some 5
  else if d 6 ≠ 0 then some 6 else if d 7 ≠ 0 then some 7 else none

/-- The first malformed dword of a collective message (R409, R418). -/
def collectiveBad (d : Nat → Nat) : Option Nat :=
  let op := bits (d 0) 63 56
  let fmt := bits (d 0) 47 44
  let rop := bits (d 0) 43 40
  let n := bits (d 0) 39 32
  let red := decide (op = 0x10)
  let d0 := decide (bits (d 0) 51 48 ≠ 0) || decide (bits (d 0) 31 0 ≠ 0) || !(red || decide (op = 0x11)) ||
    !(decide (fmt = 1) || decide (fmt = 2) || decide (fmt = 10)) || decide (2 < rop) || (!red && decide (rop ≠ 0)) || decide (n = 0) || decide (64 < n)
  let d1 := decide (bits (d 1) 63 52 ≠ 0) || decide (d 1 % 32 ≠ 0)
  let d2 := if red then !(decide (1 ≤ d 2) && decide (d 2 ≤ 2 ^ 30)) else !(decide (1 ≤ d 2) && decide (d 2 ≤ 2 ^ 32))
  if d0 then some 0 else if d1 then some 1 else if d2 then some 2
  else if red && d 3 % 8 ≠ 0 then some 3
  else if d 5 ≠ 0 then some 5 else if d 6 ≠ 0 then some 6 else if d 7 ≠ 0 then some 7 else none

/-- The first of two optional positions. -/
def firstOf (a b : Option Nat) : Option Nat :=
  match a, b with
  | some x, some y => some (min x y)
  | some x, none => some x
  | none, y => y

/-- Messages that stand in an engine's inbox or travel to it (R410, R411); the one it works on has left it. -/
def State.inboxLoad (s : State) (kind target : Nat) : Nat :=
  let there := if kind = 0 then (s.cellAt target).inbox.length - b2n (s.cellAt target).run.isSome
    else (s.bayAt target).inbox.length - b2n (s.bayAt target).run.isSome
  let node := if kind = 0 then target else taskUnitCell target
  there + (s.net.filter (fun p => decide (p.type = 6) && decide (p.dst = node) && decide (p.addr / 65536 = kind))).length

/-- The room of an engine's inbox (R411, R448). -/
def State.inboxCap (s : State) (kind target : Nat) : Nat :=
  if kind = 0 then 16 + lookupD 0 320 (s.cellAt target).grown else 64 + 16 * (s.bayAt target).extraMsgs

/-- send (R410, R439). -/
def sendOp (a b : Reg) (s : State) : Act :=
  if s.draining then .done s
  else
    released true (fun s =>
      srcU s a fun x s => srcU s b fun y s =>
        let s := s.note (x.poison || y.poison) 4
        let v := y.val.toNat
        let kind := bits v 15 14
        let target := v % 4096
        let ok := decide (v < 65536) && decide (bits v 13 12 = 0) &&
          (if kind = 0 then isM target && s.myRegion.hasCell target
           else decide (kind = 1) && decide (target < 192) && s.myRegion.hasBay target)
        if !ok then .trap 0x0A y.val
        else if x.val.toNat % 64 ≠ 0 then .trap 0x05 x.val
        else
          match s.readNow x.val.toNat 64 with
          | .error e => e
          | .ok (bs, ps) =>
            let s := s.note (ps.any (fun p => p)) 4
            let bad := if kind = 0 then copyBad (dwordOf bs) else collectiveBad (dwordOf bs)
            match firstOf bad (ps.findIdx? (fun p => p)) with
            | some k => .trapWith (fun s => s.note (x.poison || y.poison || ps.any (fun p => p)) 4) 0x0A (x.val + BitVec.ofNat 64 (8 * k))
            | none =>
              let reply := dwordOf bs 1
              let go := fun (s : State) =>
                if s.inboxLoad kind target < s.inboxCap kind target then
                  .done (s.send ⟨6, false, 0, if kind = 0 then target else taskUnitCell target, cellOf s.cur, s.hart.ctxId, 0,
                    kind * 65536 + s.cur, bs, []⟩)
                else .wait (.full 301) id
              if reply = 0 then go s
              else
                match s.access reply true true with
                | .hit _ _ => go s
                | t =>
                  if t.isFault then
                    if isStreamer s.cur || s.hart.hnd then .trap (storeCause t) (BitVec.ofNat 64 reply)
                    else
                      .wait .memory (fun s =>
                        let s := if storeCause t = 0x09 then s.takeWalkFault (unitOf (cellOf s.cur)) s.hart.ctxId reply else s
                        s.modHart (fun h => { h with sfrq := h.sfrq ++ [⟨storeCause t, BitVec.ofNat 64 reply, 6, 0, []⟩] }))
                  else missed t reply 0x09 0x0B) s

/-- SEND (R410). -/
def execSend (tk : Tok) (a b : Reg) (s : State) : Out := runHart (.send tk a b) tk s (sendOp a b)

/-- The message that a packet carries (R406, R410). -/
def Packet.message (p : Packet) (region : Nat) : Message :=
  ⟨(List.range 8).map (fun k => BitVec.ofNat 64 (dwordOf p.payload k)), p.addr % 65536, p.ctx, region⟩

/-- ACTIVE_MESSAGE (R406, R411): a message enters the inbox of its engine, whose room its sender reserved, and is
acknowledged. -/
def execActiveMessage (n : Nat) (s : State) : Out :=
  match s.takePacket n 6 with
  | none => .next s
  | some (p, t) =>
    let bay := bayOf p.dst
    match t.regionOfBay bay with
    | none => .next t
    | some r =>
      let m := p.message r
      let t := t.send (p.answer 7 0 [] [])
      if p.addr / 65536 = 0 then .next (t.modCell p.dst (fun c => { c with inbox := c.inbox ++ [m] }))
      else .next (t.modBay bay (fun b => { b with inbox := b.inbox ++ [m] }))

/-- INBOX_ACKNOWLEDGEMENT (R406): the sender's side learns that a message has entered; nothing waits for it. -/
def execInboxAcknowledgement (n : Nat) (s : State) : Out :=
  match s.takePacket n 7 with
  | none => .next s
  | some (_, t) => .next t

/-- waitc (R211, R414, R439). -/
def waitcOp (a : Reg) (s : State) : Act :=
  srcU s a fun x s =>
    if s.draining then .done s
    else if x.poison then .done (s.note true 2)
    else if x.val.toNat % 8 ≠ 0 then .trap 0x05 x.val
    else if s.hart.storeOverlap [(x.val.toNat, 8)] then .wait .memory id
    else
      match s.acquired.readDword x.val.toNat with
      | .error e => e
      | .ok (v, _) => if v.toInt ≤ 0 then .done s.acquired else .wait .completion id

/-- WAITC (R414). -/
def execWaitc (tk : Tok) (a : Reg) (s : State) : Out := runHart (.waitc tk a) tk s (waitcOp a)

end Sys2Proof.Machine
end

