-- ==== Sys2Proof/Machine/Turns.lean ====
section
/-! DEFINITION. What moves in a clk: the fetch of an instruction, which parties may move, and the end of a clk. -/

namespace Sys2Proof.Machine

/-! Fetch (R42, R43, R67, R143). -/

/-- What the fetch of the running hart gives. -/
inductive Fetched where
  /-- an instruction to run -/
  | run (i : Instr)
  /-- the walk of the page at an address is awaited -/
  | miss (va : Nat)
  /-- the machine cannot go on -/
  | stop (f : Fault)
  deriving DecidableEq, Repr

/-- The two bytes of a parcel, or why there are none. -/
def State.fetchParcel (s : State) (va : Nat) : Except Fetched (List Byte) :=
  if 2 ^ 52 ≤ va then .error (.run (.fetchPage (BitVec.ofNat 64 va)))
  else
    match s.translate (unitOf (cellOf s.cur)) s.hart.ctxId va false false true with
    | .hit pa _ => .ok (s.view s.hart.regionId pa 2)
    | .miss => .error (.miss va)
    | .unbacked pa => .error (.stop (.unbacked pa))
    | _ => .error (.run (.fetchPage (BitVec.ofNat 64 va)))

/-- The instruction at the pc of the running hart: one parcel, or two when bit 0 of the first is 1. -/
def State.fetch (s : State) : Fetched :=
  match s.fetchParcel s.hart.pc.toNat with
  | .error f => f
  | .ok lo =>
    let more := if (lo.getD 0 0#8).getLsbD 0 then s.fetchParcel ((s.hart.pc + 2#64).toNat) else .ok []
    match more with
    | .error f => f
    | .ok hi =>
      match decodeHartBytes (lo ++ hi) with
      | .ok (i, _) => .run i
      | .error (.illegal w) => .run (.illegal w)
      | .error _ => .run (.illegal 0#32)

/-! Who may move (R428, R438, R445, R450, R471). -/

/-- Whether the parties of a region may move: it holds its bays and is ACTIVE, drains, or drains for a rollback, and the
debugger has not halted it; or the tasks that outlast its last configuration end (R401, R428, R439, R442, R445, R449). -/
def Region.moves (g : Region) : Bool :=
  g.holds && !g.debugHalt &&
    (decide (g.state = .active) || decide (g.state = .draining) || decide (g.state = .rollback) ||
      (decide (g.state = .teardown) && g.emptied))

/-- Whether a cell's engines may move: its region moves and its bay has its clocks (R471). -/
def State.cellMoves (s : State) (c : Nat) : Bool :=
  !(s.pkg.throttled.contains (bayOf c)) &&
    match s.regionOfCell c with
    | some r => ((s.region? r).map Region.moves).getD false
    | none => false

/-- The word a switch stands at: HALT past the end of its program (R276). -/
def Cell.switchWord (c : Cell) : Option Word := c.cfg.program[c.sw.pc]?

/-- What the fetch of a switch processor gives: its word as an instruction, or nothing to run. -/
def State.fetchSwitch (s : State) (c : Nat) : Except Fault (Option Instr) :=
  let k := s.cellAt c
  if k.sw.halt then .ok none
  else
    match k.switchWord with
    | none => .ok none
    | some w =>
      match decodeSwitchWord w with
      | some i => .ok (some i)
      | none => .error (.switchWord w)

/-- A step of an engine, the network, a controller, the host or the package: no hart and no switch fetches it. The two
outcomes of a failed fetch (R43, R66) and the effects of a write to a CSR (R227, R257, R338) are no such steps: a hart takes
them. -/
def isEvent (i : Instr) : Bool :=
  (encode i).isNone && match i with
    | .illegal _ => false
    | .fetchPage _ => false
    | .sfdrop _ => false
    | .sfrpl _ => false
    | .streamAbort _ _ => false
    | .streamResume _ _ => false
    | .tshpWrite _ _ _ => false
    | _ => true

/-! The end of a clk. -/

/-- The event bits of a bay after a clk (R384). -/
def Bay.clock (b : Bay) : Bay :=
  { b with events := ((b.events &&& ~~~b.cons) &&& ~~~b.clrs) ||| b.sets, cons := 0#256, clrs := 0#256, sets := 0#256 }

end Sys2Proof.Machine
end

