-- ==== Sys2Proof/Machine/Packets.lean ====
section
/-! DEFINITION. The remaining packets of the dynamic network: writes, atomics, acknowledgements, walks, interrupts and purges
(R362, R364-R366, R406-R408, R412, R421, R422, R462). -/

namespace Sys2Proof.Machine

/-! Writes and atomics at their receivers (R406). -/

/-- Whether a unit drops what bears a context (R462). -/
def State.isPurged (s : State) (node ctx : Nat) : Bool := s.pkg.purged.contains (node, ctx)

/-- The answer of a peer to a write (R421): status bits as the peer reports them, which the model leaves free: none, REMOTE,
FPAGE or FACCESS (assumption 2). -/
def peerAnswer (w : Word) : Nat := [0, 0x20, 0x02, 0x04].getD (w.toNat % 4) 0

/-- WRITE (R406, R421, R462): a write request is performed at its receiver, and acknowledged. One that bears a purged context is
dropped. At a scarf interface it crosses to the peer under the peer's context, unless its operation is gone; the peer's answer is free,
and tells the address. -/
def execWrite (n : Nat) (s : State) : Out :=
  match s.takePacket n 1 with
  | none => .next s
  | some (p, t) =>
    if t.isPurged p.dst p.ctx then .next t
    else if p.dev ≠ 0 then
      let answer := peerAnswer (Config.freeWord t.fresh)
      match t.requestOf p.xid with
      | some _ => .next ({ t with fresh := t.fresh + 1 }.send (p.answer 4 answer (natBytes 8 p.addr) []))
      | none => .next t
    else if p.dst = memNode p.addr then
      .next ({ t with mem := t.mem.writeUnits p.addr p.payload p.poison }.send (p.answer 4 0 [] []))
    else
      .next ((t.modCell p.dst (fun c => { c with sram := c.sram.writeUnits (p.addr % 0x400000) p.payload p.poison })).send
        (p.answer 4 0 [] []))

/-- The operation that an atomic packet names: R207's, or the completion update of R412. -/
def packetOp (code : Nat) : Option AmoOp :=
  match code with
  | 0 => some .add
  | 1 => some .and
  | 2 => some .or
  | 3 => some .xor
  | 4 => some .min
  | 5 => some .max
  | 6 => some .swap
  | 7 => some .cas
  | _ => none

/-- ATOMIC (R208, R406): an atomic request is performed at its memory port: the payload holds the operation, the width in
bytes and the operands; the reply holds the old value. The packets that carry no operation are dropped and counted. -/
def execAtomic (n : Nat) (s : State) : Out :=
  match s.takePacket n 2 with
  | none => .next s
  | some (p, t) =>
    if t.isPurged p.dst p.ctx then .next t
    else
      match packetOp (dwordAt p.payload 0) with
      | some op =>
        let k := if dwordAt p.payload 8 = 4 then 4 else 8
        let old := leNat (t.mem.read p.addr k)
        let pois := t.mem.anyPoison p.addr k
        let b := dwordAt p.payload 16 % 2 ^ (8 * k)
        let d := dwordAt p.payload 24 % 2 ^ (8 * k)
        let t := match amoValue op (8 * k) old b d with
          | some v => { t with mem := t.mem.write p.addr (natBytes k v) (amoPoison op pois (p.poison.getD 2 false)) }
          | none => t
        .next (t.send (p.answer 3 p.addr (natBytes k old) [pois]))
      | none => .next { t with pkg := { t.pkg with ioErrors := t.pkg.ioErrors + 1 } }

/-- The status of the operation that waits for a peer's acknowledgement takes what the peer reports, and the address of the first fault
(R412, R413, R421). -/
def Completion.answered (c : Completion) (xid status va : Nat) : Completion :=
  if c.acks.contains xid then
    { c with
      acks := c.acks.filter (· ≠ xid), status := c.status ||| status
      fva := if c.fva = 0 && (status.testBit 1 || status.testBit 2) then va else c.fva }
  else c

/-- The acknowledgement of a peer write, or the news that none will come: completion updates that waited for it follow. -/
def State.peerAck (s : State) (r xid status va : Nat) : State :=
  (s.modRegion r (fun g => { g with updates := g.updates.map (fun u => u.answered xid status va) })).signalDue r

/-- WRITE_ACKNOWLEDGEMENT (R406, R413, R421): an acknowledgement reaches the sender of the write. -/
def execWriteAcknowledgement (n : Nat) (s : State) : Out :=
  match s.takePacket n 4 with
  | none => .next s
  | some (p, t) =>
    match t.takeRequest p.xid with
    | some (q, t) =>
      match q.what with
      | .peer r => .next (t.peerAck r p.xid p.addr (leNat p.payload))
      | _ => .next t
    | none => .next t

/-! Walks (R362, R364-R366). -/

/-- A leaf as the payload of a walk reply. -/
def leafBytes (e : TlbEntry) : List Byte :=
  natBytes 8 e.va ++ natBytes 8 e.size ++ natBytes 8 e.pa ++ natBytes 8 (b2n e.r + 2 * b2n e.w + 4 * b2n e.x + 8 * b2n e.tag)

/-- The leaf that a payload holds. -/
def bytesLeaf (ctx : Nat) (bs : List Byte) : TlbEntry :=
  let f := dwordAt bs 24
  ⟨ctx, dwordAt bs 0, dwordAt bs 8, dwordAt bs 16, f.testBit 0, f.testBit 1, f.testBit 2, f.testBit 3⟩

/-- A miss that arrives at a walker in a clk, among those that stand there: in the order of the clk, and of the M-cells within one
(R365). -/
def queueMiss (clk : Nat) (p : Packet) : List (Nat × Packet) → List (Nat × Packet)
  | [] => [(clk, p)]
  | q :: rest => if q.1 < clk || (q.1 = clk && q.2.src ≤ p.src) then q :: queueMiss clk p rest else (clk, p) :: q :: rest

/-- WALK_REQUEST (R365, R406): a miss arrives at the walker of a bay and takes its place there. -/
def execWalkRequest (n : Nat) (s : State) : Out :=
  match s.takePacket n 10 with
  | none => .next s
  | some (p, t) =>
    let b := bayOf p.dst
    .next { t with walkers := insertAt b (queueMiss t.clk p (lookupD [] b t.walkers)) t.walkers }

/-- A walk engine of a bay's walker, which serve the four misses that stand first, ends its walk and answers with the leaf, or with none
(R362, R365). An entry read poisoned is an uncorrectable error of the region of the unit that asked. -/
def State.endWalk (s : State) (b engine : Nat) : State :=
  let ms := lookupD [] b s.walkers
  match (ms.take 4)[engine]? with
  | none => s
  | some (_, p) =>
    let t : State := { s with walkers := insertAt b (dropNth ms engine) s.walkers }
    let w := t.walk p.ctx p.addr
    let t := t.send (p.answer 11 p.addr ((w.1.map leafBytes).getD []) [])
    match t.regionOfCell p.src with
    | some r => if w.2 then t.cause r 0x48 else t
    | none => t

/-- A leaf enters a TLB of 256 entries, the oldest leaving (R364). -/
def Cell.fillTlb (c : Cell) (e : TlbEntry) : Cell :=
  { c with tlb := (e :: c.tlb.filter (fun f => !(decide (f.ctx = e.ctx) && decide (f.va = e.va) && decide (f.size = e.size)))).take 256 }

/-- WALK_REPLY (R364, R406): the result of a walk fills the TLB of the unit, or the accesses that wait for it take their page
fault. -/
def execWalkReply (n : Nat) (s : State) : Out :=
  match s.takePacket n 11 with
  | none => .next s
  | some (p, t) =>
    match t.takeRequest p.xid with
    | some (q, t) =>
      match q.what with
      | .walk c ctx page =>
        let t := t.modCell c (fun x => { x with walks := x.walks.filter (fun w => w ≠ (ctx, page)) })
        .next (t.modCell c (fun x =>
          if p.payload.isEmpty then { x with walkFaults := x.walkFaults ++ [(ctx, page)] }
          else x.fillTlb (bytesLeaf ctx p.payload)))
      | _ => .next t
    | none => .next t

/-! Interrupts and purges (R408, R462). -/

/-- INTERRUPT (R408): an interrupt packet reaches Haltin's head harts, which keep where it came from and what it says. -/
def execInterrupt (n : Nat) (s : State) : Out :=
  match s.takePacket n 12 with
  | none => .next s
  | some (p, t) => .next { t with pkg := { t.pkg with interrupts := t.pkg.interrupts ++ [(p.src, (p.addr, p.payload))] } }

/-- PURGE (R462): a unit drops every later write of a context from now on, and acknowledges. -/
def execPurge (n : Nat) (s : State) : Out :=
  match s.takePacket n 13 with
  | none => .next s
  | some (p, t) =>
    .next ({ t with pkg := { t.pkg with purged := t.pkg.purged ++ [(p.dst, p.ctx)] } }.send (p.answer 14 p.addr [] []))

/-- PURGE_ACKNOWLEDGEMENT (R462): Haltin counts the acknowledgements of a KILL; the last one ends it. -/
def execPurgeAcknowledgement (n : Nat) (s : State) : Out :=
  match s.takePacket n 14 with
  | none => .next s
  | some (p, t) =>
    match (t.ctx? p.ctx).bind Context.killing with
    | some k =>
      if k ≤ 1 then .next (t.finishKill p.ctx)
      else .next (t.modCtx p.ctx (fun c => { c with killing := some (k - 1) }))
    | none => .next t

end Sys2Proof.Machine
end

