-- ==== Sys2Proof/Machine/Loader.lean ====
section
/-! DEFINITION. Configuration images: their form, the checks of the loader, and a cell's configuration from its sections (R17, R27,
R39, R40, R72, R80, R81, R105, R106, R108, R274, R275, R284, R287, R290, R301, R322, R324, R328, R353, R380, R382, R424-R427). -/

namespace Sys2Proof.Machine

/-! Reading memory for Haltin: committed contents, by walks of its own (R457). -/

/-- Pieces of a virtual range of a context by walks, or the first address that fails and whether it has a translation. -/
def State.walkPieces (s : State) (ctx : Nat) : Nat → Nat → Nat → Except (Nat × Bool) (List (Nat × Nat))
  | 0, _, _ => .ok []
  | fuel + 1, va, n =>
    if n = 0 then .ok []
    else
      match (s.walk ctx va).1 with
      | none => .error (va, false)
      | some e =>
        if !e.r then .error (va, true)
        else
          let k := min n (8192 - va % 8192)
          match s.walkPieces ctx fuel (va + k) (n - k) with
          | .ok rest => .ok ((e.pa + (va - e.va), k) :: rest)
          | .error f => .error f

/-- The committed bytes of a virtual range of a context with R, and whether one is poisoned; or the first address that fails and
whether it has a translation. -/
def State.committed (s : State) (ctx va n : Nat) : Except (Nat × Bool) (List Byte × List Bool) :=
  match s.walkPieces ctx (n / 8192 + 2) va n with
  | .ok ps => .ok (ps.flatMap (fun p => s.mem.read p.1 p.2),
      ps.flatMap (fun p => (List.range p.2).map (fun i => s.mem.poisoned ((p.1 + i) / 8))))
  | .error f => .error f

/-! The form of an image (R424, R425). -/

/-- The legal values of RPARM (R423). -/
def rparmLegal (v : Nat) : Bool :=
  let f := fun (hi lo : Nat) => bits v hi lo
  let exp := fun (x : Nat) => decide (10 ≤ x) && decide (x ≤ 30)
  decide (1 ≤ f 63 32) && decide (1 ≤ f 31 24) && exp (f 23 19) && exp (f 18 14) && decide (f 23 19 < f 18 14) && exp (f 13 9) &&
    exp (f 8 4) && decide (f 3 0 = 0)

/-- The header of an image that has the placement of a region (R424, R426). -/
def headerLegal (bs : List Byte) (g : Region) : Bool :=
  decide (wordAt bs 0 = 0x3146434E) && decide (halfAt bs 4 = 1) && decide (1 ≤ byteAt bs 6) && decide (byteAt bs 7 ≤ 1) &&
    decide ([byteAt bs 8, byteAt bs 9, byteAt bs 10, byteAt bs 11] = g.place) && rparmLegal (dwordAt bs 16) &&
    decide (64 + 16 * wordAt bs 12 + 128 ≤ wordAt bs 24) && (List.range 36).all (fun i => decide (byteAt bs (28 + i) = 0)) &&
    (decide (byteAt bs 7 = 0) || decide (wordAt bs 12 = 0))

/-- The section kinds (R425). -/
def sectionKinds : List Nat := [2, 3, 5, 8, 9, 10, 11, 12]

/-- A directory entry. -/
def sectionAt (bs : List Byte) (k : Nat) : Section :=
  let a := 64 + 16 * k
  let off := wordAt bs (a + 8)
  let n := wordAt bs (a + 12)
  ⟨byteAt bs a, byteAt bs (a + 1), halfAt bs (a + 2), off, n, (Config.shake256 ((bs.drop off).take n)).take 16⟩

/-- The directory of an image. -/
def sectionsOf (bs : List Byte) : List Section := (List.range (wordAt bs 12)).map (sectionAt bs)

/-- A directory that is well formed for a region: known kinds, the switch's slot for a program, cells of the region in ascending
order, reserved bytes 0, bodies inside the image and at multiples of 8, no kind twice for a cell but cell data (R424, R425). -/
def directoryLegal (bs : List Byte) (g : Region) : Bool :=
  let ds := sectionsOf bs
  let tot := wordAt bs 24
  ds.zipIdx.all (fun p =>
    let d := p.1
    sectionKinds.contains d.kind && (decide (d.kind ≠ 2) || decide (d.slot = 7)) &&
      (decide (d.kind = 2) || decide (d.kind = 3) || decide (d.slot = 0)) && decide (d.slot < 8) &&
      decide (wordAt bs (64 + 16 * p.2 + 4) = 0) && isCell d.cell && g.hasCell d.cell && decide (d.offset % 8 = 0) &&
      decide (64 + 16 * ds.length ≤ d.offset) && decide (d.offset + d.length ≤ tot - 128)) &&
    (ds.zip (ds.drop 1)).all (fun p => decide (p.1.cell ≤ p.2.cell)) &&
    ds.zipIdx.all (fun p => decide (p.1.kind = 3) ||
      (ds.drop (p.2 + 1)).all (fun q => !(decide (q.cell = p.1.cell) && decide (q.kind = p.1.kind))))

/-! The configuration of a cell from its sections (R80, R81, R425). -/

/-- The configuration records of a body: directive code and operands. -/
def parseRecords : Nat → List Byte → Option (List (Nat × List Nat))
  | 0, bs => if bs.isEmpty then some [] else none
  | n + 1, bs =>
    if bs.isEmpty then some []
    else
      let k := halfAt bs 2
      if bs.length < 4 + 8 * k then none
      else
        (parseRecords n (bs.drop (4 + 8 * k))).map (fun r =>
          (halfAt bs 0, (List.range k).map (fun i => dwordAt bs (4 + 8 * i))) :: r)

/-- The records of a body; none where it is cut short. -/
def recordsOfBody (bs : List Byte) : Option (List (Nat × List Nat)) := parseRecords (bs.length / 4 + 1) bs

/-- A configuration with one record taken in (R81); none where an operand is outside its limits. -/
def CellCfg.take (g : CellCfg) (r : Nat × List Nat) : Option CellCfg :=
  match r with
  | (1, code :: depth :: cons :: p :: ps) => some { g with queueMap := g.queueMap ++ [⟨code, depth, cons, p :: ps⟩] }
  | (2, [inp, vc, fmt, scr, blk, tgm, ckm]) =>
    if (inp < 8 || inp = 31) && vc < 32 && fmt < 16 && scr < 16 && blk < 4 && tgm < 4 && ckm < 4 then
      let e := fmt + 2 ^ 4 * scr + 2 ^ 8 * blk + 2 ^ 10 * tgm + 2 ^ 12 * ckm
      let ins := if inp = 31 then List.range 8 else [inp]
      some { g with cft := ins.foldl (fun t i => insertAt (32 * i + vc) e t) g.cft }
    else Option.none
  | (3, us) => if us.all (· < 12) then some { g with budget := g.budget ++ us } else Option.none
  | (4, [_, _, _]) => some g
  | (5, [_, _, _, _]) => some g
  | (6, [v]) => some { g with node := BitVec.ofNat 64 v }
  | (7, [vc, e]) => if vc < 32 && e < 2 ^ 32 then some { g with cmpt := insertAt vc e g.cmpt } else Option.none
  | (8, [vc, e]) => if vc < 32 && e < 2 ^ 32 then some { g with convt := insertAt vc e g.convt } else Option.none
  | (9, [n, v]) => if n < 16 && v < 2 ^ 32 then some { g with scale := insertAt n v g.scale } else Option.none
  | (10, [e]) => if e < 2 ^ 32 then some { g with rate := g.rate ++ [e] } else none
  | _ => Option.none

/-- The directive codes that a section of a kind holds (R81, R425). -/
def kindCodes (kind : Nat) : List Nat :=
  match kind with
  | 5 => [1, 2, 3, 4, 5]
  | 8 => [6]
  | 9 => [7]
  | 10 => [8]
  | 11 => [9]
  | 12 => [10]
  | _ => []

/-- A configuration with the body of one section taken in (R425). A cell data body lies at offset 0 (assumption 38). -/
def CellCfg.section (g : CellCfg) (kind : Nat) (body : List Byte) : Option CellCfg :=
  match kind with
  | 2 =>
    if body.length % 8 = 0 && body.length ≤ 8 * 4096 then
      some { g with program := (List.range (body.length / 8)).map (fun i => BitVec.ofNat 64 (dwordAt body (8 * i))) }
    else Option.none
  | 3 => some { g with data := g.data ++ [(0, body)] }
  | _ =>
    (recordsOfBody body).bind (fun rs =>
      rs.foldl (fun g r => g.bind (fun g => if (kindCodes kind).contains r.1 then g.take r else Option.none)) (some g))

/-- The configuration that bodies with their kinds give. -/
def cfgOf (bodies : List (Nat × List Byte)) : Option CellCfg :=
  bodies.foldl (fun g b => g.bind (fun g => g.section b.1 b.2)) (some CellCfg.none)

/-- The configurations of the cells of an image, by cell. -/
def cfgsOf (bs : List Byte) : Option (List (Nat × CellCfg)) :=
  let ds := sectionsOf bs
  (distinct (ds.map Section.cell)).foldl (fun acc c => acc.bind (fun acc =>
    (cfgOf ((ds.filter (fun d => d.cell = c)).map (fun d => (d.kind, (bs.drop d.offset).take d.length)))).map
      (fun g => insertAt c g acc))) (some [])

/-- The ownership entries of an image, in the order of their records (R380). -/
def ownersOf (bs : List Byte) : List (Nat × (Nat × (Nat × Nat))) :=
  ((sectionsOf bs).filter (fun d => d.kind = 5)).flatMap (fun d =>
    (((recordsOfBody ((bs.drop d.offset).take d.length)).getD []).filterMap (fun r => match r with
      | (4, [b, n, h]) => some (d.cell, (b, (n, h)))
      | _ => none)))

/-! The loader's checks of one cell. -/

/-- Whether a cell has a port: channel ports need a link, the local ports are those of its kind, lconv needs a converter (R71, R72,
R271, R328). -/
def hasPort (c p : Nat) : Bool :=
  if p < 8 then (neighbour c p).isSome
  else if isC c then decide (p < 16)
  else decide (p < 13) && (decide (p ≠ 10) || hasConverter c)

/-- Whether a hart is a streamer of a region. -/
def Region.hasStreamer (g : Region) (h : Nat) : Bool := isHart h && isStreamer h && g.hasCell (cellOf h)

/-- The targets of a switch word (R72). -/
def wordTargets (i : Instr) : List Nat :=
  match i with
  | .waittok _ _ _ _ _ t => [t.toNat]
  | .bnz _ t => [t.toNat]
  | .jmp t => [t.toNat]
  | _ => []

/-- What the loader refuses of an emit beyond its encoding: an output to a compute hart, a TENON that names no entry or no streamer
(R284, R382). -/
def emitLegal (g : Region) (owners : Nat) (c : Nat) (i : Instr) : Bool :=
  match i with
  | .emit out kind _ sb v =>
    !(isC c && decide (8 ≤ out.toNat) && decide (out.toNat < 12)) &&
      (!(decide (kind = 6#3) && decide (sb = 4#6)) ||
        (decide (bits v.toNat 31 23 = 0) && decide (bits v.toNat 7 0 < owners) && g.hasStreamer (bits v.toNat 22 8)))
  | _ => true

/-- A switch program that the loader accepts (R72, R284, R287). -/
def programLegal (g : Region) (owners c : Nat) (prog : List Word) : Bool :=
  prog.all (fun w => match decodeSwitchWord w with
    | some i =>
      (wordPorts i).all (fun p => (decide (p.1 = 31) || hasPort c p.1) && (decide (p.2 = 31) || hasPort c p.2)) &&
        (wordTargets i).all (· < prog.length) && emitLegal g owners c i
    | none => false) &&
  (match prog.getLast? with
    | none => true
    | some w => match decodeSwitchWord w with
      | some .halt => true
      | some (.jmp _) => true
      | _ => false)

/-- A queue map that the loader accepts: the parties of R27 and the limits of rings (R290). -/
def queueMapLegal (c : Nat) (qs : List QMap) (data : Nat) : Bool :=
  let str := fun (p : Nat) => decide (4 ≤ p) && decide (p ≤ 6)
  let cpt := fun (p : Nat) => decide (p < 4)
  let rings := qs.filter (fun q => 32 ≤ q.code)
  let bytes : Nat := 320 * (rings.map QMap.depth).foldl (· + ·) 0
  qs.all (fun q =>
    if q.code < 4 then isC c && cpt q.consumer && decide (q.producers.length = 1) && q.producers.all str
    else if q.code < 8 then isC c && str q.consumer && decide (q.producers.length = 1) && q.producers.all cpt
    else if 16 ≤ q.code && q.code < 32 then
      decide (q.producers.length = 1) && (q.consumer :: q.producers).all (fun p =>
        if isC c then decide (p < 7) || decide (p = 8) else decide (p = 0))
    else if 32 ≤ q.code && q.code < 40 then
      let ps := q.consumer :: q.producers
      isC c && decide (2 ≤ q.depth) && decide (q.depth ≤ 1024) && ps.all (fun p => cpt p || str p) &&
        decide (q.producers.length ≤ 6) && decide ((distinct ps).length = ps.length) &&
        (decide (q.code < 36) || !ps.any cpt) &&
        !(cpt q.consumer && (findMap qs (q.code - 32)).isSome) &&
        !(q.producers.any cpt && (findMap qs (q.code - 28)).isSome)
    else false) &&
  decide (bytes ≤ 524288) && (rings.isEmpty || decide (data ≤ 0x180000 - bytes))

/-- An entry of a channel format table that the loader accepts (R95, R105). -/
def cftLegal (e : Nat) : Bool :=
  let f := bits e 3 0
  decide (f < 12) && decide (bits e 13 12 ≠ 3) && decide (bits e 11 10 < 2) && (decide (bits e 9 8 = 0) || (decide (4 ≤ f) && decide (f ≤ 8)))

/-- A node record that the loader accepts (R353). -/
def nodeLegal (c : Nat) (v : Nat) (qs : List QMap) : Bool :=
  decide (v = 0) || (isC c && decide (bits v 15 0 = 0) && (decide (bits v 63 63 = 0) ||
    ((findMap qs (16 + bits v 52 49)).any (fun q => q.producers.contains 8) &&
      (findMap qs (16 + bits v 56 53)).any (fun q => q.consumer = 8))))

/-- The bytes of a cell's memory that its data section covers. -/
def CellCfg.dataEnd (g : CellCfg) : Nat := (g.data.map (fun d => d.1 + d.2.length)).foldl max 0

/-- The checks of one cell that look at its own sections only. -/
def cellLegal (g : Region) (owners : Nat) (c : Nat) (k : CellCfg) : Bool :=
  let room := if isC c then 0x180000 else 0x380000 - 65536 * g.snapu - 4096 * g.poolg
  programLegal g owners c k.program && queueMapLegal c k.queueMap k.dataEnd && k.cft.all (fun e => cftLegal e.2) &&
    k.scale.all (fun e => decide (bits e.2 10 8 < 5) && decide (e.2 < 2048)) && decide (k.dataEnd ≤ room) &&
    nodeLegal c k.node.toNat k.queueMap &&
    k.cmpt.all (fun e => isM c && decide (bits e.2 31 31 = 0) && decide (bits e.2 6 4 = 0) && decide (1 ≤ bits e.2 3 0) &&
      decide (bits e.2 3 0 ≤ 10) && (decide (bits e.2 3 0 ≠ 6) || decide ((bits e.2 24 15 + 1) % 2 = 0))) &&
    k.convt.all (fun e => hasConverter c && isM c && decide (bits e.2 31 15 = 0) && decide (1 ≤ bits e.2 3 0) && decide (bits e.2 3 0 ≤ 11) &&
      (decide (bits e.2 9 8 = 0) || (decide (4 ≤ bits e.2 3 0) && decide (bits e.2 3 0 ≤ 8)) || decide (bits e.2 3 0 = 11))) &&
    k.budget.all (fun u => if isC c then decide (u < 7) || decide (u = 8)
      else decide (u = 0) || (decide (u = 9) && hasConverter c) || decide (u = 10) || (decide (u = 11) && (hbmPort c).isSome))

/-! The checks of paths (R108, R274, R275, R322, R328). -/

/-- The state with the configurations of an image in the cells of a region, for the tracing of paths. -/
def State.withCfgs (s : State) (g : Region) (ks : List (Nat × CellCfg)) : State :=
  { s with cells := g.cells.map (fun c => (c, { Cell.reset with cfg := lookupD CellCfg.none c ks })) }

/-- Whether all values of a list are equal. -/
def allEqual (xs : List Nat) : Bool :=
  match xs with
  | [] => true
  | x :: r => r.all (· = x)

/-- The outputs of a sub-stream of a local port: those of the channel, for a hart also of the direction (R272). -/
def subOutputs (k : Cell) (c p sub : Nat) : List Nat :=
  if isLp c p then (k.outputsOf p (sub % 2)).filter (fun o => decide (8 ≤ o) || decide (o = sub)) else k.outputsOf p sub

/-- The checks of the sub-streams of a cell: one tag mode each, and at lspad one checksum mode; no emit of data to a tagged one; the
format of what a converter emits (R274, R322, R328). -/
def State.subsLegal (s : State) (c : Nat) : Bool :=
  let k := s.cellAt c
  (List.range 8).all (fun l =>
    let p := 8 + l
    (List.range (if isLp c p then 8 else 2)).all (fun sub =>
      let outs := subOutputs k c p sub
      outs.isEmpty || (List.range 32).all (fun vc =>
        allEqual ((s.entriesPast c outs vc).map (fun e => bits e 11 10)) &&
          (decide (isC c = true) || decide (p ≠ 9) || allEqual ((s.entriesFrom c outs vc).map (fun e => bits e 13 12)))))) &&
    k.cfg.convt.all (fun t =>
      let outs := (List.range 2).flatMap (fun ch => k.outputsOf 10 ch)
      (s.entriesFrom c outs (bits t.2 14 10)).all (fun e =>
        decide (bits e 3 0 = bits t.2 3 0) && decide (bits e 9 8 = bits t.2 9 8) && decide (bits e 7 4 = bits t.2 7 4) &&
          decide (bits e 11 10 = 0))) &&
    (k.cfg.program.filterMap decodeSwitchWord).all (fun i => match i with
      | .emit out kind vc _ _ => decide (kind ≠ 0#3) || !s.taggedFrom c [out.toNat] vc.toNat
      | _ => true)

/-- A checksum mode stands only at an input whose flits go to lmxe, lspad or lcopy (R275). -/
def State.checksumsLegal (s : State) (c : Nat) : Bool :=
  let k := s.cellAt c
  k.cfg.cft.all (fun e => decide (bits e.2 13 12 = 0) ||
    (k.outputsOf (e.1 / 32) 0).any (fun o => if isC c then decide (o = 15) else decide (o = 9) || decide (o = 12)))

/-- Whether a format is narrower than the one in which a producer writes (R108): fewer bits an element, or an integer format for a
float. -/
def narrower (written got : Nat) : Bool :=
  decide (fmtBits got < fmtBits written) || (((fmtFloat written).isSome || decide (written = 11)) && decide (7 ≤ got) && decide (got ≤ 10))

/-- The formats in which the matrix node of a cell emits: the accumulator kinds of the classes that its input entries give (R353). -/
def Cell.nodeFormats (k : Cell) : List Nat :=
  let as := (k.cfg.cft.filter (fun e => (k.outputsOf (e.1 / 32) 0).contains 15)).map (fun e => bits e.2 3 0)
  if as.isEmpty then [1] else as.map (fun f => if f = 7 || f = 8 then 10 else 1)

/-- The producers of a cell whose formats the configuration states, with the outputs and the virtual channel of their flits: the matrix
node (R353), and the expander of a compressor table entry (R324). What a hart or a stream writes is stated nowhere. -/
def Cell.producers (k : Cell) (c : Nat) : List (List Nat × (List Nat × Nat)) :=
  if isC c then
    (if k.cfg.node.getLsbD 63 then [(k.nodeFormats, (k.outputsOf 15 0, bits k.cfg.node.toNat 48 44))] else [])
  else
    (k.cfg.cmpt.filter (fun t => decide (bits t.2 30 30 = 1))).flatMap (fun t =>
      [([bits t.2 3 0], ((List.range 2).flatMap (fun ch => k.outputsOf 11 ch), bits t.2 29 25))])

/-- Whether a path of a cell is refused (R108): an input whose entry is EC8 delivers to anything but a converter, a scratchpad or
the pool; what a producer emits is delivered under a format narrower than its own. -/
def State.pathRefused (s : State) (c : Nat) : Bool :=
  let k := s.cellAt c
  k.cfg.cft.any (fun e => decide (bits e.2 3 0 = 11) && (k.outputsOf (e.1 / 32) 0).any (fun o => decide (8 ≤ o) &&
    (isC c || !(decide (o = 8) || decide (o = 9) || decide (o = 10))))) ||
  (k.producers c).any (fun p => (s.entriesFrom c p.2.1 p.2.2).any (fun e => p.1.any (fun f => narrower f (bits e 3 0))))

/-! Budgets and rates (R39, R40, R427). -/

/-- The heavy units that a declared unit of a cell costs (R39). -/
def unitCost (c u : Nat) : Nat :=
  if u = 8 then 6 else if u = 9 then 2 else if 10 ≤ u then 1 else if isC c && decide (u < 4) then 2 else 1

/-- The declared heavy units of a bay. -/
def bayCost (ks : List (Nat × CellCfg)) (b : Nat) : Nat :=
  ((ks.filter (fun k => bayOf k.1 = b)).flatMap (fun k => (distinct k.2.budget).map (unitCost k.1))).foldl (· + ·) 0

/-- The unit that a local port of a cell belongs to, where it must be declared (R40, R271, R322). -/
def portUnit (c p : Nat) : Option Nat :=
  if isC c then (if 12 ≤ p && p ≤ 14 then some (p - 8) else none)
  else if p = 8 || p = 9 then some 0
  else if p = 10 then some 9
  else if p = 11 then some 10
  else none

/-- Whether every unit that a cell's program and queue map name is declared, and mxe for a node (R40, R353). -/
def declared (c : Nat) (k : CellCfg) : Bool :=
  let ports := (k.program.filterMap decodeSwitchWord).flatMap wordPorts
  ports.all (fun p => [p.1, p.2].all (fun q => (portUnit c q).all k.budget.contains)) &&
    k.queueMap.all (fun q => (q.consumer :: q.producers).all (fun p =>
      (!(decide (4 ≤ p) && decide (p ≤ 6)) && !(isM c && decide (p = 0))) || k.budget.contains p)) &&
    (!k.node.getLsbD 63 || k.budget.contains 8)

/-- The weight of a port in a rate table; 0 where it has none. -/
def weightOf (k : CellCfg) (out : Bool) (p : Nat) : Nat :=
  ((k.rate.find? (fun e => decide (bits e 4 0 = p) && decide (bits e 5 5 = b2n out))).map (fun e => bits e 31 16)).getD 0

/-- The links of a configuration on which both weights are non-zero: cells and weights. -/
def ratedLinks (ks : List (Nat × CellCfg)) : List ((Nat × Nat) × (Nat × Nat)) :=
  ks.flatMap (fun k => (List.range 8).filterMap (fun o =>
    match neighbour k.1 o with
    | none => none
    | some n =>
      let a := weightOf k.2 true o
      let b := ((lookup n ks).map (fun x => weightOf x false (facing o))).getD 0
      if a ≠ 0 && b ≠ 0 then some ((k.1, n), (a, b)) else none))

/-- Rates of cells as fractions, spread over the links: the rate of one end gives that of the other; a link without a rated end
begins with 1 when nothing else is left to do. -/
def spreadRates (links : List ((Nat × Nat) × (Nat × Nat))) : Nat → List (Nat × (Nat × Nat)) → List (Nat × (Nat × Nat))
  | 0, rs => rs
  | n + 1, rs =>
    match links.find? (fun l => (lookup l.1.1 rs).isSome ≠ (lookup l.1.2 rs).isSome) with
    | some l =>
      match lookup l.1.1 rs, lookup l.1.2 rs with
      | some r, none => spreadRates links n (insertAt l.1.2 (r.1 * l.2.1, r.2 * l.2.2) rs)
      | none, some r => spreadRates links n (insertAt l.1.1 (r.1 * l.2.2, r.2 * l.2.1) rs)
      | _, _ => rs
    | none =>
      match links.find? (fun l => (lookup l.1.1 rs).isNone) with
      | some l => spreadRates links n (insertAt l.1.1 (1, 1) rs)
      | none => rs

/-- Whether positive rates exist for the links (R427). -/
def ratesExist (links : List ((Nat × Nat) × (Nat × Nat))) : Bool :=
  let rs := spreadRates links (2 * links.length + 1) []
  links.all (fun l =>
    match lookup l.1.1 rs, lookup l.1.2 rs with
    | some a, some b => decide (a.1 * l.2.1 * b.2 = b.1 * l.2.2 * a.2)
    | _, _ => false)

/-- Rate tables that the loader accepts (R427). -/
def ratesLegal (ks : List (Nat × CellCfg)) : Bool :=
  ks.all (fun k =>
    let ports := k.2.rate.map (fun e => bits e 5 0)
    decide ((distinct ports).length = ports.length) &&
      k.2.rate.all (fun e => decide (bits e 15 6 = 0) && hasPort k.1 (bits e 4 0))) &&
    ratesExist (ratedLinks ks)

/-- Ownership entries that the loader accepts (R380). -/
def ownersLegal (g : Region) (os : List (Nat × (Nat × (Nat × Nat)))) : Bool :=
  decide (os.length ≤ 256) &&
    os.all (fun o => decide (o.2.1 % 256 = 0) && decide (o.2.2.1 % 256 = 0) && decide (0 < o.2.2.1) && g.hasStreamer o.2.2.2) &&
    os.zipIdx.all (fun p => (os.drop (p.2 + 1)).all (fun q => !overlaps (p.1.2.1, p.1.2.2.1) (q.2.1, q.2.2.1)))

/-! The loader (R426). -/

/-- The cause with which the loader refuses an image for a region; none where it accepts it (R426, R467). -/
def State.refusal (s : State) (g : Region) (bs : List Byte) : Option Nat :=
  let tot := wordAt bs 24
  let tail := bs.drop (tot - 128)
  if !headerLegal bs g || !directoryLegal bs g then some 0x47
  else if !Config.signed (bs.take (tot - 128)) (tail.take 114) || !(tail.drop 114).all (· = 0#8) then some 0x47
  else
    match cfgsOf bs with
    | none => some 0x47
    | some ks =>
      let os := ownersOf bs
      let t := s.withCfgs g ks
      if !(ks.all (fun k => cellLegal g os.length k.1 k.2) && ownersLegal g os &&
          ks.all (fun k => t.subsLegal k.1 && t.checksumsLegal k.1)) then some 0x47
      else if g.bays.any (fun b => decide (64 < bayCost ks b)) || !ks.all (fun k => declared k.1 k.2) then some 0x4B
      else if ks.any (fun k => t.pathRefused k.1) then some 0x4C
      else if !ratesLegal ks then some 0x47
      else none

/-- The entry of the image table for an image at an address (R426). -/
def imageOf (va : Nat) (bs : List Byte) : Image :=
  let tot := wordAt bs 24
  ⟨va, tot, decide (byteAt bs 7 = 1), BitVec.ofNat 64 (dwordAt bs 16), [byteAt bs 8, byteAt bs 9, byteAt bs 10, byteAt bs 11],
    sectionsOf bs, ownersOf bs, Config.shake256 (bs.take (tot - 128))⟩

/-! Fetching a cell's sections (R426, R440, R443). -/

/-- What the fetch of a cell's sections gives: no section, its configuration, a fault at an address, or a digest that differs. -/
inductive Fetched' where
  | none
  | got (k : CellCfg)
  | fault (va : Nat)
  | differs
  deriving DecidableEq, Repr

/-- The sections of a cell of an image, read as loads of the context and checked against their digests. -/
def State.fetchSections (s : State) (rg ctx unit : Nat) (im : Image) : List Section → Except Fetched' (List (Nat × List Byte))
  | [] => .ok []
  | d :: ds =>
    match s.span unit ctx true false (im.va + d.offset) d.length with
    | .error e => .error (.fault e.1)
    | .ok ps =>
      let (bs, p) := s.readPieces rg ps
      if p || (Config.shake256 bs).take 16 ≠ d.digest then .error .differs
      else
        match s.fetchSections rg ctx unit im ds with
        | .ok rest => .ok ((d.kind, bs) :: rest)
        | .error e => .error e

/-- A cell's configuration of an image. -/
def State.fetchCell (s : State) (rg ctx c : Nat) (im : Image) : Fetched' :=
  let ds := im.sections.filter (fun d => d.cell = c)
  if ds.isEmpty then .none
  else
    match s.fetchSections rg ctx (unitOf c) im ds with
    | .error e => e
    | .ok bodies =>
      match cfgOf bodies with
      | some k => .got k
      | none => .differs

end Sys2Proof.Machine
end

