-- ==== Sys2Proof/Machine/Checksums.lean ====
section
/-! DEFINITION. Tiles as elements, EC8 blocks, and the checksums of rows and columns: their sums, their comparison with a
prediction, and the correction of one element (R84, R98-R100, R109-R112, R309, R333). -/

namespace Sys2Proof.Machine

/-! Elements. -/

/-- Element k of w bits of packed bytes (R84). -/
def packedElem (w : Nat) (bs : Array Byte) (k : Nat) : Nat :=
  if w = 4 then (bs.getD (k / 2) 0#8).toNat / 16 ^ (k % 2) % 16
  else leNat ((List.range (w / 8)).map (fun i => bs.getD (k * (w / 8) + i) 0#8))

/-- The first n elements of w bits of packed bytes. -/
def unpack (w n : Nat) (bs : List Byte) : Array Nat :=
  let a := bs.toArray
  ((List.range n).map (packedElem w a)).toArray

/-- Elements of w bits packed into bytes (R84); a last half-filled byte is padded with 0. -/
def packElements (w : Nat) (es : List Nat) : List Byte :=
  if w = 4 then packNibbles es else es.flatMap (natBytes (w / 8))
where
  /-- Elements of 4 bits, two in a byte, the first lowest. -/
  packNibbles : List Nat → List Byte
    | [] => []
    | [a] => [BitVec.ofNat 8 (a % 16)]
    | a :: b :: r => BitVec.ofNat 8 (a % 16 + 16 * (b % 16)) :: packNibbles r

/-- An element as an integer (R94). -/
def intElem (fmt code : Nat) : Int :=
  match fmt with
  | 7 => signedOf 8 code
  | 8 => code
  | 9 => signedOf 16 code
  | 10 => signedOf 32 code
  | _ => code

/-! EC8 (R98-R100). -/

/-- The n low bits of a number, most significant first (R99). -/
def msbBits (n v : Nat) : List Bool := (List.range n).map (fun i => v.testBit (n - 1 - i))

/-- A number from bits, most significant first. -/
def ofMsb (bs : List Bool) : Nat := bs.foldl (fun a b => 2 * a + b2n b) 0

/-- The first n bits as a number, and the rest; none when there are not so many. -/
def takeMsb (n : Nat) (bs : List Bool) : Option (Nat × List Bool) :=
  if bs.length < n then none else some (ofMsb (bs.take n), bs.drop n)

/-- The bits of bytes in the order of an EC8 string: bit 0 of the lowest byte first (R99). -/
def stringOf (bs : List Byte) : List Bool := bs.flatMap (fun b => (List.range 8).map (fun i => b.getLsbD i))

/-- The bytes of an EC8 string, padded with zero bits. -/
def bytesOfBits : Nat → List Bool → List Byte
  | 0, _ => []
  | n + 1, bs =>
    if bs.isEmpty then []
    else BitVec.ofNat 8 (((bs.take 8).foldr (fun b a => b2n b + 2 * a) 0)) :: bytesOfBits n (bs.drop 8)

/-- The record of one E4M3 element in a block of the given emax (R98). -/
def ec8Record (emax x : Nat) : List Bool :=
  let e := bits x 6 3
  let d := emax - e
  let tail := msbBits 4 (x / 128 % 2 * 8 + x % 8)
  if e = 0 || 10 < d then [true, true, true, true] ++ msbBits 4 e ++ tail
  else if d = 0 then false :: tail
  else if d = 1 then [true, false] ++ tail
  else if d = 2 then [true, true, false] ++ tail
  else [true, true, true, false] ++ msbBits 3 (d - 3) ++ tail

/-- The EC8 block of 32 E4M3 elements, padded to 32 bits (R98). -/
def ec8Block (es : List Nat) : List Bool :=
  let emax := (es.map (fun x => bits x 6 3)).foldl max 0
  let s := msbBits 4 emax ++ es.flatMap (ec8Record emax)
  s ++ List.replicate ((32 - s.length % 32) % 32) false

/-- One record read: the element, unless its code is malformed, and the rest; none where the string ends (R100). -/
def ec8Read (emax : Nat) (bs : List Bool) : Option (Option Nat × List Bool) :=
  let short := fun (d : Nat) (r : List Bool) =>
    (takeMsb 4 r).map (fun t => (if emax < d + 1 then none else some (t.1 / 8 * 128 + (emax - d) * 8 + t.1 % 8), t.2))
  match bs with
  | false :: r => short 0 r
  | true :: false :: r => short 1 r
  | true :: true :: false :: r => short 2 r
  | true :: true :: true :: false :: r => (takeMsb 3 r).bind (fun t => short (t.1 + 3) t.2)
  | true :: true :: true :: true :: r =>
    (takeMsb 4 r).bind (fun e => (takeMsb 4 e.2).map (fun t => (some (t.1 / 8 * 128 + e.1 * 8 + t.1 % 8), t.2)))
  | _ => none

/-- n records read. -/
def ec8Records (emax : Nat) : Nat → List Bool → Option (List (Option Nat) × List Bool)
  | 0, bs => some ([], bs)
  | n + 1, bs =>
    match ec8Read emax bs with
    | none => none
    | some (x, r) => (ec8Records emax n r).map (fun t => (x :: t.1, t.2))

/-- A block that is read as 32 canonical NaNs (R100). -/
def ec8Nans : List Nat := List.replicate 32 0x7F

/-- The first block of a string: its elements, whether it is malformed, and the string behind it; none where the string ends
before the block does (R98-R100). A block with a malformed code ends where its 32 records and their padding end, and the
next begins there: the spec does not say (DESIGN CHOICE, assumption 85). -/
def ec8Decode (bs : List Bool) : Option (List Nat × Bool × List Bool) :=
  match takeMsb 4 bs with
  | none => none
  | some (emax, r) =>
    match ec8Records emax 32 r with
    | none => none
    | some (xs, r) =>
      let used := bs.length - r.length
      let rest := r.drop ((32 - used % 32) % 32)
      if xs.any Option.isNone then some (ec8Nans, true, rest) else some (xs.filterMap id, false, rest)

/-- The elements of n blocks of a string; a block that the string ends in is malformed (R100). -/
def ec8Elements : Nat → List Bool → List Nat
  | 0, _ => []
  | n + 1, bs =>
    match ec8Decode bs with
    | some (xs, _, rest) => xs ++ ec8Elements n rest
    | none => ec8Nans ++ ec8Elements n []

/-! Tiles (R309, R333). -/

/-- Columns of a tile descriptor (R309). -/
def descCols (d : Word) : Nat := bits d.toNat 33 24 + 1
/-- Rows of a tile descriptor. -/
def descRows (d : Word) : Nat := bits d.toNat 23 16 + 1
/-- Format code of a tile descriptor. -/
def descFmt (d : Word) : Nat := bits d.toNat 15 12
/-- Declared reads of a tile descriptor. -/
def descCount (d : Word) : Nat := bits d.toNat 11 0

/-- Bytes of rows of so many columns of a format (R309). -/
def tileBytes (fmt rows cols : Nat) : Nat := rows * (cols * fmtBits fmt / 8)

/-- The extent TB of a tile in a slot of so many bytes (R309). -/
def descBytes (d : Word) (slot : Nat) : Nat :=
  if descFmt d = 11 then slot else tileBytes (descFmt d) (descRows d) (descCols d)

/-- Whether a descriptor fits a slot of S bytes (R309). -/
def descFits (d : Word) (size : Nat) : Bool :=
  let r := descRows d
  let c := descCols d
  decide (d.toNat < 2 ^ 34) && decide (descFmt d ≤ 11) && (!decide (descFmt d = 6) || decide (c % 2 = 0)) &&
    (if descFmt d = 11 then decide (c % 32 = 0) && decide (r * (c / 32) * 52 ≤ size)
     else decide (tileBytes (descFmt d) r c ≤ size)) &&
    decide (4 * (r + c) ≤ size / 8)

/-- The elements of a tile from its bytes, row by row: EC8 as the E4M3 values its blocks code (R109). -/
def tileElems (fmt rows cols : Nat) (bs : List Byte) : Array Nat :=
  if fmt = 11 then (ec8Elements (rows * (cols / 32)) (stringOf bs)).toArray else unpack (fmtBits fmt) (rows * cols) bs

/-! Sums (R109). -/

/-- One addition of a float checksum. -/
def addF32 (a b : XR) : XR := decodeF .fp32 (roundX .fp32 .rne (xadd .rne a b).1).1

/-- The checksum of elements in their order (R109): integers wrap, raw64 adds its halves, floats are widened exactly and
added one by one in FP32 under RNE. -/
def sumElems (fmt : Nat) (es : List Nat) : Word32 :=
  match fmtFloat (if fmt = 11 then 4 else fmt) with
  | some g => BitVec.ofNat 32 (roundX .fp32 .rne (es.foldl (fun s x => addF32 s (decodeF g x)) (.real false 0 0 false))).1
  | none =>
    if fmt = 0 then BitVec.ofNat 32 (es.foldl (fun s x => s + x % 2 ^ 32 + x / 2 ^ 32) 0)
    else BitVec.ofInt 32 (es.foldl (fun s x => s + intElem fmt x) 0)

/-- Row i of elements. -/
def rowOf (cols : Nat) (xs : Array Nat) (i : Nat) : List Nat := (List.range cols).map (fun j => xs.getD (i * cols + j) 0)

/-- Column j of elements. -/
def colOf (rows cols : Nat) (xs : Array Nat) (j : Nat) : List Nat := (List.range rows).map (fun i => xs.getD (i * cols + j) 0)

/-- The sidecar of elements: the row checksums, then the column checksums (R109, R275). -/
def sumsOf (fmt rows cols : Nat) (xs : Array Nat) : List Word32 :=
  (List.range rows).map (fun i => sumElems fmt (rowOf cols xs i)) ++
    (List.range cols).map (fun j => sumElems fmt (colOf rows cols xs j))

/-- The sidecar of a tile's bytes. -/
def tileSums (fmt rows cols : Nat) (bs : List Byte) : List Word32 := sumsOf fmt rows cols (tileElems fmt rows cols bs)

/-! Comparison with a prediction (R111, R112). -/

/-- The outcome of a comparison: a failure has its delta and its tolerance m·2^e. -/
inductive Compared where
  | pass
  | exempt
  | fail (delta : XR) (tol : Nat × Int)
  deriving DecidableEq, Repr

/-- Exponent of ULP32 of the largest finite magnitude of elements (R111). -/
def ulpExp (es : List Nat) : Int :=
  es.foldl (fun a c => match decodeF .fp32 c with
    | .real _ m e _ => if m = 0 then a else max a (max (expOf m e - 23) (-149))
    | _ => a) (-149)

/-- Whether a magnitude is at most a tolerance. -/
def within (x : XR) (tol : Nat × Int) : Bool :=
  match x with
  | .real _ m e _ => cmpMag m e tol.1 tol.2 != .gt
  | _ => false

/-- A predicted and a computed checksum compared (R111): float results with tolerance K·TOLK·ULP32(M), integer results
exactly. -/
def compareSum (isInt : Bool) (kTolk : Nat) (p s : Word32) (es : List Nat) : Compared :=
  if isInt then
    let d := (s - p).toInt
    if d = 0 then .pass else .fail (intToX d) (0, 0)
  else
    let ps := decodeF .fp32 p.toNat
    let ss := decodeF .fp32 s.toNat
    if ps.isNan || ps.isInf || ss.isNan || ss.isInf then .exempt
    else
      let d := (xadd .rne ss ps.negate).1
      let tol : Nat × Int := (kTolk, ulpExp es)
      if within d tol then .pass else .fail d tol

/-- Two deltas that agree within their tolerances (R112). -/
def deltasAgree (d1 d2 : XR) (t1 t2 : Nat × Int) : Bool :=
  let e := min t1.2 t2.2
  within (xadd .rne d1 d2.negate).1 (t1.1 <<< (t1.2 - e).natAbs + t2.1 <<< (t2.2 - e).natAbs, e)

/-- The one element that failed comparisons point at, with its row's delta (R112): exactly one row and one column failed and
their deltas agree. -/
def pointedAt (rows cols : List (Nat × Compared)) : Option (Nat × Nat × XR) :=
  let failed := fun (l : List (Nat × Compared)) => l.filterMap (fun p => match p.2 with
    | .fail d t => some (p.1, d, t)
    | _ => none)
  match failed rows, failed cols with
  | [(i, d1, t1)], [(j, d2, t2)] => if deltasAgree d1 d2 t1 t2 then some (i, j, d1) else none
  | _, _ => none

/-- Whether any comparison failed. -/
def anyFailed (l : List (Nat × Compared)) : Bool := l.any (fun p => match p.2 with
  | .fail _ _ => true
  | _ => false)

/-- An element less a delta (R112). -/
def corrected (isInt : Bool) (c : Word32) (d : XR) : Word32 :=
  if isInt then
    match d with
    | .real n m _ _ => c - BitVec.ofInt 32 (if n then -(m : Int) else m)
    | _ => c
  else BitVec.ofNat 32 (roundX .fp32 .rne (xadd .rne (decodeF .fp32 c.toNat) d.negate).1).1

end Sys2Proof.Machine
end

