-- ==== Sys2Proof/Machine/Pool.lean ====
section
/-! DEFINITION. The tile pool of an M-cell: handles, allocation, sealing, reads and their ends, and the instructions alloc,
seal and tpdrop (R305-R321). -/

namespace Sys2Proof.Machine

/-! Slots and handles (R305-R307, R310). -/

/-- The slot that begins at a granule. -/
def Pool.slotAt (p : Pool) (g : Nat) : Option PoolSlot := p.slots.find? (fun t => t.first = g)

/-- The partition of a context, with its number (R306). -/
def Pool.partOf (p : Pool) (ctx : Nat) : Option (Nat × Partition) := p.parts.find? (fun q => q.2.ctx = ctx)

/-- Whether a slot's handle resolves (R310). -/
def PoolState.resolves (t : PoolState) : Bool := t.live

/-- The spill granules of a partition (R448). -/
def Partition.spills (q : Partition) (g : Nat) : Bool := q.spill.any (fun b => decide (b ≤ g) && decide (g < b + 4))

/-- The slot that a handle names for a context; none when it is stale (R307). -/
def Pool.resolve (p : Pool) (ctx handle : Nat) : Option PoolSlot :=
  let g := handle % 4096
  match p.slotAt g, p.partOf ctx with
  | some t, some q =>
    if (g < p.granules || 768 ≤ g) && t.state.resolves && decide (lookupD 0 g p.gens = handle / 4096 % 16) &&
        decide (t.part = q.1) then some t
    else none
  | _, _ => none

/-- The handle of a slot (R307). -/
def Pool.handle (p : Pool) (g : Nat) : Nat := lookupD 0 g p.gens % 16 * 4096 + g

/-- A pool reference of the running hart (R307): the M-cell and the slot, or the cause. -/
def State.resolveRef (s : State) (x : Word) : Except Nat (Nat × PoolSlot) :=
  let v := x.toNat
  let far := decide (bits v 28 28 = 1)
  let cell := bits v 27 16
  if 2 ^ 29 ≤ v || (!far && cell ≠ 0) || (far && !(isM cell && s.myRegion.hasCell cell)) then .error 0x0A
  else
    let c := if far then cell else unitOf (cellOf s.cur)
    match (s.cellAt c).pool.resolve s.hart.ctxId (v % 65536) with
    | some t => .ok (c, t)
    | none => .error 0x20

/-! Retirement and release (R317, R320). -/

/-- A slot with COUNT 0 retires, in the interval given (R317). -/
def PoolSlot.settle (t : PoolSlot) (interval : Nat) : PoolSlot :=
  if t.count = 0 && t.state.resolves then { t with state := .retired interval } else t

/-! Reads (R315, R316). -/

/-- The end of an attempt to admit a read. -/
inductive Admission where
  | admitted (s : State)
  | waiting
  | fault (code : Nat)

/-- The admission of a read of a slot by a hart (R315). -/
def State.admitRead (s : State) (c h ctx handle : Nat) (consuming : Bool) : Admission :=
  match (s.cellAt c).pool.resolve ctx handle with
  | none => .fault 0x20
  | some t =>
    if t.state = .filling then .waiting
    else if consuming then
      if t.claims = t.count then .fault 0x21
      else .admitted ((s.modPool c h (fun p => p.modSlot t.first (fun t => { t with claims := t.claims + 1 }))).fire (s.cellRegion c))
    else .admitted ((s.modPool c h (fun p => p.modSlot t.first (fun t => { t with pins := t.pins + 1 }))).fire (s.cellRegion c))

/-- The completion of a read by a hart (R316, R317). -/
def State.endRead (s : State) (c h first : Nat) (consuming : Bool) : State :=
  let iv := s.interval (s.cellRegion c) h
  let wave := s.waveOf c
  let f := fun (t : PoolSlot) =>
    if consuming then ({ t with count := t.count - 1, claims := t.claims - 1 }).settle iv else { t with pins := t.pins - 1 }
  (s.modPool c h (fun p => (p.modSlot first f).sweep wave)).fire (s.cellRegion c)

/-- The bytes of a slot's tile: its extent TB (R309). -/
def State.slotBytes (s : State) (c : Nat) (t : PoolSlot) : List Byte :=
  (s.cellAt c).sram.read ((s.cellAt c).slotBase t.first) (descBytes t.desc (4096 * t.n))

/-- The sums of a slot's tile as it stands (R109, R314). -/
def State.slotSums (s : State) (c : Nat) (t : PoolSlot) : List Word32 :=
  tileSums (descFmt t.desc) (descRows t.desc) (descCols t.desc) (s.slotBytes c t)

/-! Allocation (R311, R312). -/

/-- Whether a granule is in no slot. -/
def Pool.isFree (p : Pool) (g : Nat) : Bool := !p.slots.any (fun t => decide (t.first ≤ g) && decide (g < t.first + t.n))

/-- Whether a granule is in the own range of a partition (R305, R306). -/
def Partition.owns (q : Partition) (g : Nat) : Bool := (decide (q.base ≤ g) && decide (g < q.base + q.min)) || q.spills g

/-- The lowest aligned run of n FREE granules that a test accepts. -/
def Pool.run (p : Pool) (n : Nat) (ok : Nat → Bool) (gs : List Nat) : Option Nat :=
  gs.find? (fun g => decide (g % n = 0) && (List.range n).all (fun i => ok (g + i) && p.isFree (g + i)))

/-- The granules chosen for a request of n in a partition (R312). -/
def Pool.choose (p : Pool) (q : Partition) (n : Nat) : Option Nat :=
  let own := (List.range q.min).map (fun i => q.base + i) ++ q.spill.flatMap (fun b => (List.range 4).map (fun i => b + i))
  match p.run n q.owns own with
  | some g => some g
  | none =>
    if q.used + n ≤ q.max then
      p.run n (fun g => decide (g < p.granules) && !p.parts.any (fun r => r.2.owns g)) (List.range p.granules)
    else none

/-- The pool with a request served at a granule (R311, R312). -/
def Pool.give (p : Pool) (k : Nat) (a : AllocReq) (g : Nat) : Pool :=
  { p with
    slots := p.slots ++ [⟨g, a.n, k, .filling, a.desc, a.hart, descCount a.desc, 0, 0, [], none, []⟩]
    parts := p.parts.map (fun q => if q.1 = k then (k, { q.2 with used := q.2.used + a.n }) else q)
    queues := p.queues.map (fun q => if q.1 = k then (k, q.2.drop 1) else q) }

/-- The answer of a pool to a hart: at once in its own cell, else by a packet (R308, R311). -/
def State.answerAlloc (s : State) (c h handle : Nat) : State :=
  if cellOf h = c then s.setHart h { s.hartAt h with reply := some (BitVec.ofNat 64 handle) }
  else
    match s.requests.find? (fun q => q.what = .pool h) with
    | some q => s.send ⟨9, true, 0, cellOf h, c, (s.hartAt h).ctxId, q.xid, 0, natBytes 8 handle, []⟩
    | none => s

/-- ALLOC_SERVE (R312): the head of a partition's allocation queue is served when a run of FREE granules is there. -/
def execAllocServe (cell part : Nat) (s : State) : Out :=
  let p := (s.cellAt cell).pool
  match lookup part p.parts, lookupD [] part p.queues with
  | some q, a :: _ =>
    match (if s.cellMoves cell then p.choose q a.n else none) with
    | some g =>
      let s := (s.modPool cell a.hart (fun p => p.give part a g)).fire (s.cellRegion cell)
      .next (s.answerAlloc cell a.hart (p.handle g))
    | none => .next s
  | _, _ => .next s

/-- A request put in the queue of a partition, behind those that came before. -/
def Pool.enqueue (p : Pool) (k : Nat) (a : AllocReq) : Pool :=
  { p with queues := insertAt k (lookupD [] k p.queues ++ [a]) p.queues }

/-- A request of the running streamer on its way to its pool (R308). -/
def State.askPool (s : State) (k : Nat) (a : AllocReq) : State :=
  let c := unitOf (cellOf s.cur)
  if cellOf s.cur = c then s.modPool c s.cur (fun p => p.enqueue k a)
  else
    s.request s.hart.regionId (.pool s.cur)
      ⟨8, false, 0, c, cellOf s.cur, s.hart.ctxId, 0, s.cur, natBytes 8 a.n ++ natBytes 8 a.desc.toNat, []⟩

/-- alloc (R311, R312, R439). -/
def allocOp (word : Word) (d a : Reg) (size : BitVec 2) (s : State) : Act :=
  srcU s a fun x s =>
    let note := fun (s : State) => s.note x.poison 4
    let s := note s
    let n := 2 ^ size.toNat
    if s.draining then dstU (s.dropAlloc s.cur) d (UVal.plain 0#64)
    else if descCount x.val = 0 then .trapWith note 0x01 word
    else if !descFits x.val (4096 * n) then .trapWith note 0x11 x.val
    else
      match (s.cellAt (unitOf (cellOf s.cur))).pool.partOf s.hart.ctxId with
      | none => .trapWith note 0x23 x.val
      | some (k, q) =>
        if q.max < n then .trapWith note 0x23 x.val
        else
          match s.hart.reply with
          | some w => dstU s d (UVal.plain w)
          | none =>
            if s.hart.stage = .arrived then .wait .pool id
            else .wait .pool (fun s => ((note s).askPool k ⟨s.cur, n, x.val⟩).arrive)

/-- ALLOC (R311). -/
def execAlloc (tk : Tok) (d a : Reg) (size : BitVec 2) (s : State) : Out :=
  runHart (.alloc tk d a size) tk s (allocOp (instrWord (.alloc tk d a size)) d a size)

/-- POOL_REQUEST (R308, R406): a request reaches its pool and enters the queue of its context's partition. -/
def execPoolRequest (n : Nat) (s : State) : Out :=
  match s.takePacket n 8 with
  | none => .next s
  | some (p, t) =>
    match (t.cellAt p.dst).pool.partOf p.ctx with
    | some (k, _) =>
      .next (t.modPool p.dst p.addr (fun q => q.enqueue k ⟨p.addr, dwordAt p.payload 0, BitVec.ofNat 64 (dwordAt p.payload 8)⟩))
    | none => .next t

/-- POOL_REPLY (R308, R406): the handle reaches the hart that waits for it. -/
def execPoolReply (n : Nat) (s : State) : Out :=
  match s.takePacket n 9 with
  | none => .next s
  | some (p, t) =>
    match t.takeRequest p.xid with
    | some (q, t) =>
      match q.what with
      | .pool h => .next (t.setHart h { t.hartAt h with reply := some (BitVec.ofNat 64 (dwordAt p.payload 0)) })
      | _ => .next t
    | none => .next t

/-! Sealing (R314). -/

/-- Whether byte ranges cover the bytes below n. -/
def coverAll (rs : List (Nat × Nat)) (n : Nat) : Bool :=
  decide (n ≤ (sortBy (fun r => r.1) rs).foldl (fun p r => if r.1 ≤ p then max p r.2 else p) 0)

/-- A byte range added to ranges; one that goes on from the last is joined to it. -/
def addRange (rs : List (Nat × Nat)) (a b : Nat) : List (Nat × Nat) :=
  match rs with
  | (x, y) :: rest => if y = a then (x, b) :: rest else (a, b) :: rs
  | [] => [(a, b)]

/-- Whether an ACTIVE stream of a hart, or a tile copy it sent, names a pool slot (R313, R314). -/
def State.namesSlot (s : State) (h c first : Nat) : Bool :=
  let tile := fun (ds : List Word) (sender : Nat) =>
    let ref := (ds.getD 4 0#64).toNat
    decide (sender = h) && decide (bits ((ds.getD 0 0#64).toNat) 63 56 = 4) && (ds.getD 2 0#64).getLsbD 1 &&
      decide ((if bits ref 28 28 = 1 then bits ref 27 16 else unitOf (cellOf sender)) = c) && decide (ref % 4096 = first)
  (decide (unitOf (cellOf h) = c) &&
    (List.range 8).any (fun k =>
      let t := (s.hartAt h).slot k
      decide (t.state = .active) && t.cmd.any (fun m => decide (m.space = 2) && decide (m.base % 4096 = first)))) ||
  s.cells.any (fun x => x.2.inbox.any (fun m => tile m.dwords m.sender)) ||
  s.net.any (fun p => decide (p.type = 6) && decide (p.addr / 65536 = 0) &&
    tile ((List.range 8).map (fun k => BitVec.ofNat 64 (dwordOf p.payload k))) (p.addr % 65536))

/-- The bytes of a tile that nothing has written since its alloc become 0 (R314). -/
def State.zeroUnwritten (s : State) (c h : Nat) (t : PoolSlot) : State :=
  let tb := descBytes t.desc (4096 * t.n)
  let base := (s.cellAt c).slotBase t.first
  (((List.range tb).filter (fun i => !t.written.any (fun r => decide (r.1 ≤ i) && decide (i < r.2)))).foldl
    (fun s i => s.fillPool c h (base + i) [0#8] false) s)

/-- seal (R314). -/
def sealOp (a : Reg) (s : State) : Act :=
  srcU s a fun x s =>
    let note := fun (s : State) => s.note x.poison 4
    let s := note s
    match s.resolveRef x.val with
    | .error code => .trapWith note code x.val
    | .ok (c, t) =>
      if t.state ≠ .filling || t.owner ≠ s.cur then .trapWith note 0x22 x.val
      else if s.namesSlot s.cur c t.first then .wait .pool id
      else
        let s := if coverAll t.written (descBytes t.desc (4096 * t.n)) then s else s.zeroUnwritten c s.cur t
        let sums := s.slotSums c t
        let s := s.modPool c s.cur (fun p => p.modSlot t.first (fun t => { t with state := .sealed, sidecar := sums }))
        .done (if t.arrived.any (fun w => w ≠ sums) then s.cause s.hart.regionId 0x40 else s)

/-- SEAL (R314). -/
def execSealTile (tk : Tok) (a : Reg) (s : State) : Out := runHart (.sealTile tk a) tk s (sealOp a)

/-! Abandoned readers (R318). -/

/-- tpdrop (R318). -/
def tpdropOp (a b : Reg) (s : State) : Act :=
  srcU s a fun x s => srcU s b fun y s =>
    let note := fun (s : State) => s.note (x.poison || y.poison) 4
    let s := note s
    match s.resolveRef x.val with
    | .error code => .trapWith note code x.val
    | .ok (c, t) =>
      let d := y.val.toNat
      if t.count - t.claims < d then .trapWith note 0x21 x.val
      else
        let iv := s.interval (s.cellRegion c) s.cur
        let wave := s.waveOf c
        .done (s.modPool c s.cur (fun p =>
          (p.modSlot t.first (fun t => ({ t with count := t.count - d }).settle iv)).sweep wave))

/-- TPDROP (R318). -/
def execTpdrop (tk : Tok) (a b : Reg) (s : State) : Out := runHart (.tpdrop tk a b) tk s (tpdropOp a b)

end Sys2Proof.Machine
end

