-- ==== Sys2Proof/Machine/Switch.lean ====
section
/-! DEFINITION. Switch processors and the static network: what stands at an input, what an output takes, the delivery of a
flit, the switch words, and a seam that cannot deliver (R265-R287, R381, R382). -/

namespace Sys2Proof.Machine

/-! Inputs. -/

/-- The switch of a cell as a party. -/
def switchOf (c : Nat) : Nat := 8 * c + 7

/-- Whether the switch of a cell has taken its part of the wave in flight. -/
def State.switchTaken (s : State) (c : Nat) : Bool := s.taken (s.cellRegion c) (switchOf c)

/-- The flit at the head of an input buffer of a switch, and the buffer without it: KERF and SWT flits are no flits for a
switch word, and one at the head holds the others back (R269, R430, R442). -/
def State.headFlit (s : State) (c key : Nat) : Option (Flit × Fifo) := (s.cellAt c).popBuf key (s.switchTaken c)

/-- A data flit that crosses a port of a cell is counted (R427). -/
def State.countPort (s : State) (c port : Nat) (f : Flit) : State :=
  if f.isData then
    s.modCell c (fun x => { x with counts := insertAt port (lookupD 0 port x.counts + 1) x.counts })
  else s

/-- The head of an input taken by the switch; the region fires (R447). -/
def State.popFlit (s : State) (c inp key : Nat) (f : Flit) (rest : Fifo) : State :=
  ((s.modCell c (fun x => x.setBuf key rest)).countPort c inp f).fire (s.cellRegion c)

/-! Outputs (R268, R271, R273, R274). -/

/-- Flits that stand at a port register: a tagged data flit whose tag flit is in counts two (R268, R274). -/
def portCount (is : List PortItem) : Nat :=
  (is.map (fun i => if i.flit.isMarker then 0 else if i.tags.isSome then 2 else 1)).foldl (· + ·) 0

/-- The key under which the enlargement of a port delivery is kept (R448). -/
def portGrown (pk : Nat) : Nat := 256 + pk

/-- Whether a channel input takes flits of the switch at the other end of its link: both cells belong to one region. A flit that a
program routes over the edge of its region waits for ever, so that no other context sees it (R13; assumption 80). -/
def State.sameRegion (s : State) (c key : Nat) : Bool :=
  decide (8 ≤ key) || (neighbour c key).all (fun n => decide (s.regionOfCell n = s.regionOfCell c))

/-- Whether a tie that a switch feeds has room for one more flit. -/
def State.tieRoom (s : State) (t : Tie) : Bool :=
  match t with
  | .buf c key => s.sameRegion c key && s.bufRoom c key 1
  | .port c pk => decide (portCount (lookupD [] pk (s.cellAt c).ports) < 2 + lookupD 0 (portGrown pk) (s.cellAt c).grown)
  | _ => false

/-- The key of the scale state of a virtual channel at a port (R106). -/
def scaleKey (pk inp vc : Nat) : Nat := 256 * pk + 32 * inp + vc

/-- How many places stand at the end of a delivery from the last data flit of an input and channel on. -/
def placesFrom (inp : Nat) (f : Flit) (is : List PortItem) : Nat :=
  (is.reverse.takeWhile (fun i => i.flit.isMarker || decide (i.input ≠ inp) || decide (i.flit.vc ≠ f.vc))).length + 1

/-- The tag flit of the last data flit of its input and channel comes in (R274). -/
def attachTags (inp : Nat) (f : Flit) (is : List PortItem) : Option (List PortItem) :=
  match is.reverse.find? (fun i => !i.flit.isMarker && decide (i.input = inp) && decide (i.flit.vc = f.vc)) with
  | some i =>
    if i.tagged && i.flit.isData && i.tags.isNone then
      let fl : Flit := if f.kind = 7#3 then { i.flit with kind := 7#3 } else i.flit
      some (((is.reverse).replace i { i with tags := some (f.data.setWidth 64), flit := fl }).reverse)
    else none
  | none => none

/-- The matrix node of a cell changed. -/
def Cell.modNode (k : Cell) (f : Node → Node) : Cell := { k with mxe := { k.mxe with node := f k.mxe.node } }

/-- A flit delivered to a port register of a compute hart (R107, R273, R274): scale flits are absorbed, tag flits are joined
to their data flits, and data flits keep the scale bytes of their elements. A control flit ends a group of scales. The matrix
node, the converter, the compressor and the copy engine take their flits as they are (R107, R273). -/
def Cell.deliver (k : Cell) (pk inp : Nat) (f : Flit) : Cell :=
  let e := k.cftEntry inp f.vc.toNat
  let is := lookupD [] pk k.ports
  let sk := scaleKey pk inp f.vc.toNat
  let put := fun (k : Cell) (i : PortItem) => { k with ports := insertAt pk (is ++ [i]) k.ports }.pushed (512 + pk) 1
  if 56 ≤ pk then
    (put k ⟨f, inp, [], false, none⟩).modNode (fun n => { n with order := n.order ++ [pk - 56] })
  else if 48 ≤ pk then put k ⟨f, inp, [], false, none⟩
  else if !f.isData then put { k with scaleAt := removeAt sk k.scaleAt } ⟨f, inp, [], false, none⟩
  else
    let tagged := decide (bits e 11 10 = 1)
    match (if tagged then attachTags inp f is else none) with
    | some is' => { k with ports := insertAt pk is' k.ports }.setYoung (512 + pk) (max (k.youngOf (512 + pk)) (placesFrom inp f is))
    | none =>
      let b := blkSize (bits e 9 8)
      if b = 0 then put k ⟨f, inp, [], tagged, none⟩
      else
        let st := lookupD ⟨[], 0, false⟩ sk k.scaleAt
        if st.left.isEmpty then
          { k with scaleAt := insertAt sk ⟨natBytes 32 f.data.toNat, 0, decide (f.kind = 7#3)⟩ k.scaleAt }
        else
          let n := blockLanes (e % 16)
          let sc := (List.range n).map (fun i => st.left.getD ((st.taken + i) / b) 0x7F#8)
          let used := st.taken + n
          let left := st.left.drop (used / b)
          let f := if st.poison then { f with kind := 7#3 } else f
          put { k with scaleAt := if left.isEmpty then removeAt sk k.scaleAt else insertAt sk ⟨left, used % b, st.poison⟩ k.scaleAt }
            ⟨f, inp, sc, tagged, none⟩

/-- The subtype of a control token as its receiver takes it: a reserved one counts as 0x3F (R266). -/
def Flit.sub (f : Flit) : Nat := (flitToken f).sub.toNat

/-- The owner of an entry of the ownership table, or none in transit, as the switch of a cell changes it (R382). -/
def State.setOwner (s : State) (c k : Nat) (h : Option Nat) : State :=
  let r := s.cellRegion c
  s.modOwners r (switchOf c) (fun os => os.map (fun o => if o.1 = k then (k, (o.2.1, (o.2.2.1, h))) else o))

/-- A TENON that reaches a streamer: the streamer named in it becomes the owner, and the flit is consumed; another
streamer gets it as an ordinary flit (R382). -/
def State.takeTenon (s : State) (c l : Nat) (f : Flit) : Option State :=
  let h := 8 * c + l
  if f.kind = 6#3 && decide (f.sub = 4) && isStreamer h && decide (bits f.data.toNat 22 8 = h) then
    some ((s.setOwner c (bits f.data.toNat 7 0) (some h)).dropLines c)
  else none

/-- A flit pushed by a switch into what one of its outputs leads to (R271); `inp` is the input it arrived on (R273). -/
def State.pushTie (s : State) (c inp : Nat) (t : Tie) (f : Flit) : State :=
  match t with
  | .buf d key =>
    match (if 128 ≤ key then s.takeTenon d ((key - 128) / 16) f else none) with
    | some t => t
    | none => s.pushFlits d key (switchOf c) [f]
  | .port d pk =>
    let r := s.cellRegion d
    let s := if s.late r (switchOf c) (if 56 ≤ pk then 32768 + d else 8 * d + pk / 8) then
        s.modTaking r (fun k =>
          let x := (({ Cell.reset with
            cfg := (s.cellAt d).cfg, ports := [(pk, lookupD [] (d * 64 + pk) k.ports)], scaleAt := (s.cellAt d).scaleAt }).deliver pk inp f)
          { k with ports := insertAt (d * 64 + pk) (lookupD [] pk x.ports) k.ports })
      else s
    s.modCell d (fun x => x.deliver pk inp f)
  | _ => s

/-- The outputs of routes from one input, if every one has room. -/
def State.roomFor (s : State) (ts : List (Nat × Tie)) : Bool := ts.all (fun t => s.tieRoom t.2)

/-- A flit pushed to outputs of a switch, each counted (R427); the region fires (R447). -/
def State.pushAll (s : State) (c inp : Nat) (f : Flit) (ts : List (Nat × Tie)) : State :=
  (ts.foldl (fun s t => (s.pushTie c inp t.2 f).countPort c (32 + t.1) f) s).fire (s.cellRegion c)

/-! The end of a switch word. -/

/-- The running word of a switch is complete and another one follows (R277). -/
def State.switchGo (s : State) (c pc : Nat) : State :=
  s.modCell c (fun x => { x with sw := { x.sw with pc := pc, left := [] } })

/-- The next word follows. -/
def State.switchNext (s : State) (c : Nat) : State := s.switchGo c ((s.cellAt c).sw.pc + 1)

/-- The progress of the running word changed. -/
def State.setLeft (s : State) (c : Nat) (l : List Nat) : State :=
  s.modCell c (fun x => { x with sw := { x.sw with left := l } })

/-! Routes (R280, R281). -/

/-- A route: its input, its output. -/
abbrev Route := Nat × Nat

/-- The routes of a word. -/
def routesOf (n : BitVec 2) (r0 r1 r2 r3 : BitVec 10) : List Route :=
  ([r0, r1, r2, r3].take (n.toNat + 1)).map (fun b => (b.toNat / 32, b.toNat % 32))

/-- One clk of the routes that read one buffer: the flit at its head goes to every output of theirs when each has room. The
answer says which flit passed. -/
def State.passKey (s : State) (c key : Nat) (rs : List Route) : Option (Flit × State) :=
  match s.headFlit c key with
  | none => none
  | some (f, rest) =>
    let ts := rs.filterMap (fun r => (outTie c r.1 r.2).map (fun t => (r.2, t)))
    if ts.length = rs.length && s.roomFor ts then
      let inp := (rs.head?.map Prod.fst).getD 0
      some (f, (s.popFlit c inp key f rest).pushAll c inp f ts)
    else none

/-- The buffers that routes read, without repeats, in the order of the routes. -/
def routeKeys (c : Nat) (rs : List Route) : List Nat := distinct (rs.map (fun r => inKey c r.1 r.2))

/-- One clk of counted routes (R280): each buffer in a list of keys passes at most one flit, and each route that passes it
counts it. -/
def State.passCounted (s : State) (c : Nat) (rs : List Route) (keys : List Nat) : State :=
  keys.foldl (fun s key =>
    let left := (s.cellAt c).sw.left
    let live := (rs.zip left).filter (fun p => decide (inKey c p.1.1 p.1.2 = key) && decide (0 < p.2))
    if live.isEmpty then s
    else
      match s.passKey c key (live.map Prod.fst) with
      | none => s
      | some (_, t) =>
        t.setLeft c ((rs.zip left).map (fun p => if decide (inKey c p.1.1 p.1.2 = key) && decide (0 < p.2) then p.2 - 1 else p.2))) s

/-- The progress of a word that has not begun: so many flits or items to pass. -/
def State.begin (s : State) (c n count : Nat) : State :=
  if (s.cellAt c).sw.left.isEmpty then s.setLeft c (List.replicate n count) else s

/-- The word ends when nothing is left to pass. -/
def State.endCounted (s : State) (c : Nat) : State :=
  if (s.cellAt c).sw.left.all (· = 0) then s.switchNext c else s

/-- A counted route word for the buffers that a test selects (R280). -/
def routeStep (c : Nat) (n : BitVec 2) (r0 r1 r2 r3 : BitVec 10) (cnt : BitVec 12) (p : Nat → Bool) (s : State) : State :=
  let rs := routesOf n r0 r1 r2 r3
  ((s.begin c rs.length (cnt.toNat + 1)).passCounted c rs ((routeKeys c rs).filter p)).endCounted c

/-- An uncounted route word (R281): route 0's buffer first, so that the word ends in the clk in which a flit of the named
kind passes there; the others act in that clk as in any other. -/
def routecStep (c : Nat) (n : BitVec 2) (r0 r1 r2 r3 : BitVec 10) (kind : BitVec 3) (p : Nat → Bool) (s : State) : State :=
  let rs := routesOf n r0 r1 r2 r3
  let keys := routeKeys c rs
  let k0 := keys.headD 0
  let on := fun (key : Nat) => rs.filter (fun r => decide (inKey c r.1 r.2 = key))
  let others := fun (p : Nat → Bool) (s : State) =>
    ((keys.drop 1).filter p).foldl (fun s key => ((s.passKey c key (on key)).map Prod.snd).getD s) s
  match (if p k0 then s.passKey c k0 (on k0) else none) with
  | some (f, t) => if f.kind = kind then (others (fun _ => true) t).switchNext c else others p t
  | none => others p s

/-! Steering and merging (R282, R283). -/

/-- The decision that a flit on a control input makes; other control flits make none. -/
def Flit.decision (f : Flit) : Option Bool :=
  if f.isData then some (f.data.getLsbD 0)
  else if f.kind = 6#3 && decide (f.sub = 5) then some (f.data.getLsbD 0)
  else none

/-- A data flit passed under a decision: poisoned when either was (R282). -/
def Flit.under (d ctl : Flit) : Flit := if ctl.kind = 7#3 then { d with kind := 7#3 } else d

/-- One flit of a steer in one clk (R282). -/
def State.steerPass (s : State) (c inp o0 o1 ctl : Nat) : State :=
  match s.headFlit c inp with
  | none => s
  | some (d, drest) =>
    match outTie c inp o0, outTie c inp o1 with
    | some t0, some t1 =>
      if !d.isData then
        (if s.tieRoom t0 && s.tieRoom t1 then (s.popFlit c inp inp d drest).pushAll c inp d [(o0, t0), (o1, t1)] else s)
      else
        match s.headFlit c ctl with
        | none => s
        | some (k, krest) =>
          match k.decision with
          | none => s.popFlit c ctl ctl k krest
          | some b =>
            let (o, t) := if b then (o1, t1) else (o0, t0)
            if s.tieRoom t then
              let s := (s.popFlit c ctl ctl k krest).popFlit c inp inp d drest
              let s := s.pushAll c inp (d.under k) [(o, t)]
              s.setLeft c ((s.cellAt c).sw.left.map (· - 1))
            else s
    | _, _ => s

/-- Whether two control flits differ in kind, subtype or payload (R283). -/
def Flit.differs (a b : Flit) : Bool :=
  decide (a.kind ≠ b.kind) || (decide (a.kind = 6#3) && decide (a.sub ≠ b.sub)) ||
    decide (a.data.extractLsb' 0 32 ≠ b.data.extractLsb' 0 32)

/-- One item of a merge in one clk (R283): what it passes counts as in0's at the output (R271). -/
def State.mergePass (s : State) (c i0 i1 out ctl : Nat) : State :=
  match outTie c i0 out with
  | none => s
  | some t =>
    let a := s.headFlit c i0
    let b := s.headFlit c i1
    match (match a, b with
      | some (f, fr), some (g, gr) => if !f.isData && !g.isData then some (f, fr, g, gr) else none
      | _, _ => none) with
    | some (f, fr, g, gr) =>
      let two := f.differs g
      let room := s.tieRoom t && (!two || (match t with
        | .buf d key => s.bufRoom d key 2
        | .port d pk =>
          decide (portCount (lookupD [] pk (s.cellAt d).ports) + 2 ≤ 2 + lookupD 0 (portGrown pk) (s.cellAt d).grown)
        | _ => false))
      if room then
        let s := ((s.popFlit c i0 i0 f fr).popFlit c i1 i1 g gr).pushAll c i0 f [(out, t)]
        if two then s.pushAll c i1 g [(out, t)] else s
      else s
    | none =>
      match s.headFlit c ctl with
      | none => s
      | some (k, krest) =>
        match k.decision with
        | none => s.popFlit c ctl ctl k krest
        | some bit =>
          let i := if bit then i1 else i0
          match (if bit then b else a) with
          | some (d, drest) =>
            if d.isData && s.tieRoom t then
              let s := (s.popFlit c ctl ctl k krest).popFlit c i i d drest
              let s := s.pushAll c i (d.under k) [(out, t)]
              s.setLeft c ((s.cellAt c).sw.left.map (· - 1))
            else s
          | none => s

/-! The switch words. -/

/-- ROUTE (R280). -/
def execRoute (n : BitVec 2) (r0 r1 r2 r3 : BitVec 10) (cnt : BitVec 12) (s : State) : Out :=
  .next (routeStep (cellOf s.cur) n r0 r1 r2 r3 cnt (fun _ => true) s)

/-- ROUTEC (R281). -/
def execRoutec (n : BitVec 2) (r0 r1 r2 r3 : BitVec 10) (kind : BitVec 3) (s : State) : Out :=
  .next (routecStep (cellOf s.cur) n r0 r1 r2 r3 kind (fun _ => true) s)

/-- STEER (R282). -/
def execSteer (inp out0 out1 ctl : BitVec 5) (cnt : BitVec 12) (s : State) : Out :=
  let c := cellOf s.cur
  .next (((s.begin c 1 (cnt.toNat + 1)).steerPass c inp.toNat out0.toNat out1.toNat ctl.toNat).endCounted c)

/-- MERGE (R283). -/
def execMerge (in0 in1 out ctl : BitVec 5) (cnt : BitVec 12) (s : State) : Out :=
  let c := cellOf s.cur
  .next (((s.begin c 1 (cnt.toNat + 1)).mergePass c in0.toNat in1.toNat out.toNat ctl.toNat).endCounted c)

/-- The flit that an emit pushes (R284). -/
def emitFlit (kind : BitVec 3) (vc : BitVec 5) (sb : BitVec 6) (value : BitVec 32) : Flit :=
  ⟨kind, vc, if kind = 6#3 then (sb ++ value).setWidth 256 else value.setWidth 256⟩

/-- The owner of an entry of the ownership table gives it away in a TENON that its cell emits (R382): none while the owner is
no streamer of the cell. Its elements have performed as they were made. -/
def State.releaseOwner (s : State) (c : Nat) (value : Nat) : Option State :=
  let r := s.cellRegion c
  match (s.region? r).bind (fun g => lookup (bits value 7 0) g.owners) with
  | some (_, (_, some h)) => if cellOf h = c then some (s.setOwner c (bits value 7 0) none) else none
  | _ => none

/-- EMIT (R284, R382). -/
def execEmit (out : BitVec 5) (kind : BitVec 3) (vc : BitVec 5) (sb : BitVec 6) (value : BitVec 32) (s : State) : Out :=
  let c := cellOf s.cur
  match outTie c 31 out.toNat with
  | none => .next s
  | some t =>
    if s.tieRoom t then
      let f := emitFlit kind vc sb value
      match (if kind = 6#3 && sb = 4#6 then s.releaseOwner c value.toNat else some s) with
      | some s => .next ((s.pushAll c 31 f [(out.toNat, t)]).switchNext c)
      | none => .next s
    else .next s

/-- Whether a flit is what a waittok looks for (R285). -/
def Flit.matchesTok (f : Flit) (kind : BitVec 3) (sb : BitVec 6) : Bool :=
  decide (f.kind = kind) && (decide (kind ≠ 6#3) || decide (sb = 0x3F#6) || decide (f.sub = sb.toNat))

/-- WAITTOK (R285). -/
def execWaittok (inp : BitVec 5) (kind : BitVec 3) (sb : BitVec 6) (ld : BitVec 1) (ck : BitVec 2) (target : BitVec 12) (s : State) : Out :=
  let c := cellOf s.cur
  match s.headFlit c inp.toNat with
  | none => .next s
  | some (f, rest) =>
    if f.matchesTok kind sb then
      let s := s.popFlit c inp.toNat inp.toNat f rest
      let s := if ld = 1#1 then
          s.modCell c (fun x => { x with sw := { x.sw with c := x.sw.c.setIfInBounds ck.toNat (f.data.extractLsb' 0 24) } })
        else s
      .next (s.switchNext c)
    else .next (s.switchGo c target.toNat)

/-- LOOP (R286). -/
def execLoop (ck : BitVec 2) (n : BitVec 24) (s : State) : Out :=
  let c := cellOf s.cur
  .next ((s.modCell c (fun x => { x with sw := { x.sw with c := x.sw.c.setIfInBounds ck.toNat n } })).switchNext c)

/-- BNZ (R286). -/
def execBnz (ck : BitVec 2) (target : BitVec 12) (s : State) : Out :=
  let c := cellOf s.cur
  let v := (s.cellAt c).sw.c[ck.toNat]?.getD 0#24
  let v' := if v = 0#24 then v else v - 1#24
  let s := s.modCell c (fun x => { x with sw := { x.sw with c := x.sw.c.setIfInBounds ck.toNat v' } })
  .next (if v' = 0#24 then s.switchNext c else s.switchGo c target.toNat)

/-- JMP (R286). -/
def execJmp (target : BitVec 12) (s : State) : Out := .next (s.switchGo (cellOf s.cur) target.toNat)

/-- HALT (R286). -/
def execHalt (s : State) : Out :=
  .next (s.modCell (cellOf s.cur) (fun x => { x with sw := { x.sw with halt := true } }))

/-- SWITCH_FLIT_PASS (R277, R280-R283): the running word of a cell passes what stands at one input port, as it does in one
clk. -/
def execSwitchFlitPass (cell port : Nat) (s : State) : Out :=
  let s := s.as (switchOf cell)
  if !s.cellMoves cell then .next s
  else
    match s.fetchSwitch cell with
    | .ok (some i) =>
      let on := fun (key : Nat) => if port < 8 then decide (key = port) else decide (64 + 8 * (port - 8) ≤ key) && decide (key < 72 + 8 * (port - 8))
      match i with
      | .route n r0 r1 r2 r3 cnt => .next (routeStep cell n r0 r1 r2 r3 cnt on s)
      | .routec n r0 r1 r2 r3 kind => .next (routecStep cell n r0 r1 r2 r3 kind on s)
      | .steer inp out0 out1 ctl cnt => if inp.toNat = port then execSteer inp out0 out1 ctl cnt s else .next s
      | .merge in0 in1 out ctl cnt => if in0.toNat = port || in1.toNat = port then execMerge in0 in1 out ctl cnt s else .next s
      | _ => .next s
    | _ => .next s

/-- SEAM_RETRY_FAILURE (R270): the flit that came last over a seam to an input cannot be delivered intact: a data flit is
poisoned, a control flit is lost and raises UE. -/
def execSeamRetryFailure (cell port : Nat) (s : State) : Out :=
  if isSeam cell port && decide (port < 8) then
    match ((s.cellAt cell).buf port).reverse with
    | [] => .next s
    | f :: rest =>
      if f.isData then .next (s.modCell cell (fun x => x.setBuf port (({ f with kind := 7#3 } :: rest).reverse)))
      else if f.isMarker then .next s
      else .next ((s.modCell cell (fun x => x.setBuf port rest.reverse)).cause (s.cellRegion cell) 0x48)
  else .next s

end Sys2Proof.Machine
end

