-- ==== Sys2Proof/Machine/Tiles.lean ====
section
/-! DEFINITION. Tile registers and their shapes (R331-R338, R345). -/

namespace Sys2Proof.Machine

/-! Shapes (R332, R333). -/

/-- Columns of a TSHP value. -/
def shpCols (v : Word) : Nat := bits v.toNat 7 0 + 1
/-- Rows of a TSHP value. -/
def shpRows (v : Word) : Nat := bits v.toNat 13 8 + 1
/-- Format code of a TSHP value. -/
def shpFmt (v : Word) : Nat := bits v.toNat 20 17
/-- Block size of a TSHP value: 0 for none. -/
def shpBlock (v : Word) : Nat := blkSize (bits v.toNat 22 21)
/-- Direction of the blocks of a TSHP value: true along each column. -/
def shpDown (v : Word) : Bool := v.getLsbD 23

/-- Data bytes TB of a TSHP value (R333). -/
def shpBytes (v : Word) : Nat := tileBytes (shpFmt v) (shpRows v) (shpCols v)

/-- Scale bytes SB of a TSHP value (R333). -/
def shpScales (v : Word) : Nat := if shpBlock v = 0 then 0 else shpRows v * shpCols v / shpBlock v

/-- A legal TSHP value (R333). -/
def shpLegal (v : Word) : Bool :=
  let f := shpFmt v
  let b := shpBlock v
  decide (1 ≤ f) && decide (f ≤ 10) && decide (shpRows v * shpCols v * fmtBits f ≤ 65536) &&
    (decide (f ≠ 6) || decide (shpCols v % 2 = 0)) &&
    (decide (b = 0) ||
      (decide (4 ≤ f) && decide (f ≤ 8) && (if shpDown v then decide (shpRows v % b = 0) else decide (shpCols v % b = 0))))

/-- Precision q of a format code, EC8's that of E4M3, 24 for an integer format (R82, R114, R334). -/
def fmtPrec (f : Nat) : Nat := if f = 11 then FFmt.prec .e4m3 else ((fmtFloat f).map FFmt.prec).getD 24

/-! Tile registers (R334). -/

/-- A tile register of an engine. -/
def Mxe.tile (m : Mxe) (n : Nat) : Tile := m.tiles[n]?.getD Tile.reset

/-- The shape of a tile register. -/
def Mxe.shape (m : Mxe) (n : Nat) : Word := m.tshp[n]?.getD 0#64

/-- The engine with a tile register replaced. -/
def Mxe.setTile (m : Mxe) (n : Nat) (t : Tile) : Mxe := { m with tiles := m.tiles.setIfInBounds n t }

/-- An accumulator of an engine. -/
def Mxe.acc (m : Mxe) (n : Nat) : Acc := m.accs[n]?.getD Acc.reset

/-- The engine with an accumulator replaced. -/
def Mxe.setAcc (m : Mxe) (n : Nat) (a : Acc) : Mxe := { m with accs := m.accs.setIfInBounds n a }

/-- A sparse list of n values that do not equal a default. -/
def sparse {α : Type} [DecidableEq α] (d : α) (n : Nat) (f : Nat → α) : List (Nat × α) :=
  (List.range n).filterMap (fun k => if f k = d then none else some (k, f k))

/-- The sidecar words of a tile under a shape. -/
def Tile.sums (t : Tile) (v : Word) : List Word32 := (List.range (shpRows v + shpCols v)).map (fun k => lookupD 0#32 k t.sidecar)

/-- The sums of a tile's data under a shape (R109). -/
def Tile.trueSums (t : Tile) (v : Word) : List Word32 :=
  tileSums (shpFmt v) (shpRows v) (shpCols v) (t.data.read 0 (shpBytes v))

/-- A tile with its sidecar given, no longer stale. -/
def Tile.withSums (t : Tile) (ws : List Word32) : Tile :=
  { t with sidecar := sparse 0#32 ws.length (fun k => ws.getD k 0#32), stale := false }

/-- The tag of a row. -/
def Tile.rowTag (t : Tile) (i : Nat) : Nat := lookupD 24 i t.rowTags

/-- A tile with the tag of one row set. -/
def Tile.setRowTag (t : Tile) (i q : Nat) : Tile :=
  { t with rowTags := if q = 24 then removeAt i t.rowTags else insertAt i q t.rowTags }

/-- A tile with the tag of every row set. -/
def Tile.allTags (t : Tile) (q : Nat) : Tile := { t with rowTags := sparse 24 64 (fun _ => q) }

/-- A memory of bytes from 0 up, with the poison of their units. -/
def memOf (bs : List Byte) (poison : List Nat) : Mem := ⟨sparse 0#8 bs.length (fun k => bs.getD k 0#8), poison⟩

/-- The engine cleared (R336). -/
def Mxe.clear (m : Mxe) (node : Node) : Mxe :=
  { m with
    tiles := Vector.ofFn (fun (i : Fin 8) => Tile.reset.allTags (fmtPrec (shpFmt (m.shape i))))
    accs := Vector.replicate 4 Acc.reset, groupTable := [], pending := [], node := node, flips := [], kerfs := [], work := [] }

/-! Bytes that a stream brings (R345, R110). -/

/-- The elements that bytes of a tile's data touch. -/
def touched (w off n : Nat) : List Nat :=
  let first := off * 8 / w
  let last := (off * 8 + n * 8 - 1) / w
  if n = 0 then [] else (List.range (last + 1 - first)).map (fun i => first + i)

/-- Data bytes written into a tile from an offset: integer checksums follow by their exact delta, a float tile becomes stale,
and rows that receive a byte take the tag of the format (R110, R345). -/
def Tile.fill (t : Tile) (v : Word) (off : Nat) (bs : List Byte) (p : Bool) : Tile :=
  let f := shpFmt v
  let w := fmtBits f
  let cols := shpCols v
  let es := touched w off bs.length
  let old := t.data.read 0 (shpBytes v)
  let t' := { t with data := t.data.write off bs p }
  let new := t'.data.read 0 (shpBytes v)
  let tagged := (distinct (es.map (fun k => k / cols))).foldl (fun t i => t.setRowTag i (fmtPrec f)) t'
  if (fmtFloat f).isSome then { tagged with stale := true }
  else
    let oa := old.toArray
    let na := new.toArray
    es.foldl (fun t k =>
      let d := BitVec.ofInt 32 (intElem f (packedElem w na k) - intElem f (packedElem w oa k))
      let add := fun (m : List (Nat × Word32)) (i : Nat) =>
        let x := lookupD 0#32 i m + d
        if x = 0#32 then removeAt i m else insertAt i x m
      { t with sidecar := add (add t.sidecar (k / cols)) (shpRows v + k % cols) }) tagged

end Sys2Proof.Machine
end

