-- ==== Sys2Proof/Machine/Streams.lean ====
section
/-! DEFINITION. Stream parameter blocks, stream commands and running streams; the instructions strm, spbset, swait, spillq
and kerf, and the steps of a stream and of a ring (R232-R264, R289-R297, R313-R316, R322, R345, R381). -/

namespace Sys2Proof.Machine

/-! Images (R238-R240). -/

/-- A field of a dword of an image. -/
def imgBits (im : List Word) (d hi lo : Nat) : Nat := bits ((im.getD d 0#64).toNat) hi lo

/-- Element size E in bytes. -/
def imgE (im : List Word) : Nat := 2 ^ imgBits im 0 11 8

/-- Loop levels. -/
def imgLevels (im : List Word) : Nat := imgBits im 0 4 2

/-- Mode: 0 affine, 1 indexed, 2 chase. -/
def imgMode (im : List Word) : Nat := imgBits im 0 1 0

/-- Whether the stream is a segment. -/
def imgSeg (im : List Word) : Bool := decide (imgBits im 0 12 12 = 1)

/-- The digest an image carries. -/
def imgDigest (im : List Word) : Nat := imgBits im 0 63 48

/-- How often level k runs. -/
def imgCount (im : List Word) (k : Nat) : Nat := imgBits im (2 + k) 63 40 + 1

/-- The stride of level k. -/
def imgStride (im : List Word) (k : Nat) : Int := signedOf 40 (imgBits im (2 + k) 39 0)

/-- The elements of the loop nest (R242). -/
def imgElems (im : List Word) : Nat := ((List.range (imgLevels im)).map (imgCount im)).foldl (· * ·) 1

/-- DIGEST_OF (R240). -/
def digestOf (im : List Word) : Nat :=
  (List.range (imgLevels im)).foldl (fun h k =>
    let h := (h * 31 + imgBits im (2 + k) 55 40) % 65536
    (h * 31 + imgBits im (2 + k) 63 56) % 65536) (imgBits im 0 11 8 * 8 + imgLevels im)

/-- The first bad dword of a malformed image (R240). -/
def imageBad (im : List Word) : Option Nat :=
  let mode := imgMode im
  let lv := imgLevels im
  let d0 := decide (mode = 3) || decide (lv = 0) || decide (lv = 7) || decide (8 < imgBits im 0 11 8) ||
    decide (imgBits im 0 47 13 ≠ 0) || decide (imgBits im 0 7 5 ≠ 0) ||
    (decide (mode = 2) && (decide (lv ≠ 1) || decide (imgE im < 8)))
  let d1 := match mode with
    | 0 => decide (imgBits im 1 63 0 ≠ 0)
    | 1 => decide (imgBits im 1 63 52 ≠ 0)
    | _ => decide (imgBits im 1 31 8 ≠ 0) || decide (imgBits im 1 7 0 % 8 ≠ 0) || decide (imgE im < imgBits im 1 7 0 + 8)
  let level := fun (k : Nat) =>
    if lv ≤ k then decide (imgBits im (2 + k) 63 0 ≠ 0)
    else decide (2 ^ 40 < ((List.range (k + 1)).map (imgCount im)).foldl (· * ·) 1) ||
      (decide (mode = 2) && decide (k = 0) && decide (imgBits im 2 39 0 ≠ 0))
  if d0 then some 0 else if d1 then some 1 else ((List.range 6).find? level).map (fun k => 2 + k)

/-! The memory of a cell that streams and spbset reach (R237, R241, R291, R301). -/

/-- Bytes of ring storage of a cell (R291). -/
def Cell.ringBytes (c : Cell) : Nat :=
  320 * ((c.cfg.queueMap.filter (fun q => decide (32 ≤ q.code) && decide (q.code < 40))).map QMap.depth).foldl (· + ·) 0

/-- The end of the general memory of a cell (R241, R301). -/
def State.generalEnd (s : State) (c : Nat) : Nat :=
  if isC c then 0x180000 - (s.cellAt c).ringBytes else (s.cellAt c).poolBase

/-- spbset (R241). -/
def spbsetOp (n : BitVec 3) (a : Reg) (s : State) : Act :=
  srcU s a fun x s =>
    let note := fun (s : State) => s.note x.poison 4
    let s := note s
    let c := cellOf s.cur
    let off := x.val.toNat
    match (s.hart.slot n.toNat).state with
    | .active => .wait .slot id
    | .faulted _ _ => .wait .slot id
    | _ =>
      if off % 64 ≠ 0 || s.generalEnd c < off + 64 then .trapWith note 0x0A x.val
      else
        let bs := (s.cellAt c).sram.read off 64
        let im := (List.range 8).map (fun k => BitVec.ofNat 64 (dwordAt bs (8 * k)))
        let poisoned := (List.range 8).find? (fun k => (s.cellAt c).sram.poisoned (off / 8 + k))
        match firstOf poisoned (imageBad im) with
        | some k => .trapWith (fun s => (note s).note poisoned.isSome 0) 0x24 (BitVec.ofNat 64 (1 * 65536 + 8 * k))
        | none =>
          if imgDigest im ≠ digestOf im then .trapWith note 0x24 (BitVec.ofNat 64 (digestOf im))
          else .done (s.modHart (fun h => h.setSlot n.toNat { Slot.reset with state := .idle, image := im }))

/-- SPBSET (R241). -/
def execSpbset (tk : Tok) (n : BitVec 3) (a : Reg) (s : State) : Out := runHart (.spbset tk n a) tk s (spbsetOp n a)

/-! Commands (R73, R245, R246). -/

/-- The command of xb:xa for a task's context and region (R73). -/
def commandOf (ctx region : Nat) (hi lo : Word) : StreamCmd :=
  let v := hi.toNat
  ⟨ctx, region, bits v 63 60, bits v 56 51, bits v 50 46, decide (bits v 45 45 = 1), bits v 44 41, bits v 40 39, bits v 35 24,
    bits lo.toNat 51 0⟩

/-- A switch-port endpoint. -/
def StreamCmd.isPort (m : StreamCmd) : Bool := decide (m.ep = 4) || decide (m.ep = 5)

/-- A tile register endpoint. -/
def StreamCmd.isTile (m : StreamCmd) : Bool := decide (16 ≤ m.ep)

/-- A STORE. -/
def StreamCmd.isStore (m : StreamCmd) : Bool := decide (m.op = 2)

/-- The queue or ring of an endpoint, as a name code (R81, R246). -/
def StreamCmd.code (m : StreamCmd) : Nat := if m.ep < 4 then (if m.isStore then 4 + m.ep else m.ep) else 24 + m.ep

/-- An illegal value or combination (R73, R245). -/
def commandBad (sq : Bool) (m : StreamCmd) (hi lo : Word) : Bool :=
  let v := hi.toNat
  !(decide (1 ≤ m.op) && decide (m.op ≤ 3)) || decide (24 ≤ m.ep) || decide (m.ep = 6) || decide (m.ep = 7) ||
    decide (m.space = 3) || decide (bits v 38 36 ≠ 0) || decide (bits v 23 0 ≠ 0) || decide (bits lo.toNat 63 52 ≠ 0) ||
    (decide (m.op = 3) && decide (m.space ≠ 2)) || (m.isTile && (m.isStore || sq)) ||
    (sq && (decide (m.ep < 4) || (decide (8 ≤ m.ep) && decide (m.ep < 16)))) || (decide (m.vc ≠ 0) && !m.isPort) ||
    (!m.tkp && decide (m.tkf ≠ 0)) || (decide (m.cell ≠ 0) && decide (m.space ≠ 1)) ||
    (decide (m.space = 1) && decide (2 ^ 22 ≤ m.base)) || (decide (m.space = 2) && decide (2 ^ 16 ≤ m.base))

/-- The local port by which a stream of a streamer enters or leaves the network, less 8: lspad for a pool stream of an SQ
(R71, R322). -/
def StreamCmd.port (m : StreamCmd) (h : Nat) : Nat := if isC (cellOf h) then slotOf h else if m.space = 2 then 1 else 0

/-- A stream through lspad (R322). -/
def StreamCmd.isPad (m : StreamCmd) (h : Nat) : Bool := m.isPort && !isC (cellOf h) && decide (m.space = 2)

/-- Whether lspad takes checksummed flits on a channel and virtual channel (R322). -/
def State.padChecked (s : State) (c ch vc : Nat) : Bool :=
  (s.cellAt c).paths.any (fun p => decide (p.2.1 = 9) && decide (p.1 < 8) && decide (p.2.2 % 2 = ch) &&
    decide (bits ((s.cellAt c).cftEntry p.1 vc) 13 12 = 1))

/-- Whether the lspad sub-stream of a channel is checksummed (R322). -/
def State.padMarked (s : State) (c ch vc : Nat) : Bool :=
  (s.entriesFrom c ((s.cellAt c).outputsOf 9 ch) vc).any (fun e => decide (bits e 13 12 = 1))

/-- Whether a stream carries a sidecar through lspad (R322). -/
def State.carriesSidecar (s : State) (h : Nat) (m : StreamCmd) : Bool :=
  m.isPad h && (if m.isStore then s.padChecked (cellOf h) (m.ep - 4) m.vc else s.padMarked (cellOf h) (m.ep - 4) m.vc)

/-- The position of an iteration of level k for linear element n (R242). -/
def loopIndex (im : List Word) (n k : Nat) : Nat := n / ((List.range k).map (imgCount im)).foldl (· * ·) 1 % imgCount im k

/-- The address of element n, before it is cut to its space; `i0` stands in for the index of level 0 (R242). -/
def elemAddr (im : List Word) (base : Nat) (n : Nat) (i0 : Int) : Int :=
  (List.range (imgLevels im)).foldl (fun a k => a + (if k = 0 then i0 else (loopIndex im n k : Int)) * imgStride im k) (base : Int)

/-- Whether an affine image covers bytes 0 to TB - 1 of a tile exactly (R322). -/
def coversTile (im : List Word) (tb : Nat) : Bool :=
  decide (imgElems im * imgE im = tb) &&
    coverAll ((List.range (imgElems im)).filterMap (fun n =>
      let a := elemAddr im 0 n (loopIndex im n 0)
      if a < 0 then none else some (a.toNat, a.toNat + imgE im))) tb

/-- The pool slot of a stream with SPACE 2, whatever its state (R316). -/
def State.poolSlotOf (s : State) (h : Nat) (m : StreamCmd) : Option PoolSlot :=
  (s.cellAt (unitOf (cellOf h))).pool.slotAt (m.base % 4096)

/-- An image that cannot serve a command (R246, R247, R322, R345). DESIGN CHOICE (assumption 87): the whole-tile check of a stream
through lspad takes the tile of the slot that begins at the granule of its handle, even where the handle is stale; where none begins
there, the check passes and the admission faults. -/
def State.cannotServe (s : State) (h : Nat) (im : List Word) (m : StreamCmd) : Bool :=
  let mode := imgMode im
  let e := imgE im
  let queue := !m.isPort && !m.isTile
  (queue && decide (16 ≤ e) && decide (e ≤ 128)) ||
    (decide (mode = 2) && (decide (m.op ≠ 1) || decide (m.space = 2))) || (decide (mode = 1) && decide (m.space = 2)) ||
    (imgSeg im && m.isStore && decide (m.ep < 4)) ||
    (m.isTile &&
      (let v := (s.cellAt (cellOf h)).mxe.nextShape (m.ep - 16)
       decide (shpBytes v + shpScales v < imgElems im * e))) ||
    (s.carriesSidecar h m &&
      (match s.poolSlotOf h m with
       | some t => !coversTile im (descBytes t.desc (4096 * t.n))
       | none => false))

/-- Two commands that use one endpoint in one direction (R250). -/
def StreamCmd.clashes (a b : StreamCmd) : Bool :=
  (a.isStore == b.isStore) && decide (a.ep = b.ep) && (!a.isPort || decide (a.vc = b.vc))

/-- The state of a slot as its stream begins: a segment begins before its SOT, which a tile register has none of (R247). -/
def Slot.begin (k : Slot) (m : StreamCmd) : Slot :=
  { k with
    state := .active, cmd := some m, elem := 0, chase := m.base, segPhase := if imgSeg k.image && !m.isTile then 0 else 1,
    part := [], admitted := false, covered := [] }

/-- strm (R245, R439). -/
def strmOp (word : Word) (a b : Reg) (s : State) : Act :=
  srcU s a fun x s => srcU s b fun y s =>
    let note := fun (s : State) => s.note (x.poison || y.poison) 4
    let s := note s
    let h := s.cur
    let c := cellOf h
    let m := commandOf s.hart.ctxId s.hart.regionId y.val x.val
    let ms := s.cell.mapFor (slotOf h)
    let n := bits y.val.toNat 59 57
    let k := s.hart.slot n
    let unit := min (imgE k.image) 8
    if s.draining then .done s
    else if commandBad (!isC c) m y.val x.val then .trapWith note 0x01 word
    else if !m.isPort && !m.isTile &&
        !(if m.isStore then consumes ms (slotOf h) m.code else produces ms (slotOf h) m.code) then
      .trapWith note 0x10 (BitVec.ofNat 64 m.ep)
    else if m.tkp && !produces ms (slotOf h) (16 + m.tkf) then .trapWith note 0x10 (BitVec.ofNat 64 (64 + m.tkf))
    else if m.space = 1 && !(s.myRegion.hasCell m.cell) then .trapWith note 0x0A (BitVec.ofNat 64 m.cell)
    else
      match k.state with
      | .active => .wait .slot id
      | .faulted _ _ => .wait .slot id
      | .empty => .trapWith note 0x24 0x20000#64
      | .idle =>
        if s.cannotServe h k.image m then .trapWith note 0x24 0x30000#64
        else if m.space ≠ 2 && (m.base % unit ≠ 0 ||
            (imgMode k.image ≤ 1 && (List.range (imgLevels k.image)).any (fun l => decide (imgStride k.image l % unit ≠ 0)))) then
          .trapWith note 0x05 (BitVec.ofNat 64 m.base)
        else if (List.range 8).any (fun j => decide ((s.hart.slot j).state = .active) && (s.hart.slot j).cmd.any m.clashes) then
          .wait .slot id
        else .done (s.modHart (fun h => h.setSlot n (k.begin m)))

/-- STRM (R245). -/
def execStrm (tk : Tok) (a b : Reg) (s : State) : Out := runHart (.strm tk a b) tk s (strmOp (instrWord (.strm tk a b)) a b)

/-- swait (R249, R439). -/
def swaitOp (n : BitVec 3) (s : State) : Act :=
  match (s.hart.slot n.toNat).state with
  | .idle => .done s
  | .empty => .done s
  | _ => if s.draining then .done s else .wait .slot id

/-- SWAIT (R249). -/
def execSwait (tk : Tok) (n : BitVec 3) (s : State) : Out := runHart (.swait tk n) tk s (swaitOp n)

/-! The memory side of an element (R237, R242-R244, R253, R313, R381). -/

/-- Where the bytes of an element lie: device memory in pieces, or the local memory of a cell. -/
inductive Place where
  | dev (ps : List (Nat × Nat))
  | loc (c off : Nat)
  deriving DecidableEq, Repr

/-- What placing an access of a stream gives. -/
inductive Located where
  | place (p : Place)
  /-- the walk of a page is awaited -/
  | walk (va : Nat)
  /-- another streamer owns the range (R381) -/
  | owned
  /-- a stream fault, and whether it is a page fault of a walk -/
  | fault (code : Nat) (value : Word) (page : Bool)
  | stop (f : Fault)
  deriving DecidableEq, Repr

/-- Pieces of an access in SPACE 0, cut at pages (R242, R253). -/
def State.streamPieces (s : State) (unit ctx : Nat) (wr : Bool) : Nat → Nat → Nat → Except Located (List (Nat × Nat))
  | 0, _, _ => .ok []
  | fuel + 1, va, n =>
    if n = 0 then .ok []
    else if 2 ^ 52 ≤ va then .error (.fault 0x0A (BitVec.ofNat 64 va) false)
    else
      match s.translate unit ctx va (!wr) wr false with
      | .hit pa _ =>
        let k := min n (8192 - va % 8192)
        match s.streamPieces unit ctx wr fuel (va + k) (n - k) with
        | .ok rest => .ok ((pa, k) :: rest)
        | .error e => .error e
      | .miss => .error (.walk va)
      | .page => .error (.fault 0x25 (BitVec.ofNat 64 va) true)
      | .perm => .error (.fault 0x25 (BitVec.ofNat 64 va) false)
      | .unbacked pa => .error (.stop (.unbacked pa))

/-- Whether bytes lie in a range of the ownership table that a streamer does not own (R381). -/
def State.ownedByOther (s : State) (region h va n : Nat) : Bool :=
  ((s.region? region).map Region.owners).getD [] |>.any (fun o =>
    decide (o.2.1 < va + n) && decide (va < o.2.1 + o.2.2.1) && decide (o.2.2.2 ≠ some h))

/-- An access of n bytes of a stream at an address of its space (R237, R242, R253, R313). -/
def State.locate (s : State) (h : Nat) (m : StreamCmd) (wr : Bool) (a : Int) (n : Nat) : Located :=
  if m.space = 0 then
    let va := (a % (2 ^ 64 : Nat)).toNat
    if va < 2 ^ 52 && s.ownedByOther m.region h va n then .owned
    else
      match s.streamPieces (unitOf (cellOf h)) m.ctx wr (n + 1) va n with
      | .ok ps => .place (.dev ps)
      | .error e => e
  else if m.space = 1 then
    if a < 0 || decide ((s.generalEnd m.cell : Int) < a + n) then .fault 0x0A (BitVec.ofInt 64 (m.cell * 2 ^ 22 + a)) false
    else .place (.loc m.cell a.toNat)
  else
    let c := unitOf (cellOf h)
    let bad := fun (code : Nat) => Located.fault code (BitVec.ofInt 64 (m.base * 2 ^ 32 + a)) false
    let slot := if wr then (s.cellAt c).pool.resolve m.ctx m.base else s.poolSlotOf h m
    match slot with
    | none => bad 0x20
    | some t =>
      if wr && (t.state ≠ .filling || t.owner ≠ h) then bad 0x22
      else if a < 0 || decide ((descBytes t.desc (4096 * t.n) : Int) < a + n) then bad 0x0A
      else .place (.loc c ((s.cellAt c).slotBase t.first + a.toNat))

/-- The bytes at a place with the poison of their units, as a stream of a cell reads them (R246). -/
def State.readPlace (s : State) (cell region n : Nat) : Place → List (Byte × Bool)
  | .dev ps => ps.flatMap (fun p => (List.range p.2).map (fun i => s.cellByte cell region (p.1 + i)))
  | .loc c off => (List.range n).map (fun i => ((s.cellAt c).sram.byte (off + i), (s.cellAt c).sram.poisoned ((off + i) / 8)))

/-- Bytes cut at 8-byte units of an address, each with its poison (R211). -/
def unitChunks : Nat → Nat → List (Byte × Bool) → List (Nat × (List Byte × Bool))
  | 0, _, _ => []
  | fuel + 1, a, bs =>
    if bs.isEmpty then []
    else
      let k := 8 - a % 8
      let now := bs.take k
      (a, (now.map Prod.fst, now.any Prod.snd)) :: unitChunks fuel (a + k) (bs.drop k)

/-- Bytes written at a place by the stream of a slot of a streamer: in global memory they belong to no interval until the stream ends
(R246, R432). -/
def State.writePlace (s : State) (h n : Nat) (m : StreamCmd) (bs : List (Byte × Bool)) : Place → State
  | .dev ps =>
    ((ps.foldl (fun (a : State × List (Byte × Bool)) p =>
      ((unitChunks p.2 p.1 (a.2.take p.2)).foldl (fun s w =>
        s.write m.region (unitOf (cellOf h)) (streamInterval h n (s.interval m.region h)) w.1 w.2.1 w.2.2) a.1, a.2.drop p.2)) (s, bs)).1).refresh
          (cellOf h) m.region ps
  | .loc c off =>
    let ws := unitChunks (bs.length + 1) off bs
    if m.space = 2 then
      let first := m.base % 4096
      let at' := off - (s.cellAt c).slotBase first
      (ws.foldl (fun s w => s.fillPool c h w.1 w.2.1 w.2.2) s).modPool c h (fun p =>
        p.modSlot first (fun t => { t with written := addRange t.written at' (at' + bs.length) }))
    else ws.foldl (fun s w => s.modCell c (fun x => { x with sram := x.sram.write w.1 w.2.1 w.2.2 })) s

/-! A step of a stream. -/

/-- What one attempt of a stream comes to. -/
inductive Moved where
  /-- the stream has moved -/
  | go (s : State)
  /-- it waits; what it asked of others is asked -/
  | wait (s : State)
  /-- it stops with a fault at the element it stands at (R253) -/
  | fault (s : State) (code : Nat) (value : Word)
  /-- it waits until its streamer owns the range (R381) -/
  | owned (s : State)
  | stop (f : Fault)

/-- The slot of a hart changed. -/
def State.modSlot (s : State) (h n : Nat) (f : Slot → Slot) : State :=
  let x := s.hartAt h
  s.setHart h (x.setSlot n (f (x.slot n)))

/-- What follows a place that is not there. -/
def State.notPlaced (s : State) (h : Nat) (m : StreamCmd) (l : Located) : Moved :=
  match l with
  | .walk va => .wait (s.askWalk (unitOf (cellOf h)) m.ctx va)
  | .fault code value page =>
    .fault (if page then s.takeWalkFault (unitOf (cellOf h)) m.ctx value.toNat else s) code value
  | .stop f => .stop f
  | .owned => .owned s
  | .place _ => .wait s

/-- SPB_MISMATCH of a running stream (R258). -/
def mismatch (reason value : Nat) : Word := BitVec.ofNat 64 (reason * 65536 + value % 65536)

/-- Where the addresses of a stream start: its base, or the start of the tile slot in SPACE 2 (R242). -/
def StreamCmd.origin (m : StreamCmd) : Nat := if m.space = 2 then 0 else m.base

/-- The place of the element that a stream stands at (R242-R244): its index is read first; the address of a chase stream
behind its first node must lie in the space and at a multiple of 8. DESIGN CHOICE, where the spec is silent (assumption 87): an index
read from poisoned bytes counts as its bits stand, and a chase address in the ring, pool, snapshot or commit-buffer bytes of a cell
lies outside the space and raises CHASE_BOUND. -/
def State.placeElem (s : State) (h : Nat) (k : Slot) (m : StreamCmd) : Except Moved (Int × Place) :=
  let e := imgE k.image
  let put := fun (a : Int) =>
    match s.locate h m m.isStore a e with
    | .place p => Except.ok (a, p)
    | l => .error (s.notPlaced h m l)
  match imgMode k.image with
  | 0 => put (elemAddr k.image m.origin k.elem (loopIndex k.image k.elem 0))
  | 1 =>
    match s.locate h m false ((imgBits k.image 1 51 0 + 4 * k.elem : Nat) : Int) 4 with
    | .place p =>
      put (elemAddr k.image m.origin k.elem (signedOf 32 (leNat ((s.readPlace (cellOf h) m.region 4 p).map Prod.fst))))
    | l => .error (s.notPlaced h m l)
  | _ =>
    if k.elem = 0 then put k.chase
    else if 2 ^ 64 ≤ k.chase then .error (.fault s 0x26 0#64)
    else if k.chase % 8 ≠ 0 || (m.space = 0 && 2 ^ 52 ≤ k.chase) || (m.space = 1 && s.generalEnd m.cell ≤ k.chase) then
      .error (.fault s 0x26 (BitVec.ofNat 64 k.chase))
    else put k.chase

/-- The link of a node, and the address of the next one: none at the end of the list (R244). A poisoned link leads nowhere.
DESIGN CHOICE (assumption 87): the count is tested first, so that a poisoned link in the last node counted is not looked at. -/
def nextNode (im : List Word) (n : Nat) (bs : List (Byte × Bool)) : Option Nat :=
  let l := (bs.drop (imgBits im 1 7 0)).take 8
  let link := leNat (l.map Prod.fst)
  if n + 1 = imgCount im 0 then none
  else if l.any Prod.snd then some (2 ^ 64)
  else if link = 0 then none
  else some (((link : Int) + signedOf 32 (imgBits im 1 63 32)) % (2 ^ 64 : Nat)).toNat

/-- The slot behind an element that has moved (R242, R244). -/
def Slot.after (k : Slot) (bs : List (Byte × Bool)) (at' : Int) : Slot :=
  let cover := addRange k.covered at'.toNat (at'.toNat + bs.length)
  if imgMode k.image = 2 then
    match nextNode k.image k.elem bs with
    | some a => { k with elem := k.elem + 1, chase := a }
    | none => { k with elem := k.elem + 1, chase := 0, segPhase := 2 }
  else if k.elem + 1 = imgElems k.image then { k with elem := k.elem + 1, chase := 0, segPhase := 2, covered := cover }
  else { k with elem := k.elem + 1, covered := cover }

/-- A data element of a source streamer counts toward the automatic cut (R429). -/
def State.countMoved (s : State) (h : Nat) (m : StreamCmd) : State :=
  if s.isSource h then s.modRegion m.region (fun g => { g with moved := g.moved + 1 }) else s

/-- A data flit of 32 bytes (R246). -/
def dataFlit (vc : Nat) (bs : List (Byte × Bool)) : Flit :=
  ⟨if bs.any Prod.snd then 7#3 else 0#3, BitVec.ofNat 5 vc, BitVec.ofNat 256 (leNat (bs.map Prod.fst))⟩

/-- The tag flit of a streamer: bytes of 0xFF (R274). -/
def tagFlit (vc : Nat) : Flit := ⟨0#3, BitVec.ofNat 5 vc, 0xFFFFFFFFFFFFFFFF#256⟩

/-- Flits pushed through the local port of a streamer, if there is room (R246, R274). -/
def State.pushPort (s : State) (h : Nat) (m : StreamCmd) (f : Flit) : Option State :=
  let c := cellOf h
  let l := m.port h
  let key := 64 + 8 * l + (m.ep - 4)
  let fs := if f.isData && s.taggedFrom c ((s.cellAt c).outputsOf (8 + l) (m.ep - 4)) m.vc then [f, tagFlit m.vc] else [f]
  if s.bufRoom c key fs.length then some (s.pushFlits c key h fs) else none

/-- The entry of an element (R246). -/
def elementEntry (bs : List (Byte × Bool)) : Entry :=
  if bs.length = 256 then
    let b := (bs.map Prod.fst)
    .vector (VVal.ofFn (fun k => ⟨BitVec.ofNat 32 (wordAt b (4 * k)), 0xFF#8⟩) (fun j => ((bs.drop (8 * j)).take 8).any Prod.snd))
  else .uniform ⟨BitVec.ofNat 64 (leNat (bs.map Prod.fst)), 24#5, bs.any Prod.snd⟩

/-- A token of a segment pushed or due at an endpoint: its kind and the digest (R247). -/
def State.pushBracket (s : State) (h : Nat) (m : StreamCmd) (kind : BitVec 3) (digest : Nat) : Option State :=
  if m.isPort then s.pushPort h m ⟨kind, BitVec.ofNat 5 m.vc, BitVec.ofNat 256 digest⟩
  else
    let c := cellOf h
    if ((s.cellAt c).queue m.code).accepts (slotOf h) then
      some (s.pushQueue c m.code (slotOf h) (.token ⟨kind, 0#5, 0#6, BitVec.ofNat 32 digest⟩))
    else none

/-- An element of a LOAD or LOADC moves (R246, R251). -/
def State.loadElement (s : State) (h n : Nat) (k : Slot) (m : StreamCmd) : Moved :=
  let c := cellOf h
  let go := fun (f : State → List (Byte × Bool) → State) =>
    match s.placeElem h k m with
    | .error e => e
    | .ok (a, p) =>
      let bs := s.readPlace c m.region (imgE k.image) p
      Moved.go (((f s bs).modSlot h n (fun k => k.after bs a)).countMoved h m)
  if m.isPort then
    if 32 ≤ k.part.length then
      match s.pushPort h m (dataFlit m.vc (k.part.take 32)) with
      | some t => .go (t.modSlot h n (fun k => { k with part := k.part.drop 32 }))
      | none => .wait s
    else go (fun s bs => s.modSlot h n (fun k => { k with part := k.part ++ bs }))
  else if m.isTile then
    let t := m.ep - 16
    if !k.admitted && m.space ≠ 2 && !s.tileAtRest c t then .wait s
    else
      let v := (s.cellAt c).mxe.shape t
      let off := k.elem * imgE k.image
      go (fun s bs =>
        let data := bs.take (shpBytes v - off)
        let rest := (bs.drop (shpBytes v - off)).take (shpBytes v + shpScales v - max off (shpBytes v))
        let s := s.modCell c (fun x =>
          let y := x.mxe.tile t
          let y := (unitChunks (data.length + 1) off data).foldl (fun y w => y.fill v w.1 w.2.1 w.2.2) y
          let ws := unitChunks (rest.length + 1) (max off (shpBytes v) - shpBytes v) rest
          let y := { y with scales := ws.foldl (fun m w => m.write w.1 w.2.1 w.2.2) y.scales }
          { x with mxe := x.mxe.setTile t y })
        s.modSlot h n (fun k => { k with admitted := true }))
  else if ((s.cellAt c).queue m.code).accepts (slotOf h) then
    go (fun s bs => s.pushQueue c m.code (slotOf h) (elementEntry bs))
  else .wait s

/-- The flit at the head of the delivery of a streamer for a stream, and the rest: one of another virtual channel is for
another stream (R271). -/
def State.delivered (s : State) (h : Nat) (m : StreamCmd) : Option (Flit × Fifo) :=
  match (s.cellAt (cellOf h)).popBuf (128 + 16 * m.port h + (m.ep - 4)) (s.taken m.region h) with
  | some (f, rest) => if f.vc = BitVec.ofNat 5 m.vc then some (f, rest) else none
  | none => none

/-- The delivery of a streamer with its head taken. -/
def State.dropDelivered (s : State) (h : Nat) (m : StreamCmd) (rest : Fifo) : State :=
  s.modCell (cellOf h) (fun x => x.setBuf (128 + 16 * m.port h + (m.ep - 4)) rest)

/-- The bytes of a flit with the poison of its units. -/
def flitBytes (f : Flit) : List (Byte × Bool) := (natBytes 32 f.data.toNat).map (fun b => (b, decide (f.kind = 7#3)))

/-- The bytes an entry supplies, if it has the kind that elements of a size need (R246). -/
def entryBytes (e : Nat) : Entry → Option (List (Byte × Bool))
  | .uniform u => if e ≤ 8 then some ((natBytes e u.val.toNat).map (fun b => (b, u.poison))) else none
  | .vector v =>
    if e = 256 then some (v.bytes.zipIdx.map (fun b => (b.1, v.poisonOf (b.2 / 4)))) else none
  | .token _ => none

/-- Whether an element of a STORE waits: its commit buffer has no room, or an older store of its cell to one of its bytes has not
entered the buffer yet (R377, R433). -/
def State.storeBlocked (s : State) (h n : Nat) (m : StreamCmd) : Place → Bool
  | .dev ps => !s.commitRoom m.region (unitOf (cellOf h)) n || ps.any (fun p => (s.cellAt (cellOf h)).parkedAt p.1 p.2)
  | .loc _ _ => false

/-- An element of a STORE written, unless it waits (R248, R433). -/
def State.storeElement (s : State) (h n : Nat) (k : Slot) (m : StreamCmd) (bs : List (Byte × Bool)) (take : State → State) : Moved :=
  match s.placeElem h k m with
  | .error e => e
  | .ok (a, p) =>
    if s.storeBlocked h bs.length m p then .wait s
    else .go ((((take s).writePlace h n m bs p).modSlot h n (fun k => k.after bs a)).countMoved h m)

/-- An element of a STORE moves: flits first fill what the element needs (R246, R247). DESIGN CHOICE (assumption 87): where the stream
stops at an element, the flits it has taken for it stay with the slot, so that a resume uses them and an abort drops them. -/
def State.storeNext (s : State) (h n : Nat) (k : Slot) (m : StreamCmd) : Moved :=
  let e := imgE k.image
  if m.isPort then
    if e ≤ k.part.length then
      s.storeElement h n k m (k.part.take e) (fun s => s.modSlot h n (fun k => { k with part := k.part.drop e }))
    else
      match s.delivered h m with
      | none => .wait s
      | some (f, rest) =>
        if f.isData then .go ((s.dropDelivered h m rest).modSlot h n (fun k => { k with part := k.part ++ flitBytes f }))
        else .fault s 0x24 (mismatch 5 k.elem)
  else
    let c := cellOf h
    let q := (s.cellAt c).queue m.code
    match (s.cellAt c).takeQueue m.code (s.taken m.region h) with
    | none => .wait s
    | some (i, rest) =>
      match entryBytes e (s.entryOf c q i) with
      | none => .fault s 0x24 (mismatch 5 k.elem)
      | some bs => s.storeElement h n k m bs (fun s => s.dropHead c m.code rest)

/-- A STORE takes the token of its segment (R247). -/
def State.takeBracket (s : State) (h n : Nat) (k : Slot) (m : StreamCmd) (kind : BitVec 3) (next : Nat) : Moved :=
  let ok := fun (have' : BitVec 3) (digest : Nat) (s' : State) =>
    if have' ≠ kind then Moved.fault s 0x24 (mismatch 5 k.elem)
    else if kind = 1#3 && digest % 65536 ≠ imgDigest k.image then .fault s 0x24 (mismatch 4 digest)
    else .go (s'.modSlot h n (fun k => { k with segPhase := next }))
  if m.isPort then
    match s.delivered h m with
    | none => .wait s
    | some (f, rest) => ok f.kind f.data.toNat (s.dropDelivered h m rest)
  else
    let c := cellOf h
    let q := (s.cellAt c).queue m.code
    match (s.cellAt c).takeQueue m.code (s.taken m.region h) with
    | none => .wait s
    | some (i, rest) =>
      match s.entryOf c q i with
      | .token t => ok t.kind t.payload.toNat (s.dropHead c m.code rest)
      | _ => .fault s 0x24 (mismatch 5 k.elem)

/-- A sidecar flit: eight checksums, padded with 0 (R275). -/
def sidecarFlit (vc : Nat) (ws : List Word32) : Flit :=
  ⟨0#3, BitVec.ofNat 5 vc, BitVec.ofNat 256 (ws.foldr (fun w a => w.toNat + 2 ^ 32 * a) 0)⟩

/-- The tail of a LOAD: the padded last flit, the sidecar flits of a marked lspad stream, the EOT (R246, R247, R322). -/
def State.loadTail (s : State) (h n : Nat) (k : Slot) (m : StreamCmd) : Moved :=
  let push := fun (f : Flit) (g : Slot → Slot) =>
    match s.pushPort h m f with
    | some t => Moved.go (t.modSlot h n g)
    | none => .wait s
  let words := match (if s.carriesSidecar h m then s.poolSlotOf h m else none) with
    | some t => t.sidecar
    | none => []
  if m.isPort && 32 ≤ k.part.length then push (dataFlit m.vc (k.part.take 32)) (fun k => { k with part := k.part.drop 32 })
  else if m.isPort && !k.part.isEmpty then push (dataFlit m.vc k.part) (fun k => { k with part := [] })
  else if 8 * k.chase < words.length then
    push (sidecarFlit m.vc ((words.drop (8 * k.chase)).take 8)) (fun k => { k with chase := k.chase + 1 })
  else if imgSeg k.image && !m.isTile then
    match s.pushBracket h m 2#3 0 with
    | some t => .go (t.modSlot h n (fun k => { k with segPhase := 3 }))
    | none => .wait s
  else .go (s.modSlot h n (fun k => { k with segPhase := 3 }))

/-- The tail of a STORE: the sidecar flits that follow a tile at lspad, the EOT (R247, R322). -/
def State.storeTail (s : State) (h n : Nat) (k : Slot) (m : StreamCmd) : Moved :=
  let c := unitOf (cellOf h)
  let total := match (if s.carriesSidecar h m then s.poolSlotOf h m else none) with
    | some t => descRows t.desc + descCols t.desc
    | none => 0
  if 8 * k.chase < total then
    match s.delivered h m with
    | none => .wait s
    | some (f, rest) =>
      if f.isData then
        let ws := ((List.range 8).map (fun i => BitVec.ofNat 32 (f.data.toNat / 2 ^ (32 * i)))).take (total - 8 * k.chase)
        let s := (s.dropDelivered h m rest).modPool c h (fun p =>
          p.modSlot (m.base % 4096) (fun t => { t with arrived := some (if k.chase = 0 then ws else t.arrived.getD [] ++ ws) }))
        .go (s.modSlot h n (fun k => { k with chase := k.chase + 1 }))
      else .fault s 0x24 (mismatch 5 k.elem)
  else if imgSeg k.image then s.takeBracket h n k m 2#3 3
  else .go (s.modSlot h n (fun k => { k with segPhase := 3 }))

/-- One attempt of an ACTIVE stream. -/
def State.streamMove (s : State) (h n : Nat) (k : Slot) (m : StreamCmd) : Moved :=
  match k.segPhase with
  | 0 =>
    if m.isStore then s.takeBracket h n k m 1#3 1
    else
      match s.pushBracket h m 1#3 (imgDigest k.image) with
      | some t => .go (t.modSlot h n (fun k => { k with segPhase := 1 }))
      | none => .wait s
  | 1 => if m.isStore then s.storeNext h n k m else s.loadElement h n k m
  | 2 => if m.isStore then s.storeTail h n k m else s.loadTail h n k m
  | _ => .wait s

/-- Whether the drain of a pre-emption holds a stream: it stands between two iterations of its outermost level, with every whole flit
of the elements before it emitted (R263, R445). -/
def State.pausedAt (s : State) (m : StreamCmd) (k : Slot) : Bool :=
  !k.flitDue &&
  ((s.region? m.region).map (fun g => decide (g.state = .draining))).getD false &&
    decide (k.segPhase ≤ 1) && decide (k.elem % outerStep k.image = 0)

/-- Whether a stream may move: its cell moves, no wave and no drain stops it, and a pool read of its own is admitted
(R315, R430, R445). -/
def State.streamRuns (s : State) (h : Nat) (k : Slot) (m : StreamCmd) : Bool :=
  decide (k.state = .active) && s.cellMoves (cellOf h) && !s.stopsHere h k && !s.pausedAt m k &&
    (m.space ≠ 2 || m.isStore || k.admitted)

/-- The value of a fault of a running stream: in SPACE 2 it names the handle and the element, whatever the cause (R313; assumption
88). -/
def Slot.faultValue (k : Slot) (m : StreamCmd) (value : Word) : Word :=
  if m.space = 2 then BitVec.ofInt 64 (m.base * 2 ^ 32 + elemAddr k.image 0 k.elem (loopIndex k.image k.elem 0)) else value

/-- The cause with which the STORE of a hart into a pool slot stops at its admission, before element 0 (R313). -/
def State.storeRefused (s : State) (h : Nat) (m : StreamCmd) : Option Nat :=
  match (s.cellAt (unitOf (cellOf h))).pool.resolve m.ctx m.base with
  | none => some 0x20
  | some t => if t.state = .filling && t.owner = h then none else some 0x22

/-- STREAM_ELEMENT (R242-R247, R251, R253, R254, R313): a running stream moves one element, one flit or one token; a STORE into
a pool slot is admitted first. -/
def execStreamElement (h slot : Nat) (s : State) : Out :=
  let k := (s.hartAt h).slot slot
  match k.cmd with
  | none => .next s
  | some m =>
    if !s.streamRuns h k m then .next s
    else if m.space = 2 && m.isStore && !k.admitted then
      match s.storeRefused h m with
      | some code =>
        let a := elemAddr k.image 0 0 0
        .next (s.modSlot h slot (fun k => { k with state := .faulted code (BitVec.ofInt 64 (m.base * 2 ^ 32 + a)) }))
      | none => .next (s.modSlot h slot (fun k => { k with admitted := true }))
    else
      match s.streamMove h slot k m with
      | .go t => .next (t.fire m.region)
      | .wait t => .next t
      | .owned t => .next t
      | .fault t code value => .next (t.modSlot h slot (fun j => { j with state := .faulted code (k.faultValue m value) }))
      | .stop f => .fault f

/-- READ_ADMISSION (R315): the read of a pool tile by a stream is admitted, or stops at element 0. -/
def execReadAdmission (h slot : Nat) (s : State) : Out :=
  let k := (s.hartAt h).slot slot
  match k.cmd with
  | none => .next s
  | some m =>
    if k.state = .active && m.space = 2 && !m.isStore && !k.admitted && s.cellMoves (cellOf h) &&
        (!m.isTile || s.tileAtRest (cellOf h) (m.ep - 16)) then
      match s.admitRead (unitOf (cellOf h)) h m.ctx m.base (decide (m.op = 3)) with
      | .admitted t => .next (t.modSlot h slot (fun k => { k with admitted := true }))
      | .waiting => .next s
      | .fault code =>
        let a := elemAddr k.image 0 0 0
        .next (s.modSlot h slot (fun k => { k with state := .faulted code (BitVec.ofInt 64 (m.base * 2 ^ 32 + a)) }))
    else .next s

/-- A tile register that a stream has filled (R345): a whole write brings the slot's sidecar, which must match, or gets a new
one. -/
def State.sealTileReg (s : State) (h : Nat) (k : Slot) (m : StreamCmd) : State :=
  let c := cellOf h
  let t := m.ep - 16
  let v := (s.cellAt c).mxe.shape t
  if m.isTile && shpBytes v ≤ k.elem * imgE k.image then
    let y := (s.cellAt c).mxe.tile t
    let own := y.trueSums v
    let brought := match (if m.space = 2 then s.poolSlotOf h m else none) with
      | some p =>
        if descFmt p.desc = shpFmt v && descRows p.desc = shpRows v && descCols p.desc = shpCols v then some p.sidecar else none
      | none => none
    let s := s.modCell c (fun x => { x with mxe := x.mxe.setTile t (y.withSums (brought.getD own)) })
    if brought.any (fun w => w ≠ own) then s.cause m.region 0x40 else s
  else s

/-- The end of a pool read by a stream (R316): one that covered its whole tile is checked against the sidecar. -/
def State.endPoolRead (s : State) (h : Nat) (k : Slot) (m : StreamCmd) : State :=
  if m.space = 2 && !m.isStore then
    let c := unitOf (cellOf h)
    match s.poolSlotOf h m with
    | some t =>
      let bad := decide (descFmt t.desc ≠ 11) && coverAll k.covered (descBytes t.desc (4096 * t.n)) &&
        decide (s.slotSums c t ≠ t.sidecar)
      let s := s.endRead c h t.first (decide (m.op = 3))
      if bad then s.cause m.region 0x40 else s
    | none => s
  else s

/-- STREAM_COMPLETE (R248, R316, R345): a stream that has moved everything pushes its token, ends its pool read, and its slot
is IDLE. -/
def execStreamComplete (h slot : Nat) (s : State) : Out :=
  let k := (s.hartAt h).slot slot
  match k.cmd with
  | none => .next s
  | some m =>
    if k.state = .active && k.segPhase = 3 && s.cellMoves (cellOf h) then
      let c := cellOf h
      if m.tkp && 16 ≤ tokenCount ((s.cellAt c).fifo m.tkf) then .next s
      else
        let s := if m.tkp then s.pushToken c m.tkf (slotOf h) else s
        let s := (s.closeStream m.region h slot).modSlot h slot Slot.stop
        .next ((((s.sealTileReg h k m).endPoolRead h k m)).fire m.region)
    else .next s

/-- RING_EOS (R296): an EOS that is due is placed once the ring has a free slot. -/
def execRingEos (cell ring : Nat) (s : State) : Out :=
  .next (if ring < 8 && s.cellMoves cell then s.placeEos cell (32 + ring) else s)

/-! Spilling (R259, R297). -/

/-- The queue or ring that spillq names (R259, R297). -/
def spillCode (ms : List QMap) (q : Nat) : Nat := if q < 4 then readCode ms q else writeCode ms (q - 4)

/-- The pages of a spill area translated for read and write; the first address that fails decides. -/
def State.areaPages (s : State) : List Nat → Option Act
  | [] => none
  | va :: rest =>
    match s.access va true true with
    | .hit _ _ => s.areaPages rest
    | t => some (missed t va 0x08 0x0A)

/-- A queue with its extension replaced (R259). -/
def Queue.extend (q : Queue) (base cap : Nat) : Queue :=
  let d := q.depth - (q.ext.map SpillExt.cap).getD 0
  { q with depth := d + cap, ext := if cap = 0 then none else some ⟨base, cap, 0, false⟩ }

/-- spillq (R259). -/
def spillqOp (q : BitVec 3) (a : Reg) (s : State) : Act :=
  srcU s a fun x s =>
    let note := fun (s : State) => s.note x.poison 4
    let s := note s
    let ms := s.cell.mapFor (slotOf s.cur)
    let code := spillCode ms q.toNat
    let cap := bits x.val.toNat 11 0
    let base := x.val.toNat - cap
    if !(consumes ms (slotOf s.cur) code || produces ms (slotOf s.cur) code) then .trapWith note 0x10 (q.setWidth 64)
    else if 2 ^ 52 ≤ base then .trapWith note 0x0A (BitVec.ofNat 64 base)
    else
      match s.areaPages ((List.range ((512 * cap + 8191) / 8192 + (if base % 8192 = 0 || cap = 0 then 0 else 1))).filterMap (fun i =>
        let va := if i = 0 then base else base / 8192 * 8192 + 8192 * i
        if va < base + 512 * cap then some va else none)) with
      | some e => e
      | none =>
        let k := s.cell.queue code
        if k.items.any QItem.isSpilled then .wait .slot id
        else .done (s.modCell (cellOf s.cur) (fun c => c.setQueue code (k.extend base cap)))

/-- SPILLQ (R259). -/
def execSpillq (tk : Tok) (q : BitVec 3) (a : Reg) (s : State) : Out := runHart (.spillq tk q a) tk s (spillqOp q a)

/-! Cutting a kerf (R261, R429). -/

/-- kerf (R261, R429, R439): it waits while a wave is in flight, then opens the next one and is its streamer's part of it. -/
def kerfOp (s : State) : Act :=
  if s.draining then .done s
  else if s.myRegion.inFlight then .wait .control id
  else .done ((s.openWave s.hart.regionId).takePart s.hart.regionId s.cur)

/-- KERF (R261). -/
def execKerf (tk : Tok) (s : State) : Out := runHart (.kerf tk) tk s kerfOp

end Sys2Proof.Machine
end

