-- ==== Sys2Proof/Machine/Matrix.lean ====
section
/-! DEFINITION. The matrix engine: products, their check and their tags, the instructions of major MATRIX, the delivery of a tile
load, and the matrix node (R82, R103, R104, R109-R112, R331-R357). -/

namespace Sys2Proof.Machine

/-! Products (R103, R104). -/

/-- +0. -/
def xzero : XR := .real false 0 0 false

/-- The exact sum of the products of a group (R103): an exact zero is +0. -/
def groupSum (ps : List (XR × XR)) : XR :=
  let qs := ps.map (fun p => (xmul p.1 p.2).1)
  if qs.any XR.isNan || (qs.any (fun q => q.isInf && q.neg) && qs.any (fun q => q.isInf && !q.neg)) then decodeF .fp32 0x7FC00000
  else
    match qs.find? XR.isInf with
    | some q => q
    | none =>
      let t := qs.foldl (fun a q => (xadd .rne a q).1) xzero
      if t.isZero then xzero else t

/-- Groups of 16, the last one shorter. -/
def groups16 {α : Type} : Nat → List α → List (List α)
  | 0, _ => []
  | n + 1, l => if l.isEmpty then [] else l.take 16 :: groups16 n (l.drop 16)

/-- The float accumulation of R103 onto an FP32 element. -/
def dotFloat (c : Word32) (ps : List (XR × XR)) : Word32 :=
  BitVec.ofNat 32 ((groups16 ps.length ps).foldl (fun c g => (roundX .fp32 .rne (xadd .rne (decodeF .fp32 c) (groupSum g)).1).1) c.toNat)

/-- A value that is an integer. -/
def XR.toInt? : XR → Option Int
  | .real n m e _ =>
    let v : Option Nat := if 0 ≤ e then some (m <<< e.toNat) else if m % 2 ^ e.natAbs = 0 then some (m >>> e.natAbs) else none
    v.map (fun v => if n then -(v : Int) else (v : Int))
  | _ => none

/-- The integer accumulation of R104; none where a block scale makes a product that is no integer. -/
def dotInt (c : Word32) (ps : List (XR × XR)) : Option Word32 :=
  (ps.mapM (fun p => (xmul p.1 p.2).1.toInt?)).map (fun is => BitVec.ofInt 32 (is.foldl (· + ·) c.toInt))

/-- The accumulation of a class: what R104 gives no value for is the free value given (assumption 31). -/
def dotOf (float : Bool) (free c : Word32) (ps : List (XR × XR)) : Word32 :=
  if float then dotFloat c ps else (dotInt c ps).getD free

/-! Operands (R82, R95, R96, R334, R340). -/

/-- The operand class of a format: 1 F32, 2 F16, 3 F8, 4 F4, 5 I8 (R340). -/
def mulClass (f : Nat) : Option Nat :=
  match f with
  | 1 => some 1
  | 2 => some 2
  | 3 => some 2
  | 4 => some 3
  | 5 => some 3
  | 6 => some 4
  | 7 => some 5
  | 8 => some 5
  | _ => none

/-- The value of an element under its scale byte (R95, R96). -/
def scaledElem (f scale code : Nat) : XR :=
  if scale = 0xFF then decodeF .fp32 0x7FC00000
  else
    xscale (match fmtFloat f with
      | some g => decodeF g code
      | none => intToX (intElem f code)) ((scale : Int) - 127)

/-- Offset in the scale store of the scale of element (i, j) (R334). -/
def scaleIndex (v : Word) (i j : Nat) : Nat :=
  if shpDown v then i / shpBlock v * shpCols v + j else i * (shpCols v / shpBlock v) + j / shpBlock v

/-- The scale byte of element (i, j): 0x7F without blocks. -/
def Tile.scaleOf (t : Tile) (v : Word) (i j : Nat) : Nat :=
  if shpBlock v = 0 then 0x7F else (t.scales.byte (scaleIndex v i j)).toNat

/-- The element codes of a tile, row by row. -/
def Tile.codes (t : Tile) (v : Word) : Array Nat := unpack (fmtBits (shpFmt v)) (shpRows v * shpCols v) (t.data.read 0 (shpBytes v))

/-- The values of a tile's elements, row by row. -/
def Tile.values (t : Tile) (v : Word) : Array XR :=
  let cs := t.codes v
  ((List.range (shpRows v * shpCols v)).map (fun k =>
    scaledElem (shpFmt v) (t.scaleOf v (k / shpCols v) (k % shpCols v)) (cs.getD k 0))).toArray

/-- Whether element (i, j) or its scale is poisoned (R339). -/
def Tile.poisonedAt (t : Tile) (v : Word) (i j : Nat) : Bool :=
  t.data.poisoned ((i * (shpCols v * fmtBits (shpFmt v) / 8) + j * fmtBits (shpFmt v) / 8) / 8) ||
    (shpBlock v ≠ 0 && t.scales.poisoned (scaleIndex v i j / 8))

/-- The tag of a row under a shape: read as at most q of its format (R179, R334). -/
def Tile.readTag (t : Tile) (v : Word) (i : Nat) : Nat := min (t.rowTag i) (fmtPrec (shpFmt v))

/-- The factors of one result as the engine multiplies them: A's rows from `a0` on, K to a row; B, `bcols` to a row. -/
structure Factors where
  float : Bool
  k : Nat
  n : Nat
  bcols : Nat
  rows : List Nat
  a0 : Nat
  a : Array XR
  b : Array XR
  /-- poison by row of A and by column of B -/
  aPoison : List Nat
  bPoison : List Nat
  /-- tags of A's rows, by row number less `a0`; the least tag of B's rows -/
  aTags : List Nat
  bTag : Nat

/-- Row i of A. -/
def Factors.row (f : Factors) (i : Nat) : List XR := (List.range f.k).map (fun x => f.a.getD ((i - f.a0) * f.k + x) xzero)

/-- Column j of B. -/
def Factors.col (f : Factors) (j : Nat) : List XR := (List.range f.k).map (fun x => f.b.getD (x * f.bcols + j) xzero)

/-- The factors of rows of ta by the columns of tb. -/
def tileFactors (ta : Tile) (va : Word) (tb : Tile) (vb : Word) (rows : List Nat) : Factors where
  float := decide (mulClass (shpFmt va) ≠ some 5)
  k := shpCols va
  n := shpCols vb
  bcols := shpCols vb
  rows := rows
  a0 := 0
  a := ta.values va
  b := tb.values vb
  aPoison := if ta.data.poison.isEmpty && ta.scales.poison.isEmpty then []
    else rows.filter (fun i => (List.range (shpCols va)).any (ta.poisonedAt va i))
  bPoison := if tb.data.poison.isEmpty && tb.scales.poison.isEmpty then []
    else (List.range (shpCols vb)).filter (fun j => (List.range (shpRows vb)).any (fun i => tb.poisonedAt vb i j))
  aTags := (List.range (shpRows va)).map (ta.readTag va)
  bTag := ((List.range (shpRows vb)).map (tb.readTag vb)).foldl min 24

/-! Accumulators (R335). -/

/-- The elements of an accumulator, row by row. -/
def Acc.array (a : Acc) : Array Word32 := a.elems.foldl (fun m p => m.setIfInBounds p.1 p.2) (Array.replicate 4096 0#32)

/-- The format code of an accumulator's elements. -/
def AccKind.fmt : AccKind → Nat
  | .int32 => 10
  | _ => 1

/-- Row i of an accumulator's elements. -/
def accRow (m : Array Word32) (i : Nat) : List Nat := (List.range 64).map (fun j => (m.getD (64 * i + j) 0#32).toNat)

/-- Column j of an accumulator's elements. -/
def accCol (m : Array Word32) (j : Nat) : List Nat := (List.range 64).map (fun i => (m.getD (64 * i + j) 0#32).toNat)

/-- An accumulator with its elements given: its checksums follow (R335). -/
def Acc.ofArray (a : Acc) (kind : AccKind) (m : Array Word32) : Acc :=
  { a with
    kind := kind
    elems := sparse 0#32 4096 (fun k => m.getD k 0#32)
    rowSums := sparse 0#32 64 (fun i => sumElems kind.fmt (accRow m i))
    colSums := sparse 0#32 64 (fun j => sumElems kind.fmt (accCol m j)) }

/-- The tag of a row of an accumulator. -/
def Acc.rowTag (a : Acc) (i : Nat) : Nat := lookupD 24 i a.rowTags

/-- An accumulator with the tag of a row set. -/
def Acc.setRowTag (a : Acc) (i q : Nat) : Acc :=
  { a with rowTags := if q = 24 then removeAt i a.rowTags else insertAt i q a.rowTags }

/-- The tag of an element of a result (R350): `old` is the element before, `new` after the instruction. -/
def elementTag (tin : Nat) (ps : List (XR × XR)) (old new : Word32) : Nat :=
  let top := (decodeF .fp32 old.toNat :: ps.map (fun p => (xmul p.1 p.2).1)).foldl (fun (t : Option Int) x =>
    match x with
    | .real _ m e _ => if m = 0 then t else some (t.elim (expOf m e) (fun u => max u (expOf m e)))
    | _ => t) none
  match decodeF .fp32 new.toNat with
  | .real _ m e _ =>
    if tin = 0 then 0
    else
      match top with
      | none => tin
      | some p => if m = 0 then 0 else adjustTag .fp32 false new.toNat (min ((tin : Int) - (p - expOf m e)).toNat 24)
  | _ => 0

/-- The tag of a row of a float result (R350). -/
def Factors.rowTag (f : Factors) (old : Acc) (m0 m1 : Array Word32) (i : Nat) : Nat :=
  let tin := min (min (f.aTags.getD (i - f.a0) 24) f.bTag) (old.rowTag i)
  let ts := (List.range f.n).map (fun j =>
    elementTag tin ((f.row i).zip (f.col j)) (m0.getD (64 * i + j) 0#32) (m1.getD (64 * i + j) 0#32))
  ts.foldl min (if f.n < 64 then old.rowTag i else 24)

/-- A result accumulated onto elements (R348): rows and columns outside it are unchanged. -/
def Factors.onto (f : Factors) (free : Nat → Word32) (m : Array Word32) : Array Word32 :=
  f.rows.foldl (fun m i =>
    (List.range f.n).foldl (fun m j =>
      m.setIfInBounds (64 * i + j) (dotOf f.float (free (64 * i + j)) (m.getD (64 * i + j) 0#32) ((f.row i).zip (f.col j)))) m) m

/-- An accumulator after a result whose elements are given: kind, checksums, row tags and poison follow (R335, R339, R350). -/
def Factors.finish (f : Factors) (old : Acc) (m : Array Word32) : Acc :=
  let a := old.ofArray (if f.float then .fp32 else .int32) m
  let a := if f.float then f.rows.foldl (fun a i => a.setRowTag i (f.rowTag old old.array m i)) a else a
  { a with poison := f.rows.foldl (fun ps i =>
      ((List.range f.n).filter (fun j => f.aPoison.contains i || f.bPoison.contains j)).foldl (fun ps j =>
        insertNat (32 * i + j / 2) ps) ps) a.poison }

/-- The rows of an accumulator's result as the array produces them: bits of it may be wrong (R112, assumption 48). -/
def Mxe.struck (e : Mxe) (ad : Nat) (rows : List Nat) (m : Array Word32) : Array Word32 :=
  e.flips.foldl (fun m p =>
    let i := p.1 % 4096
    if p.1 / 4096 = ad && rows.contains (i / 64) then m.setIfInBounds i (m.getD i 0#32 ^^^ p.2) else m) m

/-- The errors that have struck an accumulator's rows are gone. -/
def Mxe.settled (e : Mxe) (ad : Nat) (rows : List Nat) : Mxe :=
  { e with flips := e.flips.filter (fun p => !(decide (p.1 / 4096 = ad) && rows.contains (p.1 % 4096 / 64))) }

/-! The check (R111, R112, R349). -/

/-- The sum of exact values, each addition rounded to FP32 (R349). -/
def sumScaled (xs : List XR) : XR := xs.foldl addF32 xzero

/-- A checksum word as a value. -/
def sumValue (float : Bool) (w : Word32) : XR := if float then decodeF .fp32 w.toNat else intToX w.toInt

/-- The check of a result (R349): r and cA are the sums of B's rows and A's columns. The elements after it, and whether one was
corrected; none for CKSUM. -/
def Factors.check (f : Factors) (free : Nat → Word32) (kTolk : Nat) (old : Acc) (m : Array Word32) (r cA : List XR) :
    Option (Array Word32 × Bool) :=
  let fmt := if f.float then 1 else 10
  let predRow := fun i => dotOf f.float (free (4096 + i)) (lookupD 0#32 i old.rowSums) ((f.row i).zip r)
  let predCol := fun j => dotOf f.float (free (4160 + j)) (lookupD 0#32 j old.colSums) (cA.zip (f.col j))
  let testRow := fun (m : Array Word32) i => compareSum (!f.float) kTolk (predRow i) (sumElems fmt (accRow m i)) (accRow m i)
  let testCol := fun (m : Array Word32) j => compareSum (!f.float) kTolk (predCol j) (sumElems fmt (accCol m j)) (accCol m j)
  let rs := f.rows.map (fun i => (i, testRow m i))
  let cs := (List.range f.n).map (fun j => (j, testCol m j))
  if !anyFailed rs && !anyFailed cs then some (m, false)
  else
    match pointedAt rs cs with
    | none => none
    | some (i, j, d) =>
      let m := m.setIfInBounds (64 * i + j) (corrected (!f.float) (m.getD (64 * i + j) 0#32) d)
      if testRow m i = .pass && testCol m j = .pass then some (m, true) else none

/-! The operands of an instruction. -/

/-- The kind of accumulator that a class writes. -/
def kindOf (fmt : Nat) : AccKind := if mulClass fmt = some 5 then .int32 else .fp32

/-- TILE_SHAPE's value: operand and reason (R337). -/
def tileShape (operand reason : Nat) : Act := .trap 0x11 (BitVec.ofNat 64 (operand * 256 + reason))

/-- The matrix engine of the running hart's cell. -/
def State.mxe (s : State) : Mxe := s.cell.mxe

/-- The state with that engine changed. -/
def State.modMxe (s : State) (f : Mxe → Mxe) : State := s.modCell (cellOf s.cur) (fun c => { c with mxe := f c.mxe })

/-- A tile register as the stream that holds it leaves it, as far as an operand check asks (R337, R345): a whole write makes its sidecar
fresh, a partial one makes that of a float tile stale. -/
def State.streamEnd (s : State) (c : Nat) (m : Mxe) (t : Nat) : Mxe :=
  let held := (List.range 24).findSome? (fun i =>
    let k := (s.hartAt (8 * c + 4 + i / 8)).slot (i % 8)
    if k.admitted && k.cmd.any (fun d => decide (d.ep = 16 + t)) then some k else none)
  match held with
  | none => m
  | some k =>
    let y := m.tile t
    let v := m.shape t
    m.setTile t { y with stale := if shpBytes v ≤ imgElems k.image * imgE k.image then false else y.stale || (fmtFloat (shpFmt v)).isSome }

/-- The engine as a piece of work leaves it, as far as an operand check asks: shapes, stale sidecars, kinds of accumulators (R337). -/
def Mxe.expect (m : Mxe) : MxOp → Mxe
  | .mul _ d a _ => m.setAcc d { m.acc d with kind := kindOf (shpFmt (m.shape a)) }
  | .groups _ d a table =>
    if table.all (fun p => decide (p.2 = 0)) then m else m.setAcc d { m.acc d with kind := kindOf (shpFmt (m.shape a)) }
  | .tld t _ _ _ _ _ _ => m.setTile t { m.tile t with stale := false }
  | .tst _ _ => m
  | .tzero t => m.setTile t { m.tile t with stale := false }
  | .tcsum t => m.setTile t { m.tile t with stale := false }
  | .acz a => m.setAcc a Acc.reset
  | .acnv _ t _ _ => m.setTile t { m.tile t with stale := false }
  | .tshp n v => m.writeTshp n v

/-- The engine of a cell as all that it has accepted leaves it, as far as an operand check asks (R337). -/
def State.expectedMxe (s : State) (c : Nat) : Mxe :=
  let m := (s.cellAt c).mxe
  m.work.foldl (fun m w => m.expect w.op) ((List.range 8).foldl (s.streamEnd c) m)

/-- The state in which the operands of an instruction of the running hart are checked (R337). -/
def State.expected (s : State) : State := s.modCell (cellOf s.cur) (fun c => { c with mxe := s.expectedMxe (cellOf s.cur) })

/-- Whether the node holds an accumulator (R356). -/
def State.nodeHolds (s : State) (ad : Nat) : Bool := s.cell.nodeOn && decide (bits s.cell.cfg.node.toNat 58 57 = ad)

/-- The operand checks of a multiply, in their order (R348): the operand and the reason of TILE_SHAPE; an operand of 8 and more is
a stale tile. -/
def State.mulBad (s : State) (ad ta tb : Nat) (check : Bool) : Option (Nat × Nat) :=
  let va := s.mxe.shape ta
  let vb := s.mxe.shape tb
  let ca := mulClass (shpFmt va)
  if !shpLegal va then some (ta, 1)
  else if !shpLegal vb then some (tb, 1)
  else if ca.isNone then some (ta, 2)
  else if mulClass (shpFmt vb) ≠ ca then some (tb, 2)
  else if shpCols va ≠ shpRows vb then some (tb, 3)
  else if 64 < shpCols vb then some (tb, 4)
  else if shpBlock va ≠ 0 && shpDown va then some (ta, 5)
  else if shpBlock vb ≠ 0 && !shpDown vb then some (tb, 5)
  else if s.nodeHolds ad then some (ad, 10)
  else if (s.mxe.acc ad).kind ≠ .empty && (s.mxe.acc ad).kind ≠ kindOf (shpFmt va) then some (ad, 6)
  else if check && (s.mxe.tile ta).stale then some (8 + ta, 0)
  else if check && (s.mxe.tile tb).stale then some (8 + tb, 0)
  else none

/-- The trap of a failed operand check: TILE_SHAPE, or CKSUM_STALE with the number of the tile (R337). -/
def mulTrap (b : Nat × Nat) : Act := if b.2 = 0 then .trap 0x12 (BitVec.ofNat 64 (b.1 - 8)) else tileShape b.1 b.2

/-- The region that the work of the running hart belongs to: its task's, or where the task has ended the one that holds the cell. -/
def State.mxRegion (s : State) : Nat := if s.hart.task.isSome then s.hart.regionId else s.cellRegion (cellOf s.cur)

/-- The factor K·TOLK of a region (R111). -/
def State.kTolk (s : State) (r k : Nat) : Nat := k * bits (((s.region? r).map Region.rparm).getD rparmReset).toNat 31 24

/-- The free values that block-scaled integer products may need (assumption 31). -/
def State.freeWords (s : State) (k : Nat) : Word32 := (Config.freeWord (s.fresh + k)).setWidth 32

/-- The sums that the check of rows of ta by tb takes (R349): from a sidecar, or computed once the sidecar has been found right;
none for CKSUM. -/
def checkSums (f : Factors) (ta : Tile) (va : Word) (tb : Tile) (vb : Word) : Option (List XR × List XR) :=
  let fromB := shpBlock vb = 0
  let fromA := shpBlock va = 0 && f.rows.length = shpRows va
  if (!fromB && tb.sums vb ≠ tb.trueSums vb) || (!fromA && ta.sums va ≠ ta.trueSums va) then none
  else
    let r := if fromB then ((tb.sums vb).take f.k).map (sumValue f.float)
      else (List.range f.k).map (fun x => sumScaled ((List.range f.n).map (fun j => f.b.getD (x * f.bcols + j) xzero)))
    let cA := if fromA then ((ta.sums va).drop (shpRows va)).map (sumValue f.float)
      else (List.range f.k).map (fun x => sumScaled (f.rows.map (fun i => f.a.getD (i * f.k + x) xzero)))
    some (r, cA)

/-- One result accumulated, checked, and corrected if need be (R348, R349, R351): none for CKSUM. -/
def State.multiply (s : State) (ad ta tb : Nat) (rows : List Nat) (check : Bool) : Option State :=
  let x := s.mxe.tile ta
  let va := s.mxe.shape ta
  let y := s.mxe.tile tb
  let vb := s.mxe.shape tb
  let f := tileFactors x va y vb rows
  let old := s.mxe.acc ad
  let m := s.mxe.struck ad rows (f.onto s.freeWords old.array)
  let r := s.mxRegion
  let put := fun (m : Array Word32) (fixed : Bool) =>
    let s := { s with fresh := s.fresh + (if f.float then 0 else 4224) }
    let s := s.note (!f.aPoison.isEmpty || !f.bPoison.isEmpty) 0
    let s := s.modMxe (fun e => (e.setAcc ad (f.finish old m)).settled ad rows)
    if fixed then s.modRegion r (fun g => { g with corr := min (g.corr + 1) (2 ^ 32 - 1) }) else s
  if check then
    match checkSums f x va y vb with
    | none => none
    | some (rK, cA) => (f.check s.freeWords (s.kTolk r f.k) old m rK cA).map (fun p => put p.1 p.2)
  else some (put m false)

/-! Work (R337, R342-R352): what a piece of accepted work does as its turn comes. -/

/-- One product of all rows of a tile; one that fails its check raises CKSUM (R348). -/
def State.mulWork (s : State) (check : Bool) (d a b : Nat) : State :=
  match s.multiply d a b (List.range (shpRows (s.mxe.shape a))) check with
  | some t => t
  | none => s.cause s.mxRegion 0x40

/-- The groups with their first rows; those of no rows left out. -/
def groupRows : Nat → List (Nat × Nat) → List (Nat × List Nat)
  | _, [] => []
  | row, (t, n) :: rest =>
    if n = 0 then groupRows row rest else (t, (List.range n).map (fun i => row + i)) :: groupRows (row + n) rest

/-- The groups of a group row table; CKSUM of one leaves no effect (R351). -/
def State.groupWork (s : State) (check : Bool) (d a : Nat) (table : List (Nat × Nat)) : State :=
  let t := s.modMxe (fun m => { m with groupTable := table })
  match (groupRows 0 table).foldlM (fun (t : State) p => t.multiply d a p.1 p.2 check) t with
  | some t => t
  | none => s.cause s.mxRegion 0x40

/-- A tile load accepted (R342, R344): its bytes stand in the tile, and their delivery follows. -/
def State.acceptTld (s : State) (t : Nat) (data scales : List Byte) (poison : List Nat) (sums : Option (List Word32))
    (barrier : Option Nat) (pool : Option (Nat × (Nat × Bool))) : State :=
  let v := s.mxe.shape t
  let u := (data.length + 7) / 8
  let y : Tile := { (s.mxe.tile t).allTags (fmtPrec (shpFmt v)) with
    data := memOf data (poison.filter (fun p => p < u))
    scales := memOf scales ((poison.filter (fun p => u ≤ p)).map (fun p => p - u)) }
  let own := y.trueSums v
  s.modMxe (fun m => { m.setTile t (y.withSums (sums.getD own)) with
    pending := m.pending ++ [⟨t, s.cur, data.length + scales.length, barrier, pool, sums.any (fun w => w ≠ own)⟩] })

/-- The bytes that a tile store writes, each with the poison of its unit: the data, then the scales (R346). -/
def Tile.stored (y : Tile) (v : Word) : List (Byte × Bool) :=
  (y.data.read 0 (shpBytes v)).zipIdx.map (fun b => (b.1, y.data.poisoned (b.2 / 8))) ++
    (y.scales.read 0 (shpScales v)).zipIdx.map (fun b => (b.1, y.scales.poisoned (b.2 / 8)))

/-- Bytes laid over the places of a store, one after the other: poison, address and bytes of each. -/
def layPlaces : List (Nat × Nat) → List (Byte × Bool) → List (Bool × (Nat × List Byte))
  | [], _ => []
  | (pa, n) :: rest, bs => ((bs.take n).any Prod.snd, (pa, (bs.take n).map Prod.fst)) :: layPlaces rest (bs.drop n)

/-- A tile stored at places that have been translated (R346): one whose sidecar does not match raises CKSUM and stores nothing. It is no
older store of its hart any more. -/
def State.tstWork (s : State) (b : Nat) (places : List (Nat × Nat)) : State :=
  let v := s.mxe.shape b
  let y := s.mxe.tile b
  if !y.stale && y.sums v ≠ y.trueSums v then s.cause s.mxRegion 0x40
  else
    let rg := s.hart.regionId
    let p := (List.range ((shpBytes v + 7) / 8)).any y.data.poisoned
    ((s.enterStore ⟨s.cur, rg, unitOf (cellOf s.cur), s.interval rg s.cur, layPlaces places (y.stored v)⟩).note p 0).note p 3

/-- Whether the data of a tile is poisoned anywhere. -/
def Tile.anyPoison (t : Tile) (v : Word) : Bool := (List.range ((shpBytes v + 7) / 8)).any t.data.poisoned

/-- A tile of zeros (R347). -/
def State.tzeroWork (s : State) (t : Nat) : State :=
  s.modMxe (fun m => m.setTile t
    ({ Tile.reset with scales := memOf (List.replicate 1024 0x7F#8) [], stale := false }.allTags (fmtPrec (shpFmt (m.shape t)))))

/-- A tile whose sidecar is made anew (R347). -/
def State.tcsumWork (s : State) (n : Nat) : State :=
  let v := s.mxe.shape n
  let t := s.mxe.tile n
  (s.note (t.anyPoison v) 0).modMxe (fun m => m.setTile n (t.withSums (t.trueSums v)))

/-- The range of an integer format. -/
def intRange (f : Nat) : Int × Int :=
  match f with
  | 7 => (-128, 127)
  | 8 => (0, 255)
  | 9 => (-32768, 32767)
  | _ => (-2 ^ 31, 2 ^ 31 - 1)

/-- An accumulator element narrowed to a format under a scale (R352). -/
def narrowElem (kind : AccKind) (f scale : Nat) (rm : RMode) (w : Word32) : Nat :=
  if scale = 0xFF then 0
  else
    let x := xscale (sumValue (decide (kind ≠ .int32)) w) (127 - (scale : Int))
    match fmtFloat f with
    | some g => (roundX g rm x).1
    | none => wrapTo (fmtBits f) (xToInt rm (intRange f).1 (intRange f).2 x).1

/-- An accumulator narrowed into a tile under a rounding mode (R352). -/
def State.acnvWork (s : State) (fm n a rm : Nat) : State :=
  let v := s.mxe.shape n
  let t := s.mxe.tile n
  let acc := s.mxe.acc a
  let m := acc.array
  let cols := shpCols v
  let idx := (List.range (shpRows v)).flatMap (fun i => (List.range cols).map (fun j => (i, j)))
  let es := idx.map (fun p => narrowElem acc.kind fm (t.scaleOf v p.1 p.2) (RMode.ofCode rm) (m.getD (64 * p.1 + p.2) 0#32))
  let bad := idx.filter (fun p => acc.poison.contains (32 * p.1 + p.2 / 2) ||
    (shpBlock v ≠ 0 && t.scales.poisoned (scaleIndex v p.1 p.2 / 8)))
  let units := bad.foldl (fun us p => insertNat ((p.1 * (cols * fmtBits fm / 8) + p.2 * fmtBits fm / 8) / 8) us) []
  let y : Tile := { t with
    data := memOf (packElements (fmtBits fm) es) units
    rowTags := sparse 24 64 (fun i => if (fmtFloat fm).isSome then min (acc.rowTag i) (fmtPrec fm) else 24) }
  (s.note (!bad.isEmpty) 0).modMxe (fun m => m.setTile n (y.withSums (y.trueSums v)))

/-- A piece of work of the running hart done (R337). -/
def State.doWork (s : State) : MxOp → State
  | .mul check d a b => s.mulWork check d a b
  | .groups check d a table => s.groupWork check d a table
  | .tld t data scales poison sums barrier pool => s.acceptTld t data scales poison sums barrier pool
  | .tst b places => s.tstWork b places
  | .tzero t => s.tzeroWork t
  | .tcsum t => s.tcsumWork t
  | .acz a => s.modMxe (fun m => m.setAcc a Acc.reset)
  | .acnv f t a rm => s.acnvWork f t a rm
  | .tshp n v => s.modMxe (fun m => m.writeTshp n v)

/-- A piece of work accepted from the running hart (R337): it is done, or it waits inside the engine. A tile store that waits counts as an
older store of its hart (R346). -/
def State.giveWork (s : State) (op : MxOp) : State := if s.mxBusy (cellOf s.cur) op then s.queueWork op else s.doWork op

/-- The deferred tile stores of a hart without the oldest. -/
def dropTst : List PendingStore → List PendingStore
  | [] => []
  | p :: rest => if p.swid = tstWaits then rest else p :: dropTst rest

/-- The first piece of work that waits inside the engine of a cell is done, once no stream holds its tiles (R337, R345). A tile store of a
task that has been killed is gone with its other stores. -/
def State.nextWork (s : State) (c : Nat) : State :=
  match (s.cellAt c).mxe.work with
  | [] => s
  | w :: rest =>
    if !s.cellMoves c || w.op.names.any (fun n => decide (n < 8) && !s.tileFree c n) then s
    else
      let t := (s.modCell c (fun x => { x with mxe := { x.mxe with work := rest } })).as w.hart
      let done := match w.op with
        | .tst b ps =>
          if t.hart.stores.any (fun p => decide (p.swid = tstWaits)) then (t.modHart (fun h => { h with stores := dropTst h.stores })).tstWork b ps else t
        | op => t.doWork op
      ({ done with cur := s.cur }).fire (s.cellRegion c)

/-- mma, mma.nc (R337, R348). -/
def mmaOp (check : Bool) (d : AReg) (a b : TReg) (s : State) : Act :=
  match s.expected.mulBad d.toNat a.toNat b.toNat check with
  | some e => mulTrap e
  | none => .done (s.giveWork (.mul check d.toNat a.toNat b.toNat))

/-- MMA (R348). -/
def execMma (tk : Tok) (d : AReg) (a b : TReg) (s : State) : Out := runHart (.mma tk d a b) tk s (mmaOp true d a b)

/-- MMA_NC (R348). -/
def execMmaNc (tk : Tok) (d : AReg) (a b : TReg) (s : State) : Out := runHart (.mmaNc tk d a b) tk s (mmaOp false d a b)

/-! The ragged grouped multiply (R351). -/

/-- Dwords of a group row table read by the running hart as loads. -/
def State.readTable (s : State) : Nat → Nat → Except Act (List (Word × Bool))
  | 0, _ => .ok []
  | n + 1, va =>
    match s.readDword va with
    | .error e => .error e
    | .ok w =>
      match s.readTable n (va + 8) with
      | .ok ws => .ok (w :: ws)
      | .error e => .error e

/-- The entries of a table from its dwords after the first: tile register and rows. -/
def tableEntries (g : Nat) (ws : List Word) : List Nat :=
  (List.range g).map (fun i => bits ((ws.getD (i / 2) 0#64).toNat) (32 * (i % 2) + 31) (32 * (i % 2)))

/-- mmag, mmag.nc (R351): the table is read first; every trap is raised before any group runs. -/
def mmagOp (check : Bool) (d : AReg) (a : TReg) (b : Reg) (s : State) : Act :=
  srcU s b fun x s =>
    let note := fun (s : State) => s.note x.poison 4
    let s := note s
    let va := x.val.toNat
    if va % 8 ≠ 0 then .trapWith note 0x05 x.val
    else if s.hart.storeOverlap [(va, 136)] then .wait .memory id
    else
      match s.readTable 1 va with
      | .error e => e
      | .ok hd =>
        let h := ((hd.map Prod.fst).getD 0 0#64).toNat
        let g := h % 64
        if h / 64 ≠ 0 || g = 0 || 32 < g then .trapWith note 0x11 0xFF09#64
        else
          match s.readTable ((g + 1) / 2) (va + 8) with
          | .error e => e
          | .ok ws =>
            let es := tableEntries g (ws.map Prod.fst)
            let tab := es.map (fun e => (bits e 10 8, bits e 6 0))
            if es.any (fun e => decide (bits e 31 11 ≠ 0) || decide (bits e 7 7 ≠ 0)) ||
                shpRows (s.mxe.nextShape a.toNat) < (tab.map Prod.snd).foldl (· + ·) 0 then .trapWith note 0x11 0xFF09#64
            else
              let s := s.note ((hd ++ ws).any Prod.snd) 0
              (match (groupRows 0 tab).findSome? (fun (p : Nat × List Nat) => s.expected.mulBad d.toNat a.toNat p.1 check) with
               | some e => mulTrap e
               | none => .done (s.giveWork (.groups check d.toNat a.toNat tab))).noting note

/-- MMAG (R351). -/
def execMmag (tk : Tok) (d : AReg) (a : TReg) (b : Reg) (s : State) : Out := runHart (.mmag tk d a b) tk s (mmagOp true d a b)

/-- MMAG_NC (R351). -/
def execMmagNc (tk : Tok) (d : AReg) (a : TReg) (b : Reg) (s : State) : Out :=
  runHart (.mmagNc tk d a b) tk s (mmagOp false d a b)

/-! Moving tiles (R342-R347). -/

/-- The physical pieces of a range read by the running hart, cut at pages; the first page that misses decides. -/
def State.rangePas (s : State) : Nat → Nat → Nat → Except Act (List (Nat × Nat))
  | 0, _, _ => .ok []
  | fuel + 1, va, n =>
    if n = 0 then .ok []
    else
      match s.access va true false with
      | .hit pa _ =>
        let k := min n (8192 - va % 8192)
        match s.rangePas fuel (va + k) (n - k) with
        | .ok ps => .ok ((pa, k) :: ps)
        | .error e => .error e
      | t => .error (missed t va 0x08 0x0A)

/-- The 8-byte units of bytes that hold a poisoned one. -/
def badUnits (bs : List (Byte × Bool)) : List Nat :=
  (List.range ((bs.length + 7) / 8)).filter (fun k => ((bs.drop (8 * k)).take 8).any Prod.snd)

/-- The poisoned units of the data and of the scales of a tile with TB bytes of data; those of the scales are numbered from the end
of the data on. -/
def tileUnits (tb : Nat) (bs : List (Byte × Bool)) : List Nat :=
  badUnits (bs.take tb) ++ (badUnits (bs.drop tb)).map (fun k => (tb + 7) / 8 + k)

/-- The barrier object of a tile load (R342-R344): its physical address, if one is named. A fault enters the SFRQ as an
atomic's does, once older stores have been translated. -/
def barrierOf (x : Word) (k : Option Nat → State → Act) (s : State) : Act :=
  if x = 0#64 then k none s
  else if x.toNat % 8 ≠ 0 then .trap 0x05 x
  else
    match s.access x.toNat true true with
    | .hit pa _ => k (some pa) s
    | t =>
      if t.isFault then
        if s.hart.hnd then .trap (storeCause t) x
        else if !s.hart.stores.isEmpty then .wait .memory id
        else
          .wait .memory (fun s =>
            let s := if storeCause t = 0x09 then s.takeWalkFault (unitOf (cellOf s.cur)) s.hart.ctxId x.toNat else s
            s.modHart (fun h => { h with sfrq := h.sfrq ++ [⟨storeCause t, x, 6, 0, []⟩] }))
      else missed t x.toNat 0x09 0x0B

/-- tld (R342). -/
def tldOp (d : TReg) (a b : Reg) (s : State) : Act :=
  srcU s a fun x s => srcU s b fun y s =>
    let note := fun (s : State) => s.note (x.poison || y.poison) 4
    let s := note s
    let v := s.mxe.nextShape d.toNat
    let n := shpBytes v + shpScales v
    (if !shpLegal v then tileShape d.toNat 1
     else if x.val.toNat % 32 ≠ 0 then .trap 0x05 x.val
     else if s.hart.storeOverlap [(x.val.toNat, n)] then .wait .memory id
     else
       match s.rangePas (n + 1) x.val.toNat n with
       | .error e => e
       | .ok ps =>
         barrierOf y.val (fun bar s =>
           let r := s.hart.regionId
           let bs := s.readPlace (cellOf s.cur) r n (.dev ps)
           let ds := bs.map Prod.fst
           .done (s.giveWork (.tld d.toNat (ds.take (shpBytes v)) (ds.drop (shpBytes v)) (tileUnits (shpBytes v) bs) none bar none))) s).noting note

/-- TLD (R342). -/
def execTld (tk : Tok) (d : TReg) (a b : Reg) (s : State) : Out := runHart (.tld tk d a b) tk s (tldOp d a b)

/-- tld.h, tld.hk (R344): the hart waits for the admission of the read. -/
def tldPoolOp (consuming : Bool) (d : TReg) (a b : Reg) (s : State) : Act :=
  srcU s a fun x s => srcU s b fun y s =>
    let note := fun (s : State) => s.note (x.poison || y.poison) 4
    let s := note s
    let v := s.mxe.nextShape d.toNat
    (if !shpLegal v then tileShape d.toNat 1
     else if shpBlock v ≠ 0 then tileShape d.toNat 8
     else
       match s.resolveRef x.val with
       | .error code => .trap code x.val
       | .ok (c, t) =>
         if descFmt t.desc ≠ shpFmt v || descRows t.desc ≠ shpRows v || descCols t.desc ≠ shpCols v then tileShape d.toNat 8
         else
           barrierOf y.val (fun bar s =>
             match s.admitRead c s.cur s.hart.ctxId (x.val.toNat % 65536) consuming with
             | .fault code => .trap code x.val
             | .waiting => .wait .pool id
             | .admitted s =>
               let bs := (s.slotBytes c t).take (shpBytes v)
               let u := (s.cellAt c).slotBase t.first / 8
               let poison := (List.range ((shpBytes v + 7) / 8)).filter (fun i => (s.cellAt c).sram.poisoned (u + i))
               .done (s.giveWork (.tld d.toNat bs [] poison (some t.sidecar) bar (some (c, (t.first, consuming)))))) s).noting note

/-- TLD_H (R344). -/
def execTldH (tk : Tok) (d : TReg) (a b : Reg) (s : State) : Out := runHart (.tldH tk d a b) tk s (tldPoolOp true d a b)

/-- TLD_HK (R344). -/
def execTldHk (tk : Tok) (d : TReg) (a b : Reg) (s : State) : Out := runHart (.tldHk tk d a b) tk s (tldPoolOp false d a b)

/-- The end of a tile load whose last bytes have arrived (R316, R344): a pool read ends; sums that differ raise CKSUM, once for the
tile and once for the pool. -/
def State.endTld (s : State) (r : Nat) (p : PendingTld) : State :=
  match p.pool with
  | none => s
  | some (c, (first, consuming)) =>
    let s := if p.bad then s.cause r 0x40 else s
    let s := s.endRead c p.hart first consuming
    if p.bad then s.cause r 0x40 else s

/-- TLD_DELIVERY (R342-R344): some of the bytes still awaited by the oldest tile load of a register arrive; how many is not
architectural (assumption 32). Its barrier object is lowered by them. -/
def execTldDelivery (cell : Nat) (t : TReg) (s : State) : Out :=
  let k := (s.cellAt cell).mxe
  match findNth (fun (p : PendingTld) => decide (p.tile = t.toNat)) k.pending 0 with
  | none => .next s
  | some (i, p) =>
    let r := s.cellRegion cell
    let d := 1 + (Config.freeWord s.fresh).toNat % max p.left 1
    if !s.cellMoves cell || !(p.barrier.all (fun pa => s.commitRoom r (unitOf cell) 8 && !(s.cellAt cell).parkedAt pa 8)) then .next s
    else
      let s := { s with fresh := s.fresh + 1 }
      let s := match p.barrier with
        | none => s
        | some pa =>
          let old := leNat (s.view r pa 8)
          (s.write r (unitOf cell) (s.interval r p.hart) pa (natBytes 8 ((old + 2 ^ 64 - d) % 2 ^ 64)) (s.viewAnyPoison r pa 8)).refresh cell r
            [(pa, 8)]
      let set := fun (ps : List PendingTld) => s.modCell cell (fun c => { c with mxe := { c.mxe with pending := ps } })
      .next ((if p.left ≤ d then (set (dropNth k.pending i)).endTld r p
        else set (setNth k.pending i { p with left := p.left - d })).fire r)

/-- The places of n bytes of a tile as parts of a store, an 8-byte unit each; their bytes are the tile's as the store is done. -/
def storeParts (va n : Nat) : List StorePart :=
  (List.range ((n + 7) / 8)).map (fun i => ⟨i, va + 8 * i, List.replicate (min 8 (n - 8 * i)) 0#8, false, none⟩)

/-- tst (R337, R346): a hart that has given a tile store to the engine which waits there has an older store until it is done. -/
def tstOp (b : TReg) (a : Reg) (s : State) : Act :=
  srcU s a fun x s =>
    let note := fun (s : State) => s.note x.poison 4
    let s := note s
    let v := s.mxe.nextShape b.toNat
    let tb := shpBytes v
    (if !shpLegal v then tileShape b.toNat 1
     else if x.val.toNat % 32 ≠ 0 then .trap 0x05 x.val
     else if !s.hart.stores.isEmpty || s.hart.loadOverlap [(x.val.toNat, tb + shpScales v)] then .wait .memory id
     else
       let parts := storeParts x.val.toNat tb ++ storeParts (x.val.toNat + tb) (shpScales v)
       storeAt 4 parts (fun rs s =>
         let op := MxOp.tst b.toNat (rs.flatMap (fun r => r.2.writes.map (fun w => (w.1, w.2.length))))
         if s.mxBusy (cellOf s.cur) op then
           .done ((s.queueWork op).modHart (fun h => { h with stores := h.stores ++ [⟨tstWaits, parts, h.instret + 1#64⟩] }))
         else .done (s.doWork op)) s).noting note

/-- TST (R346). -/
def execTst (tk : Tok) (b : TReg) (a : Reg) (s : State) : Out := runHart (.tst tk b a) tk s (tstOp b a)

/-- tzero (R347). -/
def tzeroOp (d : TReg) (s : State) : Act :=
  if !shpLegal (s.mxe.nextShape d.toNat) then tileShape d.toNat 1 else .done (s.giveWork (.tzero d.toNat))

/-- TZERO (R347). -/
def execTzero (tk : Tok) (d : TReg) (s : State) : Out := runHart (.tzero tk d) tk s (tzeroOp d)

/-- tcsum (R347). -/
def tcsumOp (d : TReg) (s : State) : Act :=
  if !shpLegal (s.mxe.nextShape d.toNat) then tileShape d.toNat 1 else .done (s.giveWork (.tcsum d.toNat))

/-- TCSUM (R347). -/
def execTcsum (tk : Tok) (d : TReg) (s : State) : Out := runHart (.tcsum tk d) tk s (tcsumOp d)

/-- tcchk (R337, R347): its shape is checked as it is accepted; it retires once the tile is at rest. -/
def tcchkOp (p : PReg) (a : TReg) (s : State) : Act :=
  let v := s.mxe.nextShape a.toNat
  let t := s.mxe.tile a.toNat
  if !shpLegal v then tileShape a.toNat 1
  else if !s.tileAtRest (cellOf s.cur) a.toNat then .wait .memory id
  else
    let q := t.anyPoison v
    .done (((s.note q 0).note q 1).modHart (fun h => h.setP p (!t.stale && t.sums v == t.trueSums v)))

/-- TCCHK (R347). -/
def execTcchk (tk : Tok) (p : PReg) (a : TReg) (s : State) : Out := runHart (.tcchk tk p a) tk s (tcchkOp p a)

/-! Accumulators (R352). -/

/-- acz (R352). -/
def aczOp (d : AReg) (s : State) : Act :=
  if s.nodeHolds d.toNat then tileShape d.toNat 10 else .done (s.giveWork (.acz d.toNat))

/-- ACZ (R352). -/
def execAcz (tk : Tok) (d : AReg) (s : State) : Out := runHart (.acz tk d) tk s (aczOp d)

/-- acnv (R352). -/
def acnvOp (f : BitVec 4) (d : TReg) (a : AReg) (s : State) : Act :=
  let v := s.mxe.nextShape d.toNat
  if !shpLegal v then tileShape d.toNat 1
  else if shpFmt v ≠ f.toNat then tileShape d.toNat 7
  else if 64 < shpRows v || 64 < shpCols v then tileShape d.toNat 4
  else .done (s.giveWork (.acnv f.toNat d.toNat a.toNat (s.hart.fcsr.toNat / 32)))

/-- ACNV (R352). -/
def execAcnv (tk : Tok) (f : BitVec 4) (d : TReg) (a : AReg) (s : State) : Out := runHart (.acnv tk f d a) tk s (acnvOp f d a)

/-! The node (R353-R357). -/

/-- The trip counts that the low 28 bits of a value give (R355). -/
def Node.bound (n : Node) (v : Nat) : Node := { n with m := bits v 27 22 + 1, n := bits v 21 16 + 1, k := bits v 15 0 + 1 }

/-- A node that starts under its record (R336, R353): the trip counts of the record. -/
def Node.start (rec' : Word) : Node := Node.reset.bound ((bits rec'.toNat 27 16) * 65536 + bits rec'.toNat 43 28)

/-- Whether a node stands at a group boundary with nothing left to emit (R354, R356). -/
def Node.atBoundary (n : Node) : Bool := decide (n.pass = 0) && decide (n.row = 0) && n.latched.isNone && n.output.isEmpty

/-- What stands on a channel of the input of the node of a cell: the first flit that is no KERF, unless a KERF holds it back. -/
def State.nodeFront (s : State) (c ch : Nat) : Option PortItem :=
  let is := (s.cellAt c).ripePort (56 + ch)
  if s.taken (s.cellRegion c) (32768 + c) then is.find? (fun i => i.flit.kind ≠ 4#3)
  else is.head?.bind (fun i => if i.flit.kind = 4#3 then none else some i)

/-- The channel from which the node of a cell takes its next flit: flits come in the order in which they were passed (R353). -/
def State.nodeChannel (s : State) (c : Nat) : Nat :=
  match (s.cellAt c).mxe.node.order with
  | ch :: _ => ch
  | [] => if (s.nodeFront c 0).isSome then 0 else 1

/-- What stands at the input of the node of a cell. -/
def State.nodeHead (s : State) (c : Nat) : Option PortItem := s.nodeFront c (s.nodeChannel c)

/-- The input of the node of a cell without that flit. -/
def State.nodePop (s : State) (c : Nat) : State :=
  let pk := 56 + s.nodeChannel c
  s.modCell c (fun x => { x with ports := insertAt pk (dropItems 1 (lookupD [] pk x.ports)) x.ports }.modNode
    (fun n => { n with order := n.order.drop 1 }))

/-- A BOUND flit. -/
def Flit.isBound (f : Flit) : Bool := decide (f.kind = 6#3) && decide (f.sub = 3)

/-- The node of a cell changed. -/
def State.modNode (s : State) (c : Nat) (f : Node → Node) : State :=
  s.modCell c (fun x => x.modNode f)

/-- tbound (R355): it waits for a group boundary, and for a BOUND that stands there. -/
def tboundOp (a : Reg) (s : State) : Act :=
  srcU s a fun x s =>
    let note := fun (s : State) => s.note x.poison 4
    let s := note s
    let c := cellOf s.cur
    if !s.cell.nodeOn || x.val.toNat / 2 ^ 28 ≠ 0 then .trapWith note 0x11 0xFE0B#64
    else if !s.mxe.node.atBoundary || (s.nodeHead c).any (fun i => i.flit.isBound) then .wait .control id
    else .done (s.modNode c (fun n => n.bound x.val.toNat))

/-- TBOUND (R355). -/
def execTbound (tk : Tok) (a : Reg) (s : State) : Out := runHart (.tbound tk a) tk s (tboundOp a)

/-- Whether the node of a cell may move. -/
def State.nodeRuns (s : State) (c : Nat) : Bool :=
  (s.cellAt c).nodeOn && !(s.cellAt c).mxe.node.stopped && s.cellMoves c

/-- The node emits the first of the flits it has to (R272, R353): one, where the output has room. -/
def State.nodeEmit (s : State) (c : Nat) : State :=
  match (s.cellAt c).mxe.node.output with
  | [] => s
  | f :: rest =>
    if s.bufRoom c 120 1 then ((s.pushFlits c 120 (32768 + c) [f]).modNode c (fun n => { n with output := rest })).fire (s.cellRegion c)
    else s

/-- A node stops (R354): its cause is CFG_FETCH. -/
def State.nodeStop (s : State) (c : Nat) : State :=
  (s.modNode c (fun n => { n with stopped := true })).cause (s.cellRegion c) 0x47

/-- The B of a pass latched (R354): the token is popped and the other one pushed; a tile that cannot serve stops the node. -/
def State.nodeLatch (s : State) (c : Nat) : State :=
  let x := s.cellAt c
  let rec' := x.cfg.node.toNat
  let tb := bits rec' 61 59
  let v := x.mxe.shape tb
  let d := bits rec' 52 49
  match x.popFifo (bits rec' 56 53) (s.taken (s.cellRegion c) (32768 + c)) with
  | none => s
  | some f =>
    if 16 ≤ tokenCount (x.fifo d) || !s.tileFree c tb || x.mxe.awaits [tb] then s
    else
      let s := s.modCell c (fun y => y.setFifo (bits rec' 56 53) f)
      let other := (s.nodeHead c).any (fun i => i.flit.isData &&
        decide (mulClass (x.cftEntry i.input i.flit.vc.toNat % 16) ≠ mulClass (shpFmt v)))
      if !shpLegal v || (mulClass (shpFmt v)).isNone || other || shpCols v < x.mxe.node.n then s.nodeStop c
      else
        ((s.pushToken c d 8).modNode c (fun n => { n with latched := some (x.mxe.tile tb, v) })).fire (s.cellRegion c)

/-- NODE_PASS (R354-R356): a node without a latched B takes what stands at its group boundary, or begins its next pass. -/
def execNodePass (cell : Nat) (s : State) : Out :=
  let n := (s.cellAt cell).mxe.node
  if !s.nodeRuns cell then .next s
  else if !n.output.isEmpty then .next (s.nodeEmit cell)
  else if n.latched.isSome then .next s
  else
    match (if n.pass = 0 then s.nodeHead cell else none) with
    | some i =>
      if i.flit.isData then .next (s.nodeLatch cell)
      else
        let s := (s.nodePop cell).fire (s.cellRegion cell)
        let w := bits i.flit.data.toNat 31 0
        if i.flit.isBound then .next (if w / 2 ^ 28 = 0 then s.modNode cell (fun n => n.bound w) else s)
        else .next (s.modNode cell (fun n => { n with output := [i.flit] }))
    | none =>
      if n.pass = 0 && [56, 57].any (fun pk => (lookupD [] pk (s.cellAt cell).ports).any (fun i => i.flit.kind = 4#3)) then .next s
      else .next (s.nodeLatch cell)

/-- The element codes of a row that flits bring (R84). -/
def rowCodes (f l : Nat) (fs : List Flit) : List Nat :=
  (unpack (fmtBits f) l (fs.flatMap (fun x => natBytes 32 x.data.toNat))).toList

/-- The scale byte of the scale register that the table entry of A's flits names, used without block scales (R106, R353). -/
def Cell.nodeScale (x : Cell) (n : Node) : Nat := bits (x.scaleReg (bits n.entry 7 4)) 7 0

/-- A row of A with the latched B (R354); `reg` is the scale byte used without block scales. -/
def Node.factors (n : Node) (reg : Nat) (t : Tile) (v : Word) : Factors :=
  let l := shpRows v
  let f := n.entry % 16
  let b := blkSize (bits n.entry 9 8)
  let bad := n.input.any (fun x => decide (x.kind = 7#3))
  { (tileFactors t v t v []) with
    float := decide (mulClass f ≠ some 5), k := l, n := n.n, rows := [n.row], a0 := n.row
    a := ((rowCodes f l n.input).zipIdx.map (fun p => scaledElem f (if b = 0 then reg else byteAt n.scales (p.2 / b)) p.1)).toArray
    aPoison := if bad then [n.row] else [], aTags := [min n.rowTag (fmtPrec f)] }

/-- The flits of an emitted row (R339, R354): DATA flits, each poisoned where one of its elements is, the tag flits of a tagged sub-stream, and EOR. -/
def rowFlits (vc : BitVec 5) (tagged : Bool) (tag row n : Nat) (poison : List Nat) (m : Array Word32) : List Flit :=
  ((List.range ((n + 7) / 8)).flatMap (fun q =>
    ⟨if (List.range (min 8 (n - 8 * q))).any (fun j => poison.contains (32 * row + (8 * q + j) / 2)) then 7#3 else 0#3, vc, BitVec.ofNat 256 ((List.range (min 8 (n - 8 * q))).foldr (fun j a =>
      (m.getD (64 * row + 8 * q + j) 0#32).toNat * 2 ^ (32 * j) + a) 0)⟩ ::
      (if tagged then [⟨0#3, vc, BitVec.ofNat 256 ((List.range (min 8 (n - 8 * q))).foldr (fun j a => tag * 256 ^ j + a) 0)⟩]
       else []))) ++ [emitFlit 6#3 vc 1#6 (BitVec.ofNat 32 row)]

/-- The predictions of a group with one more pass (R357): A's rows as the pass took them. -/
def Node.predictions (n : Node) (reg : Nat) (free : Nat → Word32) (t : Tile) (v : Word) : List Word32 × List Word32 :=
  let l := shpRows v
  let f := n.entry % 16
  let b := blkSize (bits n.entry 9 8)
  let fl := decide (mulClass f ≠ some 5)
  let bv := t.values v
  let bAt := fun x j => bv.getD (x * shpCols v + j) xzero
  let as := n.rows.map (fun p => p.1.zipIdx.map (fun e => scaledElem f (if b = 0 then reg else byteAt p.2 (e.2 / b)) e.1))
  let rB := (List.range l).map (fun x => sumScaled ((List.range n.n).map (bAt x)))
  let cA := (List.range l).map (fun x => sumScaled (as.map (fun a => a.getD x xzero)))
  (as.zipIdx.map (fun a => dotOf fl (free a.2) (n.rowPred.getD a.2 0#32) (a.1.zip rB)),
    (List.range n.n).map (fun j => dotOf fl (free (64 + j)) (n.colPred.getD j 0#32) (cA.zip ((List.range l).map (fun x => bAt x j)))))

/-- The check of a group (R357). -/
def State.nodeCheck (s : State) (c : Nat) (n : Node) (l : Nat) (fl : Bool) (acc : Acc) : State :=
  let m := acc.array
  let fmt := if fl then 1 else 10
  let kt := s.kTolk (s.cellRegion c) (l * n.k)
  let rs := n.rowPred.zipIdx.map (fun p => (p.2, compareSum (!fl) kt p.1 (sumElems fmt (accRow m p.2)) (accRow m p.2)))
  let cs := n.colPred.zipIdx.map (fun p => (p.2, compareSum (!fl) kt p.1 (sumElems fmt (accCol m p.2)) (accCol m p.2)))
  if anyFailed rs || anyFailed cs then s.cause (s.cellRegion c) 0x40 else s

/-- The end of a pass, and of a group after its last one (R354, R357). -/
def State.nodeEndPass (s : State) (c : Nat) : State :=
  let x := s.cellAt c
  let n := x.mxe.node
  let rec' := x.cfg.node
  let ac := bits rec'.toNat 58 57
  match n.latched with
  | none => s
  | some (t, v) =>
    let f := n.entry % 16
    let l := shpRows v
    let fl := decide (mulClass f ≠ some 5)
    let chk := rec'.getLsbD 62
    let own := sumsOf f n.m l ((n.rows.flatMap Prod.fst).toArray)
    let wrong := decide (bits n.entry 13 12 = 1) && decide (n.sidecar ≠ own)
    let p := if chk then n.predictions (x.nodeScale n) s.freeWords t v else ([], [])
    let s := if chk && !fl then { s with fresh := s.fresh + 128 } else s
    let n' := { n with rows := [], sidecar := [], row := 0, latched := none, rowPred := p.1, colPred := p.2 }
    let s := if wrong then s.cause (s.cellRegion c) 0x40 else s
    if n.pass + 1 < n.k then s.modNode c (fun _ => { n' with pass := n.pass + 1 })
    else
      let s := if chk then s.nodeCheck c n' l fl (x.mxe.acc ac) else s
      s.modCell c (fun y => { y with mxe :=
        { (y.mxe.setAcc ac Acc.reset) with node :=
          { n' with
            pass := 0, rowPred := [], colPred := [], stopped := y.mxe.node.stopped
            output := n.output ++ [emitFlit 6#3 (rec'.extractLsb' 44 5) 2#6 0#32] } } })

/-- A row of A that is there fires (R354): its row of the accumulator, and on the last pass its flits. -/
def State.nodeFire (s : State) (c : Nat) (t : Tile) (v : Word) : State :=
  let x := s.cellAt c
  let n := x.mxe.node
  let rec' := x.cfg.node
  let ac := bits rec'.toNat 58 57
  let f := n.factors (x.nodeScale n) t v
  let old := if n.pass = 0 && decide (n.row = 0) then Acc.reset else x.mxe.acc ac
  let m := x.mxe.struck ac f.rows (f.onto s.freeWords old.array)
  let acc := f.finish old m
  let s := if f.float then s else { s with fresh := s.fresh + 4096 }
  let vc := rec'.extractLsb' 44 5
  let out := if n.pass + 1 = n.k then
      rowFlits vc (s.taggedFrom c (x.outputsOf 15 0) vc.toNat) (acc.rowTag n.row) n.row n.n acc.poison m
    else []
  let b := blkSize (bits n.entry 9 8)
  let used := if b = 0 then 0 else (shpRows v + b - 1) / b
  let codes := rowCodes (n.entry % 16) (shpRows v) n.input
  s.modCell c (fun y => { y with mxe :=
    { (y.mxe.setAcc ac acc).settled ac f.rows with node :=
      { n with
        row := n.row + 1, rows := n.rows ++ [(codes, n.scales.take used)], input := [], scales := n.scales.drop used, scalePoison := n.scalePoison.drop used
        rowTag := 24, output := out } } })

/-- Whether a row of A that is there may fire: on the pass that emits, once the output has a free slot (R354). -/
def State.nodeMayFire (s : State) (c : Nat) : Bool :=
  let n := (s.cellAt c).mxe.node
  decide (n.pass + 1 < n.k) || s.bufRoom c 120 1

/-- A row of A that is there fires, or waits for the output. -/
def State.nodeTryFire (s : State) (c : Nat) (t : Tile) (v : Word) : State := if s.nodeMayFire c then s.nodeFire c t v else s

/-- NODE_ROW (R354-R357): a node with a latched B emits, or takes the next flit at its input: a scale flit, a data flit of the row
that is due, its tag flit, a sidecar flit, or a control flit that it passes on. A row that is there fires. -/
def execNodeRow (cell : Nat) (s : State) : Out :=
  let x := s.cellAt cell
  let n := x.mxe.node
  if !s.nodeRuns cell then .next s
  else if !n.output.isEmpty then .next (s.nodeEmit cell)
  else
    match n.latched with
    | none => .next s
    | some (t, v) =>
      let l := shpRows v
      let sidecarDue := decide (n.row = n.m) && decide (bits n.entry 13 12 = 1) && decide (n.sidecar.length < n.m + l)
      if n.row = n.m && !sidecarDue then .next (s.nodeEndPass cell)
      else if !n.input.isEmpty && !n.tagDue && decide (l * fmtBits (n.entry % 16) ≤ n.input.length * 256) then .next (s.nodeTryFire cell t v)
      else
        match s.nodeHead cell with
        | none => .next s
        | some i =>
          let f := i.flit
          let t1 := (s.nodePop cell).fire (s.cellRegion cell)
          if !f.isData then
            if n.input.isEmpty && !n.tagDue && !f.isBound then
              .next (t1.modNode cell (fun n => { n with output := [f], scales := [], scalePoison := [] }))
            else .next s
          else if n.tagDue then
            let tags := (List.range 8).map (fun u => bits f.data.toNat (8 * u + 4) (8 * u))
            let t2 := t1.modNode cell (fun n => { n with tagDue := false, rowTag := min n.rowTag (tags.foldl min 24) })
            .next (if n.input.length * 256 < l * fmtBits (n.entry % 16) then t2 else t2.nodeTryFire cell t v)
          else if sidecarDue then
            let ws := (List.range 8).map (fun u => BitVec.ofNat 32 (f.data.toNat / 2 ^ (32 * u)))
            .next (t1.modNode cell (fun k => { k with sidecar := (k.sidecar ++ ws).take (n.m + l) }))
          else
            let e := if n.input.isEmpty then x.cftEntry i.input f.vc.toNat else n.entry
            let w := fmtBits (e % 16)
            let b := blkSize (bits e 9 8)
            let upTo := min ((n.input.length + 1) * 256 / w) l
            if mulClass (e % 16) ≠ mulClass (shpFmt v) then .next (s.nodeStop cell)
            else if b ≠ 0 && n.scales.length * b < upTo then
              .next (t1.modNode cell (fun k => { k with
                entry := e, scales := k.scales ++ natBytes 32 f.data.toNat
                scalePoison := k.scalePoison ++ List.replicate 32 (decide (f.kind = 7#3)) }))
            else
              let first := n.input.length * 256 / w / b
              let g : Flit := if b ≠ 0 && ((n.scalePoison.take ((upTo + b - 1) / b)).drop first).any id then { f with kind := 7#3 } else f
              let tagged := decide (bits e 11 10 = 1)
              let t2 := t1.modNode cell (fun k => { k with entry := e, input := k.input ++ [g], tagDue := tagged })
              .next (if tagged || (n.input.length + 1) * 256 < l * w then t2 else t2.nodeTryFire cell t v)

end Sys2Proof.Machine
end

