-- ==== Sys2Proof/Machine/Convert.lean ====
section
/-! DEFINITION. The compressor and the converter of an M-cell (R97-R100, R324-R330). -/

namespace Sys2Proof.Machine

/-! What both do: they take flits at a delivery of their own and emit at a sub-stream of the same channel. -/

/-- A KERF has passed an engine of an M-cell, which is recorded so: l is the engine's port less 8 (R430). -/
def engineParty (c l ch : Nat) : Nat := 196608 + 32 * c + 2 * l + ch

/-- The first flit at an input of an engine, and the rest; a KERF counts as one. -/
def State.engineHead (s : State) (c pk : Nat) : Option (PortItem × List PortItem) :=
  match lookupD [] pk (s.cellAt c).ports with
  | [] => none
  | i :: is => some (i, is)

/-- The input of an engine replaced. -/
def State.setInput (s : State) (c pk : Nat) (is : List PortItem) : State :=
  (s.modCell c (fun x => { x with ports := insertAt pk is x.ports })).fire (s.cellRegion c)

/-- A flit emitted by engine l on a channel, where there is room (R272). -/
def State.engineEmit (s : State) (c l ch : Nat) (f : Flit) : Option State :=
  let key := 64 + 8 * l + ch
  if s.bufRoom c key 1 then some ((s.pushFlits c key (engineParty c l ch) [f]).fire (s.cellRegion c)) else none

/-- A KERF at the head of an engine's input passes it (R269, R430): what the engine holds is recorded, and the KERF goes on. -/
def State.engineKerf (s : State) (c l ch : Nat) : State :=
  let r := s.cellRegion c
  let x := s.cellAt c
  let mine := fun (k : Nat) => decide (k / 32 = ch)
  let s := s.modTaking r (fun k => if l = 2 then { k with convs := insertAt (2 * c + ch) (x.conv.filter (fun e => mine e.key)) k.convs }
    else { k with comps := insertAt (2 * c + ch) (x.comp.filter (fun e => mine e.key)) k.comps })
  let s := s.modRegion r (fun g => { g with parted := insertNat (engineParty c l ch) g.parted })
  (s.pushFlits c (64 + 8 * l + ch) (engineParty c l ch) [kerfFlit]).fire r

/-! The compressor (R324-R327). -/

/-- The compressor's state of a channel and VC. -/
def Cell.compAt (c : Cell) (key : Nat) : CompState := (c.comp.find? (fun e => e.key = key)).getD ⟨key, [], []⟩

/-- That state replaced; one at rest is not listed. -/
def Cell.setComp (c : Cell) (e : CompState) : Cell :=
  let rest := c.comp.filter (fun x => x.key ≠ e.key)
  { c with comp := if e.flits.isEmpty && e.out.isEmpty then rest else rest ++ [e] }

/-- Columns, rows and format of a compressor table entry (R324). -/
def cmpCols (e : Nat) : Nat := bits e 24 15 + 1
/-- Rows of a compressor table entry. -/
def cmpRows (e : Nat) : Nat := bits e 14 7 + 1
/-- Format of a compressor table entry. -/
def cmpFmt (e : Nat) : Nat := bits e 3 0
/-- Dense flits of a tile of an entry. -/
def cmpFlits (e : Nat) : Nat := (tileBytes (cmpFmt e) (cmpRows e) (cmpCols e) + 31) / 32

/-- A flit of records with their poison. -/
def recordFlit (vc : BitVec 5) (rs : List (Nat × Bool)) : Flit :=
  ⟨if rs.any Prod.snd then 7#3 else 0#3, vc, BitVec.ofNat 256 (rs.foldr (fun r a => r.1 + 2 ^ 64 * a) 0)⟩

/-- Records in flits of four. -/
def recordFlits (vc : BitVec 5) : Nat → List (Nat × Bool) → List Flit
  | 0, _ => []
  | n + 1, rs => if rs.isEmpty then [] else recordFlit vc (rs.take 4) :: recordFlits vc n (rs.drop 4)

/-- The records of a dense tile (R326). -/
def compressed (e : Nat) (fs : List Flit) : List Flit :=
  let w := fmtBits (cmpFmt e)
  let cols := cmpCols e
  let bs := (fs.flatMap (fun f => natBytes 32 f.data.toNat)).toArray
  let ps := (fs.map (fun f => decide (f.kind = 7#3))).toArray
  let vs := (List.range (cmpRows e * cols)).filterMap (fun k =>
    let x := packedElem w bs k
    if x = 0 then none else some (k / cols * 2 ^ 42 + k % cols * 2 ^ 32 + x, ps.getD (k * w / 256) false))
  let rs := vs ++ [(2 ^ 63 + vs.length % 2 ^ 32, ps.any id)]
  recordFlits (BitVec.ofNat 5 (bits e 29 25)) rs.length rs

/-- The records of taken flits, up to and with an end record; none while there is none. -/
def recordsOf (fs : List Flit) : Option (List Nat) :=
  let rs := fs.flatMap (fun f => (List.range 4).map (fun k => f.data.toNat / 2 ^ (64 * k) % 2 ^ 64))
  (findNth (fun r => decide (2 ^ 63 ≤ r)) rs 0).map (fun p => rs.take (p.1 + 1))

/-- Whether records make a well-formed tile of an entry (R327). -/
def recordsGood (e : Nat) (rs : List Nat) : Bool :=
  let vs := rs.dropLast
  let pos := vs.map (fun r => bits r 49 42 * 1024 + bits r 41 32)
  let last := rs.getLast?.getD 0
  (pos.zip (pos.drop 1)).all (fun p => p.1 < p.2) &&
    vs.all (fun r => decide (bits r 49 42 < cmpRows e) && decide (bits r 41 32 < cmpCols e) &&
      decide (bits r 31 0 < 2 ^ fmtBits (cmpFmt e)) && decide (bits r 62 50 = 0)) &&
    decide (bits last 62 50 = 0) && decide (bits last 31 0 = vs.length)

/-- The dense flits of a tile (R327); a malformed one is all zero and poisoned. -/
def expanded (e : Nat) (rs : Option (List Nat)) (poison : Bool) : List Flit :=
  let vc := BitVec.ofNat 5 (bits e 29 25)
  let n := cmpFlits e
  match rs.filter (recordsGood e) with
  | none => List.replicate n ⟨7#3, vc, 0#256⟩
  | some rs =>
    let cols := cmpCols e
    let m := rs.dropLast.foldl (fun (m : Array Nat) r => m.setIfInBounds (bits r 49 42 * cols + bits r 41 32) (bits r 31 0))
      (Array.replicate (cmpRows e * cols) 0)
    let bs := packElements (fmtBits (cmpFmt e)) m.toList
    (List.range n).map (fun i => ⟨if poison then 7#3 else 0#3, vc, BitVec.ofNat 256 (leNat ((bs.drop (32 * i)).take 32))⟩)

/-- What the compressor does with a flit of its VC: the flits it emits, and what it keeps (R326, R327). -/
def compTake (e : Nat) (k : CompState) (f : Flit) : CompState :=
  let dir := decide (bits e 30 30 = 1)
  let ctl : Flit := { f with vc := BitVec.ofNat 5 (bits e 29 25) }
  let bad := k.flits.any (fun x => decide (x.kind = 7#3))
  if f.isData then
    let fs := k.flits ++ [f]
    if dir then
      match recordsOf fs with
      | some rs => { k with flits := [], out := expanded e (some rs) (bad || decide (f.kind = 7#3)) }
      | none => { k with flits := fs }
    else if fs.length = cmpFlits e then { k with flits := [], out := compressed e fs }
    else { k with flits := fs }
  else if k.flits.isEmpty then { k with out := [ctl] }
  else { k with flits := [], out := (if dir then expanded e none false else compressed e k.flits) ++ [ctl] }

/-- A step of the compressor for a VC in one direction, on one channel: it emits, takes a flit, or passes a KERF. -/
def State.compStep (s : State) (c vc dir ch : Nat) : Option State :=
  let x := s.cellAt c
  let e := lookupD 0 vc x.cfg.cmpt
  let k := x.compAt (32 * ch + vc)
  if bits e 30 30 ≠ dir || cmpFmt e = 0 || 11 ≤ cmpFmt e then none
  else
    match k.out with
    | f :: rest => (s.engineEmit c 3 ch f).map (fun s => s.modCell c (fun y => y.setComp { k with out := rest }))
    | [] =>
      match s.engineHead c (50 + ch) with
      | none => none
      | some (i, is) =>
        if i.flit.kind = 4#3 then
          if x.comp.any (fun y => decide (y.key / 32 = ch) && !y.out.isEmpty) then none
          else some ((s.setInput c (50 + ch) is).engineKerf c 3 ch)
        else if i.flit.vc ≠ BitVec.ofNat 5 vc then none
        else some ((s.setInput c (50 + ch) is).modCell c (fun y => y.setComp (compTake e k i.flit)))

/-- A step of an engine on the first channel that has one. -/
def firstStep (s : State) (f : Nat → Option State) : Out := .next ((f 0).getD ((f 1).getD s))

/-- COMPRESS_TILE (R326): the compressor takes the next flit of a VC that it compresses, or emits the next one. -/
def execCompressTile (cell vc : Nat) (s : State) : Out :=
  if isM cell && s.cellMoves cell then firstStep s (s.compStep cell vc 0) else .next s

/-- EXPAND_TILE (R327): the compressor takes the next flit of a VC that it expands, or emits the next one. -/
def execExpandTile (cell vc : Nat) (s : State) : Out :=
  if isM cell && s.cellMoves cell then firstStep s (s.compStep cell vc 1) else .next s

/-! The converter (R97, R328-R330). -/

/-- The converter's state of a channel and VC. -/
def Cell.convAt (c : Cell) (key : Nat) : ConvState :=
  (c.conv.find? (fun e => e.key = key)).getD ⟨key, ⟨[], 0, false⟩, false, [], [], [], [], [], []⟩

/-- That state replaced. -/
def Cell.setConv (c : Cell) (e : ConvState) : Cell := { c with conv := c.conv.filter (fun x => x.key ≠ e.key) ++ [e] }

/-- The exact values of a data flit under a table entry and the scales of its elements (R95, R329). An element of raw64 has no
value in the spec: it is free (assumption 33). -/
def flitValues (free : Nat → Word32) (entry reg : Nat) (scales : List Byte) (f : Flit) : List (XR × Bool) :=
  let fm := entry % 16
  let w := fmtBits fm
  let p := decide (f.kind = 7#3)
  (List.range (256 / w)).map (fun k =>
    let code := f.data.toNat / 2 ^ (w * k) % 2 ^ w
    let sc := if scales.isEmpty then reg % 256 else byteAt scales k
    (if fm = 0 then decodeF .fp32 (free k).toNat
      else if 4 ≤ fm && fm ≤ 8 then scaledElem fm sc code
      else scaledElem fm 0x7F code, p))

/-- The E4M3 codes of the whole EC8 blocks at the head of a string, and the rest (R98-R100): a malformed block poisons its
elements. A rest of zeros shorter than a flit may be the padding of the final flit, so it waits for the next flit, which says
what it is: behind a data flit it counts, before a control flit it is discarded (R329). -/
def ec8Values (last : Bool) : Nat → List (Bool × Bool) → List (Nat × Bool) × List (Bool × Bool)
  | 0, bs => ([], bs)
  | n + 1, bs =>
    if bs.all (fun b => !b.1) && decide (bs.length < 256) then ([], if last then [] else bs)
    else
      match ec8Decode (bs.map Prod.fst) with
      | some (xs, bad, rest) =>
        let used := bs.length - rest.length
        let p := bad || (bs.take used).any Prod.snd
        let next := ec8Values last n (bs.drop used)
        (xs.map (fun x => (x, p)) ++ next.1, next.2)
      | none => if last then (ec8Nans.map (fun x => (x, true)), []) else ([], bs)

/-- The exponent that a computed scale puts a block's largest magnitude at (R97). -/
def scaleTop (f : Nat) : Int :=
  match f with
  | 5 => 15
  | 6 => 2
  | 7 => 6
  | 8 => 7
  | _ => 8

/-- A value converted to a target under a scale exponent (R92, R93, R97, R329); a computed scale saturates every format. -/
def convElement (f : Nat) (rm : RMode) (saturate : Bool) (x : XR) : Nat :=
  match fmtFloat f with
  | some g =>
    let c := (roundX g rm x).1
    if saturate && (decodeF g c).isInf then g.withSign (decodeF g c).neg g.maxCode else c
  | none => wrapTo (fmtBits f) (xToInt rm (intRange f).1 (intRange f).2 x).1

/-- A block under a computed scale (R97): its scale byte and its element codes. -/
def scaledBlock (f : Nat) (rm : RMode) (xs : List XR) : Nat × List Nat :=
  if xs.any (fun x => x.isNan || x.isInf) then (0xFF, xs.map (fun _ => 0))
  else
    let top := xs.foldl (fun (t : Option Int) x => match x with
      | .real _ m e _ => if m = 0 then t else some (t.elim (expOf m e) (fun u => max u (expOf m e)))
      | _ => t) none
    match top with
    | none => (0x7F, xs.map (fun x => convElement f rm true x))
    | some t =>
      let c := max (-127) (min 127 (t - scaleTop f))
      ((c + 127).toNat, xs.map (fun x => convElement f rm true (xscale x (-c))))

/-- A converter table entry in its parts (R328): OVC, block size, target format; and the scale register's SCALE and RM. -/
structure ConvSpec where
  vc : BitVec 5
  block : Nat
  fmt : Nat
  scale : Nat
  rm : RMode

/-- The entry of a VC (R106, R328). -/
def Cell.convSpec (c : Cell) (vc : Nat) : ConvSpec :=
  let e := lookupD 0 vc c.cfg.convt
  let r := c.scaleReg (bits e 7 4)
  ⟨BitVec.ofNat 5 (bits e 14 10), blkSize (bits e 9 8), bits e 3 0, r % 256, RMode.ofCode (bits r 10 8)⟩

/-- Codes written behind the data so far: EC8 in blocks of 32, anything else packed (R84, R98, R330). -/
def ConvState.putCodes (k : ConvState) (t : ConvSpec) (cs : List (Nat × Bool)) : ConvState :=
  if t.fmt = 11 then
    let all := k.codes ++ cs
    let n := all.length / 32
    let blocks := (List.range n).flatMap (fun i =>
      let b := (all.drop (32 * i)).take 32
      (bytesOfBits 64 (ec8Block (b.map Prod.fst))).map (fun x => (x, b.any Prod.snd)))
    { k with codes := all.drop (32 * n), bytesOut := k.bytesOut ++ blocks }
  else if fmtBits t.fmt = 4 then
    let all := k.codes ++ cs
    let n := all.length / 2
    let bytes := (List.range n).map (fun i =>
      let p := (all.drop (2 * i)).take 2
      ((packElements 4 (p.map Prod.fst)).getD 0 0#8, p.any Prod.snd))
    { k with codes := all.drop (2 * n), bytesOut := k.bytesOut ++ bytes }
  else { k with bytesOut := k.bytesOut ++ cs.flatMap (fun c => (natBytes (fmtBits t.fmt / 8) c.1).map (fun b => (b, c.2))) }

/-- The element format that a target encodes its elements in (R329): EC8 codes E4M3. -/
def elemFmt (f : Nat) : Nat := if f = 11 then 4 else f

/-- Whole flits of data leave the bytes of a converter (R330). -/
def dataFlits (vc : BitVec 5) : Nat → List (Byte × Bool) → List Flit × List (Byte × Bool)
  | 0, bs => ([], bs)
  | n + 1, bs =>
    if bs.length < 32 then ([], bs)
    else
      let r := dataFlits vc n (bs.drop 32)
      (dataFlit vc.toNat (bs.take 32) :: r.1, r.2)

/-- A finished group, or data without blocks, becomes flits: the scale flit, then the whole data flits (R106, R330). -/
def ConvState.flush (k : ConvState) (t : ConvSpec) : ConvState :=
  let d := dataFlits t.vc (k.bytesOut.length / 32 + 1) k.bytesOut
  let sc := if t.block = 0 || k.scalesOut.isEmpty then []
    else [dataFlit t.vc.toNat (k.scalesOut ++ List.replicate (32 - k.scalesOut.length) (0x7F#8, false))]
  { k with scalesOut := [], bytesOut := d.2, out := k.out ++ sc ++ d.1 }

/-- Whole blocks of values are encoded (R97, R329); a group of 32 blocks is emitted. Every element of a block contributes to its
computed scale, and so to each of its codes: one that is poisoned poisons them all (R330). -/
def ConvState.encode (t : ConvSpec) : Nat → ConvState → ConvState
  | 0, k => k
  | n + 1, k =>
    if k.elems.isEmpty || k.elems.length < t.block then k
    else if t.block = 0 then
      let cs := k.elems.map (fun x => (convElement (elemFmt t.fmt) t.rm false (xscale x.1 (127 - (t.scale : Int))), x.2))
      ({ k with elems := [] }.putCodes t cs).flush t
    else
      let now := k.elems.take t.block
      let b := scaledBlock (elemFmt t.fmt) t.rm (now.map Prod.fst)
      let p := now.any Prod.snd
      let k := { k with elems := k.elems.drop t.block, scalesOut := k.scalesOut ++ [(BitVec.ofNat 8 b.1, p)] }.putCodes t
        (b.2.map (fun x => (x, p)))
      let k := if k.scalesOut.length = 32 then k.flush t else k
      ConvState.encode t n k

/-- What is partly filled is completed as a control flit arrives (R330). -/
def ConvState.complete (k : ConvState) (t : ConvSpec) : ConvState :=
  let pad := fun (b have' : Nat) => if b = 0 || have' % b = 0 then 0 else b - have' % b
  let k := { k with elems := k.elems ++ List.replicate (pad t.block k.elems.length) (xzero, false) }
  let k := ConvState.encode t (k.elems.length + 1) k
  let n := pad (if t.fmt = 11 then 32 else if fmtBits t.fmt = 4 then 2 else 1) k.codes.length
  let k := (k.putCodes t (List.replicate n (0, false))).flush t
  if k.bytesOut.isEmpty then k else { k with bytesOut := [], out := k.out ++ [dataFlit t.vc.toNat k.bytesOut] }

/-- Decoded EC8 elements join the values, under the scales in use (R95, R329). -/
def ConvState.putEc8 (k : ConvState) (reg b : Nat) (xs : List (Nat × Bool)) : ConvState :=
  let sc := fun (j : Nat) => if b = 0 then reg % 256 else (k.scale.left.getD ((k.scale.taken + j) / b) 0x7F#8).toNat
  let used := k.scale.taken + xs.length
  { k with
    scale := if b = 0 then k.scale else ⟨k.scale.left.drop (used / b), used % b, k.scale.poison⟩
    elems := k.elems ++ xs.zipIdx.map (fun x => (scaledElem 4 (sc x.2) x.1.1, x.1.2 || (b ≠ 0 && k.scale.poison))) }

/-- What the converter does with a flit of its VC (R329, R330): scale flits are absorbed, tag flits are dropped, data is decoded
and encoded, a control flit ends what is under way. -/
def Cell.convTake (c : Cell) (free : Nat → Word32) (k : ConvState) (i : PortItem) (vc : Nat) (n : Nat) : ConvState :=
  let t := c.convSpec vc
  let entry := c.cftEntry i.input vc
  let fm := entry % 16
  let f := i.flit
  let b := blkSize (bits entry 9 8)
  let reg := c.scaleReg (bits entry 7 4)
  let tagged := decide (bits entry 11 10 = 1)
  if !f.isData then
    let r := if fm = 11 then ec8Values true (k.bits.length + 1) k.bits else ([], [])
    let k := { k.putEc8 reg b r.1 with scale := ⟨[], 0, false⟩, tagDue := false, bits := [] }
    let k := (ConvState.encode t (k.elems.length + 1) k).complete t
    { k with out := k.out ++ [{ f with vc := t.vc }] }
  else if k.tagDue then { k with tagDue := false }
  else if b ≠ 0 && k.scale.left.isEmpty then { k with scale := ⟨natBytes 32 f.data.toNat, 0, decide (f.kind = 7#3)⟩ }
  else if fm = 11 then
    let p := decide (f.kind = 7#3)
    let r := ec8Values false n (k.bits ++ (stringOf (natBytes 32 f.data.toNat)).map (fun x => (x, p)))
    let k := { k.putEc8 reg b r.1 with tagDue := tagged, bits := r.2 }
    ConvState.encode t (k.elems.length + 1) k
  else
    let m := 256 / fmtBits fm
    let sc := if b = 0 then [] else (List.range m).map (fun j => k.scale.left.getD ((k.scale.taken + j) / b) 0x7F#8)
    let used := k.scale.taken + m
    let g : Flit := if b ≠ 0 && k.scale.poison then { f with kind := 7#3 } else f
    let k := { k with
      scale := if b = 0 then k.scale else ⟨k.scale.left.drop (used / b), used % b, k.scale.poison⟩
      tagDue := tagged
      elems := k.elems ++ flitValues free entry reg sc g }
    ConvState.encode t (k.elems.length + 1) k

/-- A step of the converter for a VC on one channel: it emits, takes a flit, or passes a KERF. -/
def State.convStep (s : State) (c vc ch : Nat) : Option State :=
  let x := s.cellAt c
  let t := x.convSpec vc
  let k := x.convAt (32 * ch + vc)
  if t.fmt = 0 || 12 ≤ t.fmt then none
  else
    match k.out with
    | f :: rest => (s.engineEmit c 2 ch f).map (fun s => s.modCell c (fun y => y.setConv { k with out := rest }))
    | [] =>
      match s.engineHead c (48 + ch) with
      | none => none
      | some (i, is) =>
        if i.flit.kind = 4#3 then
          if x.conv.any (fun y => decide (y.key / 32 = ch) && !y.out.isEmpty) then none
          else some ((s.setInput c (48 + ch) is).engineKerf c 2 ch)
        else if i.flit.vc ≠ BitVec.ofNat 5 vc then none
        else
          let s1 := s.setInput c (48 + ch) is
          let s2 := { s1 with fresh := if x.cftEntry i.input vc % 16 = 0 then s1.fresh + 4 else s1.fresh }
          some (s2.modCell c (fun y => y.setConv (x.convTake s.freeWords k i vc 64)))

/-- CONVERT (R329, R330): the converter takes the next flit of a VC, or emits the next one. -/
def execConvert (cell vc : Nat) (s : State) : Out :=
  if isM cell && hasConverter cell && s.cellMoves cell then firstStep s (s.convStep cell vc) else .next s

end Sys2Proof.Machine
end

