-- ==== Sys2Proof/Machine/Engines.lean ====
section
/-! DEFINITION. The bulk engines: copy engines and collective engines, one piece of an operation in one step (R409-R421). An
engine is named by its kind, 0 copy and 1 collective, and its M-cell or bay. -/

namespace Sys2Proof.Machine

/-! The message at hand (R409, R411, R415, R418). -/

/-- Dword k of a message. -/
def Message.d (m : Message) (k : Nat) : Nat := (m.dwords.getD k 0#64).toNat

/-- OP, DDEV, FMT, ROP, N and REPLY of a message (R409). -/
def Message.op (m : Message) : Nat := bits (m.d 0) 63 56
/-- DDEV (R409). -/
def Message.ddev (m : Message) : Nat := bits (m.d 0) 55 52
/-- FMT (R409). -/
def Message.fmt (m : Message) : Nat := bits (m.d 0) 47 44
/-- ROP (R409). -/
def Message.rop (m : Message) : Nat := bits (m.d 0) 43 40
/-- N (R409). -/
def Message.n (m : Message) : Nat := bits (m.d 0) 39 32
/-- REPLY (R409). -/
def Message.object (m : Message) : Nat := bits (m.d 1) 51 0

/-- The cell where an engine stands: its translations are those of that cell's unit (R364, R402). -/
def engineCell (kind target : Nat) : Nat := if kind = 0 then target else taskUnitCell target

/-- The message that an engine works on or begins next (R411). -/
def State.messageHead (s : State) (kind target : Nat) : Option Message :=
  if kind = 0 then (s.cellAt target).inbox.head? else (s.bayAt target).inbox.head?

/-- The operation that an engine has begun. -/
def State.engineRun (s : State) (kind target : Nat) : Option EngineRun :=
  if kind = 0 then (s.cellAt target).run else (s.bayAt target).run

/-- The operation of an engine set. -/
def State.setRun (s : State) (kind target : Nat) (r : Option EngineRun) : State :=
  if kind = 0 then s.modCell target (fun c => { c with run := r }) else s.modBay target (fun b => { b with run := r })

/-- The message of an engine has ended. -/
def State.dropMessage (s : State) (kind target : Nat) : State :=
  if kind = 0 then s.modCell target (fun c => { c with inbox := c.inbox.drop 1, run := none })
  else s.modBay target (fun b => { b with inbox := b.inbox.drop 1, run := none })

/-! Statuses and completion (R412, R413, R420, R432). -/

/-- The status bits of R412. -/
def stFpage : Nat := 2
/-- FACCESS (R412). -/
def stFaccess : Nat := 4
/-- OVLP (R412). -/
def stOvlp : Nat := 8
/-- POOL (R412). -/
def stPool : Nat := 16
/-- REMOTE (R412). -/
def stRemote : Nat := 32
/-- POISON (R412). -/
def stPoison : Nat := 64

/-- The interval of what an operation that has not ended writes: none that commits (R432; assumption 97). -/
def openInterval (id : Nat) : Nat := 2 ^ 64 + id

/-- The end of an operation with a status and a fault address: what it wrote belongs to the interval its sender is in, the
interval is to close, and the completion update waits for its commit (R413, R432). One whose walk read a poisoned entry is abandoned
by the rollback that follows (R362, R420). -/
def State.endOp (s : State) (kind target : Nat) (m : Message) (id status fva : Nat) : State :=
  if status / stFpage % 2 = 1 && s.walkLost (unitOf (engineCell kind target)) m.ctx fva 1 then
    (s.dropMessage kind target).cause m.region 0x48
  else
  let iv := s.interval m.region m.sender
  let tag := fun (i : Nat) => if i = openInterval id then iv else i
  (s.modRegion m.region (fun g => { g with
    commit := g.commit.map (fun w => { w with interval := tag w.interval })
    peerWrites := g.peerWrites.map (fun w => { w with interval := tag w.interval })
    updates := g.updates ++ [⟨id, m.ctx, m.object, status, fva % 2 ^ 64, iv, []⟩]
    wanted := true, fired := true })).dropMessage kind target

/-- What an engine's access gives: a hit, or the status and the fault address, or the machine stops. -/
inductive Access' where
  | ok (ps : List (Nat × Nat))
  | bad (status fva : Nat)
  | stop (f : Fault)
  deriving DecidableEq, Repr

/-- The status of an access that does not translate (R412). -/
def accessStatus (e : Nat × Trans) : Access' :=
  match e.2 with
  | .page => .bad stFpage e.1
  | .unbacked pa => .stop (.unbacked pa)
  | _ => .bad stFaccess e.1

/-- The physical pieces of n bytes of an operation; an address beyond 52 bits is refused (R195). -/
def State.enginePieces (s : State) (unit ctx : Nat) (r w : Bool) (va n : Nat) : Access' :=
  match s.span unit ctx r w va (min n (2 ^ 52 - va)) with
  | .error e => accessStatus e
  | .ok ps => if 2 ^ 52 < va + n then .bad stFaccess (max va (2 ^ 52)) else .ok ps

/-- The bytes of pieces as a region sees them, each with the poison of its unit. -/
def State.poisonedBytes (s : State) (rg : Nat) (ps : List (Nat × Nat)) : List (Byte × Bool) :=
  ps.flatMap (fun p => (List.range p.2).map (fun i => (s.viewByte rg (p.1 + i), s.viewPoison rg ((p.1 + i) / 8))))

/-! The shape of an operation (R416, R418, R419). -/

/-- Bytes of an element of a collective format. -/
def collectiveWidth (fmt : Nat) : Nat := if fmt = 2 then 2 else 4

/-- The rows that an operation writes. -/
def Message.rows (m : Message) : Nat :=
  match m.op with
  | 0x02 => bits (m.d 2) 63 32
  | 0x11 => m.n
  | _ => 1

/-- The bytes of each row. -/
def Message.rowBytes (m : Message) : Nat :=
  match m.op with
  | 0x02 => bits (m.d 2) 31 0
  | 0x10 => m.d 2 * collectiveWidth m.fmt
  | _ => m.d 2

/-- The address of a row that is written. -/
def Message.dstRow (m : Message) (list : List Nat) (i : Nat) : Nat :=
  match m.op with
  | 0x02 => m.d 4 + i * bits (m.d 5) 63 32
  | 0x11 => list.getD i 0
  | _ => m.d 4

/-- The address of the row that a row is copied from. -/
def Message.srcRow (m : Message) (i : Nat) : Nat := if m.op = 0x02 then m.d 3 + i * bits (m.d 5) 31 0 else m.d 3

/-- The address of the LIST of a collective operation. -/
def Message.listAt (m : Message) : Nat := if m.op = 0x10 then m.d 3 else m.d 4

/-- The ranges that an operation reads: address and bytes. -/
def Message.reads (m : Message) (list : List Nat) : List (Nat × Nat) :=
  match m.op with
  | 0x03 => []
  | 0x10 => list.map (fun a => (a, m.rowBytes)) ++ [(m.listAt, 8 * m.n)]
  | 0x11 => [(m.d 3, m.rowBytes), (m.listAt, 8 * m.n)]
  | _ => (List.range m.rows).map (fun i => (m.srcRow i, m.rowBytes))

/-- The ranges that it writes. -/
def Message.writes (m : Message) (list : List Nat) : List (Nat × Nat) :=
  (List.range m.rows).map (fun i => (m.dstRow list i, m.rowBytes))

/-- The sources and destinations of a collective operation that must be aligned (R418). -/
def Message.operands (m : Message) (list : List Nat) : List Nat :=
  match m.op with
  | 0x10 => list ++ [m.d 4]
  | 0x11 => m.d 3 :: list
  | _ => []

/-! The beginning of an operation (R416, R418, R421). -/

/-- The peer of a context with a number (R421). -/
def State.peer (s : State) (ctx n : Nat) : Option Nat :=
  ((s.ctx? ctx).bind (fun c => c.peers[n - 1]?)).bind (fun w => if w.getLsbD 63 then some w.toNat else none)

/-- The link that carries an operation: the lowest of its entry that is up (assumption 37). -/
def State.pickLink (s : State) (entry : Nat) : Option Nat :=
  (List.range 12).find? (fun k => entry.testBit k && !s.pkg.linksDown.contains k)

/-- What the beginning of an operation gives. -/
inductive Begin where
  | go (run : EngineRun)
  | ended (status fva : Nat)
  | stop (f : Fault)
  deriving DecidableEq, Repr

/-- The addresses in the LIST of a collective operation, read once (R418). -/
def State.readList (s : State) (unit : Nat) (m : Message) : Except Begin (List Nat) :=
  if m.op < 0x10 then .ok []
  else
    match s.enginePieces unit m.ctx true false m.listAt (8 * m.n) with
    | .bad st f => .error (.ended st f)
    | .stop f => .error (.stop f)
    | .ok ps =>
      let bs := (s.poisonedBytes m.region ps).map Prod.fst
      .ok ((List.range m.n).map (fun i => dwordAt bs (8 * i)))

/-- The checks before anything is written: the peer, the alignment of collective operands, the overlap of what is read and
what is written on this device (R416, R418, R421). -/
def State.beginOp (s : State) (unit id : Nat) (m : Message) : Begin :=
  match s.readList unit m with
  | .error b => b
  | .ok list =>
    match (m.operands list).find? (fun a => a % collectiveWidth m.fmt ≠ 0) with
    | some a => .ended stFaccess a
    | none =>
      if m.ddev ≠ 0 then
        match (s.peer m.ctx m.ddev).bind s.pickLink with
        | some l => .go ⟨id, 0, false, list, l⟩
        | none => .ended stRemote 0
      else if (m.reads list).any (fun a => (m.writes list).any (overlaps a)) then .ended stOvlp 0
      else .go ⟨id, 0, false, list, 0⟩

/-! The values of a REDUCE (R419). -/

/-- One pairwise combination: an FP32 sum for the float formats, the choice of R165 on the format's own codes, integers modulo
2^32 or signed. -/
def combine (fmt rop a b : Nat) : Nat :=
  if fmt = 10 then
    match rop with
    | 0 => (a + b) % 2 ^ 32
    | 1 => if signedOf 32 b < signedOf 32 a then b else a
    | _ => if signedOf 32 a < signedOf 32 b then b else a
  else
    let f := if fmt = 2 then FFmt.bf16 else .fp32
    if rop = 0 then (roundX .fp32 .rne (xadd .rne (decodeF .fp32 a) (decodeF .fp32 b)).1).1
    else
      match pickMinMax (decide (rop ≠ 1)) (decodeF f a) (decodeF f b) with
      | .first => a
      | .second => b
      | .neither => f.nanCode

/-- The combination of values in a free grouping: two of them, as free values pick them, become one, until one is left (R419,
assumption 2). -/
def combineAll (f : Nat → Nat → Nat) (free : Nat → Nat) : Nat → List Nat → Nat
  | 0, xs => xs.getD 0 0
  | n + 1, xs =>
    if xs.length ≤ 1 then xs.getD 0 0
    else
      let i := free (2 * n) % xs.length
      let ys := dropNth xs i
      let j := free (2 * n + 1) % ys.length
      combineAll f free n (f (xs.getD i 0) (ys.getD j 0) :: dropNth ys j)

/-- One element of a REDUCE: BF16 sums are made in FP32 and rounded once, NaN results are canonical (R419). -/
def reduceElem (fmt rop : Nat) (free : Nat → Nat) (xs : List Nat) : Nat :=
  let wide := decide (fmt = 2) && decide (rop = 0)
  let v := combineAll (combine fmt rop) free xs.length (if wide then xs.map (widen32 .bf16) else xs)
  if fmt = 10 then v
  else
    let f := if fmt = 2 then FFmt.bf16 else .fp32
    let v := if wide then (convFF .fp32 .bf16 .rne v).1 else v
    if (decodeF f v).isNan then f.nanCode else v

/-! One piece of an operation (R416, R419). -/

/-- The bytes that a piece takes from a range of virtual addresses, each with its poison. -/
def State.engineRead (s : State) (unit : Nat) (m : Message) (va n : Nat) : Except Begin (List (Byte × Bool)) :=
  match s.enginePieces unit m.ctx true false va n with
  | .ok ps => .ok (s.poisonedBytes m.region ps)
  | .bad st f => .error (.ended st f)
  | .stop f => .error (.stop f)

/-- The bytes of the same range of every source of a REDUCE. -/
def State.engineReads (s : State) (unit : Nat) (m : Message) (off n : Nat) : List Nat → Except Begin (List (List (Byte × Bool)))
  | [] => .ok []
  | a :: as =>
    match s.engineRead unit m (a + off) n, s.engineReads unit m off n as with
    | .ok x, .ok xs => .ok (x :: xs)
    | .error e, _ => .error e
    | _, .error e => .error e

/-- What n bytes at an offset of a row become, each with the poison of what it comes from. -/
def State.pieceBytes (s : State) (unit : Nat) (m : Message) (run : EngineRun) (row off n : Nat) :
    Except Begin (List (Byte × Bool)) :=
  match m.op with
  | 0x03 => .ok ((List.range n).map (fun i => ((natBytes 8 (m.d 3)).getD ((off + i) % 8) 0#8, false)))
  | 0x10 =>
    match s.engineReads unit m off n run.list with
    | .error e => .error e
    | .ok xs =>
      let w := collectiveWidth m.fmt
      .ok ((List.range (n / w)).flatMap (fun e =>
        let es := xs.map (fun x => (x.drop (w * e)).take w)
        let v := reduceElem m.fmt m.rop (fun k => (Config.freeWord (s.fresh + 128 * e + k)).toNat) (es.map (fun b => leNat (b.map Prod.fst)))
        (natBytes w v).map (fun b => (b, es.any (fun b => b.any Prod.snd)))))
  | _ => s.engineRead unit m (m.srcRow row + off) n

/-- Whether an operation writes the byte at an address, and whether it has written it before a position. -/
def Message.covers (m : Message) (list : List Nat) (a : Nat) : Bool :=
  (m.writes list).any (fun r => decide (r.1 ≤ a) && decide (a < r.1 + r.2))

/-- Whether an operation has written the byte at an address before a position. -/
def Message.wrote (m : Message) (list : List Nat) (pos a : Nat) : Bool :=
  (m.writes list).zipIdx.any (fun r =>
    decide (r.1.1 ≤ a) && decide (a < r.1.1 + r.1.2) && decide (r.2 * m.rowBytes + (a - r.1.1) < pos))

/-- The poison of the units that a piece at an address writes (R211, R416): the OR of what its bytes bring, and the unit's own
bit unless the operation writes all of the unit and begins it here. -/
def State.pieceUnits (s : State) (m : Message) (run : EngineRun) (va pa : Nat) (bs : List (Byte × Bool)) : List (Nat × Bool) :=
  (unitsOf va bs.length).map (fun u =>
    let p := bs.zipIdx.any (fun b => b.1.2 && decide ((va + b.2) / 8 = u))
    let first := (List.range 8).all (fun i => m.covers run.list (8 * u + i) && !m.wrote run.list run.pos (8 * u + i))
    let pu := pa / 8 + (u - va / 8)
    (pu, p || (!covers va bs.length u && !first && s.viewPoison m.region pu)))

/-- A piece written: to the region's commit buffer, or to a peer at the commit; none where the buffer has no room yet. -/
def State.writePiece (s : State) (unit : Nat) (m : Message) (run : EngineRun) (va : Nat) (bs : List (Byte × Bool)) :
    Except Begin (Option State) :=
  if m.ddev ≠ 0 then
    let pctx := bits ((s.peer m.ctx m.ddev).getD 0) 51 40
    .ok (some (s.modRegion m.region (fun g => { g with peerWrites := g.peerWrites ++
      [⟨openInterval run.id, run.id, m.ddev, pctx, run.link, va, bs.map Prod.fst,
        (unitsOf va bs.length).map (fun u => bs.zipIdx.any (fun b => b.1.2 && decide ((va + b.2) / 8 = u)))⟩] })))
  else
    match s.enginePieces unit m.ctx false true va bs.length with
    | .bad st f => .error (.ended st f)
    | .stop f => .error (.stop f)
    | .ok ps =>
      let pa := (ps.head?.map Prod.fst).getD 0
      if s.commitRoom m.region unit bs.length then
        .ok (some (s.writeAs m.region unit (openInterval run.id) pa (bs.map Prod.fst) (s.pieceUnits m run va pa bs)))
      else .ok none

/-- What an engine does in one step with an operation it has begun: it moves the bytes up to the next 64-byte boundary of what it
writes, and ends after the last (R416, R447). -/
def State.moveOp (s : State) (kind target : Nat) (m : Message) (run : EngineRun) : Out :=
  let unit := unitOf (engineCell kind target)
  let row := run.pos / m.rowBytes
  let off := run.pos % m.rowBytes
  let va := m.dstRow run.list row + off
  let n := min (m.rowBytes - off) (64 - va % 64)
  let stop := fun (b : Begin) => match b with
    | .ended st f => Host.Outcome.next (s.endOp kind target m run.id (st ||| (if run.poison then stPoison else 0)) f)
    | .stop f => .fault f
    | .go _ => .next s
  match s.pieceBytes unit m run row off n with
  | .error b => stop b
  | .ok bs =>
    match s.writePiece unit m run va bs with
    | .error b => stop b
    | .ok none => .next s
    | .ok (some t) =>
      let t := { t with fresh := t.fresh + 4096 }
      let run := { run with pos := run.pos + n, poison := run.poison || bs.any Prod.snd }
      .next ((if m.rows * m.rowBytes ≤ run.pos then t.endOp kind target m run.id (if run.poison then stPoison else 0) 0
        else t.setRun kind target (some run)).fire m.region)

/-- A step of an engine whose message has an opcode: it begins the operation, or goes on with it (R411). -/
def engineStep (kind target op : Nat) (s : State) : Out :=
  match s.messageHead kind target with
  | none => .next s
  | some m =>
    if m.op ≠ op || !s.cellMoves (engineCell kind target) then .next s
    else
      match s.engineRun kind target with
      | some run => s.moveOp kind target m run
      | none =>
        let id := s.fresh
        let s := { s with fresh := s.fresh + 1 }
        match s.beginOp (unitOf (engineCell kind target)) id m with
        | .go run => .next (s.setRun kind target (some run))
        | .ended st f => .next (s.endOp kind target m id st f)
        | .stop f => .fault f

/-- COPY (R416). -/
def execCopy (cell : Nat) (s : State) : Out := engineStep 0 cell 0x01 s

/-- COPY2D (R416). -/
def execCopy2d (cell : Nat) (s : State) : Out := engineStep 0 cell 0x02 s

/-- FILL (R416). -/
def execFill (cell : Nat) (s : State) : Out := engineStep 0 cell 0x03 s

/-- REDUCE (R418, R419). -/
def execReduce (bay : Nat) (s : State) : Out := engineStep 1 bay 0x10 s

/-- BCAST (R418, R419). -/
def execBcast (bay : Nat) (s : State) : Out := engineStep 1 bay 0x11 s

/-! Tile copies (R417). -/

/-- A pool reference of an operation: the M-cell and the slot, if it resolves for the sender (R307). -/
def State.engineRef (s : State) (m : Message) (v : Nat) : Option (Nat × PoolSlot) :=
  let far := decide (bits v 28 28 = 1)
  let cell := bits v 27 16
  if 2 ^ 29 ≤ v || (!far && cell ≠ 0) || (far && !(isM cell && ((s.region? m.region).map (fun g => g.hasCell cell)).getD false)) then none
  else
    let c := if far then cell else unitOf (cellOf m.sender)
    ((s.cellAt c).pool.resolve m.ctx (v % 65536)).map (fun t => (c, t))

/-- The bytes of a tile in a slot, each with its poison. -/
def State.slotData (s : State) (c : Nat) (t : PoolSlot) : List (Byte × Bool) :=
  let base := (s.cellAt c).slotBase t.first
  (s.slotBytes c t).zipIdx.map (fun b => (b.1, (s.cellAt c).sram.poisoned ((base + b.2) / 8)))

/-- A tile descriptor without its COUNT. -/
def descShape (d : Nat) : Nat := d / 4096

/-- A slot that is being filled takes the bytes of a tile, and a sidecar that travels with it (R313, R417). -/
def State.fillTile (s : State) (c h : Nat) (t : PoolSlot) (bs : List (Byte × Bool)) (sums : Option (List Word32)) : State :=
  let base := (s.cellAt c).slotBase t.first
  let s := (List.range ((bs.length + 7) / 8)).foldl (fun s u =>
    let k := (bs.drop (8 * u)).take 8
    s.fillPool c h (base + 8 * u) (k.map Prod.fst) (k.any Prod.snd)) s
  s.modPool c h (fun p => p.modSlot t.first (fun t => { t with written := addRange t.written 0 bs.length, arrived := sums }))

/-- Offset and bytes of the parts of n bytes at an address that lie in one 64-byte line each: what a packet carries (R406). -/
def linesOf (va n : Nat) : List (Nat × Nat) :=
  ((List.range ((va % 64 + n + 63) / 64)).map (fun k =>
    let a := 64 * k - va % 64
    (a, min n (64 * (k + 1) - va % 64) - a)))

/-- The destination of a tile copy that has its bytes; none while it waits for room. -/
def State.placeTile (s : State) (unit id : Nat) (m : Message) (shape : Nat) (bs : List (Byte × Bool)) (sums : Option (List Word32)) :
    Except Begin (Option State) :=
  if (m.d 2).testBit 1 then
    match s.engineRef m (m.d 4) with
    | none => .error (.ended stPool (m.d 4))
    | some (c, t) =>
      if t.state ≠ .filling || t.owner ≠ m.sender || descShape t.desc.toNat ≠ shape then .error (.ended stPool (m.d 4))
      else .ok (some (s.fillTile c m.sender t bs sums))
  else if m.ddev ≠ 0 then
    match (s.peer m.ctx m.ddev).bind s.pickLink with
    | none => .error (.ended stRemote 0)
    | some l =>
      let va := m.d 4
      .ok (some ((linesOf va bs.length).foldl (fun s k =>
        match s.writePiece unit m ⟨id, 0, false, [], l⟩ (va + k.1) ((bs.drop k.1).take k.2) with
        | .ok (some t) => t
        | _ => s) s))
  else
    match s.enginePieces unit m.ctx false true (m.d 4) bs.length with
    | .bad st f => .error (.ended st f)
    | .stop f => .error (.stop f)
    | .ok ps =>
      if !s.commitRoom m.region unit bs.length then .ok none
      else
        let us := fun (off : Nat) (p : Nat × Nat) =>
          (unitsOf p.1 p.2).map (fun u =>
            let q := (List.range p.2).any (fun i => decide ((p.1 + i) / 8 = u) && (bs.getD (off + i) (0#8, false)).2)
            (u, q || (!covers p.1 p.2 u && s.viewPoison m.region u)))
        .ok (some (ps.foldl (fun (a : State × Nat) p =>
          (a.1.writeAs m.region unit (openInterval id) p.1 (((bs.drop a.2).take p.2).map Prod.fst) (us a.2 p), a.2 + p.2)) (s, 0)).1)

/-- A tile copy with its source's bytes at hand (R417): the sender's pool read ends with it. -/
def tileCopy (cell id : Nat) (m : Message) (shape : Nat) (bs : List (Byte × Bool)) (sums : Option (List Word32))
    (close : Bool → State → State) (s0 s : State) : Out :=
  match s.placeTile (unitOf cell) id m shape bs sums with
  | .error (.ended st f) => .next ((close false s).endOp 0 cell m id st f)
  | .error (.stop f) => .fault f
  | .error (.go _) => .next s0
  | .ok none => .next s0
  | .ok (some t) => .next (((close true t).endOp 0 cell m id (if bs.any Prod.snd then stPoison else 0) 0).fire m.region)

/-- TCOPY (R417): one whole tile moves in one step. A source that does not match its sidecar raises CKSUM, and the rollback abandons the
operation, with no status (R113, R420). -/
def execTcopy (cell : Nat) (s : State) : Out :=
  match s.messageHead 0 cell with
  | none => .next s
  | some m =>
    if m.op ≠ 0x04 || !s.cellMoves cell then .next s
    else
      let id := s.fresh
      let s1 := { s with fresh := s.fresh + 1 }
      if (m.d 2).testBit 0 then
        let cons := (m.d 2).testBit 2
        match s.engineRef m (m.d 3) with
        | none => .next (s1.endOp 0 cell m id stPool (m.d 3))
        | some (c, _) =>
          match s1.admitRead c m.sender m.ctx (m.d 3 % 65536) cons with
          | .waiting => .next s
          | .fault _ => .next (s1.endOp 0 cell m id stPool (m.d 3))
          | .admitted t =>
            match t.engineRef m (m.d 3) with
            | none => .next s
            | some (_, k) =>
              let close := fun (done : Bool) (u : State) =>
                if done then u.endRead c m.sender k.first cons
                else
                  let wave := u.waveOf c
                  u.modPool c m.sender (fun p => (p.abortRead k.first cons).sweep wave)
              if descFmt k.desc ≠ 11 && s.slotSums c k ≠ k.sidecar then .next (((close false t).dropMessage 0 cell).cause m.region 0x40)
              else tileCopy cell id m (descShape k.desc.toNat) (t.slotData c k) (some k.sidecar) close s t
      else
        match s1.engineRef m (m.d 4) with
        | none => .next (s1.endOp 0 cell m id stPool (m.d 4))
        | some (_, k) =>
          if descShape k.desc.toNat ≠ descShape (m.d 5) then .next (s1.endOp 0 cell m id stPool (m.d 4))
          else
            match s1.engineRead (unitOf cell) m (m.d 3) (descBytes k.desc (4096 * k.n)) with
            | .error (.ended st f) => .next (s1.endOp 0 cell m id st f)
            | .error (.stop f) => .fault f
            | .error (.go _) => .next s
            | .ok bs => tileCopy cell id m (descShape (m.d 5)) bs none (fun _ u => u) s s1

end Sys2Proof.Machine
end

