-- ==== Sys2Proof/Machine/Waves.lean ====
section
/-! DEFINITION. Kerf waves: their opening, the parts of the parties, completion with its commit, and the restore of a rollback
(R413, R421, R429-R432, R436, R439, R445). -/

namespace Sys2Proof.Machine

/-! Opening (R429). -/

/-- Whether a region is torn down because its last configuration has ended: its tasks and its last interval end first (R405, R442). -/
def Region.winding (g : Region) : Bool := g.holds && decide (g.state = .teardown) && g.emptied

/-- Whether the controller of a region opens and completes waves: it holds its bays, is ACTIVE or DRAINING or ends its last
interval, and the debugger has not halted it. -/
def Region.cuts (g : Region) : Bool :=
  g.holds && !g.debugHalt && (decide (g.state = .active) || decide (g.state = .draining) || g.winding)

/-- A cut requested: it opens the next wave, or it does so once the wave in flight is complete (R429). -/
def State.askWave (s : State) (r : Nat) : State :=
  match s.region? r with
  | some g => if g.inFlight then s.modRegion r (fun g => { g with wanted := true }) else s.openWave r
  | none => s

/-- WAVE_OPEN (R429): a wave that a cause has asked for opens once none is in flight. -/
def execWaveOpen (r : Nat) (s : State) : Out :=
  match s.region? r with
  | some g => .next (if g.cuts && g.wanted && !g.inFlight then s.openWave r else s)
  | none => .next s

/-- KI_CUT (R429): the source streamers have moved KI data elements since the last opening. -/
def execKiCut (r : Nat) (s : State) : Out :=
  match s.region? r with
  | some g => .next (if g.cuts && decide (bits g.rparm.toNat 63 32 ≤ g.moved) then s.askWave r else s)
  | none => .next s

/-- RELEASE_COMMIT_TIMEOUT (R429): a wide release has waited SWD_CYC region-active clk for its commit. -/
def execReleaseCommitTimeout (r : Nat) (s : State) : Out :=
  match s.region? r with
  | some g =>
    let limit := 2 ^ bits g.rparm.toNat 23 19
    .next (if g.cuts && g.releases.any (fun w => limit ≤ w.2) then
      (s.askWave r).modRegion r (fun g => { g with releases := g.releases.map (fun w => if limit ≤ w.2 then (w.1, 0) else w) })
    else s)
  | none => .next s

/-! Parts (R430). -/

/-- The parties of a bay or of a pool manager that are harts of the configuration. -/
def State.hartParties (s : State) (hs : List Nat) : List Nat := hs.filter (fun h => s.configured (cellOf h))

/-- Whether a task record travels to a bay that a party of a region sent before it took its part. -/
def State.recordsDue (s : State) (g : Region) (b : Nat) : Bool :=
  s.net.any (fun p => decide (p.type = 5) && decide (p.src ≠ 24) && decide (bayOf p.dst = b) && decide (p.ctx = g.ctx) &&
    decide (p.addr ≤ g.wave + 1))

/-- Whether a party can take its part of the wave in flight now (R430). -/
def State.partDue (s : State) (g : Region) (p : Nat) : Bool :=
  let ins := s.inputsOf (s.ties g) p
  let met := ins.isEmpty || ins.any s.kerfAtHead
  if p < 32768 then
    if p % 8 = 7 then met
    else
      let x := s.hartAt p
      if isStreamer p && ins.isEmpty then x.slots.toList.all (fun k => decide (k.state ≠ .active) || k.atInjection)
      else x.task.isNone && (s.eosWaits p).isEmpty && met
  else if p < 65536 then (s.cellAt (p - 32768)).mxe.node.atBoundary && met
  else if p < 131072 then
    (s.hartParties ((cellsOfBay (p - 65536)).flatMap cellHarts)).all g.parted.contains && !s.recordsDue g (p - 65536)
  else (s.hartParties (poolStreamers (p - 131072))).all g.parted.contains

/-- KERF_PART (R430): a party takes its part of the wave in flight. -/
def execKerfPart (r party : Nat) (s : State) : Out :=
  match s.region? r with
  | some g =>
    .next (if g.cuts && g.inFlight && (s.parties g).contains party && !g.parted.contains party && s.partDue g party then
      s.takePart r party else s)
  | none => .next s

/-! Completion (R431, R432). -/

/-- Whether the KERF of a tie has done its work: it has reached the head, and where the tie feeds a converter or a compressor, it has
passed the engine. -/
def State.kerfDone (s : State) (g : Region) (t : Tie) : Bool :=
  match t with
  | .port c pk =>
    if 48 ≤ pk && pk < 52 then g.parted.contains (engineParty c (2 + (pk - 48) / 2) (pk % 2)) else 52 ≤ pk && pk < 56 || s.kerfsThrough t
  | _ => (s.tieConsumer t).isNone || s.kerfsThrough t

/-- A tie without its KERFs. -/
def State.dropKerfs (s : State) (t : Tie) : State :=
  match t with
  | .queue c code => s.modCell c (fun x =>
      let q := x.queue code
      x.setQueue code { q with items := q.items.filter (fun i => !i.isKerf) })
  | .fifo c n => s.modCell c (fun x => x.setFifo n ((x.fifo n).filter (fun i => !i.isKerf)))
  | .buf c key => s.modCell c (fun x => x.setBuf key ((x.buf key).filter (fun f => f.kind ≠ 4#3)))
  | .port c pk => s.modCell c (fun x => { x with
      ports := insertAt pk ((lookupD [] pk x.ports).filter (fun i => i.flit.kind ≠ 4#3)) x.ports })

/-- The ties of a region without their KERFs, once the wave is complete. -/
def State.clearKerfs (s : State) (g : Region) : State :=
  let ts := s.ties g
  let loose := (g.cells.filter s.configured).flatMap (fun c => (cellHarts c).flatMap (fun k => looseOutputs ts k))
  ((ts ++ loose).foldl State.dropKerfs s).mapCells g (fun _ c => { c with mxe := { c.mxe with kerfs := [] } })

/-- A committed write to a peer leaves as a packet, which bears the context of its sender as far as the scarf interface (R462; assumption
92); the update of its operation waits for the answer (R406, R413, R421). -/
def State.sendPeerWrite (s : State) (r : Nat) (w : PeerWrite) : State :=
  let xid := s.nextXid
  let src := taskUnitCell (((s.region? r).bind (fun g => g.bays.head?)).getD 0)
  let ctx := ((s.region? r).map Region.ctx).getD 0
  (s.request r (.peer r) ⟨1, false, w.peer, mkCell (w.link / 6) 27 (w.link % 6), src, ctx, 0, w.addr, w.bytes, w.poison⟩).modRegion r
    (fun g => { g with updates := g.updates.map (fun u => if u.id = w.op then { u with acks := u.acks ++ [xid] } else u) })

/-- Pool slots of a region that retired up to a wave become FREE (R317, R432). -/
def State.sweepPools (s : State) (g : Region) (wave : Nat) : State :=
  s.mapCells g (fun _ c => { c with pool := c.pool.sweep wave })

/-- The commit of a wave (R432): writes drain, then what waits for the commit takes effect, then pool slots become FREE. -/
def State.commitWave (s : State) (r : Nat) (g : Region) : State :=
  let n := g.wave + 1
  let s := s.modRegion r (fun g => { g with
    wave := n, snap := g.taking, taking := none, snapSpill := g.takeSpill, takeSpill := 0, inFlight := false, parted := [], rollbacks := 0, imbalance := none,
    exposed := if g.exposed.any (· ≤ n) then none else g.exposed })
  let s := s.drainWrites r (fun w => w.interval ≤ n)
  let s := (g.cells.foldl State.enterParked s).drainWrites r (fun w => w.interval ≤ n)
  let s := s.modRegion r (fun g => { g with peerWrites := g.peerWrites.filter (fun w => !decide (w.interval ≤ n)) })
  let s := (g.peerWrites.filter (fun w => w.interval ≤ n)).foldl (fun s w => s.sendPeerWrite r w) s
  let s := s.signalDue r
  let s := (g.spawnEnds.filter (fun e => e.1 ≤ n)).foldl (fun s e => s.endSpawn r e) s
  let open' := fun (k : Nat × Record) => match k.2.fromHost with
    | some (fn, seq) => (s.entry? fn seq).any (fun e => !e.ended)
    | none => false
  (s.modRegion r (fun g => { g with
    spawnEnds := g.spawnEnds.filter (fun e => !decide (e.1 ≤ n))
    releases := g.releases.filter (fun w => !decide (w.1 ≤ n))
    hostRecords := g.hostRecords.filter open' })).sweepPools g n

/-! The end of a pre-emption (R445). -/

/-- The contents of FILLING slots of a snapshot, in bytes. -/
def Snapshot.fillingBytes (k : Snapshot) : Nat := (k.filling.map (fun f => f.2.2.1.length)).foldl (· + ·) 0

/-- The bytes of the spill area that neither the watchdog nor a snapshot has used (R430, R448). -/
def Region.spillFree (g : Region) : Nat := bits g.rspill.toNat 11 0 * 1048576 - g.spillUsed - g.snapSpill - g.takeSpill

/-- A region's bays as another region finds them: no records, no messages, no configuration; the pools keep the context's
partitions (R445). -/
def State.releaseBays (s : State) (r : Nat) (g : Region) : State :=
  let big := (g.cells.filterMap (fun c => let x := (s.cellAt c).grown; if x.isEmpty then none else some (4 * c, x))) ++
    g.bays.map (fun b => (4 * b + 1, [(0, (s.bayAt b).extra), (1, (s.bayAt b).extraMsgs)]))
  let s := s.mapCells g (fun _ c => c.vacate)
  let s := s.mapHarts g (fun _ h => { h with slots := Hart.reset.slots, collected := [], portOut := [], portKey := 0 })
  (s.mapBays g (fun _ _ => Bay.reset)).modRegion r (fun g => { g with holds := false, enlarged := big })

/-- The region is PREEMPTED with a saved context. It releases its bays when the spill area has room for the context, whose size
beyond the contents of its FILLING slots is free (R445, assumption 42). -/
def State.park (s : State) (r : Nat) (saved : Option Snapshot) : State :=
  match s.region? r with
  | none => s
  | some g =>
    let s := s.modRegion r (fun g => { g with
      state := .preempted, saved := saved, pdl := 0, finalWave := false, forced := false, preemptCmd := none, groups := [] })
    let s := match g.preemptCmd with
      | some (fn, seq) => s.complete fn seq 0#64
      | none => s
    let size := ((saved.map Snapshot.fillingBytes).getD 0) + 1 + (Config.freeWord s.fresh).toNat
    let s : State := { s with fresh := s.fresh + 1 }
    if size ≤ g.spillFree then s.releaseBays r g else s

/-! The end of a teardown (R320, R405, R442). -/

/-- The pool of a cell as the last configuration of a context ends: its slots are freed, and those with a COUNT above 0 counted; its
enlargements are released (R320, R448). -/
def Pool.teardown (p : Pool) (ctx : Nat) : Pool × Nat :=
  let mine := p.slots.filter (fun t => p.parts.any (fun q => decide (q.1 = t.part) && decide (q.2.ctx = ctx)))
  ((mine.foldl Pool.free p).shrink ctx, (mine.filter (fun t => t.state.live && decide (0 < t.count))).length)

/-- A region without a configuration releases its bays and is IDLE (R320, R428, R442): leaks are counted and warned of. -/
def State.endTeardown (s : State) (r : Nat) (g : Region) : State :=
  let leaks := (g.cells.map (fun c => ((s.cellAt c).pool.teardown g.ctx).2)).foldl (· + ·) 0
  let s := s.mapCells g (fun _ c => { c with pool := (c.pool.teardown g.ctx).1 })
  let s := s.modRegion r (fun g => { g with leak := min (g.leak + leaks) 65535 })
  let s := if leaks = 0 then s else s.report r 0x4A
  let s := (s.releaseBays r g).dropTravelling g
  s.modRegion r (fun g => { g with
    state := .idle, snap := none, taking := none, snapSpill := 0, takeSpill := 0, owners := [], groups := [], enlarged := [], spillUsed := 0, commitExtra := []
    wanted := false, sws := 0, scfg := 0, acfg := 0, emptied := false, waitCauses := [] })

/-- Whether a region still has tasks, writes, updates or completions that a wave must end. -/
def State.unsettled (s : State) (r : Nat) (g : Region) : Bool :=
  !(s.running r).isEmpty || !g.commit.isEmpty || !g.peerWrites.isEmpty || !g.updates.isEmpty || !g.spawnEnds.isEmpty

/-- The last waves of a teardown: one follows another until nothing is left to commit, then the region is IDLE. -/
def State.wind (s : State) (r : Nat) : State :=
  match s.region? r with
  | none => s
  | some g =>
    if !g.winding || (s.ctx? g.ctx).any (fun c => c.killing.isSome) then s
    else if s.unsettled r g then s.modRegion r (fun g => { g with wanted := true })
    else s.endTeardown r g

/-- WAVE_COMPLETE (R431, R432, R445): every party has taken its part and every KERF has reached its head: the wave is complete and
its interval commits. The final wave of a pre-emption ends it, and the last one of a teardown ends that. -/
def execWaveComplete (r : Nat) (s : State) : Out :=
  match s.region? r with
  | some g =>
    if g.cuts && g.inFlight && (s.parties g).all g.parted.contains && (s.ties g).all (s.kerfDone g) then
      let t := (s.clearKerfs g).commitWave r g
      .next (if g.finalWave then t.park r ((t.region? r).bind Region.snap) else t.wind r)
    else .next s
  | none => .next s

/-! Restore (R439, R445). -/

/-- ROLLBACK_DRAIN_TIMEOUT (R439): after 2^16 drain clk the tasks that remain end as members, and are not counted. -/
def execRollbackDrainTimeout (r : Nat) (s : State) : Out :=
  match s.region? r with
  | some g =>
    .next (if g.state = .rollback ∧ 2 ^ 16 ≤ g.drainClk then (s.running r).foldl (fun s h => s.endMember h none) s else s)
  | none => .next s

/-- A queue as a snapshot has it: what it holds and its lock; its depth and its spill area stay. -/
def Queue.restore (q : Queue) (k : Option Queue) : Queue :=
  match k with
  | some o => { q with items := o.items, lock := o.lock, ended := o.ended, eosDue := o.eosDue }
  | none => { q with items := [], lock := none, ended := [], eosDue := none }

/-- The entries of a map whose keys belong to a cell, by what is left of the key. -/
def ofCell {α : Type} (c n : Nat) (m : List (Nat × α)) : List (Nat × α) :=
  (m.filter (fun p => p.1 / n = c)).map (fun p => (p.1 % n, p.2))

/-- The pool of a cell with the slots of a context's partitions as a snapshot has them: what retired after the wave is SEALED
again, what was allocated after it is FREE, reads in progress begin anew, waiting allocations are gone, generations stay. What had
retired at the wave stays RETIRED while a read pins it; else it becomes FREE, unless it has become so since (R317). -/
def Pool.restore (p : Pool) (k : Pool) (ctx wave : Nat) (reads : List (Nat × Bool)) : Pool :=
  let mine := fun (t : PoolSlot) => p.parts.any (fun q => decide (q.1 = t.part) && decide (q.2.ctx = ctx))
  let back := (k.slots.filter mine).map (fun t => { t with
    claims := (reads.filter (fun x => decide (x.1 = t.first) && x.2)).length
    pins := (reads.filter (fun x => decide (x.1 = t.first) && !x.2)).length })
  let back := back.filter (fun t => match t.state with
    | .retired i => decide (wave < i) || decide (0 < t.pins) || p.slots.any (fun u => decide (u.first = t.first) && !u.state.live)
    | _ => true)
  let slots := p.slots.filter (fun t => !mine t) ++ back
  Pool.sweep { p with
    slots := slots
    parts := p.parts.map (fun q => if q.2.ctx = ctx then
      (q.1, { q.2 with used := ((slots.filter (fun t => t.part = q.1)).map PoolSlot.n).foldl (· + ·) 0 }) else q)
    queues := p.queues.filter (fun q => !p.parts.any (fun m => decide (m.1 = q.1) && decide (m.2.ctx = ctx))) } wave

/-- A slot as restored: FAULTED becomes ACTIVE at the element at which it stopped (R439). -/
def Slot.restored (k : Slot) : Slot := if k.state.isFaulted then { k with state := .active } else k

/-- The pool reads that restored slots of the streamers of a pool have in progress: first granule, and whether consuming. -/
def readsInProgress (k : Snapshot) (c : Nat) : List (Nat × Bool) :=
  (poolStreamers c).flatMap (fun h => ((lookupD Hart.reset.slots h k.slots).toList).filterMap (fun t =>
    match t.cmd with
    | some m => if m.space = 2 && m.op ≠ 2 && t.admitted && t.state ≠ .empty && t.state ≠ .idle
        then some (m.base % 4096, decide (m.op = 3)) else none
    | none => none))

/-- The configuration-select bit of a cell as a snapshot has it: the configuration before the last swap comes back, and the one it
replaces stays fetched (R439, R444). -/
def Cell.reselect (c : Cell) (id : Nat) : Cell :=
  if c.cfgid = id then c
  else
    match c.prev with
    | some (old, cfg) =>
      if old = id then
        { c with cfg := cfg, cfgid := old, prev := none, shadow := .ready c.cfgid (if c.cfgid = 0 then none else some c.cfg), kept := [] }
      else c
    | none => c

/-- A cell of a region of a context as a snapshot has it; its local memory stays, but for the FILLING slots (R439). -/
def Cell.restore (x : Cell) (c : Nat) (k : Snapshot) (ctx : Nat) : Cell :=
  let x := x.reselect (lookupD 0 c k.cfgids % 256)
  let qs := ofCell c 64 k.queues
  let x : Cell := { x with
    queues := x.queues.map (fun q => (q.1, q.2.restore (lookup q.1 qs)))
    fifos := ofCell c 16 k.fifos, bufs := ofCell c 256 k.bufs, ports := ofCell c 64 k.ports
    scaleAt := lookupD [] c k.scales, sw := lookupD Switch.reset c k.switches
    comp := lookupD [] (2 * c) k.comps ++ lookupD [] (2 * c + 1) k.comps
    conv := lookupD [] (2 * c) k.convs ++ lookupD [] (2 * c + 1) k.convs
    counts := [], l1 := [], parked := x.parked.filter (fun p => p.interval ≤ k.wave)
    mxe := x.mxe.clear (lookupD Node.reset c k.nodes) }
  let x := { x with mxe := { x.mxe with node := { x.mxe.node with
    order := (lookupD [] 56 x.ports).map (fun _ => 0) ++ (lookupD [] 57 x.ports).map (fun _ => 1) } } }
  let x := x.storeRings
  if isM c then
    { x with
      pool := x.pool.restore (lookupD Pool.reset c k.pools) ctx k.wave (readsInProgress k c)
      sram := ((k.filling.filter (fun f => f.1 = c)).map Prod.snd).foldl (fun m f => m.writeUnits f.1 f.2.1 f.2.2) x.sram }
  else x

/-- A bay as a snapshot has it, with the records of the host that are under way still (assumption 36). -/
def Bay.restore (b : Bay) (k : Option (BitVec 256 × List Record)) (host : List Record) : Bay :=
  let store := (k.map Prod.snd).getD []
  { b with
    events := (k.map Prod.fst).getD 0#256, cons := 0#256, clrs := 0#256, sets := 0#256
    store := store ++ host.filter (fun r => !store.any (fun q => q.fromHost = r.fromHost))
    ready := Vector.replicate 4 [] }

/-- The switch wave of a region as a snapshot has it: one that has completed since then is in flight again, and a request of a later
interval is to be made again (R444). -/
def Region.reswitch (g : Region) (k : Snapshot) (reverted : Bool) : Region :=
  let swapped := (k.cfgids.filter (fun p => 256 ≤ p.2)).map Prod.fst
  let g := if reverted && g.scfg = 0 then
      match g.prevSwitch with
      | some (old, req) => { g with acfg := old, scfg := g.acfg, requested := req, prevSwitch := none }
      | none => g
    else g
  { g with
    swapped := swapped
    requested := g.requested.bind (fun i => if i ≤ k.wave then some i else none)
    sws := if g.scfg = 0 then 0 else if !swapped.isEmpty then 3 else if g.sws = 3 || reverted then 2 else g.sws }

/-- The state of a region brought back to a snapshot. Writes of later intervals are discarded, and so is what travels to or from the
region (R439). -/
def State.restore (s : State) (r : Nat) (g : Region) (k : Snapshot) : State :=
  let s := s.mapHarts g (fun h x => { x with
    slots := (lookupD Hart.reset.slots h k.slots).map Slot.restored, collected := [], portOut := [], portKey := 0, stores := [], sfrq := [],
    loads := [], held := [] })
  let reverted := g.cells.any (fun c => decide ((s.cellAt c).cfgid ≠ lookupD 0 c k.cfgids % 256))
  let s := g.cells.foldl (fun s c => s.modCell c (fun x => x.restore c k g.ctx)) s
  let live := fun (p : Nat × Record) => match p.2.fromHost with
    | some (fn, seq) => (s.entry? fn seq).any (fun e => !e.ended)
    | none => false
  let host := g.hostRecords.filter live
  let s := g.bays.foldl (fun s b => s.modBay b (fun x => x.restore (lookup b k.bays) ((host.filter (fun p => p.1 = b)).map Prod.snd))) s
  let s : State := { s with
    net := s.net.filter (fun p => !((decide (p.type = 5) && decide (p.src ≠ 24) && g.hasBay (bayOf p.dst) && decide (p.ctx = g.ctx)) ||
      ((decide (p.type = 8) || decide (p.type = 9)) && (g.hasCell p.dst || g.hasCell p.src))))
    requests := s.requests.filter (fun q => !(decide (q.region = r) && (match q.what with
      | .line _ _ _ => true
      | .pool _ => true
      | _ => false))) }
  let parm := fun (h : Region) => if h.acfg = g.acfg then g.rparm
    else (((s.ctx? g.ctx).bind (fun c => lookup h.acfg c.images)).map Image.rparm).getD g.rparm
  s.modRegion r (fun g => { g.reswitch k reverted with
    rparm := parm (g.reswitch k reverted)
    commit := g.commit.filter (fun w => madeIn w.interval ≤ k.wave)
    peerWrites := g.peerWrites.filter (fun w => w.interval ≤ k.wave)
    spawnEnds := g.spawnEnds.filter (fun e => e.1 ≤ k.wave), releases := []
    owners := k.owners
    groups := [], moved := 0, wanted := false, swd := 0, hng := 0 })

end Sys2Proof.Machine
end

