-- ==== Sys2Proof/Machine/Reconfigure.lean ====
section
/-! DEFINITION. Configurations in the cells of a region: loading and activation, shadow fetches, the switch wave, parity errors, and
what a pre-empted region loads again (R276, R401, R422-R428, R438, R440-R445). -/

namespace Sys2Proof.Machine

/-! A cell takes a configuration (R27, R276, R353, R425, R442). -/

/-- The depth of a queue or ring in a queue map. -/
def QMap.capacity (q : QMap) : Nat := if 32 ≤ q.code then q.depth else 8

/-- The bytes of a cell data section written at their offsets (R425). -/
def Cell.writeData (c : Cell) (k : CellCfg) : Cell :=
  { c with sram := k.data.foldl (fun m d => m.write d.1 d.2 false) c.sram }

/-- The queues of a configuration: those that it names have its depth, extensions are gone, and entries that stood in a spill area
stand in the queue (R259, R442). Its rings are empty, without lock or ended producers; a KERF is no entry of theirs and stays (R289,
R293). -/
def State.freshQueues (s : State) (c : Nat) (k : CellCfg) : List (Nat × Queue) :=
  let x := s.cellAt c
  let old := x.queues.map (fun q => (q.1, { q.2 with
    items := q.2.items.map (fun i => match i with
      | .spilled n src => QItem.entry (s.entryOf c q.2 (.spilled n src)) src
      | i => i)
    depth := q.2.depth - (q.2.ext.map SpillExt.cap).getD 0, ext := none }))
  (k.queueMap.filter (fun q => q.code < 16 || 32 ≤ q.code)).foldl
    (fun qs q =>
      let k := { (lookupD Queue.fresh q.code qs) with depth := q.capacity }
      insertAt q.code (if 32 ≤ q.code then { k with items := k.items.filter QItem.isKerf, lock := none, ended := [], eosDue := none, head := 0 }
        else k) qs) old

/-- The engine with the node of a record started: an enabled one finds its accumulator EMPTY (R353, R356). -/
def Mxe.startNode (m : Mxe) (rec' : Word) : Mxe :=
  let m := if rec'.getLsbD 63 then m.setAcc (bits rec'.toNat 58 57) Acc.reset else m
  { m with node := Node.start rec' }

/-- A cell with a configuration active: the switch starts at word 0, the counts restart, the node starts with the trip counts of its
record, and the cell data section is written (R276, R353, R425, R442). Without a configuration the cell takes no part. -/
def State.install (s : State) (c id : Nat) (k : Option CellCfg) : State :=
  let cfg := k.getD CellCfg.none
  let qs := s.freshQueues c cfg
  s.modCell c (fun x => { (x.writeData cfg) with
    cfg := cfg, cfgid := if k.isSome then id else 0, queues := qs, sw := Switch.reset, counts := [], scaleAt := [], comp := [], conv := []
    mxe := x.mxe.startNode cfg.node })

/-- A cell's shadow configuration, once it is there: the ID and the configuration. -/
def Cell.fetched (c : Cell) : Option (Nat × Option CellCfg) :=
  match c.shadow with
  | .ready id k => some (id, k)
  | _ => none

/-- Whether every cell of a region has a configuration ID fetched. -/
def State.allFetched (s : State) (g : Region) (id : Nat) : Bool :=
  g.cells.all (fun c => ((s.cellAt c).fetched.map Prod.fst) = some id)

/-- Every cell of a region starts fetching its sections of an image. -/
def State.fetchAll (s : State) (g : Region) (id : Nat) : State :=
  g.cells.foldl (fun s c => s.modCell c (fun x => { x with shadow := .pending id 0 false })) s

/-- An image of a context. -/
def State.image? (s : State) (ctx id : Nat) : Option Image := (s.ctx? ctx).bind (fun c => lookup id c.images)

/-! Allocation of bays (R25, R302, R336, R383). -/

/-- Whether every bay of a region is free or its own. -/
def State.baysFree (s : State) (r : Nat) (g : Region) : Bool :=
  g.bays.all (fun b => match s.regionOfBay b with
    | some q => decide (q = r)
    | none => true)

/-- A region takes its bays: SPADCFG is written, event bits, stores, inboxes and the MXE are cleared (R302, R336, R383). -/
def State.allocate (s : State) (r : Nat) (g : Region) : State :=
  let s := g.cells.foldl (fun s c => s.modCell c (fun x =>
    let x := x.vacate
    if isM c then { x with snapu := g.snapu, pool := { x.pool with granules := g.poolg } }
    else { x with mxe := { x.mxe.clear Node.reset with node := Node.reset } })) s
  let s := g.bays.foldl (fun s b => s.modBay b (fun _ => Bay.reset)) s
  s.modRegion r (fun g => { g with holds := true })

/-! Activation (R428, R429). -/

/-- What the parties would record if they took their parts now: wave 0. -/
def State.snapshotNow (s : State) (g : Region) : Snapshot :=
  let ts := s.ties g
  (s.parties g).foldl (fun k p => (s.inputsOf ts p).foldl (fun k t => s.recordTie t k) (s.recordParty p k))
    { Snapshot.empty g.wave with owners := g.owners }

/-- The region runs an image: RPARM and the ownership table are those of the image, wave 0 is taken, dispatch begins. -/
def State.activate (s : State) (r : Nat) (g : Region) (id : Nat) (im : Image) : State :=
  let s := g.cells.foldl (fun s c => s.install c id (((s.cellAt c).fetched.bind Prod.snd))) s
  let s := g.cells.foldl (fun s c => s.modCell c (fun x => { x with shadow := .idle, prev := none, kept := [] })) s
  let s := s.modRegion r (fun g => { g with
    state := .active, wave := 0, acfg := id, scfg := 0, sws := 0, rparm := im.rparm, loadCmd := none
    owners := im.owners.zipIdx.map (fun o => (o.2, (o.1.2.1, (o.1.2.2.1, some o.1.2.2.2)))), inFlight := false, wanted := false, parted := []
    taking := none, moved := 0, rollbacks := 0, imbalance := none, exposed := none, swd := 0, hng := 0, spillOut := false, groups := []
    requested := none, swapped := [], prevSwitch := none, releases := [] })
  match s.region? r with
  | some h =>
    let n := (Config.freeWord s.fresh).toNat
    (State.modRegion { s with fresh := s.fresh + 1 } r (fun g => { g with
      snap := some (s.snapshotNow h), snapSpill := n, takeSpill := 0 })).actWaiting r
  | none => s

/-- A load that cannot be completed: the region is IDLE again, and the LOADCFG has failed (R426, R428). -/
def State.failLoad (s : State) (r : Nat) (g : Region) : State :=
  let s := g.cells.foldl (fun s c => s.modCell c (fun x => { x with shadow := .idle })) s
  let s := (s.report r 0x47).modRegion r (fun g => { g with state := .idle, loadCmd := none })
  match g.loadCmd with
  | some (fn, (seq, _)) => s.failed fn seq 0x47
  | none => s

/-! Resumption (R445). -/

/-- What a cell has loaded for a resumed region: a cell that had swapped runs the shadow configuration, and its first one stays
fetched. -/
def State.reload (s : State) (g : Region) (k : Snapshot) (c : Nat) : State :=
  if 256 ≤ lookupD 0 c k.cfgids then
    let x := s.cellAt c
    (s.install c g.scfg (x.fetched.bind Prod.snd)).modCell c (fun y => { y with prev := some (x.cfgid, x.cfg), shadow := .idle })
  else s

/-- The queues of a cell with the depths and areas that a saved context has, and the cell with its enlargements. -/
def Cell.enlarge (x : Cell) (c : Nat) (k : Snapshot) (grown : List (Nat × List (Nat × Nat))) : Cell :=
  let qs := ofCell c 64 k.queues
  { x with
    queues := x.queues.map (fun q => match lookup q.1 qs with
      | some o => (q.1, { q.2 with depth := o.depth, ext := o.ext.map (fun e => { e with next := 0 }) })
      | none => q)
    grown := (lookup (4 * c) grown).getD x.grown }

/-- A bay with its enlargements. -/
def Bay.enlarge (x : Bay) (b : Nat) (grown : List (Nat × List (Nat × Nat))) : Bay :=
  match lookup (4 * b + 1) grown with
  | some e => { x with extra := lookupD 0 0 e, extraMsgs := lookupD 0 1 e }
  | none => x

/-- Messages that a forced cut kept stand in their inboxes again, and start from their beginning (R420, R446). -/
def State.putBack (s : State) (g : Region) : State :=
  g.kept.foldl (fun s m =>
    let t := m.1 % 65536
    if m.1 / 65536 = 0 then s.modCell t (fun c => { c with inbox := c.inbox ++ m.2 }) else s.modBay t (fun b => { b with inbox := b.inbox ++ m.2 })) s

/-- The saved context of a region restored: the region is ACTIVE (R445). -/
def State.reenter (s : State) (r : Nat) (g : Region) (k : Snapshot) : State :=
  let s := g.cells.foldl (fun s c => (s.reload g k c).modCell c (fun x => x.enlarge c k g.enlarged)) s
  let s := g.bays.foldl (fun s b => s.modBay b (fun x => x.enlarge b g.enlarged)) s
  let s := (s.restore r g k).putBack g
  let s := s.modRegion r (fun g => { g with
    state := .active, saved := none, snap := some k, kept := [], enlarged := [], resumeCmd := none
    sws := if g.scfg = 0 then 0 else if g.swapped.isEmpty then 2 else 3 })
  let s := s.actWaiting r
  match g.resumeCmd with
  | some (fn, seq) => s.complete fn seq 0#64
  | none => s

/-- A step of a resumption: the bays are allocated once they are free, the active configuration is loaded, then the shadow one where
there was one, then the saved context is restored (R445). -/
def State.resumeStep (s : State) (r : Nat) (g : Region) : State :=
  let c0 := (g.cells.head?).getD 0
  match (s.cellAt c0).shadow, g.saved with
  | _, none => s
  | sh, some k =>
    if !g.holds || sh = .idle then
      if s.baysFree r g then (s.allocate r g).fetchAll g g.acfg else s
    else if s.allFetched g g.acfg then
      let s := g.cells.foldl (fun s c => s.install c g.acfg ((s.cellAt c).fetched.bind Prod.snd)) s
      if g.scfg = 0 then
        (g.cells.foldl (fun s c => s.modCell c (fun x => { x with shadow := .idle })) s).reenter r g k
      else s.fetchAll g g.scfg
    else if g.scfg ≠ 0 && s.allFetched g g.scfg then s.reenter r g k
    else s

/-- CONFIG_LOAD_COMPLETE (R428, R445): every cell of a region has loaded its sections: wave 0 is taken and the region is ACTIVE. In a
resumption the steps of R445 are taken one after the other. -/
def execConfigLoadComplete (r : Nat) (s : State) : Out :=
  match s.region? r with
  | some g =>
    match g.state, g.loadCmd with
    | .loading, some (fn, (seq, id)) =>
      if !g.holds then .next (if s.baysFree r g then (s.allocate r g).fetchAll g id else s)
      else
        match s.image? g.ctx id with
        | some im =>
          .next (if s.allFetched g id then (s.activate r g id im).complete fn seq (BitVec.ofNat 64 id) else s)
        | none => .next s
    | .resuming, _ => .next (s.resumeStep r g)
    | _, _ => .next s
  | none => .next s

/-! Fetches (R440, R443). -/

/-- A cell's shadow state set. -/
def State.setShadow (s : State) (c : Nat) (f : Fetch) : State := s.modCell c (fun x => { x with shadow := f })

/-- CFG_FETCH reported with the cell and the faulting address (R443). -/
def State.reportFetch (s : State) (r c va : Nat) : State :=
  let s := s.modRegion r (fun g => g.count s.clk 0x47)
  s.send ⟨12, false, 0, 24, c, 0, 0, r * 256 + 0x47, natBytes 8 c ++ natBytes 8 va, []⟩

/-- A cell has its sections; once every cell has, the shadow of an active region is loaded (R440). -/
def State.gotSections (s : State) (r c id : Nat) (k : Option CellCfg) : State :=
  let s := s.setShadow c (.ready id k)
  match s.region? r with
  | some g => if g.sws = 1 && s.allFetched g id then s.modRegion r (fun g => { g with sws := 2 }) else s
  | none => s

/-- SHADOW_FETCH_DONE (R440, R443): a cell completes the fetch of its sections. A fault is reported once and the cell fetches again; a
digest that differs is reported and fetched again, and the second one kills the context. In a load either ends the load. -/
def execShadowFetchDone (cell : Nat) (s : State) : Out :=
  match (s.cellAt cell).shadow, s.regionOfCell cell with
  | .pending id n stalled, some r =>
    match s.region? r with
    | none => .next s
    | some g =>
      match s.image? g.ctx id with
      | none => .next s
      | some im =>
        match s.fetchCell r g.ctx cell im with
        | .none => .next (s.gotSections r cell id none)
        | .got k => .next (s.gotSections r cell id (some k))
        | .fault va =>
          let s := s.noteWalk r (unitOf cell) g.ctx va 1
          if g.state = .loading then .next (s.failLoad r g)
          else .next (if stalled then s else (s.setShadow cell (.pending id n true)).reportFetch r cell va)
        | .differs =>
          if g.state = .loading then .next (s.failLoad r g)
          else if n = 0 then .next ((s.setShadow cell (.pending id 1 false)).reportFetch r cell im.va)
          else .next ((s.report r 0x47).killContext g.ctx)
  | _, _ => .next s

/-! Parity errors (R438). -/

/-- CFG_PARITY (R438): a parity error halts a unit of a cell, and it is reloaded from the copy. Whether the copy can be read is free
(assumption 2). -/
def execCfgParity (cell _u : Nat) (s : State) : Out :=
  match s.regionOfCell cell with
  | some r =>
    let bad := (Config.freeWord s.fresh).getLsbD 0
    let s : State := { s with fresh := s.fresh + 1 }
    .next (s.cause r (if bad then 0x48 else 0x46))
  | none => .next s

/-! The switch wave (R442, R444). -/

/-- The SWT flit (R265). -/
def swtFlit : Flit := ⟨5#3, 0#5, 0#256⟩

/-- The configuration of a cell before the switch wave in flight. -/
def State.oldCfg (s : State) (g : Region) (c : Nat) : CellCfg :=
  if g.swapped.contains c then ((s.cellAt c).prev.map Prod.snd).getD CellCfg.none else (s.cellAt c).cfg

/-- The channel ports that the old configuration of a cell names: inputs or outputs (R430). -/
def State.oldPorts (s : State) (g : Region) (c : Nat) (out : Bool) : List Nat :=
  let ps := ({ Cell.reset with cfg := s.oldCfg g c }).portPairs
  (List.range 8).filter (fun p => ps.any (fun q => if out then decide (q.2 = p) else decide (q.1 = p)))

/-- The configured channel inputs of a cell: those that its old program names (R430, R442). -/
def State.oldInputs (s : State) (g : Region) (c : Nat) : List Nat := s.oldPorts g c false

/-- The configured channel outputs of a cell (R430, R442). -/
def State.oldOutputs (s : State) (g : Region) (c : Nat) : List Nat :=
  (s.oldPorts g c true).filter (fun p => (neighbour c p).any (fun n => g.hasCell n && (s.oldPorts g n false).contains (facing p)))

/-- Whether an SWT stands at the head of an input: the KERFs of waves that the switch has taken its part of stand aside. -/
def State.swtAtHead (s : State) (r c p : Nat) : Bool :=
  let f := (s.cellAt c).buf p
  let f := if s.taken r (8 * c + 7) then f.dropWhile (fun x => x.kind = 4#3) else f
  f.head?.any (fun x => decide (x.kind = 5#3))

/-- Data flits that stand at an input port ahead of an SWT: at a channel input, or in the sub-streams of a local input, to which no SWT
comes (R444). -/
def Cell.aheadOfSwt (c : Cell) (p : Nat) : List Flit :=
  ((if p < 8 then (c.buf p).takeWhile (fun x => x.kind ≠ 5#3)
    else (List.range 8).flatMap (fun n => c.buf (64 + 8 * (p - 8) + n)))).filter Flit.isData

/-- Data flits that have arrived at an input in the present interval ahead of an SWT: passed or standing (R444). -/
def Cell.arrived (c : Cell) (p : Nat) : Nat := lookupD 0 p c.counts + (c.aheadOfSwt p).length

/-- Whether the counts of a join show a skew as an SWT reaches its input a (R444). -/
def State.skewed (s : State) (g : Region) (c a : Nat) : Bool :=
  let x := s.cellAt c
  let k := s.oldCfg g c
  let w := fun (p : Nat) => weightOf k false p
  let ins := (List.range 16).filter (fun p => w p ≠ 0)
  2 ≤ ins.length && ins.contains a && (ins.filter (fun b => b ≠ a)).any (fun b =>
    !(x.aheadOfSwt b).isEmpty && decide (x.arrived a * w b < x.arrived b * w a))

/-- An SWT pushed through an output of a cell; a skew at the join that it reaches rolls the region back (R444). -/
def State.pushSwt (s : State) (r : Nat) (g : Region) (c p : Nat) : State :=
  match neighbour c p with
  | none => s
  | some n =>
    let s := s.pushFlits n (facing p) (8 * c + 7) [swtFlit]
    if s.skewed g n (facing p) then s.cause r 0x43 else s

/-- The first SWT of a buffer taken out. -/
def dropSwt : Fifo → Fifo
  | [] => []
  | f :: rest => if f.kind = 5#3 then rest else f :: dropSwt rest

/-- The ownership table as a cell swaps: entries that the new image makes in a cell that has swapped come, those that the old one made
in it go (R442). -/
def swapOwners (old new : Image) (done : List Nat) (c : Nat) (os : List (Nat × (Nat × (Nat × Option Nat)))) :
    List (Nat × (Nat × (Nat × Option Nat))) :=
  (List.range (max old.owners.length new.owners.length)).filterMap (fun k =>
    match new.owners[k]? with
    | some (cn, (b, (n, h))) =>
      if cn = c then some (k, (b, (n, some h)))
      else if done.contains cn then (lookup k os).map (fun o => (k, o))
      else if (old.owners[k]?).any (fun o => decide (o.1 = c) || done.contains o.1) then none
      else (lookup k os).map (fun o => (k, o))
    | none =>
      if (old.owners[k]?).any (fun o => decide (o.1 = c) || done.contains o.1) then none else (lookup k os).map (fun o => (k, o)))

/-- Bytes of the spill area that the enlargements of a cell take for a context (R448). -/
def Cell.spillSize (c : Cell) (ctx : Nat) : Nat :=
  (c.grown.map (fun e => 64 * e.2)).foldl (· + ·) 0 +
    (c.queues.map (fun q => (q.2.ext.map (fun e => if e.byController then 512 * e.cap else 0)).getD 0)).foldl (· + ·) 0 +
    (c.pool.parts.map (fun q => if q.2.ctx = ctx then 16384 * q.2.spill.length else 0)).foldl (· + ·) 0

/-- Bytes of the spill area that the enlargements of a bay take (R448). -/
def Bay.spillSize (b : Bay) : Nat := 8192 * b.extra + 1024 * b.extraMsgs

/-- The enlargements of the old configuration at a cell released as it swaps: those of its ties and its pool partition, of its commit
buffer, and, at the cell of a task unit, of its store and its inbox (R442, R448). -/
def State.releaseSpill (s : State) (r : Nat) (g : Region) (c : Nat) : State :=
  let b := bayOf c
  let unit := decide (taskUnitCell b = c)
  let size := (s.cellAt c).spillSize g.ctx + 524288 * lookupD 0 c g.commitExtra + (if unit then (s.bayAt b).spillSize else 0)
  let s := s.modCell c (fun x => { x with grown := [], pool := x.pool.shrink g.ctx })
  let s := if unit then s.modBay b (fun x => { x with extra := 0, extraMsgs := 0 }) else s
  s.modRegion r (fun h => { h with spillUsed := h.spillUsed - size, commitExtra := removeAt c h.commitExtra })

/-- Whether a cell meets the conditions of its swap (R442). -/
def State.swapDue (s : State) (r : Nat) (g : Region) (c : Nat) : Bool :=
  let x := s.cellAt c
  g.cuts && g.requested.isSome && !g.swapped.contains c && ((x.fetched.map Prod.fst) = some g.scfg) &&
    (s.oldInputs g c).all (s.swtAtHead r c) &&
    (cellHarts c).all (fun h => ((s.hartAt h).task.map (fun t => decide (t.cfgid ≠ x.cfgid) || decide (t.cfgid = 0))).getD true) &&
    x.bufs.all (fun b => b.1 < 8 || flitCount b.2 = 0) && x.ports.all (fun p => p.2.all (fun i => i.flit.isMarker)) &&
    x.comp.all (fun e => e.out.isEmpty) && x.conv.all (fun e => e.out.isEmpty)

/-- The end of a switch wave: the shadow is the active configuration, and RPARM takes its image's values; the EMPTY image tears the
region down (R423, R442). -/
def State.endSwitch (s : State) (r : Nat) (g : Region) (new : Image) : State :=
  let s := s.modRegion r (fun h => { h with
    prevSwitch := some (h.acfg, h.requested), acfg := h.scfg, scfg := 0, sws := 0, requested := none, swapped := [], rparm := new.rparm })
  if new.empty then
    ((s.modRegion r (fun h => { h with state := .teardown, emptied := true, wanted := true })).dropRecords r g)
  else s

/-- CELL_SWAP (R401, R442, R444): a cell swaps to its shadow configuration: an SWT leaves on every configured channel output of the
old one, the SWTs at its inputs go, and the task unit takes the new ID. -/
def execCellSwap (cell : Nat) (s : State) : Out :=
  match s.regionOfCell cell with
  | none => .next s
  | some r =>
    match s.region? r with
    | none => .next s
    | some g =>
      if !s.swapDue r g cell then .next s
      else
        match s.image? g.ctx g.acfg, s.image? g.ctx g.scfg with
        | some old, some new =>
          let x := s.cellAt cell
          let keep := (cellHarts cell).filterMap (fun h =>
            (s.hartAt h).task.map (fun _ => (slotOf h, x.mapFor (slotOf h))))
          let outs := s.oldOutputs g cell
          let s := (s.oldInputs g cell).foldl (fun s p => s.modCell cell (fun y => y.setBuf p (dropSwt (y.buf p)))) s
          let s := s.releaseSpill r g cell
          let s := s.install cell g.scfg (x.fetched.bind Prod.snd)
          let s := s.modCell cell (fun y => { y with prev := some (x.cfgid, x.cfg), shadow := .idle, kept := keep })
          let s := s.modOwners r (8 * cell + 7) (swapOwners old new g.swapped cell)
          let s := s.modRegion r (fun h => { h with swapped := insertNat cell h.swapped, sws := 3 })
          match s.region? r with
          | none => .next s
          | some h =>
            let s := if g.cells.all h.swapped.contains then s.endSwitch r g new else s
            .next (outs.foldl (fun s p => s.pushSwt r { g with swapped := h.swapped } cell p) s)
        | _, _ => .next s

end Sys2Proof.Machine
end

