-- ==== Sys2Proof/Machine/Preempt.lean ====
section
/-! DEFINITION. The end of a rollback, and the drain of a pre-emption with its deadline (R420, R436, R439, R445, R446). -/

namespace Sys2Proof.Machine

/-- ROLLBACK_RESTORE (R428, R439, R446): every hart of a region in ROLLBACK is idle: the last complete wave is restored, and the
region is ACTIVE, or drains again, or is PREEMPTED by the forced cut. A lost snapshot kills the context. -/
def execRollbackRestore (r : Nat) (s : State) : Out :=
  match s.region? r with
  | none => .next s
  | some g =>
    if g.state ≠ .rollback || g.debugHalt || !(s.running r).isEmpty then .next s
    else
      match g.snap with
      | none => .next ((s.report r 0x48).killContext g.ctx)
      | some k =>
        let t := s.restore r g k
        if g.forced then .next (t.park r (some k))
        else
          let t := t.modRegion r (fun g => { g with
            state := if g.wasDraining then .draining else .active, wasDraining := false, resumeCmd := none })
          let t := t.actWaiting r
          match g.resumeCmd with
          | some (fn, seq) => .next (t.complete fn seq 0#64)
          | none => .next t

/-- Whether a tie holds an entry, a flit or a token. -/
def State.tieHolds (s : State) (t : Tie) : Bool :=
  match t with
  | .queue c code => decide (((s.cellAt c).queue code).count ≠ 0)
  | .fifo c n => decide (tokenCount ((s.cellAt c).fifo n) ≠ 0)
  | .buf c key => decide (flitCount ((s.cellAt c).buf key) ≠ 0)
  | .port c pk => (lookupD [] pk (s.cellAt c).ports).any (fun i => !i.flit.isMarker)

/-- The ties that a cell has anything in. -/
def State.usedTies (s : State) (c : Nat) : List Tie :=
  let x := s.cellAt c
  x.queues.map (fun q => Tie.queue c q.1) ++ x.bufs.map (fun b => Tie.buf c b.1) ++ x.ports.map (fun p => Tie.port c p.1)

/-- Whether an engine of a region works or has a message, or one travels to it. -/
def State.enginesBusy (s : State) (g : Region) : Bool :=
  g.cells.any (fun c => !(s.cellAt c).inbox.isEmpty) || g.bays.any (fun b => !(s.bayAt b).inbox.isEmpty) ||
    s.net.any (fun p => decide (p.type = 6) && g.hasCell p.dst)

/-- Whether the drain of a pre-emption is complete (R445). -/
def State.drained? (s : State) (r : Nat) (g : Region) : Bool :=
  (s.running r).isEmpty && g.cells.all (fun c => (s.usedTies c).all (fun t => !s.tieHolds t)) && !s.enginesBusy g

/-- DRAIN_COMPLETE (R445): the drain of a region is complete: the controller opens the final wave. -/
def execDrainComplete (r : Nat) (s : State) : Out :=
  match s.region? r with
  | some g =>
    .next (if g.state = .draining && !g.debugHalt && !g.inFlight && s.drained? r g then
      (s.openWave r).modRegion r (fun g => { g with finalWave := true })
    else s)
  | none => .next s

/-- The messages of a region's engines as a forced cut keeps them: those in an inbox, then those that travel to it (R420). -/
def State.messagesOf (s : State) (r : Nat) (g : Region) : List (Nat × List Message) :=
  let inFlight := fun (kind target : Nat) => (s.net.filter (fun p => decide (p.type = 6) && decide (p.addr / 65536 = kind) &&
    decide (p.dst = if kind = 0 then target else taskUnitCell target))).map (fun p => p.message r)
  (g.cells.filterMap (fun c =>
    let ms := (s.cellAt c).inbox ++ inFlight 0 c
    if ms.isEmpty then none else some (c, ms))) ++
  (g.bays.filterMap (fun b =>
    let ms := (s.bayAt b).inbox ++ inFlight 1 b
    if ms.isEmpty then none else some (65536 + b, ms)))

/-- PREEMPT_TIMEOUT (R428, R446): PDL region-active clk have passed in DRAINING: the forced cut, a rollback whose snapshot is the saved
context, in which RSTAT shows DRAINING. An exposed region cannot roll back (R434). -/
def execPreemptTimeout (r : Nat) (s : State) : Out :=
  match s.region? r with
  | some g =>
    if g.state = .draining && !g.finalWave && decide (2 ^ bits g.rparm.toNat 8 4 ≤ g.pdl) then
      let t := s.report r 0x4D
      if g.exposed.isSome || g.snap.isNone then .next (t.killContext g.ctx)
      else
        let ms := t.messagesOf r g
        .next ((t.startRollback r 0x4D).modRegion r (fun h => { h with forced := true, kept := ms, rollbacks := g.rollbacks }))
    else .next s
  | none => .next s

end Sys2Proof.Machine
end

