-- ==== Sys2Proof/Machine/Watchdogs.lean ====
section
/-! DEFINITION. The watchdogs of a region: who is blocked on what, the enlargement of the smallest full queue, the hang monitor, late
replies, the debugger, and what one clk does to the counts (R260, R297, R321, R433, R447-R450). -/

namespace Sys2Proof.Machine

/-! What is full (R28, R448). -/

/-- Something that a party waits to put more into. -/
inductive Full where
  | queue (c code : Nat)
  | buf (c key : Nat)
  | port (c pk : Nat)
  | pool (c part : Nat)
  | store (b : Nat)
  | inbox (kind target : Nat)
  | commit (c : Nat)
  deriving DecidableEq, Repr

/-- A tie that is full, as the watchdog sees it; a token FIFO cannot be enlarged. -/
def Full.ofTie : Tie → Option Full
  | .queue c code => some (.queue c code)
  | .fifo _ _ => none
  | .buf c key => some (.buf c key)
  | .port c pk => some (.port c pk)

/-- The inboxes of a region that have no room (R411). -/
def State.fullInboxes (s : State) (g : Region) : List Full :=
  (g.cells.filter (fun c => isM c && decide (s.inboxCap 0 c ≤ s.inboxLoad 0 c))).map (Full.inbox 0) ++
    (g.bays.filter (fun b => decide (s.inboxCap 1 b ≤ s.inboxLoad 1 b))).map (Full.inbox 1)

/-- What a hart waits to put more into. -/
def State.hartFull (s : State) (g : Region) (h : Nat) : List Full :=
  let c := cellOf h
  match (s.hartAt h).wait with
  | some (.full t) =>
    if t < 16 || (32 ≤ t && t < 40) then [.queue c t]
    else if 64 ≤ t && t < 256 then [.buf c t]
    else if t = 300 then [.store (bayOf c)]
    else if t = 301 then s.fullInboxes g
    else if t = 302 then [.commit (unitOf c)]
    else []
  | _ => []

/-- The outputs to which a switch waits to pass what stands at its inputs. -/
def State.switchWants (s : State) (c : Nat) : List (Nat × Nat) :=
  let head := fun (p : Nat × Nat) => match outTie c p.1 p.2 with
    | some _ => (s.headFlit c (inKey c p.1 p.2)).isSome
    | none => false
  match (if (s.cellAt c).sw.halt then none else (s.cellAt c).switchWord.bind decodeSwitchWord) with
  | some (.steer i o0 o1 ctl cnt) =>
    match s.headFlit c i.toNat, (s.headFlit c ctl.toNat).bind (fun k => k.1.decision) with
    | some (d, _), some b => if d.isData then [(i.toNat, if b then o1.toNat else o0.toNat)] else (wordPorts (.steer i o0 o1 ctl cnt)).take 2
    | some (d, _), none => if d.isData then [] else (wordPorts (.steer i o0 o1 ctl cnt)).take 2
    | none, _ => []
  | some (.merge i0 i1 o _ _) =>
    if (s.headFlit c i0.toNat).isSome || (s.headFlit c i1.toNat).isSome then [(i0.toNat, o.toNat)] else []
  | some (.emit o _ _ _ _) => [(31, o.toNat)]
  | some i =>
    let left := (s.cellAt c).sw.left
    ((wordPorts i).zipIdx.filter (fun p => (left.isEmpty || left.getD p.2 0 ≠ 0) && head p.1)).map Prod.fst
  | none => []

/-- The full ties on which a switch is blocked. -/
def State.switchFull (s : State) (c : Nat) : List Full :=
  (s.switchWants c).filterMap (fun p => match outTie c p.1 p.2 with
    | some t => if s.tieRoom t then none else Full.ofTie t
    | none => none)

/-- What the streams of a streamer wait to put more into: a queue, a ring, a local sub-stream, or a commit buffer. -/
def State.streamFull (s : State) (r h : Nat) : List Full :=
  let c := cellOf h
  (s.hartAt h).slots.toList.flatMap (fun k => match k.cmd with
    | some m =>
      if k.state ≠ .active then []
      else if m.isStore then (if s.commitRoom r (unitOf c) 64 || m.space ≠ 0 then [] else [.commit (unitOf c)])
      else if m.isTile then []
      else if m.isPort then
        let key := 64 + 8 * m.port h + (m.ep - 4)
        if s.bufRoom c key 1 then [] else [.buf c key]
      else if ((s.cellAt c).queue m.code).count < ((s.cellAt c).queue m.code).depth then [] else [.queue c m.code]
    | none => [])

/-- What the node, the compressor and the converter of a cell wait to put more into. -/
def State.unitFull (s : State) (c : Nat) : List Full :=
  let x := s.cellAt c
  (if !x.mxe.node.output.isEmpty && !s.bufRoom c 120 1 then [Full.buf c 120] else []) ++
    (List.range 2).flatMap (fun ch =>
      (if x.conv.any (fun e => decide (e.key / 32 = ch) && !e.out.isEmpty) && !s.bufRoom c (80 + ch) 1 then [Full.buf c (80 + ch)] else []) ++
        (if x.comp.any (fun e => decide (e.key / 32 = ch) && !e.out.isEmpty) && !s.bufRoom c (88 + ch) 1 then [Full.buf c (88 + ch)] else []))

/-- The pool partitions of a region's context in which an allocation waits (R321). -/
def State.poolFull (s : State) (g : Region) (c : Nat) : List Full :=
  let p := (s.cellAt c).pool
  p.queues.filterMap (fun q => match q.2, lookup q.1 p.parts with
    | a :: _, some m => if m.ctx = g.ctx && (p.choose m a.n).isNone then some (.pool c q.1) else none
    | _, _ => none)

/-- The commit buffers without room that an engine waits for. -/
def State.engineFull (s : State) (r : Nat) (g : Region) : List Full :=
  (g.cells.filter (fun c => isM c && (s.cellAt c).run.isSome && !s.commitRoom r c 64)).map Full.commit ++
    (g.bays.filter (fun b => (s.bayAt b).run.isSome && !s.commitRoom r (unitOf (taskUnitCell b)) 64)).map
      (fun b => Full.commit (unitOf (taskUnitCell b)))

/-- The stores of a region's bays to which a record travels that finds no room there: its tspawn is a writer blocked on them (R387,
R397). -/
def State.recordFull (s : State) (g : Region) : List Full :=
  (g.bays.filter (fun b => !(s.bayAt b).hasRoom &&
    s.net.any (fun p => decide (p.type = 5) && decide (p.dst = taskUnitCell b)))).map Full.store

/-- Everything full on which a party of a region is blocked (R447, R448). -/
def State.blockedOn (s : State) (r : Nat) (g : Region) : List Full :=
  (s.running r).flatMap (s.hartFull g) ++
    g.cells.flatMap (fun c => s.switchFull c ++ (cellHarts c).flatMap (s.streamFull r) ++ s.unitFull c ++ s.poolFull g c) ++
    s.engineFull r g ++ s.recordFull g

/-- The capacity of what is full, in entries; a commit buffer's in bytes. -/
def State.capacity (s : State) (g : Region) : Full → Nat
  | .queue c code => ((s.cellAt c).queue code).depth
  | .buf c key => s.bufCap c key
  | .port c pk => 2 + lookupD 0 (portGrown pk) (s.cellAt c).grown
  | .pool c k => (((lookup k (s.cellAt c).pool.parts).map Partition.max).getD 0)
  | .store b => 1024 + 64 * (s.bayAt b).extra
  | .inbox kind target => s.inboxCap kind target
  | .commit c => g.commitCap c

/-- Cell, kind in the order of R448's table, and index of what is full. -/
def Full.rank : Full → Nat × (Nat × Nat)
  | .queue c code => (c, (if 32 ≤ code then 1 else 0, code))
  | .buf c key => (c, (2, key))
  | .port c pk => (c, (2, 256 + pk))
  | .pool c k => (c, (3, k))
  | .store b => (taskUnitCell b, (4, 0))
  | .inbox kind target => (if kind = 0 then target else taskUnitCell target, (4, 1 + kind))
  | .commit c => (c, (5, 0))

/-- Whether one full thing comes before another: fewer entries, then lower cell, kind and index (R448). -/
def State.before (s : State) (g : Region) (a b : Full) : Bool :=
  let x := s.capacity g a
  let y := s.capacity g b
  let p := a.rank
  let q := b.rank
  decide (x < y) || (decide (x = y) && (decide (p.1 < q.1) || (decide (p.1 = q.1) &&
    (decide (p.2.1 < q.2.1) || (decide (p.2.1 = q.2.1) && decide (p.2.2 ≤ q.2.2))))))

/-- The smallest full queue on which a party is blocked. -/
def State.smallestFull (s : State) (r : Nat) (g : Region) : Option Full :=
  (s.blockedOn r g).foldl (fun m f => match m with
    | some x => if s.before g x f then some x else some f
    | none => some f) none

/-! Enlargement (R448). -/

/-- The entries by which a queue or ring grows. -/
def growth (code depth : Nat) : Nat := if 32 ≤ code then max depth 8 else 8

/-- A queue's extension grows into an area of the region's spill area: what stood in the old area moves, in its order (R259, R448;
assumption 43). -/
def State.growQueue (s : State) (r c code base : Nat) : State :=
  let q := (s.cellAt c).queue code
  let n := growth code q.depth
  let cap := (q.ext.map SpillExt.cap).getD 0 + n
  let es := q.items.filterMap (fun i => match i with
    | .spilled k src => some (s.entryOf c q (.spilled k src))
    | _ => none)
  let s := (s.noteSpilled c ⟨(q.ext.map SpillExt.base).getD 0, 0, 0, true⟩ q.items.length q.items).noteWalk r (unitOf c) (s.cellCtx c) base (512 * es.length)
  let s := es.zipIdx.foldl (fun s e => s.writeVa r (unitOf c) (s.cellCtx c) (((s.region? r).map Region.wave).getD 0 + 1)
    (base + 512 * e.2) (spillBytes e.1) false) s
  let items := (q.items.foldl (fun (a : List QItem × Nat) i => match i with
    | .spilled _ src => (a.1 ++ [.spilled a.2 src], a.2 + 1)
    | i => (a.1 ++ [i], a.2)) ([], 0)).1
  s.modCell c (fun x => x.setQueue code
    { q with depth := q.depth + n, items := items, ext := some ⟨base, cap, es.length % cap, true⟩ })

/-- The areas of a region's spill area that queues have: first byte and bytes. -/
def State.spillAreas (s : State) (g : Region) : List (Nat × Nat) :=
  g.cells.flatMap (fun c => (s.cellAt c).queues.filterMap (fun q =>
    q.2.ext.bind (fun e => if e.byController then some (e.base, 512 * e.cap) else none)))

/-- The lowest place in a region's spill area for n bytes that no queue has (assumption 43). -/
def State.spillPlace (s : State) (g : Region) (n : Nat) : Option Nat :=
  let base := bits g.rspill.toNat 51 12 * 4096
  let used := s.spillAreas g
  ((base :: used.map (fun a => a.1 + a.2)).filter (fun o =>
    decide (base ≤ o) && decide (o + n ≤ base + bits g.rspill.toNat 11 0 * 1048576) && !used.any (overlaps (o, n)))).min?

/-- Bytes of the spill area that an enlargement takes. -/
def State.growSize (s : State) : Full → Nat
  | .queue c code =>
    let q := (s.cellAt c).queue code
    512 * (growth code q.depth + (q.ext.map (fun e => if e.byController then 0 else e.cap)).getD 0)
  | .buf _ _ => 2048
  | .port _ _ => 2048
  | .pool _ _ => 16384
  | .store _ => 8192
  | .inbox _ _ => 1024
  | .commit _ => 524288

/-- A buffer's enlargement by a key (R448). -/
def Cell.grow (c : Cell) (key n : Nat) : Cell := { c with grown := insertAt key (lookupD 0 key c.grown + n) c.grown }

/-- The number of the next four spill granules of a cell: from 768 upward, the lowest that no partition has and no slot stands in (R305,
R448). -/
def Pool.spillNumber (p : Pool) : Nat :=
  let held := fun (b : Nat) => p.parts.any (fun q => q.2.spill.contains b) ||
    p.slots.any (fun t => decide (t.first < b + 4) && decide (b < t.first + t.n))
  (((List.range 833).map (fun i => 768 + 4 * i)).find? (fun b => !held b)).getD 4096

/-- The enlargement of what is full (R448); none where the spill area has no place for it. -/
def State.enlarge (s : State) (r : Nat) (g : Region) (f : Full) : Option State :=
  match f with
  | .queue c code =>
    let q := (s.cellAt c).queue code
    match s.spillPlace g (512 * ((q.ext.map SpillExt.cap).getD 0 + growth code q.depth)) with
    | some base => some (s.growQueue r c code base)
    | none => none
  | .buf c key => some (s.modCell c (fun x => x.grow key 32))
  | .port c pk => some (s.modCell c (fun x => x.grow (portGrown pk) 32))
  | .pool c k => some (s.modCell c (fun x =>
      let first := x.pool.spillNumber
      { x with pool := { x.pool with parts := x.pool.parts.map (fun q =>
          if q.1 = k then (k, { q.2 with max := q.2.max + 4, spill := q.2.spill ++ [first] }) else q) } }))
  | .store b => some (s.modBay b (fun x => { x with extra := x.extra + 1 }))
  | .inbox kind target =>
    some (if kind = 0 then s.modCell target (fun x => x.grow 320 16)
      else s.modBay target (fun x => { x with extraMsgs := x.extraMsgs + 1 }))
  | .commit c => some (s.modRegion r (fun g => { g with commitExtra := insertAt c (lookupD 0 c g.commitExtra + 1) g.commitExtra }))

/-- STALL_WATCHDOG (R448): the count of a region has reached SWD_CYC: the smallest full queue on which a party is blocked is enlarged
from the spill area. Where that has no room nothing is enlarged, and it counts as exhausted. -/
def execStallWatchdog (r : Nat) (s : State) : Out :=
  match s.region? r with
  | some g =>
    if g.cuts && decide (2 ^ bits g.rparm.toNat 23 19 ≤ g.swd) then
      match s.smallestFull r g with
      | some f =>
        let n := s.growSize f
        match (if n ≤ g.spillFree then s.enlarge r g f else none) with
        | some t => .next (t.modRegion r (fun g => { g with swd := 0, spillUsed := g.spillUsed + n }))
        | none => .next (s.modRegion r (fun g => { g with spillOut := true }))
      | none => .next s
    else .next s
  | none => .next s

/-- Flits at a channel input or buffer. -/
def Cell.standing (c : Cell) (key : Nat) : Nat := flitCount (c.buf key)

/-- The wait code of a hart slot in the occupancy map (R450). -/
def Hart.waitCode (h : Hart) : Nat :=
  match h.wait with
  | none => 0
  | some (.empty t) => if 16 ≤ t && t < 32 then 4 else 1
  | some (.full t) => if 16 ≤ t && t < 32 then 5 else if t = 302 then 9 else 2
  | some .memory => 0
  | some .group => 6
  | some .event => 7
  | some .completion => 7
  | some .slot => 0
  | some .pool => 3
  | some .control => 0

/-- The input tie of a hart that a wait code names: a queue, a ring, a token FIFO, or a port by the channel it reads. -/
def State.waitTies (_s : State) (h t : Nat) : List Tie :=
  let c := cellOf h
  if t < 16 || (32 ≤ t && t < 40) then [.queue c t]
  else if t < 32 then [.fifo c (t - 16)]
  else if 64 ≤ t && t < 68 then (List.range 2).map (fun ch => .port c (8 * slotOf h + 2 * (t - 64) + ch))
  else []

/-- Whether a running stream of a hart waits for the ownership of the range that holds its next element (R381). -/
def State.waitsOwner (s : State) (h : Nat) : Bool :=
  (s.hartAt h).slots.toList.any (fun k => decide (k.state = .active) && k.cmd.any (fun m =>
    match s.placeElem h k m with
    | .error (.owned _) => true
    | _ => false))

/-- The wait code of a hart of a cell (R450): a read that a KERF at the head of its input holds back has a code of its own, and so has a
wait for a stream that waits for the ownership of a range. -/
def State.waitCode (s : State) (h : Nat) : Nat :=
  match (s.hartAt h).wait with
  | some (.empty t) => if (s.waitTies h t).any s.kerfAtHead then 10 else (s.hartAt h).waitCode
  | some .slot => if s.waitsOwner h then 8 else 0
  | _ => (s.hartAt h).waitCode

/-- The record of a cell in the occupancy map (R450). -/
def State.cellRecord (s : State) (c : Nat) : List Byte :=
  let k := s.cellAt c
  natBytes 2 c ++ natBytes 2 (k.sw.pc % 4096 + (if k.sw.halt then 0x8000 else 0)) ++
    (List.range 8).flatMap (fun p => natBytes 1 (min 255 (k.standing p))) ++
    (List.range 8).flatMap (fun q => natBytes 1 (min 255 (k.queue q).count)) ++
    (List.range 8).flatMap (fun q => natBytes 2 (min 65535 (k.queue (32 + q)).count)) ++
    natBytes 4 ((List.range 8).foldr (fun j acc => s.waitCode (8 * c + j) + 16 * acc) 0) ++
    List.replicate 24 0#8

/-- Bytes that the controller writes to a virtual range of a context; none where a page is missing. -/
def State.putBytes (s : State) (ctx va : Nat) (bs : List Byte) : State :=
  match s.span 0 ctx false true va bs.length with
  | .ok ps => { s with mem := (ps.foldl (fun (a : Mem × List Byte) p => (a.1.write p.1 (a.2.take p.2) false, a.2.drop p.2))
      (s.mem, bs)).1 }
  | .error _ => s

/-- The occupancy map of a frozen region at RDIAG.BASE, cut off after the last whole record that fits (R450). -/
def State.writeMap (s : State) (r code : Nat) : State :=
  match s.region? r with
  | none => s
  | some g =>
    let n := min g.cells.length ((bits g.rdiag.toNat 11 0 * 4096 - 64) / 64)
    let head := [0x4E#8, 0x4F#8, 0x4D#8, 0x31#8] ++ natBytes 4 n ++ natBytes 8 s.clk ++ natBytes 4 g.wave ++ natBytes 1 code ++
      List.replicate 43 0#8
    if g.state ≠ .frozen || bits g.rdiag.toNat 11 0 = 0 then s
    else (s.noteWalk r 0 g.ctx (bits g.rdiag.toNat 51 12 * 4096) (64 * (n + 1))).putBytes g.ctx (bits g.rdiag.toNat 51 12 * 4096) (head ++ (g.cells.take n).flatMap s.cellRecord)

/-- HANG (R435, R450): the hang monitor's count has reached HNG_CYC: the region freezes, and its occupancy map is written. -/
def execHang (r : Nat) (s : State) : Out :=
  match s.region? r with
  | some g =>
    if g.cuts && decide (2 ^ bits g.rparm.toNat 18 14 ≤ g.hng) then
      let code := if g.spillOut then 0x49 else 0x44
      .next (((s.modRegion r (fun g => { g with hng := 0 })).cause r code).writeMap r code)
    else .next s
  | none => .next s

/-- Whether a request awaits its reply: an allocation that stands in its partition's queue is a writer blocked on a full queue,
not one (R321, R447; assumption 47). -/
def State.awaitsReply (s : State) (q : Request) : Bool :=
  match q.what with
  | .pool h => !(s.cellAt (unitOf (cellOf h))).pool.queues.any (fun k => k.2.any (fun a => a.hart = h))
  | _ => true

/-- REPLY_TIMEOUT (R435, R449): a request of a region is older than MTO. A reply that comes yet is for nobody. -/
def execReplyTimeout (r : Nat) (s : State) : Out :=
  match s.region? r with
  | some g =>
    match s.requests.find? (fun q => decide (q.region = r) && s.awaitsReply q && decide (q.sent + 2 ^ bits g.rparm.toNat 13 9 < s.clk)) with
    | some q =>
      let t : State := { s with requests := s.requests.filter (fun x => x.xid ≠ q.xid) }
      let t := match q.what with
        | .walk c ctx page => t.modCell c (fun x => { x with walks := x.walks.filter (fun w => w ≠ (ctx, page)) })
        | .peer p => t.peerAck p q.xid stRemote 0
        | _ => t
      .next (t.cause r 0x45)
    | none => .next s
  | none => .next s

/-- DEBUGGER_HALT (R449): the debugger halts a region, or lets it go on. -/
def execDebuggerHalt (r : Nat) (on : Bool) (s : State) : Out :=
  .next (s.modRegion r (fun g => { g with debugHalt := on }))

/-! One clk of a region (R429, R439, R446-R450). -/

/-- Whether a hart is blocked in the sense of R447: it waits, but not for translation or data. -/
def Hart.blocked (h : Hart) : Bool :=
  match h.wait with
  | some .memory => false
  | some _ => true
  | none => false

/-- Whether a page fault holds a region up: a stream stands FAULTED by one, or a handler serves one (R449). -/
def State.pageStall (s : State) (r : Nat) (g : Region) : Bool :=
  (s.running r).any (fun h => (s.hartAt h).hnd && isPageCause ((s.hartAt h).tcause.toNat % 128)) ||
    s.harts.any (fun p => g.hasCell (cellOf p.1) && p.2.slots.toList.any (fun k => match k.state with
      | .faulted code _ => isPageCause code
      | _ => false))

/-- Whether a cell of a region stands stalled in a switch wave on the fetch of its sections (R443, R449). -/
def State.fetchStall (s : State) (g : Region) : Bool :=
  g.requested.isSome && g.cells.any (fun c => match (s.cellAt c).shadow with
    | .pending _ _ stalled => stalled
    | _ => false)

/-- Whether a clk is delivered to a region: none of its bays is throttled, and the debugger has not halted it (R449, R471). -/
def State.clkDelivered (s : State) (g : Region) : Bool := g.holds && !g.debugHalt && !g.bays.any s.pkg.throttled.contains

/-- Whether a clk is region-active (R449). -/
def State.regionActive (s : State) (r : Nat) (g : Region) : Bool :=
  s.clkDelivered g && (decide (g.state = .active) || decide (g.state = .draining)) && !s.pageStall r g && !s.fetchStall g

/-- Whether a region waits for a reply (R449): a request younger than MTO is outstanding. -/
def State.waitsReply (s : State) (r : Nat) (g : Region) : Bool :=
  s.requests.any (fun q => decide (q.region = r) && s.awaitsReply q && decide (s.clk ≤ q.sent + 2 ^ bits g.rparm.toNat 13 9))

/-- The counts of a region after one clk. A clk in which nothing fires leaves no switch, stream or engine that could move
(assumption 44). -/
def State.regionClock (s : State) (r : Nat) (g : Region) : Region :=
  let act := s.regionActive r g
  let full := s.blockedOn r g
  let stuck := !g.fired && (s.running r).all (fun h => (s.hartAt h).blocked) && !full.isEmpty
  let hung := !g.fired && g.cells.any (fun c => (s.usedTies c ++ (s.cellAt c).fifos.map (fun f => Tie.fifo c f.1)).any s.tieHolds) &&
    (full.isEmpty || g.spillOut)
  let wait := s.waitsReply r g
  { g with
    fired := false
    swd := if !act || wait then g.swd else if stuck then g.swd + 1 else 0
    hng := if !act || wait then g.hng else if hung then g.hng + 1 else 0
    pdl := if act && g.state = .draining then g.pdl + 1 else g.pdl
    drainClk := if s.clkDelivered g && g.state = .rollback then g.drainClk + 1 else g.drainClk
    releases := if act then g.releases.map (fun w => (w.1, w.2 + 1)) else g.releases }

/-- The ages of the ready queues after one clk; they stand while the region is held (R391, R395). -/
def State.bayClock (s : State) (b : Nat) (x : Bay) : Bay :=
  if (s.regionOfBay b).any s.dispatches then { x.clock with ready := Vector.ofFn (fun k => x.ready[k].map (fun e => (e.1, e.2 + 1))) } else x.clock

end Sys2Proof.Machine
end

