-- ==== Sys2Proof/Machine/Clock.lean ====
section
/-! DEFINITION. The edge of a clk: event bits, the counts of regions and bays, and the turns of the next clk. -/

namespace Sys2Proof.Machine

/-- Whether a turn is one of the task units', which every clk has at its place (R390, R391). -/
def Turn.ofTaskUnit : Turn → Bool
  | .event (.dispatch _) => true
  | .event (.ageing _) => true
  | .age _ => true
  | .start _ => true
  | _ => false

/-- The turns of a clk: every task unit moves its aged records up (R391), the free schedule gives what happens next, and every task
unit starts its records once all that the clk brought is there (R389, R390). -/
def clkAgenda (resets clk : Nat) : List Turn :=
  (List.range 192).map Turn.age ++ (Config.schedule resets clk).filter (fun t => !t.ofTaskUnit) ++ (List.range 192).map Turn.start

/-- The causes of a clk whose action waits are acted on as it ends (R435): in a region that runs, or that began its rollback before. -/
def State.actCauses (s : State) : State :=
  s.regions.foldl (fun u g =>
    if (g.2.live || decide (g.2.state = .rollback)) && !g.2.waitCauses.isEmpty then u.actWaiting g.1 else u) s

/-- The end of a clk: the causes that wait are acted on (R435), the event bits and the ages of the ready queues move on (R384, R391),
every region counts the clk (R429, R439, R446-R450), what came in the clk can be popped from now on (R29), and the free schedule gives
the turns of the next clk (assumption 3). -/
def State.clock (s : State) : State :=
  let t := s.actCauses
  { t with
    clk := s.clk + 1,
    agenda := clkAgenda s.resets (s.clk + 1),
    phase := 0,
    cells := t.cells.map (fun c => (c.1, { c.2 with young := [] })),
    regions := t.regions.map (fun g => (g.1, t.regionClock g.1 { g.2 with killedNow := [] })),
    bays := t.bays.map (fun b => (b.1, t.bayClock b.1 b.2)) }

end Sys2Proof.Machine
end

