-- ==== Sys2Proof/Machine/Inbox.lean ====
section
/-! DEFINITION. The Host Inbox: records, their acceptance or refusal, the order in which commands start, DMA, and the pages of device
memory (R359, R361, R405, R451-R460, R464, R466, R473). -/

namespace Sys2Proof.Machine

/-! Command records (R453, R454). -/

/-- Dword k of a record. -/
def recD (bs : List Byte) (k : Nat) : Nat := dwordAt bs (8 * k)

/-- OP of a record (R454). -/
def recOp (bs : List Byte) : Nat := bits (recD bs 0) 63 56

/-- CTX of a record (R454). -/
def recCtx (bs : List Byte) : Nat := bits (recD bs 0) 55 44

/-- Operand k of a record (R454). -/
def recA (bs : List Byte) (k : Nat) : Nat := recD bs (2 + k)

/-- The slots of the window that a write of n bytes from an offset of BAR2 touches (R451). -/
def touchedSlots (off n : Nat) : List Nat := (List.range 64).filter (fun k => overlaps (64 * k, 64) (off, n))

/-- Whether a write of n bytes from an offset covers a slot whole (R453). -/
def wholeSlot (off n k : Nat) : Bool := decide (off ≤ 64 * k) && decide (64 * k + 64 ≤ off + n)

/-- The whole slots that a write covers, as records, in their order (R451, R453). -/
def wholeSlots (off : Nat) (bs : List Byte) : List (List Byte) :=
  ((touchedSlots off bs.length).filter (wholeSlot off bs.length)).map (fun k => (bs.drop (64 * k - off)).take 64)

/-- Records enter the inbox, 256 at most; one that finds it full is counted (R453). -/
def State.takeRecords (s : State) (fn : Nat) : List (List Byte) → State
  | [] => s
  | b :: bs =>
    (if s.pkg.inbox.length < 256 then { s with pkg := { s.pkg with inbox := s.pkg.inbox ++ [(fn, b)] } }
      else s.modFn fn (fun f => { f with inboxdrop := f.inboxdrop + 1 })).takeRecords fn bs

/-- INBOX_WRITE (R451, R453, R466): the host writes bytes from an offset of BAR2 of a function on, the PF or one of VF 1-31. A part of a
slot of the window is discarded, and the write counted; what lies beyond the window is read-only. A device whose Haltin has not started
answers only reads of BAR0. -/
def execInboxWrite (fn off : Nat) (rec' : List Byte) (s : State) : Out :=
  if s.pkg.bootstat % 2 = 0 || s.pkg.bootstat / 16 % 2 = 0 || 32 ≤ fn then .next s
  else
    let t := s.takeRecords fn (wholeSlots off rec')
    .next (if (touchedSlots off rec'.length).all (wholeSlot off rec'.length) then t
      else t.modFn fn (fun f => { f with inboxerr := f.inboxerr + 1 }))

/-! What the host reads (R451, R455, R458, R460, R472). -/

/-- BOOTSTAT as software reads it: the steps, and FAIL when one has failed (R466, R472). -/
def Pkg.bootstatReg (p : Pkg) : Nat := p.bootstat + (if p.bootstat = 31 then 0 else 32)

/-- The management register at an offset of a function's BAR0 (R472): the registers of each function from 0x200 on, the others in the
PF's only; 0 where there is none (assumption 95). The power of the module is free. -/
def State.bar0Read (s : State) (fn off : Nat) : Nat :=
  let f := s.fnAt fn
  match off with
  | 0x200 => f.jacc
  | 0x208 => f.jdone
  | 0x210 => 256 - s.pkg.inbox.length
  | 0x218 => f.inboxdrop
  | 0x220 => f.inboxerr
  | 0x228 => f.refcnt
  | _ =>
    if fn ≠ 0 then 0
    else
      match off with
      | 0x000 => s.ident
      | 0x008 => s.pkg.bootstatReg
      | 0x010 => s.dtime
      | 0x018 => s.pkg.plimit
      | 0x020 => b2n s.pkg.trip * 2 ^ 63 + b2n (!s.pkg.throttled.isEmpty) * 2 ^ 62 + (Config.modulePower s.resets s.clk).toNat
      | 0x028 => leNat ((s.pkg.cxl.take 8).map (BitVec.ofNat 8))
      | 0x030 => s.pkg.vferr
      | _ => if 0x100 < off ∧ off ≤ 0x1F8 ∧ off % 8 = 0 then (s.fnAt ((off - 0x100) / 8)).rect.toNat else 0

/-- Dword k of a journal entry with its sequence number (R458). -/
def JEntry.dword (e : JEntry) (seq k : Nat) : Nat :=
  match k with
  | 0 => seq
  | 1 => e.op * 2 ^ 56 + e.ctx * 2 ^ 44 + e.state * 2 ^ 40
  | 2 => e.htag.toNat
  | 3 => (e.ops.getD 0 0#64).toNat
  | 4 => e.result.toNat
  | 5 => e.tacc
  | 6 => e.tstart
  | _ => e.tend

/-- The sequence number whose entry stands at an index of a journal: the last one accepted that lies there; 0 for none (R458). -/
def Fn.seqAt (f : Fn) (index : Nat) : Nat := if f.jacc < index then 0 else f.jacc - (f.jacc - index) % 65536

/-- The dword at an 8-byte aligned offset of a function's BAR2 (R451): the inbox window reads 0, then come the refusal log (R455) and the
journal (R458); 0 elsewhere (assumption 95). -/
def State.bar2Read (s : State) (fn off : Nat) : Nat :=
  let f := s.fnAt fn
  if 0x1000 ≤ off ∧ off < 0x1400 then
    let e := lookupD (0#64, 0#64) ((off - 0x1000) / 16) f.refusals
    (if off % 16 = 0 then e.1 else e.2).toNat
  else if 0x400000 ≤ off ∧ off < 0x800000 then
    match lookup (f.seqAt ((off - 0x400000) / 64)) f.journal with
    | some e => e.dword (f.seqAt ((off - 0x400000) / 64)) (off % 64 / 8)
    | none => 0
  else 0

/-- What a read of the host at an offset of a function's BAR0 or BAR2 gives: with boot step 0 failed the device answers only reads of
BAR0 (R451, R466). -/
def State.barRead (s : State) (bar2 : Bool) (fn off : Nat) : Option Nat :=
  if !bar2 then some (s.bar0Read fn off) else if s.pkg.bootstat % 2 = 0 then none else some (s.bar2Read fn off)

/-! Acceptance (R454, R455, R466). -/

/-- The page size of MAP by its code (R361, R457). -/
def mapPage (code : Nat) : Nat := 2 ^ (13 + 10 * code)

/-- Whether the operands from one on are 0. -/
def zeroFrom (bs : List Byte) (k : Nat) : Bool := (List.range 6).all (fun i => decide (i < k) || decide (recA bs i = 0))

/-- Whether a record's operands are inside their limits and its reserved bits are 0 (R302, R306, R423, R455, R457). -/
def recordLegal (bs : List Byte) : Bool :=
  let a := recA bs
  let area := fun (v : Nat) => decide (bits v 63 52 = 0)
  decide (bits (recD bs 0) 43 0 = 0) &&
    match recOp bs with
    | 0x01 => decide (a 0 < 2 ^ 32) && area (a 1) && area (a 2) && area (a 3) && decide (a 5 < 2 ^ 40) && decide (bits (a 5) 15 10 = 0) &&
        decide (bits (a 5) 9 0 ≤ 768) && decide (2 ≤ bits (a 5) 19 16) && decide (bits (a 5) 19 16 ≤ 8) && decide (bits (a 5) 29 20 % 4 = 0) &&
        decide (bits (a 5) 29 20 ≤ bits (a 5) 39 30) && decide (bits (a 5) 39 30 ≤ bits (a 5) 9 0)
    | 0x02 => decide (bits (a 2) 1 0 ≤ 2) && decide (bits (a 2) 63 62 = 0) && decide (bits (a 2) 60 6 = 0) && decide (bits (a 2) 2 2 = 0) &&
        decide (a 0 % mapPage (bits (a 2) 1 0) = 0) && decide (a 1 % mapPage (bits (a 2) 1 0) = 0) && decide (a 0 + a 1 ≤ 2 ^ 52) &&
        decide (a 3 < 2 ^ 20) && zeroFrom bs 5
    | 0x03 => decide (a 0 + a 1 ≤ 2 ^ 52) && zeroFrom bs 2
    | 0x04 => decide (a 0 < 2 ^ 52) && decide (a 2 < 2) && area (a 3) && area (a 4) && zeroFrom bs 5
    | 0x05 => zeroFrom bs 2
    | 0x06 => decide (a 1 < 256) && zeroFrom bs 2
    | 0x07 => zeroFrom bs 1
    | 0x08 => zeroFrom bs 1
    | 0x09 => zeroFrom bs 0
    | 0x0A => decide (a 0 < 3) && decide (a 2 ≤ 2 ^ 32) && zeroFrom bs 4
    | 0x0B => decide (a 3 < 256) && zeroFrom bs 4
    | 0x0C => zeroFrom bs 2
    | _ => false

/-- Whether a function has a KILL of a context accepted that has not ended (R462). -/
def Fn.kills (f : Fn) (ctx : Nat) : Bool :=
  f.journal.any (fun e => decide (e.2.op = 9) && decide (e.2.ctx = ctx) && !e.2.ended)

/-- Whether a context is open, was opened by a function, and is not being killed (R452, R455, R462). -/
def State.ownsCtx (s : State) (fn ctx : Nat) : Bool :=
  (s.ctx? ctx).any (fun c => decide (c.fn = fn) && c.killing.isNone) && !(s.fnAt fn).kills ctx

/-- Whether boot has left a command to Haltin (R466): with step 1 or 2 failed only QUERY, ATTEST and FWUPD. -/
def Pkg.serves (p : Pkg) (op : Nat) : Bool :=
  (decide (p.bootstat / 2 % 2 = 1) && decide (p.bootstat / 4 % 2 = 1)) || [0x0A, 0x0B, 0x0C].contains op

/-- The reason why a record is refused at once; 0 where it is accepted (R455). -/
def State.recordReason (s : State) (fn : Nat) (bs : List Byte) : Nat :=
  let op := recOp bs
  if !recordLegal bs || !s.pkg.serves op then 1
  else if !(decide (op = 0x0C) || (decide (op = 0x01) && decide (recCtx bs = 0xFFF)) || s.ownsCtx fn (recCtx bs)) then 2
  else if (s.fnAt fn).jacc - (s.fnAt fn).jdone = 65536 then 3
  else 0

/-- A refusal-log entry (R455). -/
def Fn.refuse (f : Fn) (fn reason : Nat) (htag : Word) : Fn :=
  { f with
    refusals := insertAt (f.refcnt % 64) (htag, BitVec.ofNat 64 (reason + fn * 2 ^ 8)) f.refusals
    refcnt := f.refcnt + 1 }

/-- A journal entry appended; it takes the place of the one 65,536 before it (R456, R458). -/
def Fn.accept (f : Fn) (e : JEntry) : Fn :=
  { f with jacc := f.jacc + 1, journal := insertAt (f.jacc + 1) e (removeAt (f.jacc + 1 - 65536) f.journal) }

/-- The first record of the inbox is taken: it is refused or accepted (R455, R456). -/
def State.takeRecord (s : State) (fn : Nat) (bs : List Byte) : State :=
  let s : State := { s with pkg := { s.pkg with inbox := s.pkg.inbox.drop 1 } }
  let htag := BitVec.ofNat 64 (recD bs 1)
  let r := s.recordReason fn bs
  if r ≠ 0 then s.modFn fn (fun f => f.refuse fn r htag)
  else s.modFn fn (fun f => f.accept
    ⟨recOp bs, recCtx bs, 1, htag, (List.range 6).map (fun k => BitVec.ofNat 64 (recA bs k)), 0#64, s.dtime, 0, 0, [], []⟩)

/-! The order of starts (R456). -/

/-- Operand k of an entry. -/
def JEntry.a (e : JEntry) (k : Nat) : Nat := (e.ops.getD k 0#64).toNat

/-- The entries of a function's context before a sequence number. -/
def Fn.before (f : Fn) (ctx seq : Nat) : List JEntry := (f.journal.filter (fun e => decide (e.1 < seq) && decide (e.2.ctx = ctx))).map Prod.snd

/-- Whether an accepted command may start (R456); while a KILL of its context runs none does (R462). -/
def State.mayStart (s : State) (fn seq : Nat) (e : JEntry) : Bool :=
  let old := (s.fnAt fn).before e.ctx seq
  if e.op = 0x09 then true
  else if (s.ctx? e.ctx).any (fun c => c.killing.isSome) || (s.fnAt fn).kills e.ctx then false
  else if [0x05, 0x06, 0x0A, 0x0B].contains e.op then old.all (fun o => decide (2 ≤ o.state))
  else
    (decide (e.ctx = 0xFFF) || old.all JEntry.ended) &&
      (decide (e.op ≠ 0x0C) || s.fns.all (fun f => f.2.journal.all (fun o =>
        decide (o.2.op ≠ 0x0C) || o.2.ended || !(decide (o.2.tacc < e.tacc) || (decide (f.1 = fn) && decide (o.1 < seq))))))

/-- One step of a command's execution: its record is taken from the inbox; once accepted it starts when it may; a command that has
started goes on. The effect is given the entry. -/
def State.command (s : State) (fn seq op : Nat) (effect : JEntry → State → State) : State :=
  match s.entry? fn seq with
  | none =>
    match s.pkg.inbox with
    | (f, bs) :: _ =>
      if f = fn && decide (seq = (s.fnAt fn).jacc + 1) && (decide (recOp bs = op) || !(decide (1 ≤ recOp bs) && decide (recOp bs ≤ 0x0C)))
      then s.takeRecord fn bs else s
    | [] => s
  | some e =>
    if e.op ≠ op || e.ended then s
    else if e.state = 1 then
      if s.mayStart fn seq e then effect e (s.modEntry fn seq (fun e => { e with state := 2, tstart := s.dtime })) else s
    else effect e s

/-! DMA (R457). -/

/-- Bytes that a DMA write puts into host memory. -/
def State.dmaWrite (s : State) (addr : Nat) (bs : List Byte) : State :=
  { s with hostMem := ((⟨s.hostMem, []⟩ : Mem).setBytes addr bs).bytes }

/-- Bytes that a DMA read takes from host memory: free, as the host has put them there (assumption 2). -/
def State.dmaRead (s : State) (addr n : Nat) : List Byte × State :=
  ((List.range n).map (fun i => Config.hostByte s.fresh (addr + i)), { s with fresh := s.fresh + 1 })

/-! Pages (R359, R361, R457, R463, R464). -/

/-- First byte and size of a target of MAP: HBM stacks 0-11, CXL ports 12-19 (R359, R464). -/
def State.pageTarget (s : State) (t : Nat) : Nat × Nat :=
  if t < 12 then (t * 0x1000000000, 64000000000)
  else (0x100000000000 + (t - 12) * 0x20000000000, (s.pkg.cxl.getD (t - 12) 0) * 256000000000)

/-- An address rounded up to a multiple. -/
def roundUp (a n : Nat) : Nat := (a + n - 1) / n * n

/-- The lowest free aligned place for a page of a size on a target. -/
def State.freePage (s : State) (t size : Nat) : Option Nat :=
  let (b, n) := s.pageTarget t
  let mine := s.pages.filter (fun p => decide (b ≤ p.pa) && decide (p.pa < b + n))
  ((roundUp b size :: mine.map (fun p => roundUp (p.pa + p.size) size)).filter (fun a =>
    decide (a + size ≤ b + n) && !mine.any (fun p => overlaps (a, size) (p.pa, p.size)))).min?

/-- A page of a size given to a context on the first of some targets that has one; its bytes are 0. -/
def State.givePage (s : State) (ctx size : Nat) (ts : List Nat) : Option (Nat × Nat × State) :=
  (ts.findSome? (fun t => (s.freePage t size).map (fun a => (t, a)))).map (fun p =>
    (p.1, p.2, { s with pages := s.pages ++ [⟨p.2, size, ctx⟩], mem := s.mem.clear p.2 size }))

/-- The HBM stacks, where Haltin keeps page tables. -/
def tableTargets : List Nat := List.range 12

/-- The leaf that maps an address of a context, or how many bytes from a multiple of that on have none (R361). -/
def State.leafOrHole (s : State) (va : Nat) : Nat → Nat → Nat → (Nat × Nat) ⊕ Nat
  | 0, _, _ => .inr 8192
  | n + 1, lv, base =>
    let a := base + 8 * pteIndex lv va
    let e := dwordAt (s.mem.read a 8) 0
    let size := 2 ^ (13 + 10 * (3 - lv))
    if bits e 0 0 = 0 then .inr size
    else if bits e 1 1 = 1 then .inl (a, size)
    else s.leafOrHole va n (lv + 1) (bits e 56 13 * 8192)

/-- The leaf of an address: where its entry lies and its size; or the size of the hole around it. -/
def State.leafAt (s : State) (ctx va : Nat) : (Nat × Nat) ⊕ Nat := s.leafOrHole va 4 0 (((s.ctx? ctx).map Context.root).getD 0)

/-- The first address of a range that a leaf maps. -/
def State.firstMapped (s : State) (ctx : Nat) : Nat → Nat → Nat → Option Nat
  | 0, _, _ => none
  | fuel + 1, va, stop =>
    if stop ≤ va then none
    else
      match s.leafAt ctx va with
      | .inl _ => some va
      | .inr size => s.firstMapped ctx fuel ((va / size + 1) * size) stop

/-- The leaves of a range that must be mapped whole: entry and first byte of each; or the cause of R473. -/
def State.wholeLeaves (s : State) (ctx start stop : Nat) : Nat → Nat → Except Nat (List (Nat × (Nat × Nat)))
  | 0, _ => .ok []
  | fuel + 1, va =>
    if stop ≤ va then .ok []
    else
      match s.leafAt ctx va with
      | .inr _ => .error 0x08
      | .inl (a, size) =>
        let first := va / size * size
        if first < start || stop < first + size then .error 0x0A
        else
          match s.wholeLeaves ctx start stop fuel (first + size) with
          | .ok rest => .ok ((a, (first, size)) :: rest)
          | .error e => .error e

/-- The table of a level below an entry, made where there is none; the address of the entry of an address at a level. -/
def State.entryFor (s : State) (ctx va leaf : Nat) : Nat → Nat → Nat → Option (Nat × State)
  | 0, _, _ => none
  | n + 1, lv, base =>
    let a := base + 8 * pteIndex lv va
    if lv = leaf then some (a, s)
    else
      let e := dwordAt (s.mem.read a 8) 0
      if bits e 0 0 = 1 then s.entryFor ctx va leaf n (lv + 1) (bits e 56 13 * 8192)
      else
        match s.givePage ctx 8192 tableTargets with
        | none => none
        | some (_, pa, t) => ({ t with mem := t.mem.write a (natBytes 8 (pa + 1)) false }).entryFor ctx va leaf n (lv + 1) pa

/-- A leaf written (R361): page size code, permissions and TAG as MAP's A2 gives them. -/
def State.writeLeaf (s : State) (ctx va pa flags : Nat) : Option State :=
  (s.entryFor ctx va (3 - bits flags 1 0) 4 0 (((s.ctx? ctx).map Context.root).getD 0)).map (fun p =>
    { p.2 with mem := p.2.mem.write p.1 (natBytes 8 (pa + bits flags 5 3 * 8 + bits flags 61 61 * 2 ^ 61 + 3)) false })

/-- Pages of a range mapped one after the other: the masked targets in turn, full ones passed over (R457). -/
def State.mapPages (s : State) (ctx flags : Nat) (ts : List Nat) : Nat → Nat → Nat → Option State
  | 0, _, _ => some s
  | n + 1, va, turn =>
    let size := mapPage (bits flags 1 0)
    let k := ts.length
    let order := (ts.drop (turn % k)) ++ ts.take (turn % k)
    match s.givePage ctx size order with
    | none => none
    | some (t, pa, s) =>
      match s.writeLeaf ctx va pa flags with
      | none => none
      | some s => s.mapPages ctx flags ts n (va + size) (indexOfNat t ts + 1)

/-- Bytes written to a virtual range of a context, whatever its permissions: the fill of MAP. -/
def State.fillRange (s : State) (ctx : Nat) : Nat → Nat → List Byte → State
  | 0, _, _ => s
  | fuel + 1, va, bs =>
    if bs.isEmpty then s
    else
      match (s.walk ctx va).1 with
      | some e =>
        let k := min bs.length (e.va + e.size - va)
        ({ s with mem := s.mem.write (e.pa + (va - e.va)) (bs.take k) false }).fillRange ctx fuel (va + k) (bs.drop k)
      | none => s

end Sys2Proof.Machine
end

