-- ==== Sys2Proof/Machine/Commands.lean ====
section
/-! DEFINITION. The commands of the host (R366, R405, R421, R423, R426, R445, R456-R463, R468, R469, R473). -/

namespace Sys2Proof.Machine

/-- A region of a context by its number; none where the number names no region of it. -/
def State.ownRegion (s : State) (ctx r : Nat) : Option Region := (s.region? r).bind (fun g => if g.ctx = ctx then some g else none)

/-! OPEN (R25, R302, R306, R452, R457, R463). -/

/-- The lowest number of a range that a test accepts. -/
def lowest (lo hi : Nat) (p : Nat → Bool) : Option Nat := ((List.range (hi - lo)).map (fun i => lo + i)).find? p

/-- Whether a rectangle of VFRECT covers a bay: BW = 0 means no bays (R452, R472). -/
def rectHas (v b : Nat) : Bool :=
  decide (bits v 7 0 ≤ bayX b) && decide (bayX b < bits v 7 0 + bits v 23 16) && decide (bits v 15 8 ≤ bayY b) &&
    decide (bayY b < bits v 15 8 + bits v 31 24)

/-- Whether a bay is a function's to allocate (R452): the PF has what no VF rectangle covers. -/
def State.functionBay (s : State) (fn b : Nat) : Bool :=
  if fn = 0 then s.fns.all (fun f => decide (f.1 = 0) || !rectHas f.2.rect.toNat b) else rectHas (s.fnAt fn).rect.toNat b

/-- The region that an OPEN asks for. -/
def openedRegion (ctx : Nat) (e : JEntry) : Region :=
  { Region.reset with
    ctx := ctx, bx := bits (e.a 0) 7 0, by' := bits (e.a 0) 15 8, bw := bits (e.a 0) 23 16, bh := bits (e.a 0) 31 24
    poolg := bits (e.a 5) 9 0, snapu := bits (e.a 5) 19 16, pmin := bits (e.a 5) 29 20, pmax := bits (e.a 5) 39 30
    rspill := BitVec.ofNat 64 (e.a 2), rdiag := BitVec.ofNat 64 (e.a 3) }

/-- The pool of an M-cell with a partition for a context, where it can take it (R25, R306): an index of eight, an own range at the lowest
multiple of 4 that is disjoint from the others; while a partition is valid POOLG and SNAPU stay as they are. A context has one
partition. -/
def Cell.addPartition (c : Cell) (g : Region) : Option Cell :=
  if !c.pool.parts.isEmpty && (c.pool.granules ≠ g.poolg || c.snapu ≠ g.snapu) then none
  else if c.pool.parts.any (fun q => q.2.ctx = g.ctx) then some c
  else
    match lowest 0 8 (fun k => (lookup k c.pool.parts).isNone),
      lowest 0 (g.poolg + 1) (fun b => decide (b % 4 = 0) && decide (b + g.pmin ≤ g.poolg) &&
        c.pool.parts.all (fun q => !overlaps (b, g.pmin) (q.2.base, q.2.min))) with
    | some k, some b => some { c with
        snapu := g.snapu
        pool := { c.pool with granules := g.poolg, parts := insertAt k ⟨g.ctx, b, g.pmin, g.pmax, 0, []⟩ c.pool.parts } }
    | _, _ => none

/-- Whether OPEN finds the place it asks for (R24, R25, R457). -/
def State.placeOk (s : State) (fn : Nat) (g : Region) : Bool :=
  decide (1 ≤ g.bw) && decide (1 ≤ g.bh) && decide (g.bx + g.bw ≤ 12) && decide (g.by' + g.bh ≤ 16) &&
    g.bays.all (fun b => s.functionBay fn b && (s.regionOfBay b).isNone) &&
    g.cells.all (fun c => !isM c || ((s.cellAt c).addPartition g).isSome)

/-- The peer table that OPEN reads (R421, R457). -/
def State.readPeers (s : State) (addr : Nat) : List Word × State :=
  if addr = 0 then (List.replicate 15 0#64, s)
  else
    let (bs, s) := s.dmaRead addr 120
    ((List.range 15).map (fun i => BitVec.ofNat 64 (dwordAt bs (8 * i))), s)

/-- The region of an OPEN allocated under a number: SPADCFG and POOLPART are written in each cell (R302, R306, R383). -/
def State.openIn (s : State) (r : Nat) (g : Region) : State :=
  let s := { s with regions := insertAt r { g with holds := true } s.regions }
  let s := s.allocate r g
  g.cells.foldl (fun s c => if isM c then s.modCell c (fun x => (x.addPartition g).getD x) else s) s

/-- The context of an OPEN: a new one with the lowest free ID and a root table of its own, or the one it names. -/
def State.openCtx (s : State) (fn : Nat) (e : JEntry) : Option (Nat × State) :=
  if e.ctx ≠ 0xFFF then some (e.ctx, s)
  else
    match lowest 1 0xFFF (fun c => (s.ctx? c).isNone) with
    | none => none
    | some c =>
      match s.givePage c 4096 tableTargets with
      | none => none
      | some (_, root, s) =>
        let (peers, s) := s.readPeers (e.a 4)
        some (c, { s with
          ctxs := insertAt c { Context.reset with fn := fn, root := root, tagbase := BitVec.ofNat 64 (e.a 1), peers := peers } s.ctxs
          pkg := { s.pkg with purged := s.pkg.purged.filter (fun p => p.2 ≠ c) } })

/-- OPEN (R457). -/
def execOpenRegion (fn seq : Nat) (s : State) : Out :=
  .next (s.command fn seq 0x01 (fun e s =>
    match lowest 0 192 (fun r => (s.region? r).isNone), s.openCtx fn e with
    | some r, some (c, t) =>
      let g := openedRegion c e
      if s.placeOk fn g then
        let t := (t.openIn r g).modEntry fn seq (fun e => { e with ctx := c })
        t.complete fn seq (BitVec.ofNat 64 (c + r * 2 ^ 16))
      else s.failed fn seq 0x4E
    | _, _ => s.failed fn seq 0x4E))

/-! MAP and UNMAP (R366, R457, R473). -/

/-- The targets of a MAP mask, lowest first. -/
def maskTargets (mask : Nat) : List Nat := (List.range 20).filter mask.testBit

/-- The answer of a walk of a context turned back into its request: the walk starts again (R364, R366). -/
def Packet.rewalk (p : Packet) (ctx : Nat) : Packet :=
  if p.type = 11 && decide (p.ctx = ctx) then ⟨10, false, 0, taskUnitCell (bayOf p.dst), p.dst, ctx, p.xid, p.addr, [], []⟩ else p

/-- MAP (R364, R457): pages are allocated on the masked targets in turn, filled and mapped; or nothing changes. -/
def execMap (fn seq : Nat) (s : State) : Out :=
  .next (s.command fn seq 0x02 (fun e s =>
    let va := e.a 0
    let n := e.a 1
    let size := mapPage (bits (e.a 2) 1 0)
    if (s.firstMapped e.ctx (n / 8192 + 1) va (va + n)).isSome then s.failed fn seq 0x51
    else
      let ts := maskTargets (e.a 3)
      match (if ts.isEmpty && n ≠ 0 then none else s.mapPages e.ctx (e.a 2) ts (n / size) va 0) with
      | none => s.failed fn seq 0x50
      | some t =>
        let (bs, t) := if e.a 4 = 0 then ([], t) else t.dmaRead (e.a 4) n
        let t := t.fillRange e.ctx (n / 8192 + 1) va bs
        let t : State := { t with
          cells := t.cells.map (fun c => (c.1, { c.2 with walkFaults := c.2.walkFaults.filter (fun w => w.1 ≠ e.ctx) }))
          net := t.net.map (fun p => if p.payload.isEmpty then p.rewalk e.ctx else p) }
        t.complete fn seq 0#64))

/-- The commits that UNMAP waits for (R366): every region of the context that may have made an access in an interval not yet
committed. -/
def State.commitWaits (s : State) (ctx : Nat) : List (Nat × Nat) :=
  s.regions.filterMap (fun p =>
    if p.2.ctx = ctx && p.2.holds && ([RState.active, .draining, .rollback, .frozen].contains p.2.state || p.2.winding)
    then some (p.1, p.2.wave + (if p.2.inFlight then 2 else 1)) else none)

/-- Translations of a range of a context gone: TLB entries go, and walks that have been answered start again (R366). -/
def State.invalidate (s : State) (ctx start stop : Nat) : State :=
  { s with
    cells := s.cells.map (fun c => (c.1, { c.2 with
      tlb := c.2.tlb.filter (fun e => !(decide (e.ctx = ctx) && overlaps (e.va, e.size) (start, stop - start)))
      l1 := if s.cellCtx c.1 = ctx then [] else c.2.l1 }))
    net := s.net.map (fun p => p.rewalk ctx) }

/-- Whether a wave that a command waits for is complete, or can come no more: its region is gone or has ended. -/
def State.waveDone (s : State) (w : Nat × Nat) : Bool :=
  match s.region? w.1 with
  | some g => decide (w.2 ≤ g.wave) || !([RState.active, .draining, .rollback, .frozen].contains g.state || g.winding)
  | none => true

/-- Whether a load that has been translated into some pages still waits for its bytes. -/
def State.loadsFrom (s : State) (ps : List (Nat × Nat)) : Bool :=
  s.harts.any (fun h => h.2.loads.any (fun l => l.pieces.any (fun k => ps.any (fun p => overlaps (k.pa, k.bytes) p))))

/-- Whether something that has been translated into some pages is still to reach them: an uncommitted write of a region, a store that
waits for room, the barrier of a tile load (R366). -/
def State.writesTo (s : State) (ps : List (Nat × Nat)) : Bool :=
  let hits := fun (a n : Nat) => ps.any (overlaps (a, n))
  s.regions.any (fun g => g.2.commit.any (fun w => hits w.pa w.bytes.length)) ||
    s.cells.any (fun c => c.2.parked.any (fun p => p.writes.any (fun w => hits w.2.1 w.2.2.length)) ||
      c.2.mxe.pending.any (fun p => p.barrier.any (fun a => hits a 8)) ||
      c.2.mxe.work.any (fun w => match w.op with
        | .tst _ ps => ps.any (fun p => hits p.1 p.2)
        | .tld _ _ _ _ _ bar _ => bar.any (fun a => hits a 8)
        | _ => false))

/-- The end of an UNMAP once nothing uses the old translation: its pages are zeroed and free (R366, R457, R463). -/
def State.finishUnmap (s : State) (fn seq : Nat) (e : JEntry) : State :=
  if e.waits.all s.waveDone && !s.loadsFrom e.freed && !s.writesTo e.freed then
    let s := e.freed.foldl (fun s p => { s with mem := s.mem.clear p.1 p.2 }) s
    ({ s with pages := s.pages.filter (fun p => !e.freed.any (fun f => f.1 = p.pa)) }).complete fn seq 0#64
  else
    e.waits.foldl (fun s w => if s.waveDone w && !s.writesTo e.freed then s else s.modRegion w.1 (fun g => { g with wanted := true })) s

/-- UNMAP (R366, R457, R473): the leaves are removed, which forces a cut; it ends when no access uses them any more. -/
def execUnmap (fn seq : Nat) (s : State) : Out :=
  .next (s.command fn seq 0x03 (fun e s =>
    if e.state = 2 then s.finishUnmap fn seq e
    else
      let va := e.a 0
      match s.wholeLeaves e.ctx va (va + e.a 1) (e.a 1 / 8192 + 2) va with
      | .error c => s.failed fn seq c
      | .ok ls =>
        let pas := ls.map (fun l => ((bits (dwordAt (s.mem.read l.1 8) 0) 56 13) * 8192, l.2.2))
        let s := ls.foldl (fun s l => { s with mem := s.mem.write l.1 (natBytes 8 0) false }) s
        let s := s.invalidate e.ctx va (va + e.a 1)
        let ws := s.commitWaits e.ctx
        let s := s.modEntry fn seq (fun e => { e with waits := ws, freed := pas })
        s.finishUnmap fn seq { e with waits := ws, freed := pas }))

/-! LOADCFG (R426, R428, R457). -/

/-- Whether a configuration ID is active or shadow in a region of a context (R426). -/
def State.idInUse (s : State) (ctx id : Nat) : Bool :=
  s.regions.any (fun p => decide (p.2.ctx = ctx) && (decide (p.2.acfg = id) || decide (p.2.scfg = id)))

/-- The bytes of an image by its header's total; none where a byte cannot be read, is poisoned, or the total is too small. -/
def State.readImage (s : State) (ctx va : Nat) : Option (List Byte) :=
  match s.committed ctx va 64 with
  | .error _ => none
  | .ok (h, hp) =>
    let n := wordAt h 24
    if hp.any (fun p => p) || n < 192 then none
    else
      match s.committed ctx va n with
      | .error _ => none
      | .ok (bs, ps) => if ps.any (fun p => p) then none else some bs

/-- Whether a walk of Haltin over n bytes that fails read a poisoned entry (R362). -/
def State.lostWalk (s : State) (ctx va n : Nat) : Bool :=
  match s.walkPieces ctx (n / 8192 + 2) va n with
  | .error (a, false) => (s.walk ctx a).2
  | _ => false

/-- Whether a walk of the reading of an image read a poisoned entry. -/
def State.lostImage (s : State) (ctx va : Nat) : Bool :=
  match s.committed ctx va 64 with
  | .error _ => s.lostWalk ctx va 64
  | .ok (h, _) => s.lostWalk ctx va (wordAt h 24)

/-- Whether a region loads the image of a LOADCFG that has started (R428). -/
def State.loads (s : State) (fn seq : Nat) : Bool :=
  s.regions.any (fun g => g.2.loadCmd.any (fun c => decide (c.1 = fn) && decide (c.2.1 = seq)))

/-- LOADCFG (R426, R428, R457): an image is checked and installed; with ACT = 1 an IDLE region loads it, an ACTIVE one installs it only,
and in any other state the command waits. -/
def execLoadcfg (fn seq : Nat) (s : State) : Out :=
  .next (s.command fn seq 0x04 (fun e s =>
    let r := e.a 1
    if s.loads fn seq then s
    else
      match s.ownRegion e.ctx r with
      | none => s.failed fn seq 0x4E
      | some g =>
        if e.a 2 % 2 = 1 && g.state ≠ .idle && g.state ≠ .active then s
        else
        match s.readImage e.ctx (e.a 0) with
        | none => (if s.lostImage e.ctx (e.a 0) then s.cause r 0x48 else s).failed fn seq 0x47
        | some bs =>
          match s.refusal g bs with
          | some c => s.failed fn seq c
          | none =>
            let id := byteAt bs 6
            if s.idInUse e.ctx id then s.failed fn seq 0x47
            else
              let s := s.modCtx e.ctx (fun c => { c with images := insertAt id (imageOf (e.a 0) bs) c.images })
              let s := s.modRegion r (fun g => { g with
                rspill := if e.a 3 = 0 then g.rspill else BitVec.ofNat 64 (e.a 3), spillOut := g.spillOut && decide (e.a 3 = 0)
                rdiag := if e.a 4 = 0 then g.rdiag else BitVec.ofNat 64 (e.a 4) })
              if e.a 2 % 2 = 1 && g.state = .idle then
                let s := s.modRegion r (fun g => { g with state := .loading, loadCmd := some (fn, (seq, id)) })
                if g.holds then s.fetchAll g id else s
              else s.complete fn seq (BitVec.ofNat 64 id)))

/-! SPAWN and SIGNAL (R384, R397, R457, R473). -/

/-- The cause with which an address of a record cannot be read: no translation, or no R. -/
def readCause (mapped : Bool) : Nat := if mapped then 0x0A else 0x08

/-- The bytes of a task record as Haltin reads them, and the poison of its dwords; or the cause that tspawn would trap with. -/
def State.spawnRecord (s : State) (ctx bay va : Nat) : Except Nat (List Byte × List Bool) :=
  if va % 64 ≠ 0 then .error 0x05
  else if 2 ^ 52 ≤ va then .error 0x0A
  else
    match s.committed ctx (va + 8) 8 with
    | .error f => .error (readCause f.2)
    | .ok (d1, _) =>
      match s.committed ctx va (if shortForm (dwordAt d1 0) then 64 else 128) with
      | .error f => .error (readCause f.2)
      | .ok (bs, ps) =>
        if (recordBad bay bs).isSome then .error 0x0A
        else .ok (bs, (List.range (bs.length / 8)).map (fun k => ps.getD (8 * k) false))

/-- SPAWN (R405, R457): the record is sent to its bay on behalf of Haltin; the end of its task completes the command. -/
def execSpawn (fn seq : Nat) (s : State) : Out :=
  .next (s.command fn seq 0x05 (fun e t =>
    if e.state = 2 then t
    else if 192 ≤ e.a 1 || (t.regionFor e.ctx (e.a 1)).isNone then t.failed fn seq 0x4E
    else
      match t.spawnRecord e.ctx (e.a 1) (e.a 0) with
      | .error c =>
        let lost := t.lostWalk e.ctx (e.a 0) 64 || t.lostWalk e.ctx (e.a 0) 128
        (match t.regionFor e.ctx (e.a 1) with
         | some (r, _) => if c = 0x08 && lost then t.cause r 0x48 else t
         | none => t).failed fn seq c
      | .ok (bs, ps) => t.send ⟨5, false, 0, taskUnitCell (e.a 1), 24, e.ctx, seq * 32 + fn, 0, bs, ps⟩))

/-- Whether a region takes events of the host now (R428, R439, R450). -/
def Region.takesSignals (g : Region) : Bool :=
  !g.shut && !g.finalWave && decide (g.state ≠ .rollback) && decide (g.state ≠ .teardown)

/-- SIGNAL (R384, R457): an event bit of a bay is set; it waits while the region is shut. -/
def execSignal (fn seq : Nat) (s : State) : Out :=
  .next (s.command fn seq 0x06 (fun e s =>
    match (if e.a 0 < 192 then s.regionFor e.ctx (e.a 0) else none) with
    | none => s.failed fn seq 0x4E
    | some (_, g) =>
      if g.takesSignals then (s.setEvents (e.a 0) (eventBit (BitVec.ofNat 8 (e.a 1))) none).complete fn seq 0#64 else s))

/-! PREEMPT, RESUME and KILL (R428, R445, R462). -/

/-- PREEMPT (R428, R445): an ACTIVE region drains; the command ends when the region is PREEMPTED. -/
def execPreempt (fn seq : Nat) (s : State) : Out :=
  .next (s.command fn seq 0x07 (fun e s =>
    match s.ownRegion e.ctx (e.a 0) with
    | none => s.failed fn seq 0x4E
    | some g =>
      if g.state = .active && g.preemptCmd.isNone then
        s.modRegion (e.a 0) (fun g => { g with state := .draining, pdl := 0, preemptCmd := some (fn, seq) })
      else s))

/-- RESUME (R428, R445): a PREEMPTED region takes up its saved context again, a FROZEN one rolls back; the command ends when the region
is ACTIVE. -/
def execResume (fn seq : Nat) (s : State) : Out :=
  .next (s.command fn seq 0x08 (fun e s =>
    let r := e.a 0
    match s.ownRegion e.ctx r with
    | none => s.failed fn seq 0x4E
    | some g =>
      if g.resumeCmd.isSome then s
      else if g.state = .preempted then
        let s := if g.holds then g.cells.foldl (fun s c => s.setShadow c .idle) s else s
        s.modRegion r (fun g => { g with state := .resuming, resumeCmd := some (fn, seq) })
      else if g.state = .frozen then
        if g.exposed.any (fun w => g.wave < w) || 7 ≤ g.rollbacks || g.snap.isNone then s.killContext g.ctx
        else (s.startRollback r g.code).modRegion r (fun g => { g with resumeCmd := some (fn, seq) })
      else s))

/-- KILL (R462): the regions of the context end and every unit is told to drop its writes; the last acknowledgement ends it. -/
def execKill (fn seq : Nat) (s : State) : Out := .next (s.command fn seq 0x09 (fun e s => s.killContext e.ctx))

/-! QUERY, ATTEST and FWUPD (R423, R457, R466-R469, R473). -/

/-- The code of a region state (R428). -/
def RState.code : RState → Nat
  | .idle => 0
  | .loading => 1
  | .active => 2
  | .rollback => 3
  | .draining => 4
  | .preempted => 5
  | .resuming => 6
  | .frozen => 7
  | .teardown => 8

/-- The region registers in the order of R423: RSTAT, RCAUSE, RPARM, RCNT, RPOIS, RSPILL, RDIAG. -/
def Region.registers (g : Region) : List Nat :=
  [g.wave * 2 ^ 32 + g.acfg * 2 ^ 24 + g.scfg * 2 ^ 16 + g.sws * 2 ^ 8 + (if g.forced then RState.draining else g.state).code, g.causes * 2 ^ 32 + g.code, g.rparm.toNat,
    g.corr * 2 ^ 32 + g.leak * 2 ^ 16 + g.killed, g.pois.toNat, g.rspill.toNat, g.rdiag.toNat]

/-- QUERY (R457): region registers, the regions of the context, or committed memory, written by DMA, at most A2 bytes. -/
def execQuery (fn seq : Nat) (s : State) : Out :=
  .next (s.command fn seq 0x0A (fun e s =>
    let put := fun (bs : List Byte) => (s.dmaWrite (e.a 3) (bs.take (e.a 2))).complete fn seq 0#64
    if e.a 0 = 0 then
      match s.ownRegion e.ctx (e.a 1) with
      | none => s.failed fn seq 0x4E
      | some g => put (g.registers.flatMap (natBytes 8))
    else if e.a 0 = 1 then put ((s.regions.filter (fun p => p.2.ctx = e.ctx)).flatMap (fun p => natBytes 8 p.1))
    else
      match s.committed e.ctx (e.a 1) (e.a 2) with
      | .error f => s.failed fn seq (readCause f.2)
      | .ok (bs, _) => put bs))

/-- Bytes cut or filled up with 0 to a length. -/
def padTo (n : Nat) (bs : List Byte) : List Byte := (bs ++ List.replicate n 0#8).take n

/-- The report of ATTEST before its signature (R469). -/
def State.report469 (s : State) (ctx : Nat) (e : JEntry) : List Byte :=
  let all := ((s.ctx? ctx).map Context.images).getD []
  let some8 := (all.filter (fun i => e.a 3 ≤ i.1)).take 8
  [0x4E#8, 0x41#8, 0x54#8, 0x31#8] ++ natBytes 8 (e.a 0) ++ natBytes 8 (e.a 1) ++ natBytes 8 s.ident ++ padTo 57 Config.publicKey ++
    padTo 32 (Config.haltinDigest s.pkg.running) ++ natBytes 4 s.pkg.running ++ natBytes 2 all.length ++ natBytes 1 some8.length ++ [0#8] ++
    padTo 256 (some8.flatMap (fun i => padTo 32 i.2.digest)) ++ padTo 8 (some8.flatMap (fun i => natBytes 1 i.1)) ++ List.replicate 9 0#8

/-- ATTEST (R469). -/
def execAttest (fn seq : Nat) (s : State) : Out :=
  .next (s.command fn seq 0x0B (fun e s =>
    let bs := s.report469 e.ctx e
    (s.dmaWrite (e.a 2) (bs ++ padTo 114 (Config.attestation bs))).complete fn seq 0#64))

/-- FWUPD (R466-R468): a Haltin image read by DMA is staged when its signature verifies and its version is no lower than the fused
counter. -/
def execFwupd (fn seq : Nat) (s : State) : Out :=
  .next (s.command fn seq 0x0C (fun e s =>
    let (bs, t) := s.dmaRead (e.a 0) (e.a 1)
    match Config.fwVersion bs with
    | some v => if s.pkg.fused ≤ v then ({ t with pkg := { t.pkg with staged := some v } }).complete fn seq 0#64 else t.failed fn seq 0x47
    | none => t.failed fn seq 0x47))

end Sys2Proof.Machine
end

