-- ==== Sys2Proof/Machine/Control.lean ====
section
/-! DEFINITION. Control flow: branches, jumps, and the branches on predicates, masks and tags (R140-R143, R183). -/

namespace Sys2Proof.Machine

/-- The target of a branch or jump: an even offset from the pc (R44, R140). -/
def State.target {n : Nat} (s : State) (imm : BitVec n) : Word := s.hart.pc + sext64 imm <<< 1

/-- A branch, taken or not, whose decision may rest on poisoned data (R140, R211). -/
def branchTo (taken p : Bool) (target : Word) (s : State) : Act :=
  if taken then .jump (s.control p) target else .done (s.control p)

/-- A compare-and-branch (R140). -/
def branchOp (cc : IntCC) (a b : Reg) (target : Word) (s : State) : Act :=
  guardMap [(s.badSrcU a, a), (s.badSrcU b, b)]
    (srcU s a fun x s => srcU s b fun y s => branchTo (wordCond cc x.val y.val) (x.poison || y.poison) target s)

/-- A branch on a mask (R142). -/
def maskBranch (m : MReg) (f : Word → Bool) (target : Word) (s : State) : Act := branchTo (f (s.hart.mval m)) false target s

/-- jalr: the target comes from xa before the link is written (R141). -/
def jumpLink (d a : Reg) (off : Word) (len : Nat) (s : State) : Act :=
  srcU s a fun x s =>
    (dstU (s.control x.poison) d (intResult (s.hart.pc + BitVec.ofNat 64 len) false)).andThen
      (fun s => .jump s ((x.val + off) &&& ~~~1#64))

/-- JALR (R141). -/
def execJalr (tk : Tok) (d a : Reg) (imm : BitVec 13) (s : State) : Out :=
  runHart (.jalr tk d a imm) tk s (jumpLink d a (sext64 imm) 4)

/-- J (R141). -/
def execJ (tk : Tok) (imm : BitVec 23) (s : State) : Out :=
  runHart (.j tk imm) tk s (fun s => .jump s (s.target imm))

/-- JAL (R141). -/
def execJal (tk : Tok) (imm : BitVec 23) (s : State) : Out :=
  runHart (.jal tk imm) tk s (fun s => (dstU s 1#5 (intResult (s.hart.pc + 4#64) false)).andThen (fun t => .jump t (s.target imm)))

/-- BEQ (R140). -/
def execBeq (tk : Tok) (a b : Reg) (imm : BitVec 13) (s : State) : Out :=
  runHart (.beq tk a b imm) tk s (fun s => branchOp .eq a b (s.target imm) s)

/-- BNE (R140). -/
def execBne (tk : Tok) (a b : Reg) (imm : BitVec 13) (s : State) : Out :=
  runHart (.bne tk a b imm) tk s (fun s => branchOp .ne a b (s.target imm) s)

/-- BLT (R140). -/
def execBlt (tk : Tok) (a b : Reg) (imm : BitVec 13) (s : State) : Out :=
  runHart (.blt tk a b imm) tk s (fun s => branchOp .lt a b (s.target imm) s)

/-- BGE (R140). -/
def execBge (tk : Tok) (a b : Reg) (imm : BitVec 13) (s : State) : Out :=
  runHart (.bge tk a b imm) tk s (fun s => branchOp .ge a b (s.target imm) s)

/-- BLTU (R140). -/
def execBltu (tk : Tok) (a b : Reg) (imm : BitVec 13) (s : State) : Out :=
  runHart (.bltu tk a b imm) tk s (fun s => branchOp .ltu a b (s.target imm) s)

/-- BGEU (R140). -/
def execBgeu (tk : Tok) (a b : Reg) (imm : BitVec 13) (s : State) : Out :=
  runHart (.bgeu tk a b imm) tk s (fun s => branchOp .geu a b (s.target imm) s)

/-- BP (R142). -/
def execBp (tk : Tok) (p : PReg) (imm : BitVec 13) (s : State) : Out :=
  runHart (.bp tk p imm) tk s (fun s => branchTo (s.hart.pval p) false (s.target imm) s)

/-- BANY (R142). -/
def execBany (tk : Tok) (m : MReg) (imm : BitVec 13) (s : State) : Out :=
  runHart (.bany tk m imm) tk s (fun s => maskBranch m (fun m => decide (m ≠ 0#64)) (s.target imm) s)

/-- BALL (R142). -/
def execBall (tk : Tok) (m : MReg) (imm : BitVec 13) (s : State) : Out :=
  runHart (.ball tk m imm) tk s (fun s => maskBranch m (fun m => decide (m = maskAll)) (s.target imm) s)

/-- BNONE (R142). -/
def execBnone (tk : Tok) (m : MReg) (imm : BitVec 13) (s : State) : Out :=
  runHart (.bnone tk m imm) tk s (fun s => maskBranch m (fun m => decide (m = 0#64)) (s.target imm) s)

/-- BTSB (R183). -/
def execBtsb (tk : Tok) (a : Reg) (thr : BitVec 5) (imm : BitVec 13) (s : State) : Out :=
  runHart (.btsb tk a thr imm) tk s (fun s => srcU s a fun x t =>
    branchTo (decide (Nat.min x.tag.toNat 24 < thr.toNat)) x.poison (s.target imm) t)

/-- C_J (R65). -/
def execCJ (i : BitVec 10) (s : State) : Out :=
  runHart (.cJ i) noTok s (fun s => .jump s (s.target i))

/-- C_BEQZ (R65). -/
def execCBeqz (a : Reg) (i : BitVec 5) (s : State) : Out :=
  runHart (.cBeqz a i) noTok s (fun s => branchOp .eq a 0#5 (s.target i) s)

/-- C_BNEZ (R65). -/
def execCBnez (a : Reg) (i : BitVec 5) (s : State) : Out :=
  runHart (.cBnez a i) noTok s (fun s => branchOp .ne a 0#5 (s.target i) s)

/-- C_JR (R65). -/
def execCJr (a : Reg) (s : State) : Out :=
  runHart (.cJr a) noTok s (jumpLink 0#5 a 0#64 2)

/-- C_JALR (R65). -/
def execCJalr (a : Reg) (s : State) : Out :=
  runHart (.cJalr a) noTok s (jumpLink 1#5 a 0#64 2)

end Sys2Proof.Machine
end

