-- ==== Sys2Proof/Machine/Floating.lean ====
section
/-! DEFINITION. Uniform and vector floating point, conversions, special functions, and significance tags as data
(R159-R176, R182, R184-R188). -/

namespace Sys2Proof.Machine

/-- A uniform float operation on two sources in a rounding mode (R163, R165). -/
def floatOp (op : FOp) (rm : BitVec 3) (d a b : Reg) (s : State) : Act :=
  guardMap [(s.badSrcU a, a), (s.badSrcU b, b), (s.badDstU d, d)]
    (srcU s a fun x s => srcU s b fun y s =>
      floatDone s d (fElem op .fp32 (s.hart.mode rm) s.hart.thr x.fin y.fin y.fin) (x.poison || y.poison))

/-- A fused multiply-add (R164). -/
def floatOp3 (op : FOp) (d a b c : Reg) (s : State) : Act :=
  guardMap [(s.badSrcU a, a), (s.badSrcU b, b), (s.badSrcU c, c), (s.badDstU d, d)]
    (srcU s a fun x s => srcU s b fun y s => srcU s c fun z s =>
      floatDone s d (fElem op .fp32 s.hart.dynMode s.hart.thr x.fin y.fin z.fin) (x.poison || y.poison || z.poison))

/-- A comparison to a uniform register (R166). -/
def floatCompare (c : FltCC) (d a b : Reg) (s : State) : Act :=
  uniform2 s d a b (fun x y s =>
    let r := fRel c .fp32 x.fin.code y.fin.code
    (s.raise (if r.2 then .invalid else .none), intResult (b2w r.1) (x.poison || y.poison)))

/-- The bits of a conversion's result in a uniform register, and its tag (R168). -/
def convResult (dst : NType) (r : ElemRes) (p : Bool) : UVal :=
  match dst with
  | .flt _ => ⟨BitVec.ofNat 64 r.code, BitVec.ofNat 5 r.tag, p⟩
  | .int true w => intResult (BitVec.ofInt 64 (signedOf w r.code)) p
  | .int false _ => intResult (BitVec.ofNat 64 r.code) p

/-- A conversion of a uniform register (R168, R188). -/
def floatConvert (dt : BitVec 3) (rm : BitVec 3) (st : BitVec 3) (d a : Reg) (s : State) : Act :=
  guardMap [(s.badSrcU a, a), (s.badDstU d, d)]
    (srcU s a fun x s =>
      let src := fcvtType st.toNat
      let dst := fcvtType dt.toNat
      let r := convElem src dst (s.hart.mode rm) s.hart.thr ⟨x.val.toNat % 2 ^ src.width, x.tag.toNat⟩
      if r.fails then .trap 0x0D 1#64 else dstU (s.raise r.flags) d (convResult dst r x.poison))

/-- An element-wise vector float operation (R171). -/
def vecFloat (op : FOp) (e : FltW) (k : MReg) (d a b : Reg) (s : State) : Act :=
  guardMap [(s.badSrcV a, a), (s.badSrcV b, b), (s.badDstV d, d)]
    (srcV s a fun x s => srcV s b fun y s =>
      vecDone s d (vfMap op e s.hart.dynMode s.hart.thr (s.hart.mval k) x y y))

/-- An element-wise operation on one source (R171). -/
def vecFloat1 (op : FOp) (e : FltW) (k : MReg) (d a : Reg) (s : State) : Act :=
  guardMap [(s.badSrcV a, a), (s.badDstV d, d)]
    (srcV s a fun x s => vecDone s d (vfMap op e s.hart.dynMode s.hart.thr (s.hart.mval k) x x x))

/-- A vector fused multiply-add (R171). -/
def vecFloat3 (op : FOp) (e : FltW) (k : MReg) (d a b c : Reg) (s : State) : Act :=
  guardMap [(s.badSrcV a, a), (s.badSrcV b, b), (s.badSrcV c, c), (s.badDstV d, d)]
    (srcV s a fun x s => srcV s b fun y s => srcV s c fun z s =>
      vecDone s d (vfMap op e s.hart.dynMode s.hart.thr (s.hart.mval k) x y z))

/-- A vector conversion (R173). -/
def vecConvert (dst : NType) (st : BitVec 3) (sel : BitVec 2) (k : MReg) (d a : Reg) (s : State) : Act :=
  guardMap [(s.badSrcV a, a), (s.badDstV d, d)]
    (srcV s a fun x s =>
      vecDone s d (vconvert (vcvtType st.toNat) dst s.hart.dynMode s.hart.thr sel.toNat (s.hart.mval k) x))

/-- The integer type of an element width (R173). -/
def intType (e : IntW) : NType := .int true e.bits

/-- A float reduction to a uniform register (R174). -/
def vecFloatReduce (op : FRed) (e : FltW) (k : MReg) (d a : Reg) (s : State) : Act :=
  let m := s.hart.mval k
  guardMap [(s.badSrcV a, a), (s.badDstU d, d)]
    (srcV s a fun x s => floatDone s d (vfReduce op e s.hart.dynMode s.hart.thr m x) (anyPoison m x))

/-- A special function (R175). -/
def vecSpecial (fn : SpecFn) (k : MReg) (d a : Reg) (s : State) : Act :=
  guardMap [(s.badSrcV a, a), (s.badDstV d, d)]
    (srcV s a fun x s => vecDone s d (vSpecial fn s.hart.thr (s.hart.mval k) x))

/-- FADD (R163). -/
def execFadd (tk : Tok) (rm : BitVec 3) (d a b : Reg) (s : State) : Out :=
  runHart (.fadd tk rm d a b) tk s (floatOp .add rm d a b)

/-- FSUB (R163). -/
def execFsub (tk : Tok) (rm : BitVec 3) (d a b : Reg) (s : State) : Out :=
  runHart (.fsub tk rm d a b) tk s (floatOp .sub rm d a b)

/-- FMUL (R163). -/
def execFmul (tk : Tok) (rm : BitVec 3) (d a b : Reg) (s : State) : Out :=
  runHart (.fmul tk rm d a b) tk s (floatOp .mul rm d a b)

/-- FDIV (R163). -/
def execFdiv (tk : Tok) (rm : BitVec 3) (d a b : Reg) (s : State) : Out :=
  runHart (.fdiv tk rm d a b) tk s (floatOp .div rm d a b)

/-- FSQRT (R163). -/
def execFsqrt (tk : Tok) (rm : BitVec 3) (d a : Reg) (s : State) : Out :=
  runHart (.fsqrt tk rm d a) tk s (fun s =>
    guardMap [(s.badSrcU a, a), (s.badDstU d, d)]
      (srcU s a fun x s => floatDone s d (fElem .sqrt .fp32 (s.hart.mode rm) s.hart.thr x.fin x.fin x.fin) x.poison))

/-- FMIN (R165). -/
def execFmin (tk : Tok) (d a b : Reg) (s : State) : Out :=
  runHart (.fmin tk d a b) tk s (floatOp .min 0#3 d a b)

/-- FMAX (R165). -/
def execFmax (tk : Tok) (d a b : Reg) (s : State) : Out :=
  runHart (.fmax tk d a b) tk s (floatOp .max 0#3 d a b)

/-- FEQ (R166). -/
def execFeq (tk : Tok) (d a b : Reg) (s : State) : Out :=
  runHart (.feq tk d a b) tk s (floatCompare .eq d a b)

/-- FLT (R166). -/
def execFlt (tk : Tok) (d a b : Reg) (s : State) : Out :=
  runHart (.flt tk d a b) tk s (floatCompare .lt d a b)

/-- FLE (R166). -/
def execFle (tk : Tok) (d a b : Reg) (s : State) : Out :=
  runHart (.fle tk d a b) tk s (floatCompare .le d a b)

/-- FCLASS (R167). -/
def execFclass (tk : Tok) (d a : Reg) (s : State) : Out :=
  runHart (.fclass tk d a) tk s (intImm d a (fun a => BitVec.ofNat 64 (fclassOf (a.toNat % 2 ^ 32))))

/-- FCVT (R168). -/
def execFcvt (tk : Tok) (dt rm st : BitVec 3) (d a : Reg) (s : State) : Out :=
  runHart (.fcvt tk dt rm st d a) tk s (floatConvert dt rm st d a)

/-- FMA (R164). -/
def execFma (tk : Tok) (d a b c : Reg) (s : State) : Out :=
  runHart (.fma tk d a b c) tk s (floatOp3 .fma d a b c)

/-- FNMA (R164). -/
def execFnma (tk : Tok) (d a b c : Reg) (s : State) : Out :=
  runHart (.fnma tk d a b c) tk s (floatOp3 .fnma d a b c)

/-- VFADD (R171). -/
def execVfadd (tk : Tok) (e : FltW) (k : MReg) (d a b : Reg) (s : State) : Out :=
  runHart (.vfadd tk e k d a b) tk s (vecFloat .add e k d a b)

/-- VFSUB (R171). -/
def execVfsub (tk : Tok) (e : FltW) (k : MReg) (d a b : Reg) (s : State) : Out :=
  runHart (.vfsub tk e k d a b) tk s (vecFloat .sub e k d a b)

/-- VFMUL (R171). -/
def execVfmul (tk : Tok) (e : FltW) (k : MReg) (d a b : Reg) (s : State) : Out :=
  runHart (.vfmul tk e k d a b) tk s (vecFloat .mul e k d a b)

/-- VFDIV (R171). -/
def execVfdiv (tk : Tok) (e : FltW) (k : MReg) (d a b : Reg) (s : State) : Out :=
  runHart (.vfdiv tk e k d a b) tk s (vecFloat .div e k d a b)

/-- VFMIN (R171). -/
def execVfmin (tk : Tok) (e : FltW) (k : MReg) (d a b : Reg) (s : State) : Out :=
  runHart (.vfmin tk e k d a b) tk s (vecFloat .min e k d a b)

/-- VFMAX (R171). -/
def execVfmax (tk : Tok) (e : FltW) (k : MReg) (d a b : Reg) (s : State) : Out :=
  runHart (.vfmax tk e k d a b) tk s (vecFloat .max e k d a b)

/-- VFSQRT (R171). -/
def execVfsqrt (tk : Tok) (e : FltW) (k : MReg) (d a : Reg) (s : State) : Out :=
  runHart (.vfsqrt tk e k d a) tk s (vecFloat1 .sqrt e k d a)

/-- VFCMP (R172). -/
def execVfcmp (tk : Tok) (e : FltW) (o : FltCC) (k d : MReg) (a b : Reg) (s : State) : Out :=
  runHart (.vfcmp tk e o k d a b) tk s (fun s =>
    guardMap [(s.badSrcV a, a), (s.badSrcV b, b)]
      (srcV s a fun x s => srcV s b fun y s =>
        let m := s.hart.mval k
        let r := vfCompare o e m x y
        maskDone (s.raise r.2) d r.1 (anyPoison m x || anyPoison m y)))

/-- VCVT (R173). -/
def execVcvt (tk : Tok) (e : FltW) (k : MReg) (d a : Reg) (sel : BitVec 2) (st : BitVec 3) (s : State) : Out :=
  runHart (.vcvt tk e k d a sel st) tk s (vecConvert (.flt (fltFmt e)) st sel k d a)

/-- VCVT_I (R173). -/
def execVcvtI (tk : Tok) (e : IntW) (k : MReg) (d a : Reg) (sel : BitVec 2) (st : BitVec 3) (s : State) : Out :=
  runHart (.vcvtI tk e k d a sel st) tk s (vecConvert (intType e) st sel k d a)

/-- VRED_FADD (R174). -/
def execVredFadd (tk : Tok) (e : FltW) (k : MReg) (d a : Reg) (s : State) : Out :=
  runHart (.vredFadd tk e k d a) tk s (vecFloatReduce .fadd e k d a)

/-- VRED_FMIN (R174). -/
def execVredFmin (tk : Tok) (e : FltW) (k : MReg) (d a : Reg) (s : State) : Out :=
  runHart (.vredFmin tk e k d a) tk s (vecFloatReduce .fmin e k d a)

/-- VRED_FMAX (R174). -/
def execVredFmax (tk : Tok) (e : FltW) (k : MReg) (d a : Reg) (s : State) : Out :=
  runHart (.vredFmax tk e k d a) tk s (vecFloatReduce .fmax e k d a)

/-- VSCAN_FADD (R102, R174). -/
def execVscanFadd (tk : Tok) (e : FltW) (k : MReg) (d a : Reg) (s : State) : Out :=
  runHart (.vscanFadd tk e k d a) tk s (fun s =>
    guardMap [(s.badSrcV a, a), (s.badDstV d, d)]
      (srcV s a fun x s => vecDone s d (vfScan e s.hart.dynMode s.hart.thr (s.hart.mval k) x)))

/-- VEXP2 (R175, R176). -/
def execVexp2 (tk : Tok) (k : MReg) (d a : Reg) (s : State) : Out :=
  runHart (.vexp2 tk k d a) tk s (vecSpecial .exp2 k d a)

/-- VLOG2 (R175, R176). -/
def execVlog2 (tk : Tok) (k : MReg) (d a : Reg) (s : State) : Out :=
  runHart (.vlog2 tk k d a) tk s (vecSpecial .log2 k d a)

/-- VRCP (R175, R176). -/
def execVrcp (tk : Tok) (k : MReg) (d a : Reg) (s : State) : Out :=
  runHart (.vrcp tk k d a) tk s (vecSpecial .rcp k d a)

/-- VRSQ (R175, R176). -/
def execVrsq (tk : Tok) (k : MReg) (d a : Reg) (s : State) : Out :=
  runHart (.vrsq tk k d a) tk s (vecSpecial .rsq k d a)

/-- VSIN (R175, R176). -/
def execVsin (tk : Tok) (k : MReg) (d a : Reg) (s : State) : Out :=
  runHart (.vsin tk k d a) tk s (vecSpecial .sin k d a)

/-- VCOS (R175, R176). -/
def execVcos (tk : Tok) (k : MReg) (d a : Reg) (s : State) : Out :=
  runHart (.vcos tk k d a) tk s (vecSpecial .cos k d a)

/-- VFMA (R171). -/
def execVfma (tk : Tok) (e : FltW) (k : MReg) (d a b c : Reg) (s : State) : Out :=
  runHart (.vfma tk e k d a b c) tk s (vecFloat3 .fma e k d a b c)

/-- VFNMA (R171). -/
def execVfnma (tk : Tok) (e : FltW) (k : MReg) (d a b c : Reg) (s : State) : Out :=
  runHart (.vfnma tk e k d a b c) tk s (vecFloat3 .fnma e k d a b c)

/-- VTSB (R184). -/
def execVtsb (tk : Tok) (e : FltW) (k : MReg) (d a : Reg) (s : State) : Out :=
  runHart (.vtsb tk e k d a) tk s (fun s => vector1 s d a (vTags e (s.hart.mval k)))

/-- VTSBLT (R185). -/
def execVtsblt (tk : Tok) (e : FltW) (k d : MReg) (a b : Reg) (s : State) : Out :=
  runHart (.vtsblt tk e k d a b) tk s (fun s =>
    guardMap [(s.badSrcV a, a), (s.badSrcU b, b)]
      (srcV s a fun x s => srcU s b fun y s =>
        let m := s.hart.mval k
        maskDone s d (vTagsBelow e m x y.val.toNat) (anyPoison m x || y.poison)))

/-- VSETTSB (R186). -/
def execVsettsb (tk : Tok) (e : FltW) (k : MReg) (d a b : Reg) (s : State) : Out :=
  runHart (.vsettsb tk e k d a b) tk s (fun s =>
    guardMap [(s.badSrcV a, a), (s.badSrcU b, b), (s.badDstV d, d)]
      (srcV s a fun x s => srcU s b fun y s => dstV s d (vSetTags e (s.hart.mval k) x y.val.toNat y.poison)))

end Sys2Proof.Machine
end

