-- ==== Sys2Proof/Machine/Package.lean ====
section
/-! DEFINITION. Resets, power, management registers and scarf links (R406, R408, R421, R422, R452, R464, R466, R468, R470-R472). -/

namespace Sys2Proof.Machine

/-! Reset and boot (R464, R466, R468). -/

/-- What boot finds, as free bits give it (assumption 2): the steps that succeed, the CXL capacities up to 1,536 GB, the scarf links
that fail training. A device whose step 0 fails runs nothing; Haltin needs its steps (R466). -/
def bootSteps (w : Word) : Nat :=
  let ok := fun (i : Nat) => w.getLsbD i
  b2n (ok 0) + 2 * b2n (ok 1) + 4 * b2n (ok 2) + 8 * b2n (ok 3) + 16 * b2n (ok 0 && ok 4)

/-- The package after a reset (R464, R466, R468): a staged Haltin image takes effect and raises the fused counter. -/
def Pkg.afterReset (p : Pkg) (steps caps links : Word) (trip : Bool) : Pkg :=
  let v := p.staged.getD p.running
  { Pkg.reset with
    bootstat := bootSteps steps, trip := trip
    cxl := (List.range 8).map (fun i => bits caps.toNat (8 * i + 7) (8 * i) % 7)
    linksDown := (List.range 12).filter (fun i => links.getLsbD i)
    fused := max p.fused (p.staged.getD p.fused), running := v }

/-- The node of a scarf link (R465). -/
def linkNode (n : Nat) : Nat := mkCell (n / 6) 27 (n % 6)

/-- A scarf link tells Haltin that it does not work (R408, R422). -/
def State.tellLink (s : State) (n : Nat) : State := s.send ⟨12, false, 0, 24, linkNode n, 0, 0, n, [], []⟩

/-- The machine after a cold reset: as State.reset, but for what boot finds and what outlasts it. A link that fails training raises its
interrupt (R422). -/
def State.reboot (s : State) (trip : Bool) : State :=
  let p := s.pkg.afterReset (Config.freeWord s.fresh) (Config.freeWord (s.fresh + 1)) (Config.freeWord (s.fresh + 2)) trip
  p.linksDown.foldl State.tellLink { State.reset with fresh := s.fresh + 3, resets := s.resets + 1, pkg := p }

/-- COLD_RESET (R466): power-on or PERST#. -/
def execColdReset (s : State) : Out := .next (s.reboot false)

/-- PF_FUNCTION_LEVEL_RESET (R466): a cold reset of every function, the link kept; TRIP stays. -/
def execPfFunctionLevelReset (s : State) : Out := .next (s.reboot s.pkg.trip)

/-- THERMAL_TRIP (R471): the device resets cold, and TRIP records it. -/
def execThermalTrip (s : State) : Out := .next (s.reboot true)

/-- VF_RESET (R470): every context that a virtual function opened is killed; then its journal, refusal log and their counters are
cleared. -/
def execVfReset (fn : Nat) (s : State) : Out :=
  if 1 ≤ fn ∧ fn ≤ 31 then
    let s := s.modFn fn (fun f => { f with resetting := true })
    let s := (s.ctxs.filter (fun c => c.2.fn = fn)).foldl (fun s c => s.killContext c.1) s
    .next s.settleReset
  else .next s

/-! Power (R471, R472). -/

/-- THROTTLE (R471): clocks are withheld from bays, or given to them again. -/
def execThrottle (bays : List Nat) (on : Bool) (s : State) : Out :=
  let ts := s.pkg.throttled
  .next { s with pkg := { s.pkg with
    throttled := if on then bays.foldl (fun ts b => insertNat b ts) ts else ts.filter (fun b => !bays.contains b) } }

/-- PLIMIT_WRITE (R472): a limit outside 1,000-2,800 W is ignored. -/
def execPlimitWrite (v : BitVec 64) (s : State) : Out :=
  let w := v.toNat % 4096
  .next (if 1000 ≤ w ∧ w ≤ 2800 then { s with pkg := { s.pkg with plimit := w } } else s)

/-- VFRECT_WRITE (R452, R472): ignored and counted while the function has an open context. -/
def execVfrectWrite (n : Nat) (v : BitVec 64) (s : State) : Out :=
  if 1 ≤ n ∧ n ≤ 31 then
    if s.ctxs.any (fun c => c.2.fn = n) then .next { s with pkg := { s.pkg with vferr := s.pkg.vferr + 1 } }
    else .next (s.modFn n (fun f => { f with rect := v &&& 0xFFFFFFFF#64 }))
  else .next s

/-- MGMT_REGISTER_WRITE (R472): PSTAT.TRIP is cleared by a 1; every other register is read-only or has an entry of its own. -/
def execMgmtRegisterWrite (fn off : Nat) (v : BitVec 64) (s : State) : Out :=
  .next (if fn = 0 ∧ off = 0x020 ∧ v.getLsbD 63 then { s with pkg := { s.pkg with trip := false } } else s)

/-! Scarf links (R406, R408, R421, R422). -/

/-- The engines that run an operation over a link: kind and target. -/
def State.enginesOn (s : State) (n : Nat) : List (Nat × Nat) :=
  let on := fun (r : Option EngineRun) (m : Option Message) => r.any (fun r => decide (r.link = n)) && m.any (fun m => decide (m.ddev ≠ 0))
  (s.cells.filter (fun c => on c.2.run c.2.inbox.head?)).map (fun c => (0, c.1)) ++
    (s.bays.filter (fun b => on b.2.run b.2.inbox.head?)).map (fun b => (1, b.1))

/-- A packet to or from a peer is lost: the operation that it belongs to completes with REMOTE (R422). -/
def State.losePacket (s : State) (p : Packet) : State :=
  match s.takeRequest p.xid with
  | some (q, t) =>
    match q.what with
    | .peer r => t.peerAck r p.xid stRemote 0
    | _ => t
  | none => s

/-- SCARF_LINK_DOWN (R422): a link fails: Haltin is told, and the operations in flight on it complete with REMOTE. -/
def execScarfLinkDown (n : Nat) (s : State) : Out :=
  if 12 ≤ n ∨ s.pkg.linksDown.contains n then .next s
  else
    let s : State := { s with pkg := { s.pkg with linksDown := insertNat n s.pkg.linksDown } }
    let s := s.tellLink n
    let s := (s.enginesOn n).foldl (fun s e =>
      match s.engineRun e.1 e.2, s.messageHead e.1 e.2 with
      | some r, some m => s.endOp e.1 e.2 m r.id (stRemote ||| (if r.poison then stPoison else 0)) 0
      | _, _ => s) s
    let s : State := { s with regions := s.regions.map (fun p =>
      let ops := (p.2.peerWrites.filter (fun w => w.link = n)).map PeerWrite.op
      (p.1, { p.2 with
        peerWrites := p.2.peerWrites.filter (fun w => w.link ≠ n)
        updates := p.2.updates.map (fun u => if ops.contains u.id then { u with status := u.status ||| stRemote } else u) })) }
    let lost := s.net.filter (fun p => decide (p.dev ≠ 0) && (decide (p.dst = linkNode n) || decide (p.src = linkNode n)))
    let s : State := { s with net := s.net.filter (fun p => !(decide (p.dev ≠ 0) && (decide (p.dst = linkNode n) || decide (p.src = linkNode n)))) }
    .next (lost.foldl State.losePacket s)

/-- SCARF_DELIVERY_FAILURE (R422): packet n of the network, to or from a peer, cannot be delivered by retry. -/
def execScarfDeliveryFailure (n : Nat) (s : State) : Out :=
  match s.net[n]? with
  | some p => if p.dev ≠ 0 then .next ({ s with net := dropNth s.net n }.losePacket p) else .next s
  | none => .next s

/-! Packets that go wrong, and a peer's writes (R406, R407, R421). -/

/-- Whether the head of a packet is malformed (R406): a reserved type, a class that is not the type's, more than 63 payload flits, or a
source or destination that is no node (R465). -/
def Packet.malformed (p : Packet) : Bool :=
  decide (15 ≤ p.type) || (p.reply ≠ [3, 4, 7, 9, 11, 14].contains p.type) || decide (63 * 16 < p.payload.length) ||
    !isNode p.dst || !isNode p.src || decide (16 ≤ p.dev)

/-- A receiver drops a packet with a malformed head, which the error log of the I/O die counts (R406). -/
def State.discardPacket (s : State) (n : Nat) : State :=
  match s.net[n]? with
  | some p =>
    if p.malformed then { s with net := dropNth s.net n, pkg := { s.pkg with ioErrors := s.pkg.ioErrors + 1 } } else s
  | none => s

/-- Whether a packet crosses a die seam on its way: its ends are no cells of one die (R270, R407). -/
def Packet.crosses (p : Packet) : Bool := !(isCell p.src && isCell p.dst && decide (cellDie p.src = cellDie p.dst))

/-- A packet whose flit fails the retry of a seam is delivered with every payload flit poisoned (R407; assumption 93). -/
def State.seamPacket (s : State) (n : Nat) : State :=
  match s.net[n]? with
  | some p =>
    if p.crosses then
      { s with net := s.net.take n ++ { p with poison := List.replicate ((p.payload.length + 7) / 8) true } :: s.net.drop (n + 1) }
    else s
  | none => s

/-- A peer's write of at most a line comes in over a scarf link (R421, R462): its context, address and bytes are free (assumption 94). It
is translated under the tables of the context it names and performs at system scope; one that does not translate, that bears a purged
context, or that comes over a link that is down changes nothing. -/
def State.peerWrite (s : State) (link : Nat) : State :=
  let free := fun (k : Nat) => (Config.freeWord (s.fresh + k)).toNat
  let ctx := free 0 % 4096
  let va := free 1 % 2 ^ 52
  let n := min (1 + free 2 % 64) (64 - va % 64)
  let bs := ((List.range 8).flatMap (fun k => natBytes 8 (free (4 + k)))).take n
  let t : State := { s with fresh := s.fresh + 12 }
  if 12 ≤ link || s.pkg.linksDown.contains link || (s.ctx? ctx).isNone || s.pkg.purged.contains (linkNode link, ctx) then t
  else
    match s.translateNow (linkNode link) ctx va false true false with
    | .hit pa _ => { t with mem := (unitsOf pa n).foldl (fun m u =>
        m.setPoison u ((free 3).testBit (u % 8) || (!covers pa n u && s.mem.poisoned u))) (t.mem.setBytes pa bs) }
    | _ => t

end Sys2Proof.Machine
end

