-- ==== Sys2Proof/Machine/Ports.lean ====
section
/-! DEFINITION. Vector reads and writes of a port register (R123-R127). -/

namespace Sys2Proof.Machine

/-! The vector read (R123, R125). -/

/-- Lanes that a data flit at a port decodes to. -/
def State.itemLanes (s : State) (i : PortItem) : List Lane := decodeItem s.cell (s.cell.cftEntry i.input i.flit.vc.toNat) i

/-- Lanes that a data flit at a port fills. -/
def State.itemBlock (s : State) (i : PortItem) : Nat := blockLanes (s.cell.cftEntry i.input i.flit.vc.toNat % 16)

/-- The vector that data flits fill: lanes in order, the rest 0 with tag field 0x18 (R123). -/
def State.filled (s : State) (is : List PortItem) : VVal :=
  let ls := is.flatMap s.itemLanes
  let n := (is.head?.map s.itemBlock).getD 64
  VVal.ofFn (fun k => ls.getD k Lane.zero18) (fun j => (is[2 * j / n]?.map (fun i => decide (i.flit.kind = 7#3))).getD false)

/-- While a vector read waits, the data flits at the head of its delivery move into the port register, as many as fill the
vector it reads (R123; assumption 79). -/
def State.collect (s : State) (p : Nat) : State :=
  let is := (s.portItems p).takeWhile (fun i => i.flit.isData)
  let is := is.take (64 / max 1 ((is.head?.map s.itemBlock).getD 64))
  let n := is.length - (lookupD [] p s.hart.collected).length
  let key := 8 * slotOf s.cur + p
  if n = 0 then s
  else
    (s.modCell (cellOf s.cur) (fun c => { c with ports := insertAt key (dropItems n (lookupD [] key c.ports)) c.ports })).modHart
      (fun h => { h with collected := insertAt p is h.collected })

/-- vportr (R123, R125, R439). -/
def vportrOp (k : MReg) (d : Reg) (sel : PortSel) (s : State) : Act :=
  guardMap [(s.badDstV d, d)]
    (let p := s.hart.portOf sel.toNat
     let m := s.hart.mval k
     let spec : Word := BitVec.ofNat 64 (28 + sel.toNat)
     let put := fun (v : VVal) (s : State) =>
       dstV s d (fun old keep => updateLanes old keep (fun j =>
         if m.getLsbD j then some ⟨(v.lane j).bits, (v.lane j).tag, v.poisonOf j⟩ else none))
     let is := s.portItems p
     let ds := is.takeWhile (fun i => i.flit.isData)
     match is with
     | [] => if s.draining then put drainedV s else .wait (.empty (64 + p)) id
     | i :: _ =>
       if !i.flit.isData then .trap 0x10 spec
       else
         let b := s.itemBlock i
         let n := 64 / b
         if (ds.take n).any (fun j => s.itemBlock j ≠ b) then .trap 0x10 spec
         else if n ≤ ds.length || ds.length < is.length then
           let v := s.filled (ds.take n)
           put v ((s.dropPort p (min n ds.length)).popNote ((ds.take n).any (fun j => decide (j.flit.kind = 7#3))))
         else if s.draining then put drainedV (s.dropPort p ds.length)
         else .wait (.empty (64 + p)) id)

/-- The state after a turn of a vector read: one that still waits, for whatever reason, collects (R123). -/
def State.collectWaiting (s : State) (pc : Word) (p : Nat) : State :=
  if s.hart.wait.isSome && decide (s.hart.pc = pc) then s.collect p else s

/-- VPORTR (R125). -/
def execVportr (tk : Tok) (k : MReg) (d : Reg) (p : PortSel) (s : State) : Out :=
  match runHart (.vportr tk k d p) tk s (vportrOp k d p) with
  | .next t => .next (t.collectWaiting s.hart.pc (s.hart.portOf p.toNat))
  | o => o

/-! The vector write (R124, R125). -/

/-- The flits of a vector port write: eight data flits of eight lanes, each with its tag flit on a tagged sub-stream
(R124, R274). -/
def flitsOfV (v : VVal) (vc : BitVec 5) (tagged : Bool) : List Flit :=
  (List.range 8).flatMap (fun f =>
    let ks := (List.range 8).map (fun i => 8 * f + i)
    let data := ks.foldr (fun k acc => (v.lane k).bits.toNat + 2 ^ 32 * acc) 0
    let tags := ks.foldr (fun k acc => (v.lane k).tag.toNat + 256 * acc) 0
    ⟨if ks.any v.poisonOf then 7#3 else 0#3, vc, BitVec.ofNat 256 data⟩ ::
      (if tagged then [⟨0#3, vc, BitVec.ofNat 256 tags⟩] else []))

/-- What fits of the flits of a running vector port write is pushed; in the drain of a rollback the rest is discarded
(R124, R439). -/
def State.pushOut (s : State) : State :=
  let c := cellOf s.cur
  let key := s.hart.portKey - 1
  let n := s.bufCap c key - flitCount (s.cell.buf key)
  let fs := s.hart.portOut
  if n = 0 && !s.draining then s
  else
    (s.pushFlits c key s.cur (fs.take n)).modHart (fun h => { h with portOut := if s.draining then [] else fs.drop n })

/-- vportw (R124, R125): once it has issued, its flits leave as room appears, and it retires behind the last one. -/
def vportwOp (tk : Tok) (k : MReg) (sel : PortSel) (a : Reg) (s : State) : Act :=
  let go := fun (s : State) =>
    let t := s.pushOut
    if t.hart.portOut.isEmpty then
      (if (t.pushS tk).isSome then .done t else .wait (.full (16 + s.hart.ssel)) (fun _ => t))
    else Act.wait (.full (s.hart.portKey - 1)) (fun _ => t)
  if s.hart.portKey ≠ 0 then go s
  else
    guardMap [(s.badSrcV a, a)]
      (srcV s a fun v t =>
        let m := s.hart.mval k
        let v := updateLanes VVal.zero18 false (fun j =>
          if m.getLsbD j then some ⟨(v.lane j).bits, (v.lane j).tag, v.poisonOf j⟩ else none)
        let c := cellOf s.cur
        let key := s.hart.outKey (slotOf s.cur) sel.toNat
        let vc := s.hart.pchan.extractLsb' 1 5
        if s.bufRoom c key 1 || s.draining then
          let fs := flitsOfV v vc (s.taggedOut c (s.hart.portOf sel.toNat) vc.toNat)
          let u := (s.hold t).modHart (fun h => { h with chkiv := t.hart.chkiv, portKey := key + 1, portOut := fs, issued := some (.vportw tk k sel a) })
          go (u.note (v.poison.toList.any (fun b => b)) 3)
        else .wait (.full key) id)

/-- VPORTW (R125). -/
def execVportw (tk : Tok) (k : MReg) (p : PortSel) (a : Reg) (s : State) : Out :=
  runHart (.vportw tk k p a) tk s (vportwOp tk k p a)

end Sys2Proof.Machine
end

