-- ==== Sys2Proof/Machine/VInt.lean ====
section
/-! DEFINITION. Vector integer instructions, masks, permutation, and the moves between the uniform and vector files
(R144-R157, R177, R178). -/

namespace Sys2Proof.Machine

/-- An element-wise vector integer operation under a mask (R146). -/
def vecInt (op : VIOp) (e : IntW) (k : MReg) (d a b : Reg) (s : State) : Act :=
  vector2 s d a b (viMap op e (s.hart.mval k))

/-- An integer reduction to a uniform register; p3 reports an empty mask (R149, R158). -/
def vecReduce (op : RedOp) (e : IntW) (k : MReg) (d a : Reg) (s : State) : Act :=
  let m := s.hart.mval k
  guardMap [(s.badSrcV a, a), (s.badDstU d, d)]
    (srcV s a fun x s =>
      dstU (s.status (decide (m = 0#64))) d (intResult (viReduce op (activeElems e m x)) (anyPoison m x)))

/-- A mask from masks (R144). -/
def maskOp (d a b : MReg) (f : Word → Word → Word) (s : State) : Act :=
  maskDone s d (f (s.hart.mval a) (s.hart.mval b)) false

/-- A uniform value from a mask (R144, R156). -/
def maskToX (d : Reg) (m : MReg) (f : Word → Word) (s : State) : Act := intConst d (f (s.hart.mval m)) s

/-- A slide by the value of a uniform register (R178). -/
def slideOp (up : Bool) (k : MReg) (d a b : Reg) (s : State) : Act :=
  guardMap [(s.badSrcV a, a), (s.badSrcU b, b), (s.badDstV d, d)]
    (srcV s a fun x s => srcU s b fun y s => dstV s d (vslide up (s.hart.mval k) x y.val.toNat y.poison))

/-- vdot4: the accumulator is the destination register, or an entry of the load queue of its number (R129, R150). -/
def dotOp (k : MReg) (d a b : Reg) (s : State) : Act :=
  guardMap [(s.badSrcV a, a), (s.badSrcV b, b), (s.badSrcV d, d), (s.badDstV d, d)]
    (srcV s a fun x s => srcV s b fun y s => srcV s d fun acc s => dstV s d (vdot (s.hart.mval k) acc x y))

/-- vtoxa (R155): a trap names the differing lanes when HSTAT.NUT is 1. -/
def uniformLanes (k : MReg) (d a : Reg) (s : State) : Act :=
  let m := s.hart.mval k
  guardMap [(s.badSrcV a, a), (s.badDstU d, d)]
    (srcV s a fun x s =>
      if differing m x ≠ 0#64 && s.hart.nut then .trap 0x0E (differing m x)
      else
        let r := vuniform m x
        dstU ((s.control (anyPoison m x)).status r.2) d r.1)

/-- VADD (R146). -/
def execVadd (tk : Tok) (e : IntW) (k : MReg) (d a b : Reg) (s : State) : Out :=
  runHart (.vadd tk e k d a b) tk s (vecInt .add e k d a b)

/-- VSUB (R146). -/
def execVsub (tk : Tok) (e : IntW) (k : MReg) (d a b : Reg) (s : State) : Out :=
  runHart (.vsub tk e k d a b) tk s (vecInt .sub e k d a b)

/-- VMUL (R146). -/
def execVmul (tk : Tok) (e : IntW) (k : MReg) (d a b : Reg) (s : State) : Out :=
  runHart (.vmul tk e k d a b) tk s (vecInt .mul e k d a b)

/-- VMULH (R146). -/
def execVmulh (tk : Tok) (e : IntW) (k : MReg) (d a b : Reg) (s : State) : Out :=
  runHart (.vmulh tk e k d a b) tk s (vecInt .mulh e k d a b)

/-- VMIN (R146). -/
def execVmin (tk : Tok) (e : IntW) (k : MReg) (d a b : Reg) (s : State) : Out :=
  runHart (.vmin tk e k d a b) tk s (vecInt .min e k d a b)

/-- VMAX (R146). -/
def execVmax (tk : Tok) (e : IntW) (k : MReg) (d a b : Reg) (s : State) : Out :=
  runHart (.vmax tk e k d a b) tk s (vecInt .max e k d a b)

/-- VAND (R146). -/
def execVand (tk : Tok) (e : IntW) (k : MReg) (d a b : Reg) (s : State) : Out :=
  runHart (.vand tk e k d a b) tk s (vecInt .and e k d a b)

/-- VOR (R146). -/
def execVor (tk : Tok) (e : IntW) (k : MReg) (d a b : Reg) (s : State) : Out :=
  runHart (.vor tk e k d a b) tk s (vecInt .or e k d a b)

/-- VXOR (R146). -/
def execVxor (tk : Tok) (e : IntW) (k : MReg) (d a b : Reg) (s : State) : Out :=
  runHart (.vxor tk e k d a b) tk s (vecInt .xor e k d a b)

/-- VSLL (R146). -/
def execVsll (tk : Tok) (e : IntW) (k : MReg) (d a b : Reg) (s : State) : Out :=
  runHart (.vsll tk e k d a b) tk s (vecInt .sll e k d a b)

/-- VSRL (R146). -/
def execVsrl (tk : Tok) (e : IntW) (k : MReg) (d a b : Reg) (s : State) : Out :=
  runHart (.vsrl tk e k d a b) tk s (vecInt .srl e k d a b)

/-- VSRA (R146). -/
def execVsra (tk : Tok) (e : IntW) (k : MReg) (d a b : Reg) (s : State) : Out :=
  runHart (.vsra tk e k d a b) tk s (vecInt .sra e k d a b)

/-- VCMP (R147). -/
def execVcmp (tk : Tok) (e : IntW) (o : IntCC) (k d : MReg) (a b : Reg) (s : State) : Out :=
  runHart (.vcmp tk e o k d a b) tk s (fun s =>
    guardMap [(s.badSrcV a, a), (s.badSrcV b, b)]
      (srcV s a fun x s => srcV s b fun y s =>
        let m := s.hart.mval k
        maskDone s d (viCompare o e m x y) (anyPoison m x || anyPoison m y)))

/-- VSEL (R148). -/
def execVsel (tk : Tok) (e : IntW) (k : MReg) (d a b : Reg) (s : State) : Out :=
  runHart (.vsel tk e k d a b) tk s (fun s => vector2 s d a b (fun x y _ _ => vselect (s.hart.mval k) x y))

/-- VRED_ADD (R149, R158). -/
def execVredAdd (tk : Tok) (e : IntW) (k : MReg) (d a : Reg) (s : State) : Out :=
  runHart (.vredAdd tk e k d a) tk s (vecReduce .add e k d a)

/-- VRED_MIN (R149, R158). -/
def execVredMin (tk : Tok) (e : IntW) (k : MReg) (d a : Reg) (s : State) : Out :=
  runHart (.vredMin tk e k d a) tk s (vecReduce .min e k d a)

/-- VRED_MAX (R149, R158). -/
def execVredMax (tk : Tok) (e : IntW) (k : MReg) (d a : Reg) (s : State) : Out :=
  runHart (.vredMax tk e k d a) tk s (vecReduce .max e k d a)

/-- VSCAN_ADD (R149). -/
def execVscanAdd (tk : Tok) (e : IntW) (k : MReg) (d a : Reg) (s : State) : Out :=
  runHart (.vscanAdd tk e k d a) tk s (fun s => vector1 s d a (viScan e (s.hart.mval k)))

/-- VDOT4 (R150). -/
def execVdot4 (tk : Tok) (k : MReg) (d a b : Reg) (s : State) : Out :=
  runHart (.vdot4 tk k d a b) tk s (dotOp k d a b)

/-- VCLIP (R56, R151). -/
def execVclip (tk : Tok) (e : BitVec 1) (k : MReg) (d a b c : Reg) (s : State) : Out :=
  runHart (.vclip tk e k d a b c) tk s (fun s =>
    guardMap [(s.badSrcV a, a), (s.badSrcV b, b), (s.badSrcV c, c), (s.badDstV d, d)]
      (srcV s a fun x s => srcV s b fun y s => srcV s c fun z s =>
        dstV s d (viClip (if e = 0#1 then .i32 else .i16) (s.hart.mval k) x y z)))

/-- VPERM (R177). -/
def execVperm (tk : Tok) (k : MReg) (d a b : Reg) (s : State) : Out :=
  runHart (.vperm tk k d a b) tk s (fun s => vector2 s d a b (vpermute (s.hart.mval k)))

/-- VSLIDE_UP (R178). -/
def execVslideUp (tk : Tok) (k : MReg) (d a b : Reg) (s : State) : Out :=
  runHart (.vslideUp tk k d a b) tk s (slideOp true k d a b)

/-- VSLIDE_DN (R178). -/
def execVslideDn (tk : Tok) (k : MReg) (d a b : Reg) (s : State) : Out :=
  runHart (.vslideDn tk k d a b) tk s (slideOp false k d a b)

/-- XTOV (R153). -/
def execXtov (tk : Tok) (k : MReg) (d a : Reg) (s : State) : Out :=
  runHart (.xtov tk k d a) tk s (fun s =>
    guardMap [(s.badSrcU a, a), (s.badDstV d, d)] (srcU s a fun x s => dstV s d (vbroadcast (s.hart.mval k) x)))

/-- VTOX (R154, R158). -/
def execVtox (tk : Tok) (k : MReg) (d a : Reg) (s : State) : Out :=
  runHart (.vtox tk k d a) tk s (fun s =>
    guardMap [(s.badSrcV a, a), (s.badDstU d, d)]
      (srcV s a fun x s => let r := vlowest (s.hart.mval k) x; dstU (s.status r.2) d r.1))

/-- VTOXA (R155, R158). -/
def execVtoxa (tk : Tok) (k : MReg) (d a : Reg) (s : State) : Out :=
  runHart (.vtoxa tk k d a) tk s (uniformLanes k d a)

/-- MTOX (R156). -/
def execMtox (tk : Tok) (d : Reg) (a : MReg) (s : State) : Out :=
  runHart (.mtox tk d a) tk s (maskToX d a (fun m => m))

/-- XTOM (R156, R211). -/
def execXtom (tk : Tok) (d : MReg) (a : Reg) (s : State) : Out :=
  runHart (.xtom tk d a) tk s (fun s =>
    guardMap [(s.badSrcU a, a)] (srcU s a fun x s => maskDone s d x.val x.poison))

/-- MAND (R144). -/
def execMand (tk : Tok) (d a b : MReg) (s : State) : Out :=
  runHart (.mand tk d a b) tk s (maskOp d a b (fun m n => m &&& n))

/-- MOR (R144). -/
def execMor (tk : Tok) (d a b : MReg) (s : State) : Out :=
  runHart (.mor tk d a b) tk s (maskOp d a b (fun m n => m ||| n))

/-- MXOR (R144). -/
def execMxor (tk : Tok) (d a b : MReg) (s : State) : Out :=
  runHart (.mxor tk d a b) tk s (maskOp d a b (fun m n => m ^^^ n))

/-- MNOT (R144). -/
def execMnot (tk : Tok) (d a : MReg) (s : State) : Out :=
  runHart (.mnot tk d a) tk s (maskOp d a a (fun m _ => ~~~m))

/-- MPOP (R144). -/
def execMpop (tk : Tok) (d : Reg) (a : MReg) (s : State) : Out :=
  runHart (.mpop tk d a) tk s (maskToX d a onesOf)

/-- MFIRST (R144). -/
def execMfirst (tk : Tok) (d : Reg) (a : MReg) (s : State) : Out :=
  runHart (.mfirst tk d a) tk s (maskToX d a trailingZeros)

end Sys2Proof.Machine
end

