-- ==== Sys2Proof/Machine/Dispatch.lean ====
section
/-! DEFINITION. The dispatch: one arm per constructor of the instruction type. -/

namespace Sys2Proof.Machine

/-- The meaning of an instruction. -/
def exec (i : Instr) (s : State) : Host.Outcome State Fault Refusal :=
  match i with
  | .add tk d a b => Sys2Proof.Machine.execAdd tk d a b s
  | .sub tk d a b => Sys2Proof.Machine.execSub tk d a b s
  | .and tk d a b => Sys2Proof.Machine.execAnd tk d a b s
  | .or tk d a b => Sys2Proof.Machine.execOr tk d a b s
  | .xor tk d a b => Sys2Proof.Machine.execXor tk d a b s
  | .sll tk d a b => Sys2Proof.Machine.execSll tk d a b s
  | .srl tk d a b => Sys2Proof.Machine.execSrl tk d a b s
  | .sra tk d a b => Sys2Proof.Machine.execSra tk d a b s
  | .slt tk d a b => Sys2Proof.Machine.execSlt tk d a b s
  | .sltu tk d a b => Sys2Proof.Machine.execSltu tk d a b s
  | .min tk d a b => Sys2Proof.Machine.execMin tk d a b s
  | .max tk d a b => Sys2Proof.Machine.execMax tk d a b s
  | .minu tk d a b => Sys2Proof.Machine.execMinu tk d a b s
  | .maxu tk d a b => Sys2Proof.Machine.execMaxu tk d a b s
  | .mul tk d a b => Sys2Proof.Machine.execMul tk d a b s
  | .mulh tk d a b => Sys2Proof.Machine.execMulh tk d a b s
  | .mulhu tk d a b => Sys2Proof.Machine.execMulhu tk d a b s
  | .div tk d a b => Sys2Proof.Machine.execDiv tk d a b s
  | .divu tk d a b => Sys2Proof.Machine.execDivu tk d a b s
  | .rem tk d a b => Sys2Proof.Machine.execRem tk d a b s
  | .remu tk d a b => Sys2Proof.Machine.execRemu tk d a b s
  | .clz tk d a => Sys2Proof.Machine.execClz tk d a s
  | .ctz tk d a => Sys2Proof.Machine.execCtz tk d a s
  | .popc tk d a => Sys2Proof.Machine.execPopc tk d a s
  | .lea tk sh d a b => Sys2Proof.Machine.execLea tk sh d a b s
  | .pset tk cc p a b => Sys2Proof.Machine.execPset tk cc p a b s
  | .addi tk d a imm => Sys2Proof.Machine.execAddi tk d a imm s
  | .andi tk d a imm => Sys2Proof.Machine.execAndi tk d a imm s
  | .ori tk d a imm => Sys2Proof.Machine.execOri tk d a imm s
  | .xori tk d a imm => Sys2Proof.Machine.execXori tk d a imm s
  | .slti tk d a imm => Sys2Proof.Machine.execSlti tk d a imm s
  | .slli tk d a sh => Sys2Proof.Machine.execSlli tk d a sh s
  | .srli tk d a sh => Sys2Proof.Machine.execSrli tk d a sh s
  | .srai tk d a sh => Sys2Proof.Machine.execSrai tk d a sh s
  | .lih tk d imm => Sys2Proof.Machine.execLih tk d imm s
  | .addpc tk d imm => Sys2Proof.Machine.execAddpc tk d imm s
  | .jalr tk d a imm => Sys2Proof.Machine.execJalr tk d a imm s
  | .j tk imm => Sys2Proof.Machine.execJ tk imm s
  | .jal tk imm => Sys2Proof.Machine.execJal tk imm s
  | .beq tk a b imm => Sys2Proof.Machine.execBeq tk a b imm s
  | .bne tk a b imm => Sys2Proof.Machine.execBne tk a b imm s
  | .blt tk a b imm => Sys2Proof.Machine.execBlt tk a b imm s
  | .bge tk a b imm => Sys2Proof.Machine.execBge tk a b imm s
  | .bltu tk a b imm => Sys2Proof.Machine.execBltu tk a b imm s
  | .bgeu tk a b imm => Sys2Proof.Machine.execBgeu tk a b imm s
  | .bp tk p imm => Sys2Proof.Machine.execBp tk p imm s
  | .bany tk m imm => Sys2Proof.Machine.execBany tk m imm s
  | .ball tk m imm => Sys2Proof.Machine.execBall tk m imm s
  | .bnone tk m imm => Sys2Proof.Machine.execBnone tk m imm s
  | .btsb tk a thr imm => Sys2Proof.Machine.execBtsb tk a thr imm s
  | .fadd tk rm d a b => Sys2Proof.Machine.execFadd tk rm d a b s
  | .fsub tk rm d a b => Sys2Proof.Machine.execFsub tk rm d a b s
  | .fmul tk rm d a b => Sys2Proof.Machine.execFmul tk rm d a b s
  | .fdiv tk rm d a b => Sys2Proof.Machine.execFdiv tk rm d a b s
  | .fsqrt tk rm d a => Sys2Proof.Machine.execFsqrt tk rm d a s
  | .fmin tk d a b => Sys2Proof.Machine.execFmin tk d a b s
  | .fmax tk d a b => Sys2Proof.Machine.execFmax tk d a b s
  | .feq tk d a b => Sys2Proof.Machine.execFeq tk d a b s
  | .flt tk d a b => Sys2Proof.Machine.execFlt tk d a b s
  | .fle tk d a b => Sys2Proof.Machine.execFle tk d a b s
  | .fclass tk d a => Sys2Proof.Machine.execFclass tk d a s
  | .fcvt tk dt rm st d a => Sys2Proof.Machine.execFcvt tk dt rm st d a s
  | .fma tk d a b c => Sys2Proof.Machine.execFma tk d a b c s
  | .fnma tk d a b c => Sys2Proof.Machine.execFnma tk d a b c s
  | .vadd tk e k d a b => Sys2Proof.Machine.execVadd tk e k d a b s
  | .vsub tk e k d a b => Sys2Proof.Machine.execVsub tk e k d a b s
  | .vmul tk e k d a b => Sys2Proof.Machine.execVmul tk e k d a b s
  | .vmulh tk e k d a b => Sys2Proof.Machine.execVmulh tk e k d a b s
  | .vmin tk e k d a b => Sys2Proof.Machine.execVmin tk e k d a b s
  | .vmax tk e k d a b => Sys2Proof.Machine.execVmax tk e k d a b s
  | .vand tk e k d a b => Sys2Proof.Machine.execVand tk e k d a b s
  | .vor tk e k d a b => Sys2Proof.Machine.execVor tk e k d a b s
  | .vxor tk e k d a b => Sys2Proof.Machine.execVxor tk e k d a b s
  | .vsll tk e k d a b => Sys2Proof.Machine.execVsll tk e k d a b s
  | .vsrl tk e k d a b => Sys2Proof.Machine.execVsrl tk e k d a b s
  | .vsra tk e k d a b => Sys2Proof.Machine.execVsra tk e k d a b s
  | .vcmp tk e o k d a b => Sys2Proof.Machine.execVcmp tk e o k d a b s
  | .vsel tk e k d a b => Sys2Proof.Machine.execVsel tk e k d a b s
  | .vredAdd tk e k d a => Sys2Proof.Machine.execVredAdd tk e k d a s
  | .vredMin tk e k d a => Sys2Proof.Machine.execVredMin tk e k d a s
  | .vredMax tk e k d a => Sys2Proof.Machine.execVredMax tk e k d a s
  | .vscanAdd tk e k d a => Sys2Proof.Machine.execVscanAdd tk e k d a s
  | .vdot4 tk k d a b => Sys2Proof.Machine.execVdot4 tk k d a b s
  | .vcvtI tk e k d a sel st => Sys2Proof.Machine.execVcvtI tk e k d a sel st s
  | .vfadd tk e k d a b => Sys2Proof.Machine.execVfadd tk e k d a b s
  | .vfsub tk e k d a b => Sys2Proof.Machine.execVfsub tk e k d a b s
  | .vfmul tk e k d a b => Sys2Proof.Machine.execVfmul tk e k d a b s
  | .vfdiv tk e k d a b => Sys2Proof.Machine.execVfdiv tk e k d a b s
  | .vfmin tk e k d a b => Sys2Proof.Machine.execVfmin tk e k d a b s
  | .vfmax tk e k d a b => Sys2Proof.Machine.execVfmax tk e k d a b s
  | .vfsqrt tk e k d a => Sys2Proof.Machine.execVfsqrt tk e k d a s
  | .vfcmp tk e o k d a b => Sys2Proof.Machine.execVfcmp tk e o k d a b s
  | .vcvt tk e k d a sel st => Sys2Proof.Machine.execVcvt tk e k d a sel st s
  | .vredFadd tk e k d a => Sys2Proof.Machine.execVredFadd tk e k d a s
  | .vredFmin tk e k d a => Sys2Proof.Machine.execVredFmin tk e k d a s
  | .vredFmax tk e k d a => Sys2Proof.Machine.execVredFmax tk e k d a s
  | .vscanFadd tk e k d a => Sys2Proof.Machine.execVscanFadd tk e k d a s
  | .vexp2 tk k d a => Sys2Proof.Machine.execVexp2 tk k d a s
  | .vlog2 tk k d a => Sys2Proof.Machine.execVlog2 tk k d a s
  | .vrcp tk k d a => Sys2Proof.Machine.execVrcp tk k d a s
  | .vrsq tk k d a => Sys2Proof.Machine.execVrsq tk k d a s
  | .vsin tk k d a => Sys2Proof.Machine.execVsin tk k d a s
  | .vcos tk k d a => Sys2Proof.Machine.execVcos tk k d a s
  | .vtsb tk e k d a => Sys2Proof.Machine.execVtsb tk e k d a s
  | .vtsblt tk e k d a b => Sys2Proof.Machine.execVtsblt tk e k d a b s
  | .vsettsb tk e k d a b => Sys2Proof.Machine.execVsettsb tk e k d a b s
  | .vperm tk k d a b => Sys2Proof.Machine.execVperm tk k d a b s
  | .vslideUp tk k d a b => Sys2Proof.Machine.execVslideUp tk k d a b s
  | .vslideDn tk k d a b => Sys2Proof.Machine.execVslideDn tk k d a b s
  | .vexch tk d a b => Sys2Proof.Machine.execVexch tk d a b s
  | .xtov tk k d a => Sys2Proof.Machine.execXtov tk k d a s
  | .vtox tk k d a => Sys2Proof.Machine.execVtox tk k d a s
  | .vtoxa tk k d a => Sys2Proof.Machine.execVtoxa tk k d a s
  | .mtox tk d a => Sys2Proof.Machine.execMtox tk d a s
  | .xtom tk d a => Sys2Proof.Machine.execXtom tk d a s
  | .mand tk d a b => Sys2Proof.Machine.execMand tk d a b s
  | .mor tk d a b => Sys2Proof.Machine.execMor tk d a b s
  | .mxor tk d a b => Sys2Proof.Machine.execMxor tk d a b s
  | .mnot tk d a => Sys2Proof.Machine.execMnot tk d a s
  | .mpop tk d a => Sys2Proof.Machine.execMpop tk d a s
  | .mfirst tk d a => Sys2Proof.Machine.execMfirst tk d a s
  | .vportr tk k d p => Sys2Proof.Machine.execVportr tk k d p s
  | .vportw tk k p a => Sys2Proof.Machine.execVportw tk k p a s
  | .vfma tk e k d a b c => Sys2Proof.Machine.execVfma tk e k d a b c s
  | .vfnma tk e k d a b c => Sys2Proof.Machine.execVfnma tk e k d a b c s
  | .vclip tk e k d a b c => Sys2Proof.Machine.execVclip tk e k d a b c s
  | .ldB tk d a imm => Sys2Proof.Machine.execLdB tk d a imm s
  | .ldBu tk d a imm => Sys2Proof.Machine.execLdBu tk d a imm s
  | .ldH tk d a imm => Sys2Proof.Machine.execLdH tk d a imm s
  | .ldHu tk d a imm => Sys2Proof.Machine.execLdHu tk d a imm s
  | .ldW tk d a imm => Sys2Proof.Machine.execLdW tk d a imm s
  | .ldWu tk d a imm => Sys2Proof.Machine.execLdWu tk d a imm s
  | .ldD tk d a imm => Sys2Proof.Machine.execLdD tk d a imm s
  | .stB tk b a imm => Sys2Proof.Machine.execStB tk b a imm s
  | .stH tk b a imm => Sys2Proof.Machine.execStH tk b a imm s
  | .stW tk b a imm => Sys2Proof.Machine.execStW tk b a imm s
  | .stD tk b a imm => Sys2Proof.Machine.execStD tk b a imm s
  | .vld tk d a imm => Sys2Proof.Machine.execVld tk d a imm s
  | .vst tk b a imm => Sys2Proof.Machine.execVst tk b a imm s
  | .ldAcq tk wd d a sc => Sys2Proof.Machine.execLdAcq tk wd d a sc s
  | .stRel tk wd b a sc => Sys2Proof.Machine.execStRel tk wd b a sc s
  | .ldt tk d a => Sys2Proof.Machine.execLdt tk d a s
  | .stt tk b a => Sys2Proof.Machine.execStt tk b a s
  | .vldx tk k d a b => Sys2Proof.Machine.execVldx tk k d a b s
  | .vstx tk k d a b => Sys2Proof.Machine.execVstx tk k d a b s
  | .amoadd tk sc z d a b => Sys2Proof.Machine.execAmoadd tk sc z d a b s
  | .amoand tk sc z d a b => Sys2Proof.Machine.execAmoand tk sc z d a b s
  | .amoor tk sc z d a b => Sys2Proof.Machine.execAmoor tk sc z d a b s
  | .amoxor tk sc z d a b => Sys2Proof.Machine.execAmoxor tk sc z d a b s
  | .amomin tk sc z d a b => Sys2Proof.Machine.execAmomin tk sc z d a b s
  | .amomax tk sc z d a b => Sys2Proof.Machine.execAmomax tk sc z d a b s
  | .amoswap tk sc z d a b => Sys2Proof.Machine.execAmoswap tk sc z d a b s
  | .amocas tk sc z d a b => Sys2Proof.Machine.execAmocas tk sc z d a b s
  | .csrr tk d n => Sys2Proof.Machine.execCsrr tk d n s
  | .csrw tk a n => Sys2Proof.Machine.execCsrw tk a n s
  | .csrs tk d a n => Sys2Proof.Machine.execCsrs tk d a n s
  | .csrc tk d a n => Sys2Proof.Machine.execCsrc tk d a n s
  | .fence tk kk sc => Sys2Proof.Machine.execFence tk kk sc s
  | .sdrain tk => Sys2Proof.Machine.execSdrain tk s
  | .chkerr tk d => Sys2Proof.Machine.execChkerr tk d s
  | .chkerrClr tk d => Sys2Proof.Machine.execChkerrClr tk d s
  | .ecall tk => Sys2Proof.Machine.execEcall tk s
  | .ebreak tk => Sys2Proof.Machine.execEbreak tk s
  | .tret tk => Sys2Proof.Machine.execTret tk s
  | .qtest tk p q => Sys2Proof.Machine.execQtest tk p q s
  | .qtok tk d q => Sys2Proof.Machine.execQtok tk d q s
  | .recfg tk a => Sys2Proof.Machine.execRecfg tk a s
  | .shadow tk a => Sys2Proof.Machine.execShadow tk a s
  | .join tk a b => Sys2Proof.Machine.execJoin tk a b s
  | .leave tk a => Sys2Proof.Machine.execLeave tk a s
  | .gbar tk a => Sys2Proof.Machine.execGbar tk a s
  | .gkill tk a => Sys2Proof.Machine.execGkill tk a s
  | .tspawn tk a b => Sys2Proof.Machine.execTspawn tk a b s
  | .texit tk => Sys2Proof.Machine.execTexit tk s
  | .evset tk n => Sys2Proof.Machine.execEvset tk n s
  | .evclr tk n => Sys2Proof.Machine.execEvclr tk n s
  | .wfe tk n => Sys2Proof.Machine.execWfe tk n s
  | .send tk a b => Sys2Proof.Machine.execSend tk a b s
  | .waitc tk a => Sys2Proof.Machine.execWaitc tk a s
  | .tld tk d a b => Sys2Proof.Machine.execTld tk d a b s
  | .tldH tk d a b => Sys2Proof.Machine.execTldH tk d a b s
  | .tldHk tk d a b => Sys2Proof.Machine.execTldHk tk d a b s
  | .tst tk b a => Sys2Proof.Machine.execTst tk b a s
  | .tzero tk d => Sys2Proof.Machine.execTzero tk d s
  | .mma tk d a b => Sys2Proof.Machine.execMma tk d a b s
  | .mmaNc tk d a b => Sys2Proof.Machine.execMmaNc tk d a b s
  | .mmag tk d a b => Sys2Proof.Machine.execMmag tk d a b s
  | .mmagNc tk d a b => Sys2Proof.Machine.execMmagNc tk d a b s
  | .acz tk d => Sys2Proof.Machine.execAcz tk d s
  | .tcsum tk d => Sys2Proof.Machine.execTcsum tk d s
  | .tcchk tk p a => Sys2Proof.Machine.execTcchk tk p a s
  | .tbound tk a => Sys2Proof.Machine.execTbound tk a s
  | .acnv tk f d a => Sys2Proof.Machine.execAcnv tk f d a s
  | .alloc tk d a z => Sys2Proof.Machine.execAlloc tk d a z s
  | .sealTile tk a => Sys2Proof.Machine.execSealTile tk a s
  | .tpdrop tk a b => Sys2Proof.Machine.execTpdrop tk a b s
  | .strm tk a b => Sys2Proof.Machine.execStrm tk a b s
  | .spbset tk n a => Sys2Proof.Machine.execSpbset tk n a s
  | .swait tk n => Sys2Proof.Machine.execSwait tk n s
  | .spillq tk q a => Sys2Proof.Machine.execSpillq tk q a s
  | .kerf tk => Sys2Proof.Machine.execKerf tk s
  | .cMv d b => Sys2Proof.Machine.execCMv d b s
  | .cAdd d b => Sys2Proof.Machine.execCAdd d b s
  | .cSub d b => Sys2Proof.Machine.execCSub d b s
  | .cAnd d b => Sys2Proof.Machine.execCAnd d b s
  | .cOr d b => Sys2Proof.Machine.execCOr d b s
  | .cXor d b => Sys2Proof.Machine.execCXor d b s
  | .cAddi d k1 => Sys2Proof.Machine.execCAddi d k1 s
  | .cLi d k1 => Sys2Proof.Machine.execCLi d k1 s
  | .cSlli d k1 => Sys2Proof.Machine.execCSlli d k1 s
  | .cSrli d k1 => Sys2Proof.Machine.execCSrli d k1 s
  | .cSrai d k1 => Sys2Proof.Machine.execCSrai d k1 s
  | .cAndi d k1 => Sys2Proof.Machine.execCAndi d k1 s
  | .cLdd d k1 => Sys2Proof.Machine.execCLdd d k1 s
  | .cStd d k1 => Sys2Proof.Machine.execCStd d k1 s
  | .cLdw d k1 => Sys2Proof.Machine.execCLdw d k1 s
  | .cStw d k1 => Sys2Proof.Machine.execCStw d k1 s
  | .cJ k1 => Sys2Proof.Machine.execCJ k1 s
  | .cBeqz a k1 => Sys2Proof.Machine.execCBeqz a k1 s
  | .cBnez a k1 => Sys2Proof.Machine.execCBnez a k1 s
  | .cJr a => Sys2Proof.Machine.execCJr a s
  | .cJalr a => Sys2Proof.Machine.execCJalr a s
  | .cNop => Sys2Proof.Machine.execCNop s
  | .cTexit => Sys2Proof.Machine.execCTexit s
  | .cEbreak => Sys2Proof.Machine.execCEbreak s
  | .cSlt d b => Sys2Proof.Machine.execCSlt d b s
  | .cSltu d b => Sys2Proof.Machine.execCSltu d b s
  | .cMul d b => Sys2Proof.Machine.execCMul d b s
  | .route n r0 r1 r2 r3 cnt => Sys2Proof.Machine.execRoute n r0 r1 r2 r3 cnt s
  | .routec n r0 r1 r2 r3 kind => Sys2Proof.Machine.execRoutec n r0 r1 r2 r3 kind s
  | .steer inp out0 out1 ctl cnt => Sys2Proof.Machine.execSteer inp out0 out1 ctl cnt s
  | .merge in0 in1 out ctl cnt => Sys2Proof.Machine.execMerge in0 in1 out ctl cnt s
  | .emit out kind vc sb value => Sys2Proof.Machine.execEmit out kind vc sb value s
  | .waittok inp kind sb ld ck target => Sys2Proof.Machine.execWaittok inp kind sb ld ck target s
  | .loop ck n => Sys2Proof.Machine.execLoop ck n s
  | .bnz ck target => Sys2Proof.Machine.execBnz ck target s
  | .jmp target => Sys2Proof.Machine.execJmp target s
  | .halt => Sys2Proof.Machine.execHalt s
  | .illegal word => Sys2Proof.Machine.execIllegal word s
  | .fetchPage addr => Sys2Proof.Machine.execFetchPage addr s
  | .sfdrop h => Sys2Proof.Machine.execSfdrop h s
  | .sfrpl h => Sys2Proof.Machine.execSfrpl h s
  | .streamAbort h slot => Sys2Proof.Machine.execStreamAbort h slot s
  | .streamResume h slot => Sys2Proof.Machine.execStreamResume h slot s
  | .tshpWrite cell n v => Sys2Proof.Machine.execTshpWrite cell n v s
  | .switchFlitPass cell port => Sys2Proof.Machine.execSwitchFlitPass cell port s
  | .seamRetryFailure cell port => Sys2Proof.Machine.execSeamRetryFailure cell port s
  | .loadDataReturn h idx => Sys2Proof.Machine.execLoadDataReturn h idx s
  | .storeTranslationDone h idx => Sys2Proof.Machine.execStoreTranslationDone h idx s
  | .streamElement h slot => Sys2Proof.Machine.execStreamElement h slot s
  | .streamComplete h slot => Sys2Proof.Machine.execStreamComplete h slot s
  | .ringEos cell ring => Sys2Proof.Machine.execRingEos cell ring s
  | .allocServe cell part => Sys2Proof.Machine.execAllocServe cell part s
  | .readAdmission h slot => Sys2Proof.Machine.execReadAdmission h slot s
  | .compressTile cell vc => Sys2Proof.Machine.execCompressTile cell vc s
  | .expandTile cell vc => Sys2Proof.Machine.execExpandTile cell vc s
  | .convert cell vc => Sys2Proof.Machine.execConvert cell vc s
  | .tldDelivery cell t => Sys2Proof.Machine.execTldDelivery cell t s
  | .nodePass cell => Sys2Proof.Machine.execNodePass cell s
  | .nodeRow cell => Sys2Proof.Machine.execNodeRow cell s
  | .read n => Sys2Proof.Machine.execRead n s
  | .write n => Sys2Proof.Machine.execWrite n s
  | .atomic n => Sys2Proof.Machine.execAtomic n s
  | .readReply n => Sys2Proof.Machine.execReadReply n s
  | .writeAcknowledgement n => Sys2Proof.Machine.execWriteAcknowledgement n s
  | .taskRecord n => Sys2Proof.Machine.execTaskRecord n s
  | .activeMessage n => Sys2Proof.Machine.execActiveMessage n s
  | .inboxAcknowledgement n => Sys2Proof.Machine.execInboxAcknowledgement n s
  | .poolRequest n => Sys2Proof.Machine.execPoolRequest n s
  | .poolReply n => Sys2Proof.Machine.execPoolReply n s
  | .walkRequest n => Sys2Proof.Machine.execWalkRequest n s
  | .walkReply n => Sys2Proof.Machine.execWalkReply n s
  | .interrupt n => Sys2Proof.Machine.execInterrupt n s
  | .purge n => Sys2Proof.Machine.execPurge n s
  | .purgeAcknowledgement n => Sys2Proof.Machine.execPurgeAcknowledgement n s
  | .copy cell => Sys2Proof.Machine.execCopy cell s
  | .copy2d cell => Sys2Proof.Machine.execCopy2d cell s
  | .fill cell => Sys2Proof.Machine.execFill cell s
  | .tcopy cell => Sys2Proof.Machine.execTcopy cell s
  | .reduce bay => Sys2Proof.Machine.execReduce bay s
  | .bcast bay => Sys2Proof.Machine.execBcast bay s
  | .dispatch bay => Sys2Proof.Machine.execDispatch bay s
  | .ageing bay => Sys2Proof.Machine.execAgeing bay s
  | .waveOpen r => Sys2Proof.Machine.execWaveOpen r s
  | .kiCut r => Sys2Proof.Machine.execKiCut r s
  | .releaseCommitTimeout r => Sys2Proof.Machine.execReleaseCommitTimeout r s
  | .kerfPart r party => Sys2Proof.Machine.execKerfPart r party s
  | .waveComplete r => Sys2Proof.Machine.execWaveComplete r s
  | .rollbackDrainTimeout r => Sys2Proof.Machine.execRollbackDrainTimeout r s
  | .rollbackRestore r => Sys2Proof.Machine.execRollbackRestore r s
  | .cfgParity cell u => Sys2Proof.Machine.execCfgParity cell u s
  | .configLoadComplete r => Sys2Proof.Machine.execConfigLoadComplete r s
  | .shadowFetchDone cell => Sys2Proof.Machine.execShadowFetchDone cell s
  | .cellSwap cell => Sys2Proof.Machine.execCellSwap cell s
  | .drainComplete r => Sys2Proof.Machine.execDrainComplete r s
  | .preemptTimeout r => Sys2Proof.Machine.execPreemptTimeout r s
  | .stallWatchdog r => Sys2Proof.Machine.execStallWatchdog r s
  | .hang r => Sys2Proof.Machine.execHang r s
  | .replyTimeout r => Sys2Proof.Machine.execReplyTimeout r s
  | .inboxWrite fn off rec => Sys2Proof.Machine.execInboxWrite fn off rec s
  | .openRegion fn seq => Sys2Proof.Machine.execOpenRegion fn seq s
  | .map fn seq => Sys2Proof.Machine.execMap fn seq s
  | .unmap fn seq => Sys2Proof.Machine.execUnmap fn seq s
  | .loadcfg fn seq => Sys2Proof.Machine.execLoadcfg fn seq s
  | .spawn fn seq => Sys2Proof.Machine.execSpawn fn seq s
  | .signal fn seq => Sys2Proof.Machine.execSignal fn seq s
  | .preempt fn seq => Sys2Proof.Machine.execPreempt fn seq s
  | .resume fn seq => Sys2Proof.Machine.execResume fn seq s
  | .kill fn seq => Sys2Proof.Machine.execKill fn seq s
  | .query fn seq => Sys2Proof.Machine.execQuery fn seq s
  | .attest fn seq => Sys2Proof.Machine.execAttest fn seq s
  | .fwupd fn seq => Sys2Proof.Machine.execFwupd fn seq s
  | .coldReset => Sys2Proof.Machine.execColdReset s
  | .pfFunctionLevelReset => Sys2Proof.Machine.execPfFunctionLevelReset s
  | .vfReset fn => Sys2Proof.Machine.execVfReset fn s
  | .thermalTrip => Sys2Proof.Machine.execThermalTrip s
  | .throttle bays on => Sys2Proof.Machine.execThrottle bays on s
  | .plimitWrite v => Sys2Proof.Machine.execPlimitWrite v s
  | .vfrectWrite n v => Sys2Proof.Machine.execVfrectWrite n v s
  | .mgmtRegisterWrite fn off v => Sys2Proof.Machine.execMgmtRegisterWrite fn off v s
  | .scarfLinkDown n => Sys2Proof.Machine.execScarfLinkDown n s
  | .scarfDeliveryFailure n => Sys2Proof.Machine.execScarfDeliveryFailure n s
  | .debuggerHalt r on => Sys2Proof.Machine.execDebuggerHalt r on s

end Sys2Proof.Machine
end

