-- ==== Sys2Proof/Machine/Party.lean ====
section
/-! DEFINITION. What a hart and a switch do in a turn of theirs, and the order of the turns of one clk. -/

namespace Sys2Proof.Machine

/-- Whether the turn of the running hart comes to nothing: it is idle, its task starts in this clk (R394), it has had its turn in this
clk (R234), or its cell may not move. -/
def State.restsNow (s : State) : Bool :=
  s.hart.task.isNone || !s.cellMoves (cellOf s.cur) || decide (s.clk < s.hart.fetchFrom)

/-- The instruction that a turn of the running hart runs: one that has issued, or what it fetches at its pc (R42, R43). -/
def State.nextInstr (s : State) : Fetched :=
  match s.hart.issued with
  | some i => .run i
  | none => s.fetch

/-- A hart's turn: it fetches at its pc and runs what it fetched (R42, R43), or goes on with an instruction that has issued; it has one
turn in a clk (R234; pairing changes timing only, R69). -/
def hartTurn (h : Nat) (s : State) : Host.Outcome State Fault Refusal :=
  let s := { s with cur := h }
  if s.restsNow then .next s
  else
    let s := s.modHart (fun x => { x with fetchFrom := s.clk + 1 })
    match s.nextInstr with
    | .run i => exec i s
    | .miss va => .next ((s.askWalk (unitOf (cellOf h)) s.hart.ctxId va).waiting .memory)
    | .stop f => .fault f

/-- A switch's turn: it runs the word at its pc (R276, R277). -/
def switchTurn (c : Nat) (s : State) : Host.Outcome State Fault Refusal :=
  let s := { s with cur := 8 * c + 7 }
  if !s.cellMoves c then .next s
  else
    match s.fetchSwitch c with
    | .ok (some i) => exec i s
    | .ok none => .next s
    | .error f => .fault f

/-! The order of the events of one clk (R29, R190-R192, R231, R277, R294, R295, R312, R319, R337, R387, R411). -/

/-- The place of an event in the order of a clk: its class, the ID of the party that causes it, and a part of its turn. -/
def orderKey (cls id part : Nat) : Nat := cls * 2 ^ 24 + id * 64 + part

/-- The class of an instruction of a hart in the order of a clk: gkill comes before the arrivals at a group (R231), a seal before what
drops reads, LEAVE before the arrivals at a barrier (R192), allocations after every free (R319), and records after the tearing down
and the moves of the clk (R387). -/
def orderClass (i : Instr) (member : Bool) : Nat :=
  match i with
  | .gkill _ _ => 1
  | .sealTile _ _ => 2
  | .tpdrop _ _ _ => 3
  | .leave _ _ => 3
  | .texit _ => if member then 3 else 4
  | .cTexit => if member then 3 else 4
  | .alloc _ _ _ _ => 6
  | .tspawn _ _ _ => 9
  | _ => 4

/-- Whether a read of a pool slot that was admitted has ended between two states (R316). -/
def State.readEnded (s t : State) : Bool :=
  s.harts.any (fun p => (List.range 8).any (fun k =>
    (p.2.slot k).admitted && decide ((p.2.slot k).state = .active) && decide (((t.hartAt p.1).slot k).state ≠ .active)))

/-- The class of what the running hart does in its turn: one that ends an admitted read of a pool slot, as a fatal trap does, is taken
with the ends of reads (R319). -/
def State.hartClass (s : State) : Nat :=
  match s.nextInstr with
  | .run i =>
    let reads := s.harts.any (fun p => (List.range 8).any (fun k => (p.2.slot k).admitted))
    if reads && (match exec i s with
      | .next t => s.readEnded t
      | _ => false) then 1
    else orderClass i s.hart.inGroup
  | _ => 4

/-- The sender of packet n: the hart that its tag or its head names; Haltin comes last (R387, R411). -/
def State.packetParty (s : State) (n : Nat) : Nat :=
  match s.net[n]? with
  | some p =>
    if p.type = 5 then if p.spawnOf.isSome then 65535 else 8 * p.src + p.xid % 8
    else p.addr % 65536
  | none => 0

/-- The part of a switch's turn in which it passes what stands at an input port: a merge passes one item in a clk (R277). -/
def State.passPart (s : State) (c port : Nat) : Nat :=
  match s.fetchSwitch c with
  | .ok (some (.merge _ _ _ _ _)) => 62
  | _ => 1 + port

/-- Where a turn stands in the order of its clk; none for one that no rule orders. -/
def State.turnKey (s : State) : Turn → Option Nat
  | .hart h => some (orderKey ({ s with cur := h }).hartClass h 0)
  | .switch c => some (orderKey 4 (switchOf c) 0)
  | .event (.switchFlitPass c p) => some (orderKey 4 (switchOf c) (s.passPart c p))
  | .event (.streamComplete h _) => some (orderKey 1 h 0)
  | .event (.tldDelivery c _) => some (orderKey 1 (8 * c) 0)
  | .event (.streamElement h _) => some (orderKey 4 h 1)
  | .event (.readAdmission h _) => some (orderKey 4 h 1)
  | .event (.ringEos c r) => ((s.cellAt c).queue (32 + r)).eosDue.map (fun k => orderKey 4 (8 * c + k) 1)
  | .event (.waveComplete _) => some (orderKey 5 0 0)
  | .event (.poolRequest n) => some (orderKey 6 (s.packetParty n) 0)
  | .event (.allocServe _ _) => some (orderKey 7 0 0)
  | .event (.taskRecord n) => some (orderKey 9 (s.packetParty n) 0)
  | .event (.activeMessage n) => some (orderKey 9 (s.packetParty n) 0)
  | _ => none

/-- Whether a turn of a switch passes flits, which one turn does in a clk (R277). -/
def Turn.passes : Turn → Bool
  | .switch _ => true
  | .event (.switchFlitPass _ _) => true
  | _ => false

/-- Whether a turn comes too late in its clk: an event that the rules take after it has been taken. Such a turn is no turn of this
clk. -/
def State.tooLate (s : State) (t : Turn) : Bool :=
  match s.turnKey t with
  | some k => if t.passes then decide (k ≤ s.phase) else decide (k < s.phase)
  | none => false

/-- The place that the order of a clk has reached after a turn. -/
def State.phaseAfter (s : State) (t : Turn) : Nat :=
  match t, s.turnKey t with
  | .switch c, _ => orderKey 4 (switchOf c) 63
  | _, some k => k
  | _, none => s.phase

end Sys2Proof.Machine
end

