-- ==== Sys2Proof/Machine/SoftErrors.lean ====
section
/-! DEFINITION. What an error of the silicon does (R112, R303, R464). -/

namespace Sys2Proof.Machine

/-- An error of the silicon (R112, R303, R362, R464): a corrected bit is counted, a lost word takes its poison bit, lost metadata raises UE in
the region that owns the partition, whether or not it holds the cell now (R306), a word lost in a snapshot half raises UE, and takes the
snapshot with it where the half is the last complete wave's (R435), a lost word of device memory takes its poison bit, and an error of the array waits for the next result that it produces. -/
def softError (e : SoftError) (s : State) : State :=
  match e with
  | .corrected c => s.modCell c (fun x => { x with cecnt := x.cecnt + 1 })
  | .lost c word => s.modCell c (fun x => ({ x with sram := x.sram.setPoison word true }).loseWord word)
  | .metadata c k =>
    match ((lookup k (s.cellAt c).pool.parts).bind (fun q => s.regionFor q.ctx (bayOf c))) with
    | some (r, _) => s.cause r 0x48
    | none => s
  | .snapshot c last =>
    match s.regionOfCell c with
    | some r => (if last then s.modRegion r (fun g => { g with snap := none }) else s).cause r 0x48
    | none => s
  | .device word => if s.backed (8 * word) then { s with mem := s.mem.setPoison word true } else s
  | .product c a i b => s.modCell c (fun x => { x with mxe := { x.mxe with flips := x.mxe.flips ++ [(4096 * a + i % 4096, b)] } })

end Sys2Proof.Machine
end

