-- ==== Sys2Proof/Machine/Step.lean ====
section
/-! DEFINITION. The step: the next turn of the clk, or the edge of the clk when no turn is left. -/

namespace Sys2Proof.Machine

/-- What a turn does (R28). -/
def turn (t : Turn) (s : State) : Host.Outcome State Fault Refusal :=
  match t with
  | .hart h => hartTurn h s
  | .switch c => switchTurn c s
  | .event i => if isEvent i then exec i s else .next s
  | .soft e => .next (softError e s)
  | .evict c pa => .next (s.evict c pa)
  | .enter c => .next (s.enterParked c)
  | .walk b e => .next (s.endWalk b e)
  | .matrix c => .next (s.nextWork c)
  | .discard n => .next (s.discardPacket n)
  | .seam n => .next (s.seamPacket n)
  | .peer l => .next (s.peerWrite l)
  | .age b => execAgeing b s
  | .start b => execDispatch b s

/-- One step of the machine: the next turn of the clk, unless the order of its events has passed it; the edge of the clk when no turn
is left. -/
def step (s : State) : Host.Outcome State Fault Refusal :=
  match s.agenda with
  | [] => .next s.clock
  | t :: rest =>
    if s.tooLate t then .next { s with agenda := rest }
    else turn t { s with agenda := rest, phase := s.phaseAfter t }

/-- Where `State.withFetchWord` places a hart program. -/
def probePc : Nat := 0x1000

/-- The state with an instruction placed where the next step fetches: context 1 runs on region 0, which holds bay 0, its
page is translated, hart P0 of cell 0 (IN, for a stream instruction) has a task whose pc stands at the bytes, and its turn
comes next; a switch word stands as word 0 of the program of cell 0. It stands for the host's loading of a program
(assumption 7). -/
def State.withFetchWord (s : State) (nbits w : Nat) : State :=
  let h := if nbits = 32 && w / 2 % 64 = 0x3C then 4 else 0
  let region : Region := { Region.reset with ctx := 1, bw := 1, bh := 1, holds := true, state := .active }
  let s := { s with
    ctxs := insertAt 1 Context.reset s.ctxs
    regions := insertAt 0 region s.regions }
  if 32 < nbits then
    { (s.modCell 0 (fun c => { c with cfg := { c.cfg with program := [BitVec.ofNat 64 w] }, sw := Switch.reset })) with
      agenda := [.switch 0], phase := 0 }
  else
    let s := s.modCell 1 (fun c => { c with tlb := [⟨1, 0, 8192, 0, true, true, true, false⟩] })
    let s := s.setHart h { s.hartAt h with
      pc := BitVec.ofNat 64 probePc, fetchFrom := 0, issued := none, task := some ⟨1, 0, 0, 0#256, none⟩ }
    { s with mem := s.mem.setBytes probePc (leBytes 4 w), agenda := [.hart h], phase := 0 }

end Sys2Proof.Machine
end

