-- ==== Sys2Proof/Certificates/Slice0/Vocabulary.lean ====
section
/-! DEFINITION. The words the statements are made of: when an instruction of a hart runs its body, what its operands give, and
the shapes of results that several instructions share. -/

namespace Sys2Proof.Spec

open Sys2Proof.Machine

/-- Instruction `i` of the running hart runs its body on `s1`: no trap is due, the class of the hart has the instruction (R66), the
token bits name FIFOs of which the hart is the party (R27), and the W token is popped (R30). -/
def Ready (i : Instr) (tk : Tok) (s s1 : State) : Prop :=
  s.dueTrap = none ∧ legalFor s.cur i = true ∧ (s.hart.stage = .fresh → s.tokenParty tk = none) ∧ s.popW tk = some s1

/-- No operand names a queue of which the hart is not the party (R27): uniform sources and destinations, vector sources and
destinations. -/
def Parties (s : State) (us ud vs vd : List Reg) : Prop :=
  (∀ r ∈ us, s.badSrcU r = false) ∧ (∀ r ∈ ud, s.badDstU r = false) ∧
    (∀ r ∈ vs, s.badSrcV r = false) ∧ (∀ r ∈ vd, s.badDstV r = false)

/-- Instruction `i` completes from `u`, where its effect is complete: its S token is pushed (R30) and control goes to `pc`. -/
def Completes (i : Instr) (tk : Tok) (s u : State) (pc : Word) : Prop :=
  ∀ v, u.pushS tk = some v → exec i s = .next (v.retire pc)

/-- The address after a 32-bit instruction. -/
def after4 (s : State) : Word := s.hart.pc + 4#64

/-- The address after a parcel. -/
def after2 (s : State) : Word := s.hart.pc + 2#64

/-- No token bits, as in a parcel (R30). -/
def bare : Tok := ⟨false, false⟩

/-! Shapes of uniform instructions. -/

/-- Two uniform sources and a uniform destination: value, tag 24, and the poison of both sources (R116, R211). -/
def UniformBinary (mk : Tok → Reg → Reg → Reg → Instr) (f : Word → Word → Word) : Prop :=
  ∀ tk d a b s s1 s2 s3 s4 x y, Ready (mk tk d a b) tk s s1 → Parties s1 [a, b] [d] [] [] →
    s1.readU a = .got x s2 → s2.readU b = .got y s3 →
    s3.putU d ⟨f x.val y.val, 24#5, x.poison || y.poison⟩ = .ok s4 →
    Completes (mk tk d a b) tk s s4 (after4 s)

/-- One uniform source and a uniform destination. -/
def UniformUnary (mk : Tok → Reg → Reg → Instr) (f : Word → Word) : Prop :=
  ∀ tk d a s s1 s2 s3 x, Ready (mk tk d a) tk s s1 → Parties s1 [a] [d] [] [] → s1.readU a = .got x s2 →
    s2.putU d ⟨f x.val, 24#5, x.poison⟩ = .ok s3 → Completes (mk tk d a) tk s s3 (after4 s)

/-- A division: the result, and p3 as the status bit of the boundary cases (R136, R158). Poisoned operands set CHKIV.CONTROL,
since they decide p3 (R211). -/
def UniformDivide (mk : Tok → Reg → Reg → Reg → Instr) (f : Word → Word → Word) (p3 : Word → Word → Bool) : Prop :=
  ∀ tk d a b s s1 s2 s3 s4 x y, Ready (mk tk d a b) tk s s1 → Parties s1 [a, b] [d] [] [] →
    s1.readU a = .got x s2 → s2.readU b = .got y s3 →
    ((s3.note (x.poison || y.poison) 1).modHart (fun h => h.setP 3#2 (p3 x.val y.val))).putU d
      ⟨f x.val y.val, 24#5, x.poison || y.poison⟩ = .ok s4 →
    Completes (mk tk d a b) tk s s4 (after4 s)

/-- A parcel with two register operands, the first also the destination. -/
def ParcelBinary (mk : Reg → Reg → Instr) (f : Word → Word → Word) : Prop :=
  ∀ d b s s1 s2 s3 s4 x y, Ready (mk d b) bare s s1 → Parties s1 [d, b] [d] [] [] →
    s1.readU d = .got x s2 → s2.readU b = .got y s3 →
    s3.putU d ⟨f x.val y.val, 24#5, x.poison || y.poison⟩ = .ok s4 → Completes (mk d b) bare s s4 (after2 s)

/-- A parcel with one register operand `a` and an immediate. -/
def ParcelUnary (i : Instr) (d a : Reg) (f : Word → Word) : Prop :=
  ∀ s s1 s2 s3 x, Ready i bare s s1 → Parties s1 [a] [d] [] [] → s1.readU a = .got x s2 →
    s2.putU d ⟨f x.val, 24#5, x.poison⟩ = .ok s3 → Completes i bare s s3 (after2 s)

/-! Shapes of control transfers. -/

/-- A compare-and-branch: taken when the condition holds, else past the instruction; a poisoned operand sets CHKIV.CONTROL
(R140, R211). -/
def CompareBranch (i : Instr) (tk : Tok) (a b : Reg) (cond : Word → Word → Prop) (offset : Word) (next : State → Word) : Prop :=
  ∀ s s1 s2 s3 x y, Ready i tk s s1 → Parties s1 [a, b] [] [] [] → s1.readU a = .got x s2 → s2.readU b = .got y s3 →
    (cond x.val y.val → Completes i tk s (s3.note (x.poison || y.poison) 1) (s.hart.pc + offset)) ∧
    (¬ cond x.val y.val → Completes i tk s (s3.note (x.poison || y.poison) 1) (next s))

/-- A branch that a test of the hart's own state decides (R142). -/
def StateBranch (i : Instr) (tk : Tok) (cond : Hart → Prop) (offset : Word) : Prop :=
  ∀ s s1, Ready i tk s s1 →
    (cond s1.hart → Completes i tk s s1 (s.hart.pc + offset)) ∧ (¬ cond s1.hart → Completes i tk s s1 (after4 s))

/-! Shapes of float instructions. -/

/-- A uniform float operation on two sources in mode rm, or FCSR.RM when rm is 5: rounded once, flags ORed into FCSR, the tag
rule of the operation; SIG_LOSS when armed and the result fails (R162, R163, R188). -/
def FloatBinary (mk : Tok → Reg → Reg → Reg → Instr) (op : FOp) (rm : BitVec 3) : Prop :=
  ∀ tk d a b s s1 s2 s3 x y, Ready (mk tk d a b) tk s s1 → Parties s1 [a, b] [d] [] [] →
    s1.readU a = .got x s2 → s2.readU b = .got y s3 →
    let r := fElem op .fp32 (s3.hart.mode rm) s3.hart.thr x.fin y.fin y.fin
    (r.fails = false → ∀ s4, (s3.raise r.flags).putU d ⟨BitVec.ofNat 64 r.code, BitVec.ofNat 5 r.tag, x.poison || y.poison⟩ = .ok s4 →
      Completes (mk tk d a b) tk s s4 (after4 s)) ∧
    (r.fails = true → exec (mk tk d a b) s = .next (s1.trapNow 0x0D 1#64))

/-- A fused multiply-add (R164). -/
def FloatTernary (mk : Tok → Reg → Reg → Reg → Reg → Instr) (op : FOp) : Prop :=
  ∀ tk d a b c s s1 s2 s3 s4 x y z, Ready (mk tk d a b c) tk s s1 → Parties s1 [a, b, c] [d] [] [] →
    s1.readU a = .got x s2 → s2.readU b = .got y s3 → s3.readU c = .got z s4 →
    let r := fElem op .fp32 s4.hart.dynMode s4.hart.thr x.fin y.fin z.fin
    (r.fails = false → ∀ s5, (s4.raise r.flags).putU d
        ⟨BitVec.ofNat 64 r.code, BitVec.ofNat 5 r.tag, x.poison || y.poison || z.poison⟩ = .ok s5 →
      Completes (mk tk d a b c) tk s s5 (after4 s)) ∧
    (r.fails = true → exec (mk tk d a b c) s = .next (s1.trapNow 0x0D 1#64))

/-- A comparison: 1 or 0 with tag 24, NV as the relation raises it (R166). -/
def FloatTest (mk : Tok → Reg → Reg → Reg → Instr) (c : FltCC) : Prop :=
  ∀ tk d a b s s1 s2 s3 s4 x y, Ready (mk tk d a b) tk s s1 → Parties s1 [a, b] [d] [] [] →
    s1.readU a = .got x s2 → s2.readU b = .got y s3 →
    (s3.raise (if (fRel c .fp32 x.fin.code y.fin.code).2 then .invalid else .none)).putU d
      ⟨if (fRel c .fp32 x.fin.code y.fin.code).1 then 1#64 else 0#64, 24#5, x.poison || y.poison⟩ = .ok s4 →
    Completes (mk tk d a b) tk s s4 (after4 s)

/-! Shapes of vector instructions. A vector destination is given by the function from its old value, and whether it keeps
inactive lanes (R126). -/

/-- Two vector sources and a vector destination under a mask (R118, R126). -/
def VectorBinary (mk : Tok → MReg → Reg → Reg → Reg → Instr) (f : Word → VVal → VVal → VVal → Bool → VVal) : Prop :=
  ∀ tk k d a b s s1 s2 s3 s4 x y, Ready (mk tk k d a b) tk s s1 → Parties s1 [] [] [a, b] [d] →
    s1.readV a = .got x s2 → s2.readV b = .got y s3 → s3.putV d (f (s1.hart.mval k) x y) = .ok s4 →
    Completes (mk tk k d a b) tk s s4 (after4 s)

/-- One vector source and a vector destination under a mask. -/
def VectorUnary (mk : Tok → MReg → Reg → Reg → Instr) (f : Word → VVal → VVal → Bool → VVal) : Prop :=
  ∀ tk k d a s s1 s2 s3 x, Ready (mk tk k d a) tk s s1 → Parties s1 [] [] [a] [d] →
    s1.readV a = .got x s2 → s2.putV d (f (s1.hart.mval k) x) = .ok s3 → Completes (mk tk k d a) tk s s3 (after4 s)

/-- A vector float operation: its lanes and flags, or SIG_LOSS with the map of failing lanes (R170, R188). -/
def FloatLanes (i : Instr) (tk : Tok) (d : Reg) (s s1 u : State) (r : VVal → Bool → VecRes) : Prop :=
  ((r VVal.zero18 false).failMap = 0#64 → ∀ t, (u.raise (r VVal.zero18 false).flags).putV d (fun old keep => (r old keep).out) = .ok t →
    Completes i tk s t (after4 s)) ∧
  ((r VVal.zero18 false).failMap ≠ 0#64 → exec i s = .next (s1.trapNow 0x0D (r VVal.zero18 false).failMap))

/-- A float operation on two vector sources. -/
def VectorFloatBinary (mk : Tok → FltW → MReg → Reg → Reg → Reg → Instr) (op : FOp) : Prop :=
  ∀ tk e k d a b s s1 s2 s3 x y, Ready (mk tk e k d a b) tk s s1 → Parties s1 [] [] [a, b] [d] →
    s1.readV a = .got x s2 → s2.readV b = .got y s3 →
    FloatLanes (mk tk e k d a b) tk d s s1 s3 (vfMap op e s3.hart.dynMode s3.hart.thr (s3.hart.mval k) x y y)

/-- A fused multiply-add on vectors. -/
def VectorFloatTernary (mk : Tok → FltW → MReg → Reg → Reg → Reg → Reg → Instr) (op : FOp) : Prop :=
  ∀ tk e k d a b c s s1 s2 s3 s4 x y z, Ready (mk tk e k d a b c) tk s s1 → Parties s1 [] [] [a, b, c] [d] →
    s1.readV a = .got x s2 → s2.readV b = .got y s3 → s3.readV c = .got z s4 →
    FloatLanes (mk tk e k d a b c) tk d s s1 s4 (vfMap op e s4.hart.dynMode s4.hart.thr (s4.hart.mval k) x y z)

/-- A float operation on one vector source. -/
def VectorFloatUnary (mk : Tok → MReg → Reg → Reg → Instr) (r : State → MReg → VVal → VVal → Bool → VecRes) : Prop :=
  ∀ tk k d a s s1 s2 x, Ready (mk tk k d a) tk s s1 → Parties s1 [] [] [a] [d] → s1.readV a = .got x s2 →
    FloatLanes (mk tk k d a) tk d s s1 s2 (r s2 k x)

/-- A reduction of a vector to a uniform register, with what it does to the state (flags or p3) and its result. -/
def VectorToUniform (mk : Tok → MReg → Reg → Reg → Instr) (f : State → Word → VVal → State) (r : Word → VVal → UVal) : Prop :=
  ∀ tk k d a s s1 s2 s3 x, Ready (mk tk k d a) tk s s1 → Parties s1 [] [d] [a] [] → s1.readV a = .got x s2 →
    (f s2 (s1.hart.mval k) x).putU d (r (s1.hart.mval k) x) = .ok s3 → Completes (mk tk k d a) tk s s3 (after4 s)

/-- A float reduction: one FP32 value, or SIG_LOSS with TVAL 1 (R174, R188). -/
def FloatReduction (mk : Tok → FltW → MReg → Reg → Reg → Instr) (op : FRed) : Prop :=
  ∀ tk e k d a s s1 s2 x, Ready (mk tk e k d a) tk s s1 → Parties s1 [] [d] [a] [] → s1.readV a = .got x s2 →
    let r := vfReduce op e s2.hart.dynMode s2.hart.thr (s1.hart.mval k) x
    (r.fails = false → ∀ s3, (s2.raise r.flags).putU d
        ⟨BitVec.ofNat 64 r.code, BitVec.ofNat 5 r.tag, anyPoison (s1.hart.mval k) x⟩ = .ok s3 →
      Completes (mk tk e k d a) tk s s3 (after4 s)) ∧
    (r.fails = true → exec (mk tk e k d a) s = .next (s1.trapNow 0x0D 1#64))

/-- A mask from masks (R144). -/
def MaskBinary (mk : Tok → MReg → MReg → MReg → Instr) (f : Word → Word → Word) : Prop :=
  ∀ tk d a b s s1, Ready (mk tk d a b) tk s s1 →
    Completes (mk tk d a b) tk s (s1.modHart (fun h => h.setM d (f (s1.hart.mval a) (s1.hart.mval b)))) (after4 s)

/-- A uniform value from a mask (R144, R156). -/
def MaskToUniform (mk : Tok → Reg → MReg → Instr) (f : Word → Word) : Prop :=
  ∀ tk d a s s1 s2, Ready (mk tk d a) tk s s1 → Parties s1 [] [d] [] [] →
    s1.putU d ⟨f (s1.hart.mval a), 24#5, false⟩ = .ok s2 → Completes (mk tk d a) tk s s2 (after4 s)

/-! Shapes of memory instructions. -/

/-- A load with its accesses placed begins (R48, R195): to a register, or to a store queue, whose entry is reserved: it has room for
it, or the instruction has kept its entry since it issued. -/
def Begins (s : State) (dst : LoadDst) (kind : LoadKind) (ps : List Piece) (sup : Word) (rs : List (Nat × Nat))
    (t : State) : Prop :=
  match dst with
  | .queue q =>
    (s.hart.dstHeld = none ∧ (s.cell.queue q).accepts (slotOf s.cur) = true ∧
      t = (s.modCell (cellOf s.cur) (fun c => c.setQueue q
        { c.queue q with items := (c.queue q).items ++ [.reserved s.fresh (slotOf s.cur)] })).beginLoad dst kind ps sup rs) ∨
    (∃ id, s.hart.dstHeld = some (q, id) ∧
      t = ((s.modCell (cellOf s.cur) (fun c => c.movePlace q id s.fresh)).modHart (fun h =>
        { h with dstHeld := none })).beginLoad dst kind ps sup rs)
  | _ => t = s.beginLoad dst kind ps sup rs

/-- R195, R196, R199, R205, R211: a scalar load. A poisoned address gives 0, poisoned, and CHKIV.ADDRESS, with no access; a
misaligned address is MISALIGN with the address; else, with no older overlapping access under way (R203) and its access translated,
it begins, with a register or a store queue as destination, or gives its value to a port. -/
def ScalarLoad (i : Instr) (tk : Tok) (d a : Reg) (kind : LoadKind) (n : Nat) (off : Word) (next : State → Word) : Prop :=
  ∀ s s1 s2 x, Ready i tk s s1 → Parties s1 [] [d] [] [] → s1.readU a = .got x s2 → s2.hart.xBusy d = false →
    let ea := x.val + off
    let tagged := decide (kind = .tagged)
    let ranges := (ea.toNat, n) :: (if tagged then [(shadowOf s2.hart.tagbase ea.toNat, 1)] else [])
    (x.poison = true → ∀ s3, (s2.note true 2).putU d ⟨0#64, 24#5, true⟩ = .ok s3 → Completes i tk s s3 (next s)) ∧
    (x.poison = false → ea.toNat % n ≠ 0 → exec i s = .next (s1.trapNow 0x05 ea)) ∧
    (x.poison = false → ea.toNat % n = 0 → ∀ ps, s2.place tagged [⟨0, ea.toNat, n⟩] = .ok ps →
      (d.toNat < 28 → s2.hart.storeOverlap ranges = false → s2.hart.loadOverlap ranges = false →
        ∀ s3, Begins s2 (s2.loadDst d) kind ps 0#64 ranges s3 → Completes i tk s s3 (next s)) ∧
      (28 ≤ d.toNat → s2.hart.storeOverlap ranges = false → s2.hart.loadOverlap ranges = false →
        let l : Load := ⟨0, .xreg d, kind, ps, 0#64, (distinct (ps.flatMap Piece.lines)).map
          (fun pa => ⟨pa, some (s2.lineNow pa)⟩), []⟩
        ∀ s3, (s2.note l.poisoned 0).putU d l.uval = .ok s3 → Completes i tk s s3 (next s)))

/-- R199, R225, R234, R433: a scalar store of a compute hart enters its store path, to be translated later; one of a streamer
translates first and is performed, or waits behind the stores of its cell for which there is no room. A poisoned address suppresses it;
a misaligned one is MISALIGN. -/
def ScalarStore (i : Instr) (tk : Tok) (b a : Reg) (swid n : Nat) (tagged : Bool) (off : Word) (next : State → Word) : Prop :=
  ∀ s s1 s2 s3 x y, Ready i tk s s1 → Parties s1 [b] [] [] [] → s1.readU a = .got x s2 → s2.readU b = .got y s3 →
    let ea := x.val + off
    let part : StorePart := ⟨0, ea.toNat, natBytes n y.val.toNat, y.poison, if tagged then some (y.tag.setWidth 8) else none⟩
    let ranges := (ea.toNat, part.bytes.length) :: (if tagged then [(shadowOf s3.hart.tagbase ea.toNat, 1)] else [])
    let u := s3.note y.poison 3
    (x.poison = true → Completes i tk s (s3.note true 2) (next s)) ∧
    (x.poison = false → ea.toNat % n ≠ 0 → exec i s = .next (s1.trapNow 0x05 ea)) ∧
    (x.poison = false → ea.toNat % n = 0 → s3.hart.storeOverlap ranges = false → s3.hart.loadOverlap ranges = false →
      (isStreamer s3.cur = false → s3.hart.stores.length < 8 →
        Completes i tk s (u.modHart (fun h => { h with stores := h.stores ++ [⟨swid, [part], h.instret + 1#64⟩] })) (next s)) ∧
      (isStreamer s3.cur = true → ∀ ws, u.placePart part = .ok ws →
        let room := u.commitRoom u.hart.regionId (unitOf (cellOf u.cur)) (ws.map (fun w => w.2.length)).sum
        (u.cell.parked = [] → room = true → Completes i tk s (u.performParts [(part, .ok ws)]) (next s)) ∧
        (u.cell.parked ≠ [] ∨ room = false → Completes i tk s (u.modCell (cellOf u.cur) (fun c =>
          { c with parked := c.parked ++ [u.translated [(part, .ok ws)]] })) (next s))))

/-- R207, R208, R211, R434: an atomic of w bits returns the old value, sign-extended with tag 24, and writes the new one; a
compare that fails writes nothing. Within the region the write enters the commit buffer; at a scope within the cell it reads what
the cell's waiting stores left and waits behind them like a store (R433); at device and system scope the region's writes drain first
and the new value goes to memory, and in the drain of a rollback it has no effect (R439). It is an acquire: the lines of its cell's L1
go, or at a scope within the cell take what the region sees (R371, R376). -/
def Atomic (mk : Tok → ScopeCode → BitVec 1 → Reg → Reg → Reg → Instr) (new : Nat → Nat → Nat → Nat → Option Nat)
    (poison : Bool → Bool → Bool) : Prop :=
  ∀ tk sc z d a b s s1 s2 s3 s4 x y e, Ready (mk tk sc z d a b) tk s s1 →
    s1.hart.stores = [] → s1.hart.loads = [] → s1.hart.sfrq = [] → (2 ≤ sc.toNat → s1.cell.parked = [] ∨ s1.draining = true) →
    s1.readU a = .got x s2 → s2.readU b = .got y s3 → s3.readU d = .got e s4 →
    let n := if z = 0#1 then 4 else 8
    let w := 8 * n
    let wide : Prop := sc = 4#3 ∨ sc = 5#3
    let ends (u : State) (v : UVal) : Prop := ∀ s5, u.putU d v = .ok s5 → Completes (mk tk sc z d a b) tk s s5 (after4 s)
    (wide → s4.draining = true → ends s4 ⟨0#64, 0#5, true⟩) ∧
    ((wide → s4.draining = false) → x.poison = true → ends (s4.note true 2) ⟨0#64, 24#5, true⟩) ∧
    ((wide → s4.draining = false) → x.poison = false → x.val.toNat % n ≠ 0 →
      exec (mk tk sc z d a b) s = .next (s1.trapNow 0x05 x.val)) ∧
    ((wide → s4.draining = false) → x.poison = false → x.val.toNat % n = 0 →
      ∀ pa en, s4.access x.val.toNat true true = .hit pa en →
      let parked := s4.cell.parkedAt pa n
      (2 ≤ sc.toNat → parked = false) →
      let after (u : State) : State := u.acquiredAt sc [pa / 64 * 64]
      let rg := s4.hart.regionId
      let line := s4.cellData (pa / 64 * 64)
      let old := leNat (if parked then (line.1.drop (pa % 64)).take n else s4.view rg pa n)
      let oldP := if parked then line.2.getD (pa % 64 / 8) false else s4.viewAnyPoison rg pa n
      let out : UVal := ⟨BitVec.ofInt 64 (signedOf w old), 24#5, oldP⟩
      let result := new w old (y.val.toNat % 2 ^ w) (e.val.toNat % 2 ^ w)
      (result = none → ¬ wide → ends ((after s4).note oldP 0) out) ∧
      (result = none → wide → ends ((after (s4.earlyCommit pa n)).note oldP 0) out) ∧
      (∀ v, result = some v → sc.toNat < 2 →
        ends (((after (s4.performStore [(⟨0, x.val.toNat, natBytes n v, poison oldP y.poison, none⟩, .ok [(pa, natBytes n v)])])).note
          oldP 0).note (poison oldP y.poison) 3) out) ∧
      (∀ v, result = some v → ¬ wide → 2 ≤ sc.toNat → s4.commitRoom rg (unitOf (cellOf s4.cur)) n = true →
        ends (((after (s4.write rg (unitOf (cellOf s4.cur)) (s4.interval rg s4.cur) pa (natBytes n v) (poison oldP y.poison))).note oldP 0).note
          (poison oldP y.poison) 3) out) ∧
      (∀ v, result = some v → wide →
        let c := s4.earlyCommit pa n
        let u : State := { c with mem := c.mem.write pa (natBytes n v) (poison oldP y.poison) }
        ends (((after u).note oldP 0).note (poison oldP y.poison) 3) out))

/-! The entry of a trap. -/

/-- R222: a trap has been taken at the pc: SSTAT has NUT and SIGTHR.EN, both are clear, HND is set, TCAUSE, TVAL and TEPC have cause,
value and pc, and control is at TVEC; a streamer has neither bit. Registers, masks, predicates, memory and the other harts stay. -/
def Entered (s t : State) (code : Nat) (value : Word) : Prop :=
  let str := isStreamer s.cur
  t.hart.hnd = true ∧ t.hart.pc = s.hart.tvec ∧ t.hart.tvec = s.hart.tvec ∧
  t.hart.tepc = s.hart.pc &&& 0x000FFFFFFFFFFFFE#64 ∧ t.hart.tval = value ∧
  t.hart.tcause = BitVec.ofNat 64 (code % 128) ∧
  t.hart.sstat = (if str then 0#64 else (if s.hart.nut then 1#64 else 0#64) ||| (if s.hart.sigEn then 2#64 else 0#64)) ∧
  t.hart.nut = (str && s.hart.nut) ∧ t.hart.sigEn = (str && s.hart.sigEn) ∧
  t.hart.x = s.hart.x ∧ t.hart.v = s.hart.v ∧ t.hart.m = s.hart.m ∧ t.hart.p = s.hart.p ∧ t.hart.fcsr = s.hart.fcsr ∧
  t.hart.instret = s.hart.instret ∧ t.hart.task = s.hart.task ∧ t.mem = s.mem ∧
  (∀ h, h ≠ s.cur → t.hartAt h = s.hartAt h)

/-- R222: a trap of the hart is taken as described: its stores are translated, it is in no handler, it has one, and no store-fault record
stands. -/
def MayTrap (s : State) : Prop := s.hart.stores = [] ∧ s.hart.sfrq = [] ∧ s.hart.hnd = false ∧ s.hart.tvec ≠ 0#64

/-! Shapes of rounded results. -/

/-- A decoded value is a real number. -/
def HasValue (x : XR) (v : ℝ) : Prop :=
  ∃ n m e, x = .real n m e false ∧ v = (if n then -1 else 1) * (m : ℝ) * (2 : ℝ) ^ (e : ℤ)

/-- R88, R89: code and flags are what a real v, not zero, of sign neg rounds to. It overflows when the value of its own precision and
unbounded exponent that the mode chooses lies beyond the largest finite value; the next such value is one step above that. Else the
mode chooses among all values of the format: RNE the nearest, of two the one whose code is even; RMM the nearest, of two the larger;
RTZ, RDN and RUP the last one toward their side. UF is raised by inexact results of values below the smallest normal one. -/
def Rounds (f : FFmt) (mode : RMode) (v : ℝ) (neg : Bool) (code : Nat) (fl : FFlags) : Prop :=
  ∃ big below, HasValue (decodeF f f.maxCode) big ∧ HasValue (decodeF f (f.maxCode - 1)) below ∧
    let step := big - below
    let beyond : Prop := match mode with
      | .rne => big + step / 2 < |v| ∨ (|v| = big + step / 2 ∧ f.maxCode % 2 = 1)
      | .rmm => big + step / 2 ≤ |v|
      | .rtz => big + step ≤ |v|
      | .rdn => if neg then big < |v| else big + step ≤ |v|
      | .rup => if neg then big + step ≤ |v| else big < |v|
    fl.nv = false ∧ fl.dz = false ∧ (fl.of = true ↔ beyond) ∧
    (beyond → fl.nx = true ∧ fl.uf = false ∧ code = f.withSign neg
      (if f = .e4m3 ∨ f = .e2m1 ∨ mode = .rtz ∨ (mode = .rdn ∧ neg = false) ∨ (mode = .rup ∧ neg = true) then f.maxCode
        else f.infCode)) ∧
    (¬ beyond → ∃ m e w, decodeF f code = .real neg m e false ∧ code < 2 ^ f.width ∧ HasValue (decodeF f code) w ∧
      (fl.nx = true ↔ w ≠ v) ∧ (fl.uf = true ↔ w ≠ v ∧ |v| < (2 : ℝ) ^ f.emin) ∧
      ∀ c y, HasValue (decodeF f c) y → match mode with
        | .rne => |w - v| ≤ |y - v| ∧ (|w - v| = |y - v| → y ≠ w → code % 2 = 0)
        | .rmm => |w - v| ≤ |y - v| ∧ (|w - v| = |y - v| → |y| ≤ |w|)
        | .rtz => |w| ≤ |v| ∧ (|y| ≤ |v| → |y| ≤ |w|)
        | .rdn => w ≤ v ∧ (y ≤ v → y ≤ w)
        | .rup => v ≤ w ∧ (v ≤ y → w ≤ y))

/-! Shapes of work for the matrix engine. -/

/-- R337, R345: an instruction that gives the matrix engine a piece of work completes when the work is accepted. Where no stream holds a
tile that the work names, and no work waits that names one of its registers, it is done, with the result `t`; else it waits inside the
engine behind what waits there. -/
def GivesWork (i : Instr) (tk : Tok) (s u : State) (op : MxOp) (t : State) : Prop :=
  (u.mxBusy (cellOf u.cur) op = false → Completes i tk s t (after4 s)) ∧
  (u.mxBusy (cellOf u.cur) op = true →
    Completes i tk s (u.modCell (cellOf u.cur) (fun c => { c with mxe := { c.mxe with work := c.mxe.work ++ [⟨u.cur, op⟩] } })) (after4 s))

/-- The barrier object that an address names: none for 0, else the physical address of its aligned dword (R342). -/
def Barrier (s : State) (x : Word) (bar : Option Nat) : Prop :=
  (x = 0#64 ∧ bar = none) ∨
    (x ≠ 0#64 ∧ x.toNat % 8 = 0 ∧ ∃ pa e, s.access x.toNat true true = .hit pa e ∧ bar = some pa)

/-- R344, R315, R337: a tile load from a pool slot: the tile must have the slot's shape, and the read must be admitted; the engine is
given the slot's bytes with their poison and sidecar. -/
def PoolTileLoad (mk : Tok → TReg → Reg → Reg → Instr) (consuming : Bool) : Prop :=
  ∀ tk d a b s s1 s2 s3 x y, Ready (mk tk d a b) tk s s1 → s1.readU a = .got x s2 → s2.readU b = .got y s3 →
    let bad := x.poison || y.poison
    let u := s3.note bad 4
    let v := u.mxe.nextShape d.toNat
    let trap (code : Nat) (w : Word) : Prop := exec (mk tk d a b) s = .next ((s1.note bad 4).trapNow code w)
    (shpLegal v = false → trap 0x11 (BitVec.ofNat 64 (d.toNat * 256 + 1))) ∧
    (shpLegal v = true → shpBlock v ≠ 0 → trap 0x11 (BitVec.ofNat 64 (d.toNat * 256 + 8))) ∧
    (shpLegal v = true → shpBlock v = 0 →
      (∀ code, u.resolveRef x.val = .error code → trap code x.val) ∧
      (∀ c t, u.resolveRef x.val = .ok (c, t) →
        ((descFmt t.desc ≠ shpFmt v ∨ descRows t.desc ≠ shpRows v ∨ descCols t.desc ≠ shpCols v) →
          trap 0x11 (BitVec.ofNat 64 (d.toNat * 256 + 8))) ∧
        (descFmt t.desc = shpFmt v → descRows t.desc = shpRows v → descCols t.desc = shpCols v → ∀ bar, Barrier u y.val bar →
          ∀ w, u.admitRead c u.cur u.hart.ctxId (x.val.toNat % 65536) consuming = .admitted w →
            let data := (w.slotBytes c t).take (shpBytes v)
            let poison := (List.range ((shpBytes v + 7) / 8)).filter (fun i =>
              (w.cellAt c).sram.poisoned ((w.cellAt c).slotBase t.first / 8 + i))
            GivesWork (mk tk d a b) tk s w
              (.tld d.toNat data [] poison (some t.sidecar) bar (some (c, (t.first, consuming))))
              (w.acceptTld d.toNat data [] poison (some t.sidecar) bar (some (c, (t.first, consuming)))))))

/-! Packets. -/

/-- Packet `p` of a type stands at place `n` of the network and may be taken: none of its class, source and destination was sent
before it (R407), and its destination's region is not FROZEN against it (R450). -/
def Arrives (s : State) (n type : Nat) (p : Packet) : Prop :=
  s.net[n]? = some p ∧ p.type = type ∧
    (∀ q ∈ s.net.take n, ¬ (q.reply = p.reply ∧ q.src = p.src ∧ q.dst = p.dst)) ∧ s.waitsOutside p = false

/-- The state after packet `n` left the network. -/
def without (s : State) (n : Nat) : State := { s with net := dropNth s.net n }

/-! Commands of the host. -/

/-- The state in which an accepted command has just started (R456, R459). -/
def started (s : State) (fn seq : Nat) : State := s.modEntry fn seq (fun e => { e with state := 2, tstart := s.dtime })

/-- Command `e` of a function stands accepted in its journal and may start (R456). -/
def Starts (s : State) (fn seq op : Nat) (e : JEntry) : Prop :=
  s.entry? fn seq = some e ∧ e.op = op ∧ e.state = 1 ∧ s.mayStart fn seq e = true

/-! Frames. -/

/-- What an instruction that works on registers may touch: its token bits, its operands in the uniform and the vector file, the
registers it writes in each file, whether it raises float flags, and the causes it may trap with. -/
structure Footprint where
  tok : Tok
  us : List Reg := []
  vs : List Reg := []
  xd : List Reg := []
  vd : List Reg := []
  md : List MReg := []
  pd : List PReg := []
  flags : Bool := false
  traps : List Nat := []

/-- The footprint of the instructions that work on registers alone. -/
def footprint : Instr → Option Footprint
  | .add tk d a b | .sub tk d a b | .and tk d a b | .or tk d a b | .xor tk d a b | .sll tk d a b | .srl tk d a b | .sra tk d a b
  | .slt tk d a b | .sltu tk d a b | .min tk d a b | .max tk d a b | .minu tk d a b | .maxu tk d a b | .mul tk d a b
  | .mulh tk d a b | .mulhu tk d a b | .lea tk _ d a b => some { tok := tk, us := [d, a, b], xd := [d] }
  | .div tk d a b | .divu tk d a b | .rem tk d a b | .remu tk d a b => some { tok := tk, us := [d, a, b], xd := [d], pd := [3#2] }
  | .clz tk d a | .ctz tk d a | .popc tk d a | .addi tk d a _ | .andi tk d a _ | .ori tk d a _ | .xori tk d a _ | .slti tk d a _
  | .slli tk d a _ | .srli tk d a _ | .srai tk d a _ | .fclass tk d a | .jalr tk d a _ =>
    some { tok := tk, us := [d, a], xd := [d] }
  | .lih tk d _ | .addpc tk d _ | .mtox tk d _ | .mpop tk d _ | .mfirst tk d _ => some { tok := tk, us := [d], xd := [d] }
  | .pset tk _ p a b => some { tok := tk, us := [a, b], pd := [p] }
  | .j tk _ | .bp tk _ _ | .bany tk _ _ | .ball tk _ _ | .bnone tk _ _ => some { tok := tk }
  | .jal tk _ => some { tok := tk, xd := [1#5] }
  | .beq tk a b _ | .bne tk a b _ | .blt tk a b _ | .bge tk a b _ | .bltu tk a b _ | .bgeu tk a b _ => some { tok := tk, us := [a, b] }
  | .btsb tk a _ _ => some { tok := tk, us := [a] }
  | .fadd tk _ d a b | .fsub tk _ d a b | .fmul tk _ d a b | .fdiv tk _ d a b | .fmin tk d a b | .fmax tk d a b =>
    some { tok := tk, us := [d, a, b], xd := [d], flags := true, traps := [0x0D] }
  | .feq tk d a b | .flt tk d a b | .fle tk d a b => some { tok := tk, us := [d, a, b], xd := [d], flags := true }
  | .fsqrt tk _ d a | .fcvt tk _ _ _ d a => some { tok := tk, us := [d, a], xd := [d], flags := true, traps := [0x0D] }
  | .fma tk d a b c | .fnma tk d a b c => some { tok := tk, us := [d, a, b, c], xd := [d], flags := true, traps := [0x0D] }
  | .cMv d b => some { tok := bare, us := [d, b], xd := [d] }
  | .cAdd d b | .cSub d b | .cAnd d b | .cOr d b | .cXor d b | .cSlt d b | .cSltu d b | .cMul d b =>
    some { tok := bare, us := [d, b], xd := [d] }
  | .cAddi d _ | .cLi d _ | .cSlli d _ | .cSrli d _ | .cSrai d _ | .cAndi d _ => some { tok := bare, us := [d], xd := [d] }
  | .cNop | .cJ _ => some { tok := bare }
  | .cBeqz a _ | .cBnez a _ | .cJr a => some { tok := bare, us := [a] }
  | .cJalr a => some { tok := bare, us := [a], xd := [1#5] }
  | .vadd tk _ _ d a b | .vsub tk _ _ d a b | .vmul tk _ _ d a b | .vmulh tk _ _ d a b | .vmin tk _ _ d a b | .vmax tk _ _ d a b
  | .vand tk _ _ d a b | .vor tk _ _ d a b | .vxor tk _ _ d a b | .vsll tk _ _ d a b | .vsrl tk _ _ d a b | .vsra tk _ _ d a b
  | .vsel tk _ _ d a b | .vdot4 tk _ d a b | .vperm tk _ d a b => some { tok := tk, vs := [d, a, b], vd := [d] }
  | .vclip tk _ _ d a b c => some { tok := tk, vs := [d, a, b, c], vd := [d] }
  | .vscanAdd tk _ _ d a => some { tok := tk, vs := [d, a], vd := [d] }
  | .vcmp tk _ _ _ d a b => some { tok := tk, vs := [a, b], md := [d] }
  | .vredAdd tk _ _ d a | .vredMin tk _ _ d a | .vredMax tk _ _ d a => some { tok := tk, us := [d], vs := [a], xd := [d], pd := [3#2] }
  | .vfadd tk _ _ d a b | .vfsub tk _ _ d a b | .vfmul tk _ _ d a b | .vfdiv tk _ _ d a b | .vfmin tk _ _ d a b | .vfmax tk _ _ d a b =>
    some { tok := tk, vs := [d, a, b], vd := [d], flags := true, traps := [0x0D] }
  | .vfma tk _ _ d a b c | .vfnma tk _ _ d a b c =>
    some { tok := tk, vs := [d, a, b, c], vd := [d], flags := true, traps := [0x0D] }
  | .vfsqrt tk _ _ d a | .vcvt tk _ _ d a _ _ | .vcvtI tk _ _ d a _ _ | .vscanFadd tk _ _ d a | .vexp2 tk _ d a | .vlog2 tk _ d a
  | .vrcp tk _ d a | .vrsq tk _ d a | .vsin tk _ d a | .vcos tk _ d a =>
    some { tok := tk, vs := [d, a], vd := [d], flags := true, traps := [0x0D] }
  | .vfcmp tk _ _ _ d a b => some { tok := tk, vs := [a, b], md := [d], flags := true }
  | .vredFadd tk _ _ d a | .vredFmin tk _ _ d a | .vredFmax tk _ _ d a =>
    some { tok := tk, us := [d], vs := [a], xd := [d], flags := true, traps := [0x0D] }
  | .vtsb tk _ _ d a => some { tok := tk, vs := [d, a], vd := [d] }
  | .vtsblt tk _ _ d a b => some { tok := tk, us := [b], vs := [a], md := [d] }
  | .vsettsb tk _ _ d a b | .vslideUp tk _ d a b | .vslideDn tk _ d a b => some { tok := tk, us := [b], vs := [d, a], vd := [d] }
  | .xtov tk _ d a => some { tok := tk, us := [a], vs := [d], vd := [d] }
  | .vtox tk _ d a => some { tok := tk, us := [d], vs := [a], xd := [d], pd := [3#2] }
  | .vtoxa tk _ d a => some { tok := tk, us := [d], vs := [a], xd := [d], pd := [3#2], traps := [0x0E] }
  | .xtom tk d a => some { tok := tk, us := [a], md := [d] }
  | .mand tk d _ _ | .mor tk d _ _ | .mxor tk d _ _ | .mnot tk d _ => some { tok := tk, md := [d] }
  | _ => none

/-- The footprint of the loads. -/
def loadFootprint : Instr → Option Footprint
  | .ldB tk d a _ | .ldBu tk d a _ | .ldH tk d a _ | .ldHu tk d a _ | .ldW tk d a _ | .ldWu tk d a _ | .ldD tk d a _ | .ldt tk d a =>
    some { tok := tk, us := [d, a], xd := [d], traps := [0x05, 0x08, 0x0A] }
  | .cLdd d _ | .cLdw d _ => some { tok := bare, us := [d], xd := [d], traps := [0x05, 0x08, 0x0A] }
  | .vld tk d a _ => some { tok := tk, us := [a], vs := [d], vd := [d], traps := [0x05, 0x08, 0x0A] }
  | .vldx tk _ d a b => some { tok := tk, us := [a], vs := [d, b], vd := [d], traps := [0x05, 0x08, 0x0A] }
  | _ => none

/-- The footprint of the plain stores. -/
def storeFootprint : Instr → Option Footprint
  | .stB tk b a _ | .stH tk b a _ | .stW tk b a _ | .stD tk b a _ | .stt tk b a => some { tok := tk, us := [a, b], traps := [0x05] }
  | .cStd d _ | .cStw d _ => some { tok := bare, us := [d], traps := [0x05] }
  | .vst tk b a _ => some { tok := tk, us := [a], vs := [b], traps := [0x05] }
  | .vstx tk _ d a b => some { tok := tk, us := [a], vs := [d, b], traps := [0x05] }
  | _ => none

/-- The frame of a hart: every register outside the footprint, and all else but CHKIV, the loads and stores under way and what
every instruction moves on: the pc, INSTRET and the progress of the instruction. -/
def HartFrame (f : Footprint) (x y : Hart) : Prop :=
  (∀ r, r ∉ f.xd → y.xval r = x.xval r) ∧ (∀ r, r ∉ f.vd → y.vval r = x.vval r) ∧
  (∀ m, m ∉ f.md → y.mval m = x.mval m) ∧ (∀ p, p ∉ f.pd → y.pval p = x.pval p) ∧
  (f.flags = false → y.fcsr = x.fcsr) ∧ y.fcsr &&& 0xE0#8 = x.fcsr &&& 0xE0#8 ∧ y.fcsr &&& x.fcsr = x.fcsr ∧
  y.chkiv &&& x.chkiv = x.chkiv ∧
  y = { x with
    x := y.x, v := y.v, m := y.m, p := y.p, fcsr := y.fcsr, chkiv := y.chkiv, loads := y.loads, stores := y.stores,
    pc := y.pc, instret := y.instret, stage := y.stage, wait := y.wait, held := y.held, portOut := y.portOut, portKey := y.portKey,
    issued := y.issued, dstHeld := y.dstHeld, record := y.record, reply := y.reply }

/-- The frame of the machine around a hart: memory as every region sees it, every other hart, every cell but its token FIFOs, what came
to them in this clk and the walks it has asked for, and all that an instruction without a group, a task, an engine or a pool has no
part in. -/
def MachineFrame (s t : State) : Prop :=
  (∀ r a, t.viewByte r a = s.viewByte r a) ∧ (∀ r u, t.viewPoison r u = s.viewPoison r u) ∧
  (∀ h, h ≠ s.cur → t.hartAt h = s.hartAt h) ∧
  (∀ c, t.cellAt c = { s.cellAt c with fifos := (t.cellAt c).fifos, young := (t.cellAt c).young, walks := (t.cellAt c).walks }) ∧
  t = { s with
    harts := t.harts, cells := t.cells, regions := t.regions, net := t.net, requests := t.requests, nextXid := t.nextXid,
    fresh := t.fresh }

/-- An instruction keeps its frame: it traps with one of its causes, or keeps the hart's and the machine's, and what is asked
besides. -/
def Framed (f : Footprint) (s s1 t : State) (besides : Prop) : Prop :=
  (∃ c v, c ∈ f.traps ∧ t = s1.trapNow c v) ∨ (HartFrame f s.hart t.hart ∧ MachineFrame s t ∧ besides)

end Sys2Proof.Spec
end

