-- ==== Sys2Proof/Certificates/Slice0/Obligations.lean ====
section
/-! DEFINITION. The statements for the provers. -/

open Sys2Proof Sys2Proof.Machine Sys2Proof.Spec

/-! Uniform integer instructions (R134-R139), and their compressed forms (R65). -/

/-- R135: what the register forms of the integer instructions compute, each exact result kept to 64 bits. -/
def Sys2Proof.Spec.UniformInteger : Prop :=
  UniformBinary .add (fun a b => BitVec.ofInt 64 (a.toInt + b.toInt)) ∧
  UniformBinary .sub (fun a b => BitVec.ofInt 64 (a.toInt - b.toInt)) ∧
  UniformBinary .and (fun a b => a &&& b) ∧
  UniformBinary .or (fun a b => a ||| b) ∧
  UniformBinary .xor (fun a b => a ^^^ b) ∧
  UniformBinary .sll (fun a b => BitVec.ofNat 64 (a.toNat * 2 ^ (b.toNat % 64))) ∧
  UniformBinary .srl (fun a b => BitVec.ofNat 64 (a.toNat / 2 ^ (b.toNat % 64))) ∧
  UniformBinary .sra (fun a b => BitVec.ofInt 64 (a.toInt / 2 ^ (b.toNat % 64))) ∧
  UniformBinary .slt (fun a b => if a.toInt < b.toInt then 1#64 else 0#64) ∧
  UniformBinary .sltu (fun a b => if a.toNat < b.toNat then 1#64 else 0#64) ∧
  UniformBinary .min (fun a b => if a.toInt ≤ b.toInt then a else b) ∧
  UniformBinary .max (fun a b => if a.toInt ≤ b.toInt then b else a) ∧
  UniformBinary .minu (fun a b => if a.toNat ≤ b.toNat then a else b) ∧
  UniformBinary .maxu (fun a b => if a.toNat ≤ b.toNat then b else a) ∧
  UniformBinary .mul (fun a b => BitVec.ofInt 64 (a.toInt * b.toInt)) ∧
  UniformBinary .mulh (fun a b => BitVec.ofInt 64 (a.toInt * b.toInt / 2 ^ 64)) ∧
  UniformBinary .mulhu (fun a b => BitVec.ofNat 64 (a.toNat * b.toNat / 2 ^ 64)) ∧
  ∀ sh : BitVec 2, UniformBinary (fun tk d a b => .lea tk sh d a b)
    (fun a b => BitVec.ofNat 64 (a.toNat + b.toNat * 2 ^ sh.toNat))

/-- R136: quotients toward zero, remainders with the sign of the dividend, the two boundary cases, and p3. -/
def Sys2Proof.Spec.UniformDivision : Prop :=
  UniformDivide .div
    (fun a b => if b = 0#64 then 0#64 else if a.toInt = -2 ^ 63 ∧ b.toInt = -1 then BitVec.ofInt 64 (2 ^ 63 - 1)
      else BitVec.ofInt 64 (a.toInt.tdiv b.toInt))
    (fun a b => decide (b = 0#64 ∨ (a.toInt = -2 ^ 63 ∧ b.toInt = -1))) ∧
  UniformDivide .divu (fun a b => BitVec.ofNat 64 (a.toNat / b.toNat)) (fun _ b => decide (b = 0#64)) ∧
  UniformDivide .rem
    (fun a b => if b = 0#64 then a else BitVec.ofInt 64 (a.toInt - b.toInt * a.toInt.tdiv b.toInt))
    (fun a b => decide (b = 0#64 ∨ (a.toInt = -2 ^ 63 ∧ b.toInt = -1))) ∧
  UniformDivide .remu (fun a b => BitVec.ofNat 64 (a.toNat % b.toNat)) (fun _ b => decide (b = 0#64))

/-- R135: the three counts. clz counts zeros from bit 63 down, ctz from bit 0 up, each 64 for 0; popc counts ones. -/
def Sys2Proof.Spec.UniformCounts : Prop :=
  (∃ f : Word → Word, UniformUnary .clz f ∧ ∀ a, (f a).toNat ≤ 64 ∧
    (∀ i, i < 64 → 64 - (f a).toNat ≤ i → a.getLsbD i = false) ∧
    ((f a).toNat < 64 → a.getLsbD (63 - (f a).toNat) = true)) ∧
  (∃ f : Word → Word, UniformUnary .ctz f ∧ ∀ a, (f a).toNat ≤ 64 ∧
    (∀ i, i < (f a).toNat → a.getLsbD i = false) ∧ ((f a).toNat < 64 → a.getLsbD (f a).toNat = true)) ∧
  UniformUnary .popc (fun a => BitVec.ofNat 64 ((List.range 64).filter (fun i => a.getLsbD i)).length)

/-- R137, R138: the immediate forms compute the register form on the immediate; lih and addpc shift theirs by 13 bits. -/
def Sys2Proof.Spec.UniformImmediate : Prop :=
  (∀ imm : BitVec 13,
    UniformUnary (fun tk d a => .addi tk d a imm) (fun a => a + imm.signExtend 64) ∧
    UniformUnary (fun tk d a => .slti tk d a imm) (fun a => if a.toInt < imm.toInt then 1#64 else 0#64) ∧
    UniformUnary (fun tk d a => .andi tk d a imm) (fun a => a &&& imm.setWidth 64) ∧
    UniformUnary (fun tk d a => .ori tk d a imm) (fun a => a ||| imm.setWidth 64) ∧
    UniformUnary (fun tk d a => .xori tk d a imm) (fun a => a ^^^ imm.setWidth 64)) ∧
  (∀ sh : BitVec 6,
    UniformUnary (fun tk d a => .slli tk d a sh) (fun a => BitVec.ofNat 64 (a.toNat * 2 ^ sh.toNat)) ∧
    UniformUnary (fun tk d a => .srli tk d a sh) (fun a => BitVec.ofNat 64 (a.toNat / 2 ^ sh.toNat)) ∧
    UniformUnary (fun tk d a => .srai tk d a sh) (fun a => BitVec.ofInt 64 (a.toInt / 2 ^ sh.toNat))) ∧
  (∀ tk d (imm : BitVec 18) s s1 s2, Ready (.lih tk d imm) tk s s1 → Parties s1 [] [d] [] [] →
    s1.putU d ⟨BitVec.ofInt 64 (imm.toInt * 2 ^ 13), 24#5, false⟩ = .ok s2 → Completes (.lih tk d imm) tk s s2 (after4 s)) ∧
  (∀ tk d (imm : BitVec 18) s s1 s2, Ready (.addpc tk d imm) tk s s1 → Parties s1 [] [d] [] [] →
    s1.putU d ⟨s.hart.pc + BitVec.ofInt 64 (imm.toInt * 2 ^ 13), 24#5, false⟩ = .ok s2 →
    Completes (.addpc tk d imm) tk s s2 (after4 s))

/-- R65: the integer parcels have the effect of the 32-bit instructions, with the destination as first source. -/
def Sys2Proof.Spec.CompressedInteger : Prop :=
  (∀ d b, ParcelUnary (.cMv d b) d b (fun b => b)) ∧
  ParcelBinary .cAdd (fun a b => a + b) ∧ ParcelBinary .cSub (fun a b => a - b) ∧
  ParcelBinary .cAnd (fun a b => a &&& b) ∧ ParcelBinary .cOr (fun a b => a ||| b) ∧ ParcelBinary .cXor (fun a b => a ^^^ b) ∧
  ParcelBinary .cSlt (fun a b => if a.toInt < b.toInt then 1#64 else 0#64) ∧
  ParcelBinary .cSltu (fun a b => if a.toNat < b.toNat then 1#64 else 0#64) ∧
  ParcelBinary .cMul (fun a b => BitVec.ofInt 64 (a.toInt * b.toInt)) ∧
  (∀ d (i : BitVec 5),
    ParcelUnary (.cAddi d i) d d (fun a => a + i.signExtend 64) ∧
    ParcelUnary (.cSlli d i) d d (fun a => BitVec.ofNat 64 (a.toNat * 2 ^ i.toNat)) ∧
    ParcelUnary (.cSrli d i) d d (fun a => BitVec.ofNat 64 (a.toNat / 2 ^ i.toNat)) ∧
    ParcelUnary (.cSrai d i) d d (fun a => BitVec.ofInt 64 (a.toInt / 2 ^ i.toNat)) ∧
    ParcelUnary (.cAndi d i) d d (fun a => a &&& i.setWidth 64) ∧
    (∀ s s1 s2, Ready (.cLi d i) bare s s1 → Parties s1 [] [d] [] [] →
      s1.putU d ⟨BitVec.ofInt 64 i.toInt, 24#5, false⟩ = .ok s2 → Completes (.cLi d i) bare s s2 (after2 s))) ∧
  (∀ s s1, Ready .cNop bare s s1 → Completes .cNop bare s s1 (after2 s))

/-- R139: pset writes a predicate with a comparison of two uniform values; R211: poisoned operands set CHKIV.CONTROL. -/
def Sys2Proof.Spec.PredicateSet : Prop :=
  ∀ tk cc p a b s s1 s2 s3 x y, Ready (.pset tk cc p a b) tk s s1 → Parties s1 [a, b] [] [] [] →
    s1.readU a = .got x s2 → s2.readU b = .got y s3 →
    let holds : Bool := match cc with
      | .eq => decide (x.val.toNat = y.val.toNat)
      | .ne => decide (x.val.toNat ≠ y.val.toNat)
      | .lt => decide (x.val.toInt < y.val.toInt)
      | .ge => decide (y.val.toInt ≤ x.val.toInt)
      | .ltu => decide (x.val.toNat < y.val.toNat)
      | .geu => decide (y.val.toNat ≤ x.val.toNat)
    Completes (.pset tk cc p a b) tk s ((s3.note (x.poison || y.poison) 1).modHart (fun h => h.setP p holds)) (after4 s)

/-! Control flow (R140-R142, R183). -/

/-- R140, R142, R183: conditional branches, taken to pc + 2·imm13 or not taken; branches on a predicate, a mask, a tag; the two
compressed branches. A branch on a poisoned value sets CHKIV.CONTROL (R211). -/
def Sys2Proof.Spec.ConditionalBranches : Prop :=
  (∀ tk a b (imm : BitVec 13),
    let off : Word := BitVec.ofInt 64 (imm.toInt * 2)
    CompareBranch (.beq tk a b imm) tk a b (fun x y => x = y) off after4 ∧
    CompareBranch (.bne tk a b imm) tk a b (fun x y => x ≠ y) off after4 ∧
    CompareBranch (.blt tk a b imm) tk a b (fun x y => x.toInt < y.toInt) off after4 ∧
    CompareBranch (.bge tk a b imm) tk a b (fun x y => y.toInt ≤ x.toInt) off after4 ∧
    CompareBranch (.bltu tk a b imm) tk a b (fun x y => x.toNat < y.toNat) off after4 ∧
    CompareBranch (.bgeu tk a b imm) tk a b (fun x y => y.toNat ≤ x.toNat) off after4) ∧
  (∀ tk p (imm : BitVec 13), StateBranch (.bp tk p imm) tk (fun h => h.pval p = true) (BitVec.ofInt 64 (imm.toInt * 2))) ∧
  (∀ tk m (imm : BitVec 13),
    let off : Word := BitVec.ofInt 64 (imm.toInt * 2)
    StateBranch (.bany tk m imm) tk (fun h => ∃ k, k < 64 ∧ (h.mval m).getLsbD k = true) off ∧
    StateBranch (.ball tk m imm) tk (fun h => ∀ k, k < 64 → (h.mval m).getLsbD k = true) off ∧
    StateBranch (.bnone tk m imm) tk (fun h => ∀ k, k < 64 → (h.mval m).getLsbD k = false) off) ∧
  (∀ tk a (thr : BitVec 5) (imm : BitVec 13) s s1 s2 x, Ready (.btsb tk a thr imm) tk s s1 → s1.readU a = .got x s2 →
    (min x.tag.toNat 24 < thr.toNat →
      Completes (.btsb tk a thr imm) tk s (s2.note x.poison 1) (s.hart.pc + BitVec.ofInt 64 (imm.toInt * 2))) ∧
    (thr.toNat ≤ min x.tag.toNat 24 → Completes (.btsb tk a thr imm) tk s (s2.note x.poison 1) (after4 s))) ∧
  (∀ a (i : BitVec 5) s s1 s2 x, s1.badSrcU a = false → s1.readU a = .got x s2 →
    let off : Word := BitVec.ofInt 64 (i.toInt * 2)
    (Ready (.cBeqz a i) bare s s1 →
      (x.val = 0#64 → Completes (.cBeqz a i) bare s (s2.note x.poison 1) (s.hart.pc + off)) ∧
      (x.val ≠ 0#64 → Completes (.cBeqz a i) bare s (s2.note x.poison 1) (after2 s))) ∧
    (Ready (.cBnez a i) bare s s1 →
      (x.val ≠ 0#64 → Completes (.cBnez a i) bare s (s2.note x.poison 1) (s.hart.pc + off)) ∧
      (x.val = 0#64 → Completes (.cBnez a i) bare s (s2.note x.poison 1) (after2 s))))

/-- R141, R65: the jumps. jal links in x1; jalr takes its target from xa before it writes the link, so xd may be xa. -/
def Sys2Proof.Spec.Jumps : Prop :=
  (∀ tk (imm : BitVec 23) s s1, Ready (.j tk imm) tk s s1 →
    Completes (.j tk imm) tk s s1 (s.hart.pc + BitVec.ofInt 64 (imm.toInt * 2))) ∧
  (∀ tk (imm : BitVec 23) s s1 s2, Ready (.jal tk imm) tk s s1 → s1.putU 1#5 ⟨s.hart.pc + 4#64, 24#5, false⟩ = .ok s2 →
    Completes (.jal tk imm) tk s s2 (s.hart.pc + BitVec.ofInt 64 (imm.toInt * 2))) ∧
  (∀ tk d a (imm : BitVec 13) s s1 s2 s3 x, Ready (.jalr tk d a imm) tk s s1 → s1.readU a = .got x s2 →
    (s2.note x.poison 1).putU d ⟨s.hart.pc + 4#64, 24#5, false⟩ = .ok s3 →
    Completes (.jalr tk d a imm) tk s s3 ((x.val + imm.signExtend 64) &&& ~~~1#64)) ∧
  (∀ (i : BitVec 10) s s1, Ready (.cJ i) bare s s1 → Completes (.cJ i) bare s s1 (s.hart.pc + BitVec.ofInt 64 (i.toInt * 2))) ∧
  (∀ a s s1 s2 s3 x, Ready (.cJr a) bare s s1 → s1.readU a = .got x s2 →
    (s2.note x.poison 1).putU 0#5 ⟨s.hart.pc + 2#64, 24#5, false⟩ = .ok s3 → Completes (.cJr a) bare s s3 (x.val &&& ~~~1#64)) ∧
  (∀ a s s1 s2 s3 x, Ready (.cJalr a) bare s s1 → s1.readU a = .got x s2 →
    (s2.note x.poison 1).putU 1#5 ⟨s.hart.pc + 2#64, 24#5, false⟩ = .ok s3 → Completes (.cJalr a) bare s s3 (x.val &&& ~~~1#64))

/-! Uniform floating point (R162-R168). -/

/-- R163-R166: uniform float arithmetic, fused forms, minimum and maximum, comparisons. -/
def Sys2Proof.Spec.UniformFloat : Prop :=
  (∀ rm, FloatBinary (fun tk d a b => .fadd tk rm d a b) .add rm ∧ FloatBinary (fun tk d a b => .fsub tk rm d a b) .sub rm ∧
    FloatBinary (fun tk d a b => .fmul tk rm d a b) .mul rm ∧ FloatBinary (fun tk d a b => .fdiv tk rm d a b) .div rm) ∧
  FloatBinary .fmin .min 0#3 ∧ FloatBinary .fmax .max 0#3 ∧ FloatTernary .fma .fma ∧ FloatTernary .fnma .fnma ∧
  FloatTest .feq .eq ∧ FloatTest .flt .lt ∧ FloatTest .fle .le ∧
  (∀ tk rm d a s s1 s2 x, Ready (.fsqrt tk rm d a) tk s s1 → Parties s1 [a] [d] [] [] → s1.readU a = .got x s2 →
    let r := fElem .sqrt .fp32 (s2.hart.mode rm) s2.hart.thr x.fin x.fin x.fin
    (r.fails = false → ∀ s3, (s2.raise r.flags).putU d ⟨BitVec.ofNat 64 r.code, BitVec.ofNat 5 r.tag, x.poison⟩ = .ok s3 →
      Completes (.fsqrt tk rm d a) tk s s3 (after4 s)) ∧
    (r.fails = true → exec (.fsqrt tk rm d a) s = .next (s1.trapNow 0x0D 1#64)))

/-- R167, R168: fclass and fcvt. fclass gives kind, sign, exponent field and wholeness; fcvt reads its source at its width,
converts in the effective mode, and writes a float with higher bits 0, i32 sign-extended, the others zero-extended. -/
def Sys2Proof.Spec.FloatClassAndConvert : Prop :=
  (∀ tk d a s s1 s2 s3 x, Ready (.fclass tk d a) tk s s1 → Parties s1 [a] [d] [] [] → s1.readU a = .got x s2 →
    let c := x.val.toNat % 2 ^ 32
    let ex := c / 2 ^ 23 % 256
    let frac := c % 2 ^ 23
    let kind := if ex = 255 then (if frac = 0 then 3 else if frac < 2 ^ 22 then 7 else 6)
      else if ex = 0 then (if frac = 0 then 0 else 1) else 2
    let whole := if ex = 255 then 0 else if ex = 0 ∧ frac = 0 then 1
      else if 150 ≤ ex then 1 else if 127 ≤ ex ∧ (2 ^ 23 + frac) % 2 ^ (150 - ex) = 0 then 1 else 0
    s2.putU d ⟨BitVec.ofNat 64 (whole * 2 ^ 16 + ex * 2 ^ 8 + c / 2 ^ 31 * 8 + kind), 24#5, x.poison⟩ = .ok s3 →
    Completes (.fclass tk d a) tk s s3 (after4 s)) ∧
  (∀ tk dt rm st d a s s1 s2 x, Ready (.fcvt tk dt rm st d a) tk s s1 → Parties s1 [a] [d] [] [] → s1.readU a = .got x s2 →
    let dst := fcvtType dt.toNat
    let src := fcvtType st.toNat
    let r := convElem src dst (s2.hart.mode rm) s2.hart.thr ⟨x.val.toNat % 2 ^ src.width, x.tag.toNat⟩
    let out : UVal := match dst with
      | .flt _ => ⟨BitVec.ofNat 64 r.code, BitVec.ofNat 5 r.tag, x.poison⟩
      | .int sg w => ⟨if sg ∧ 2 ^ (w - 1) ≤ r.code then BitVec.ofInt 64 (r.code - 2 ^ w) else BitVec.ofNat 64 r.code, 24#5, x.poison⟩
    (r.fails = false → ∀ s3, (s2.raise r.flags).putU d out = .ok s3 → Completes (.fcvt tk dt rm st d a) tk s s3 (after4 s)) ∧
    (r.fails = true → exec (.fcvt tk dt rm st d a) s = .next (s1.trapNow 0x0D 1#64)))

/-! Vector integer instructions, masks and moves (R144-R158, R177, R178). -/

/-- R146: the element-wise integer operations: every element of every active lane, computed exactly and kept to its width, with
the integer tag field (R117). -/
def Sys2Proof.Spec.VectorInteger : Prop :=
  let lanes (e : IntW) (f : Int → Int → Int) : Word → VVal → VVal → VVal → Bool → VVal := fun m x y old keep =>
    updateLanes old keep (fun k => if m.getLsbD k then
      some ⟨packElems e.bits ((List.range (32 / e.bits)).map (fun j =>
          (f (elemS (x.lane k).bits e.bits j) (elemS (y.lane k).bits e.bits j) % (2 ^ e.bits : Nat)).toNat)),
        if e = .i16 then 0xBB#8 else 0x18#8, x.poisonOf k || y.poisonOf k⟩ else none)
  let low (e : IntW) (b : Int) : Nat := (b % (e.bits : Nat)).toNat
  ∀ e,
  VectorBinary (fun tk k d a b => .vadd tk e k d a b) (lanes e (fun a b => a + b)) ∧
  VectorBinary (fun tk k d a b => .vsub tk e k d a b) (lanes e (fun a b => a - b)) ∧
  VectorBinary (fun tk k d a b => .vmul tk e k d a b) (lanes e (fun a b => a * b)) ∧
  VectorBinary (fun tk k d a b => .vmulh tk e k d a b) (lanes e (fun a b => a * b / (2 ^ e.bits : Nat))) ∧
  VectorBinary (fun tk k d a b => .vmin tk e k d a b) (lanes e (fun a b => min a b)) ∧
  VectorBinary (fun tk k d a b => .vmax tk e k d a b) (lanes e (fun a b => max a b)) ∧
  VectorBinary (fun tk k d a b => .vsll tk e k d a b) (lanes e (fun a b => a * (2 ^ low e b : Nat))) ∧
  VectorBinary (fun tk k d a b => .vsrl tk e k d a b) (lanes e (fun a b => a % (2 ^ e.bits : Nat) / (2 ^ low e b : Nat))) ∧
  VectorBinary (fun tk k d a b => .vsra tk e k d a b) (lanes e (fun a b => a / (2 ^ low e b : Nat)))

/-- R146: the bitwise operations act on the whole lane. -/
def Sys2Proof.Spec.VectorBitwise : Prop :=
  let lanes (e : IntW) (f : Word32 → Word32 → Word32) : Word → VVal → VVal → VVal → Bool → VVal := fun m x y old keep =>
    updateLanes old keep (fun k => if m.getLsbD k then
      some ⟨f (x.lane k).bits (y.lane k).bits, if e = .i16 then 0xBB#8 else 0x18#8, x.poisonOf k || y.poisonOf k⟩ else none)
  ∀ e,
  VectorBinary (fun tk k d a b => .vand tk e k d a b) (lanes e (fun a b => a &&& b)) ∧
  VectorBinary (fun tk k d a b => .vor tk e k d a b) (lanes e (fun a b => a ||| b)) ∧
  VectorBinary (fun tk k d a b => .vxor tk e k d a b) (lanes e (fun a b => a ^^^ b))
/-- R147: vcmp writes a mask: bit k is 1 when lane k is active and the condition holds for every element of the lane. Poison in
an active lane sets CHKIV.CONTROL (R211). -/
def Sys2Proof.Spec.VectorCompare : Prop :=
  ∀ tk e cc k d a b s s1 s2 s3 x y, Ready (.vcmp tk e cc k d a b) tk s s1 → Parties s1 [] [] [a, b] [] →
    s1.readV a = .got x s2 → s2.readV b = .got y s3 →
    let m := s3.hart.mval k
    let holds (u v : Nat) (p q : Int) : Bool := match cc with
      | .eq => decide (u = v)
      | .ne => decide (u ≠ v)
      | .lt => decide (p < q)
      | .ge => decide (q ≤ p)
      | .ltu => decide (u < v)
      | .geu => decide (v ≤ u)
    ∃ r : Word,
      (∀ i, i < 64 → r.getLsbD i = (m.getLsbD i && (List.range (32 / e.bits)).all (fun j =>
        holds (elemU (x.lane i).bits e.bits j) (elemU (y.lane i).bits e.bits j)
          (elemS (x.lane i).bits e.bits j) (elemS (y.lane i).bits e.bits j)))) ∧
      Completes (.vcmp tk e cc k d a b) tk s
        ((s3.note (anyPoison m x || anyPoison m y) 1).modHart (fun h => h.setM d r)) (after4 s)

/-- R148, R151, R177, R178: vsel writes every lane from va or vb with its tag field; vclip is MIN(MAX(a, b), c) signed; vperm
takes the lane that the low six bits of vb's lane name; vslide moves lanes by xb, and a lane without source is 0 with tag field
0x18. -/
def Sys2Proof.Spec.VectorSelectAndMove : Prop :=
  (∀ e, VectorBinary (fun tk k d a b => .vsel tk e k d a b) (fun m x y _ _ =>
    VVal.ofFn (fun i => if m.getLsbD i then x.lane i else y.lane i)
      (fun j => (if m.getLsbD (2 * j) then x.poisonOf (2 * j) else y.poisonOf (2 * j)) ||
        (if m.getLsbD (2 * j + 1) then x.poisonOf (2 * j + 1) else y.poisonOf (2 * j + 1))))) ∧
  (∀ tk e k d a b c s s1 s2 s3 s4 s5 x y z, Ready (.vclip tk e k d a b c) tk s s1 → Parties s1 [] [] [a, b, c] [d] →
    s1.readV a = .got x s2 → s2.readV b = .got y s3 → s3.readV c = .got z s4 →
    let w := if e = 0#1 then 32 else 16
    s4.putV d (fun old keep => updateLanes old keep (fun i => if (s4.hart.mval k).getLsbD i then
      some ⟨packElems w ((List.range (32 / w)).map (fun j =>
          (min (max (elemS (x.lane i).bits w j) (elemS (y.lane i).bits w j)) (elemS (z.lane i).bits w j) % (2 ^ w : Nat)).toNat)),
        if e = 0#1 then 0x18#8 else 0xBB#8, x.poisonOf i || y.poisonOf i || z.poisonOf i⟩ else none)) = .ok s5 →
    Completes (.vclip tk e k d a b c) tk s s5 (after4 s)) ∧
  VectorBinary .vperm (fun m x y old keep => updateLanes old keep (fun i => if m.getLsbD i then
    let l := (y.lane i).bits.toNat % 64
    some ⟨(x.lane l).bits, (x.lane l).tag, x.poisonOf l || y.poisonOf i⟩ else none)) ∧
  (∀ tk k d a b s s1 s2 s3 s4 x y, s1.readV a = .got x s2 → s2.readU b = .got y s3 → Parties s1 [b] [] [a] [d] →
    let slide (src : Nat → Option Nat) : VVal → Bool → VVal := fun old keep => updateLanes old keep (fun i =>
      if (s3.hart.mval k).getLsbD i then
        match src i with
        | some l => some ⟨(x.lane l).bits, (x.lane l).tag, x.poisonOf l || y.poison⟩
        | none => some ⟨0#32, 0x18#8, y.poison⟩
      else none)
    (Ready (.vslideUp tk k d a b) tk s s1 →
      s3.putV d (slide (fun i => if y.val.toNat ≤ i then some (i - y.val.toNat) else none)) = .ok s4 →
      Completes (.vslideUp tk k d a b) tk s s4 (after4 s)) ∧
    (Ready (.vslideDn tk k d a b) tk s s1 →
      s3.putV d (slide (fun i => if i + y.val.toNat ≤ 63 then some (i + y.val.toNat) else none)) = .ok s4 →
      Completes (.vslideDn tk k d a b) tk s s4 (after4 s)))

/-- R149, R158: the integer reductions give the exact sum, minimum or maximum of the elements of the active lanes in 64 bits, 0
with an empty mask, and p3 says whether the mask is empty; the scan gives every active element the wrapped sum up to itself. -/
def Sys2Proof.Spec.VectorReductions : Prop :=
  let elems (e : IntW) (m : Word) (x : VVal) : List Int :=
    ((List.range 64).filter (fun i => m.getLsbD i)).flatMap (fun i =>
      (List.range (32 / e.bits)).map (fun j => elemS (x.lane i).bits e.bits j))
  let p3 : State → Word → VVal → State := fun s m _ => s.modHart (fun h => h.setP 3#2 (decide (m = 0#64)))
  (∀ e,
    VectorToUniform (fun tk k d a => .vredAdd tk e k d a) p3
      (fun m x => ⟨BitVec.ofInt 64 (elems e m x).sum, 24#5, anyPoison m x⟩) ∧
    VectorToUniform (fun tk k d a => .vredMin tk e k d a) p3
      (fun m x => ⟨BitVec.ofInt 64 ((elems e m x).min?.getD 0), 24#5, anyPoison m x⟩) ∧
    VectorToUniform (fun tk k d a => .vredMax tk e k d a) p3
      (fun m x => ⟨BitVec.ofInt 64 ((elems e m x).max?.getD 0), 24#5, anyPoison m x⟩)) ∧
  (∀ e, VectorUnary (fun tk k d a => .vscanAdd tk e k d a) (fun m x old keep =>
    updateLanes old keep (fun i => if m.getLsbD i then
      some ⟨packElems e.bits ((List.range (32 / e.bits)).map (fun j =>
          (((elems e (m &&& (BitVec.ofNat 64 (2 ^ i - 1))) x).sum +
            ((List.range (j + 1)).map (fun l => elemS (x.lane i).bits e.bits l)).sum) % (2 ^ e.bits : Nat)).toNat)),
        if e = .i16 then 0xBB#8 else 0x18#8,
        anyPoison (m &&& (BitVec.ofNat 64 (2 ^ (i + 1) - 1))) x⟩ else none)))

/-- R150, R129: vdot4 adds four byte products to the accumulator of each active lane, wrapped to 32 bits with tag field 0x18; the
accumulator is read as the third source, so a queue specifier pops it from viqN and pushes the result to voqN. -/
def Sys2Proof.Spec.VectorDot : Prop :=
  ∀ tk k d a b s s1 s2 s3 s4 s5 x y z, Ready (.vdot4 tk k d a b) tk s s1 → Parties s1 [] [] [a, b, d] [d] →
    s1.readV a = .got x s2 → s2.readV b = .got y s3 → s3.readV d = .got z s4 →
    s4.putV d (fun old keep => updateLanes old keep (fun i => if (s4.hart.mval k).getLsbD i then
      some ⟨BitVec.ofInt 32 ((z.lane i).bits.toInt +
          ((List.range 4).map (fun j => elemS (x.lane i).bits 8 j * elemS (y.lane i).bits 8 j)).sum),
        0x18#8, z.poisonOf i || x.poisonOf i || y.poisonOf i⟩ else none)) = .ok s5 →
    Completes (.vdot4 tk k d a b) tk s s5 (after4 s)

/-- R153, R154, R156: moves between the files. xtov gives each active lane bits 31:0 and the tag of xa; vtox takes the lowest
active lane, sign-extended, with its tag, and p3 says whether the mask is empty; mtox and xtom move 64 mask bits, and xtom of a
poisoned value sets CHKIV.CONTROL (R211). -/
def Sys2Proof.Spec.FileMoves : Prop :=
  (∀ tk k d a s s1 s2 s3 x, Ready (.xtov tk k d a) tk s s1 → Parties s1 [a] [] [] [d] → s1.readU a = .got x s2 →
    s2.putV d (fun old keep => updateLanes old keep (fun i => if (s2.hart.mval k).getLsbD i then
      some ⟨x.val.setWidth 32, x.tag.setWidth 8, x.poison⟩ else none)) = .ok s3 →
    Completes (.xtov tk k d a) tk s s3 (after4 s)) ∧
  (∀ tk k d a s s1 s2 x, Ready (.vtox tk k d a) tk s s1 → Parties s1 [] [d] [a] [] → s1.readV a = .got x s2 →
    let m := s2.hart.mval k
    (m = 0#64 → ∀ s3, (s2.modHart (fun h => h.setP 3#2 true)).putU d ⟨0#64, 24#5, false⟩ = .ok s3 →
      Completes (.vtox tk k d a) tk s s3 (after4 s)) ∧
    (∀ l, l < 64 → m.getLsbD l = true → (∀ i, i < l → m.getLsbD i = false) →
      ∀ s3, (s2.modHart (fun h => h.setP 3#2 false)).putU d
        ⟨(x.lane l).bits.signExtend 64, (x.lane l).tag.setWidth 5, x.poisonOf l⟩ = .ok s3 →
      Completes (.vtox tk k d a) tk s s3 (after4 s))) ∧
  MaskToUniform .mtox (fun m => m) ∧
  (∀ tk d a s s1 s2 x, Ready (.xtom tk d a) tk s s1 → Parties s1 [a] [] [] [] → s1.readU a = .got x s2 →
    Completes (.xtom tk d a) tk s ((s2.note x.poison 1).modHart (fun h => h.setM d x.val)) (after4 s))

/-- R155: vtoxa reads a value that every active lane must hold. Empty mask: 0, p3 := 1. Equal lanes: that value with the least
tag and the poison of all, p3 := 0. Lanes that differ: NONUNIFORM with their bitmap when HSTAT.NUT is 1, else the lowest lane with
p3 := 1. -/
def Sys2Proof.Spec.UniformLanes : Prop :=
  ∀ tk k d a s s1 s2 x, Ready (.vtoxa tk k d a) tk s s1 → Parties s1 [] [d] [a] [] → s1.readV a = .got x s2 →
    let m := s1.hart.mval k
    let out (p3 : Bool) (v : UVal) : Prop := ∀ s3,
      ((s2.note (anyPoison m x) 1).modHart (fun h => h.setP 3#2 p3)).putU d v = .ok s3 →
      Completes (.vtoxa tk k d a) tk s s3 (after4 s)
    (m = 0#64 → out true ⟨0#64, 24#5, false⟩) ∧
    (∀ l, l < 64 → m.getLsbD l = true → (∀ i, i < l → m.getLsbD i = false) →
      let differ (i : Nat) : Prop := m.getLsbD i = true ∧ (x.lane i).bits ≠ (x.lane l).bits
      ((∀ i, i < 64 → ¬ differ i) → ∀ t : Nat,
        (∃ i, i < 64 ∧ m.getLsbD i = true ∧ (x.lane i).tag.toNat % 32 = t) →
        (∀ i, i < 64 → m.getLsbD i = true → t ≤ (x.lane i).tag.toNat % 32) →
        out false ⟨(x.lane l).bits.signExtend 64, BitVec.ofNat 5 t, anyPoison m x⟩) ∧
      ((∃ i, i < 64 ∧ differ i) →
        (s2.hart.nut = true → ∃ w : Word, (∀ i, i < 64 → (w.getLsbD i = true ↔ differ i)) ∧
          exec (.vtoxa tk k d a) s = .next (s1.trapNow 0x0E w)) ∧
        (s2.hart.nut = false → out true ⟨(x.lane l).bits.signExtend 64, (x.lane l).tag.setWidth 5, x.poisonOf l⟩)))

/-- R144: the mask instructions; m0 reads all ones. -/
def Sys2Proof.Spec.MaskInstructions : Prop :=
  MaskBinary .mand (fun m n => m &&& n) ∧ MaskBinary .mor (fun m n => m ||| n) ∧ MaskBinary .mxor (fun m n => m ^^^ n) ∧
  (∀ tk d a s s1, Ready (.mnot tk d a) tk s s1 →
    Completes (.mnot tk d a) tk s (s1.modHart (fun h => h.setM d (~~~(s1.hart.mval a)))) (after4 s)) ∧
  MaskToUniform .mpop (fun m => BitVec.ofNat 64 ((List.range 64).filter (fun i => m.getLsbD i)).length) ∧
  MaskToUniform .mfirst (fun m => BitVec.ofNat 64 (((List.range 64).find? (fun i => m.getLsbD i)).getD 64)) ∧
  ∀ h : Hart, h.mval 0#3 = BitVec.allOnes 64

/-! Vector floating point (R170-R176, R184-R186). -/

/-- R171: the arithmetic forms act element-wise on the active lanes, each element rounded in FCSR.RM. -/
def Sys2Proof.Spec.VectorFloat : Prop :=
  VectorFloatBinary .vfadd .add ∧ VectorFloatBinary .vfsub .sub ∧ VectorFloatBinary .vfmul .mul ∧ VectorFloatBinary .vfdiv .div ∧
  VectorFloatBinary .vfmin .min ∧ VectorFloatBinary .vfmax .max ∧
  VectorFloatTernary .vfma .fma ∧ VectorFloatTernary .vfnma .fnma ∧
  (∀ e, VectorFloatUnary (fun tk k d a => .vfsqrt tk e k d a)
    (fun s k x => vfMap .sqrt e s.hart.dynMode s.hart.thr (s.hart.mval k) x x x))

/-- R172: vfcmp: bit k is 1 when lane k is active and the relation holds for every element; NV as the relations raise it. -/
def Sys2Proof.Spec.VectorFloatCompare : Prop :=
  ∀ tk e c k d a b s s1 s2 s3 x y, Ready (.vfcmp tk e c k d a b) tk s s1 → Parties s1 [] [] [a, b] [] →
    s1.readV a = .got x s2 → s2.readV b = .got y s3 →
    let m := s3.hart.mval k
    let rel (i j : Nat) : Bool × Bool := fRel c (fltFmt e) (elemU (x.lane i).bits e.bits j) (elemU (y.lane i).bits e.bits j)
    ∃ r : Word,
      (∀ i, i < 64 → r.getLsbD i = (m.getLsbD i && (List.range (32 / e.bits)).all (fun j => (rel i j).1))) ∧
      Completes (.vfcmp tk e c k d a b) tk s
        (((s3.raise (if (List.range 64).any (fun i => m.getLsbD i && (List.range (32 / e.bits)).any (fun j => (rel i j).2))
            then .invalid else .none)).note (anyPoison m x || anyPoison m y) 1).modHart (fun h => h.setM d r)) (after4 s)

/-- R173: the conversions of vectors, to float and to integer elements, in mode FCSR.RM. -/
def Sys2Proof.Spec.VectorConvert : Prop :=
  (∀ e sel st, VectorFloatUnary (fun tk k d a => .vcvt tk e k d a sel st)
    (fun s k x => vconvert (vcvtType st.toNat) (.flt (fltFmt e)) s.hart.dynMode s.hart.thr sel.toNat (s.hart.mval k) x)) ∧
  (∀ e sel st, VectorFloatUnary (fun tk k d a => .vcvtI tk e k d a sel st)
    (fun s k x => vconvert (vcvtType st.toNat) (.int true e.bits) s.hart.dynMode s.hart.thr sel.toNat (s.hart.mval k) x))

/-- R174: the float reductions by the tree of R101, and the scan of R102. With an empty mask vred.fadd gives +0 with tag 24, fmin
and fmax the canonical NaN with tag 0. -/
def Sys2Proof.Spec.VectorFloatReductions : Prop :=
  FloatReduction .vredFadd .fadd ∧ FloatReduction .vredFmin .fmin ∧ FloatReduction .vredFmax .fmax ∧
  (∀ e, VectorFloatUnary (fun tk k d a => .vscanFadd tk e k d a)
    (fun s k x => vfScan e s.hart.dynMode s.hart.thr (s.hart.mval k) x)) ∧
  (∀ e mode thr x,
    (vfReduce .fadd e mode thr 0#64 x).code = 0 ∧ (vfReduce .fadd e mode thr 0#64 x).tag = 24 ∧
    (vfReduce .fmin e mode thr 0#64 x).code = 0x7FC00000 ∧ (vfReduce .fmin e mode thr 0#64 x).tag = 0 ∧
    (vfReduce .fmax e mode thr 0#64 x).code = 0x7FC00000 ∧ (vfReduce .fmax e mode thr 0#64 x).tag = 0)

/-- R175: the special functions act on the active lanes and complete, whatever bits R175 leaves open. -/
def Sys2Proof.Spec.SpecialFunctions : Prop :=
  VectorFloatUnary .vexp2 (fun s k x => vSpecial .exp2 s.hart.thr (s.hart.mval k) x) ∧
  VectorFloatUnary .vlog2 (fun s k x => vSpecial .log2 s.hart.thr (s.hart.mval k) x) ∧
  VectorFloatUnary .vrcp (fun s k x => vSpecial .rcp s.hart.thr (s.hart.mval k) x) ∧
  VectorFloatUnary .vrsq (fun s k x => vSpecial .rsq s.hart.thr (s.hart.mval k) x) ∧
  VectorFloatUnary .vsin (fun s k x => vSpecial .sin s.hart.thr (s.hart.mval k) x) ∧
  VectorFloatUnary .vcos (fun s k x => vSpecial .cos s.hart.thr (s.hart.mval k) x)

/-- R184-R186: tags as data. vtsb writes each element's tag as an integer; vtsblt writes a mask bit for an active lane one of
whose elements has a tag below xb; vsettsb copies lanes and sets every element's tag to the lesser of xb and the precision. -/
def Sys2Proof.Spec.TagInstructions : Prop :=
  (∀ e, VectorUnary (fun tk k d a => .vtsb tk e k d a) (fun m x old keep => updateLanes old keep (fun i =>
    if m.getLsbD i then
      some ⟨packElems e.bits ((List.range (32 / e.bits)).map (fun j => min (laneElem e.bits (x.lane i) j).tag (fltFmt e).prec)),
        if e = .f32 then 0x18#8 else 0xBB#8, x.poisonOf i⟩ else none))) ∧
  (∀ tk e k d a b s s1 s2 s3 x y, Ready (.vtsblt tk e k d a b) tk s s1 → Parties s1 [b] [] [a] [] →
    s1.readV a = .got x s2 → s2.readU b = .got y s3 →
    let m := s3.hart.mval k
    ∃ r : Word,
      (∀ i, i < 64 → r.getLsbD i = (m.getLsbD i && (List.range (32 / e.bits)).any (fun j =>
        decide (min (laneElem e.bits (x.lane i) j).tag (fltFmt e).prec < y.val.toNat)))) ∧
      Completes (.vtsblt tk e k d a b) tk s
        ((s3.note (anyPoison m x || y.poison) 1).modHart (fun h => h.setM d r)) (after4 s)) ∧
  (∀ tk e k d a b s s1 s2 s3 s4 x y, Ready (.vsettsb tk e k d a b) tk s s1 → Parties s1 [b] [] [a] [d] →
    s1.readV a = .got x s2 → s2.readU b = .got y s3 →
    s3.putV d (fun old keep => updateLanes old keep (fun i => if (s3.hart.mval k).getLsbD i then
      some ⟨(x.lane i).bits, tagField e.bits (List.replicate (32 / e.bits) (min y.val.toNat (fltFmt e).prec)),
        x.poisonOf i || y.poison⟩ else none)) = .ok s4 →
    Completes (.vsettsb tk e k d a b) tk s s4 (after4 s))
/-! Ports (R123-R125). -/

/-- R123, R125: vportr completes when the data flits that fill the vector, all of one block size, stand at the port: it takes them
and writes the active lanes; a token behind fewer flits ends the vector early, the lanes not filled being 0 with tag field 0x18. A
token at the head is QUEUE_MAP with the port's specifier. -/
def Sys2Proof.Spec.VectorPortRead : Prop :=
  ∀ tk k d sel s s1 item rest, Ready (.vportr tk k d sel) tk s s1 → Parties s1 [] [] [] [d] →
    let p := s1.hart.portOf sel.toNat
    let m := s1.hart.mval k
    s1.portItems p = item :: rest →
    let data := (item :: rest).takeWhile (fun i => i.flit.isData)
    let need := 64 / s1.itemBlock item
    (item.flit.isData = false → exec (.vportr tk k d sel) s = .next (s1.trapNow 0x10 (BitVec.ofNat 64 (28 + sel.toNat)))) ∧
    (item.flit.isData = true → (∀ i ∈ data.take need, s1.itemBlock i = s1.itemBlock item) →
      (need ≤ data.length ∨ data.length < (item :: rest).length) →
      ∀ s2, ((s1.dropPort p (min need data.length)).note ((data.take need).any (fun i => decide (i.flit.kind = 7#3))) 0).putV d
          (fun old keep => updateLanes old keep (fun j => if m.getLsbD j then
            some ⟨((s1.filled (data.take need)).lane j).bits, ((s1.filled (data.take need)).lane j).tag,
              (s1.filled (data.take need)).poisonOf j⟩ else none)) = .ok s2 →
        Completes (.vportr tk k d sel) tk s s2 (after4 s))

/-- R124, R125: vportw sends eight data flits of eight lanes, inactive lanes 0 with tag field 0, on PCHAN's channel and virtual
channel; it retires behind the last one. It completes at once where its sub-stream has room for all, and later from the flits that
are left. -/
def Sys2Proof.Spec.VectorPortWrite : Prop :=
  (∀ tk k sel a s s1 s2 v, Ready (.vportw tk k sel a) tk s s1 → s1.hart.portKey = 0 → Parties s1 [] [] [a] [] →
    s1.readV a = .got v s2 →
    let w := updateLanes VVal.zero18 false (fun j => if (s1.hart.mval k).getLsbD j then
      some ⟨(v.lane j).bits, (v.lane j).tag, v.poisonOf j⟩ else none)
    let key := s1.hart.outKey (slotOf s1.cur) sel.toNat
    let vc := s1.hart.pchan.extractLsb' 1 5
    let fs := flitsOfV w vc (s1.taggedOut (cellOf s1.cur) (s1.hart.portOf sel.toNat) vc.toNat)
    let u := (((s1.hold s2).modHart (fun h => { h with
      chkiv := s2.hart.chkiv, portKey := key + 1, portOut := fs, issued := some (.vportw tk k sel a) })).note
      (w.poison.toList.any (fun b => b)) 3).pushOut
    s1.bufRoom (cellOf s1.cur) key 1 = true → u.hart.portOut = [] → Completes (.vportw tk k sel a) tk s u (after4 s)) ∧
  (∀ tk k sel a s s1, Ready (.vportw tk k sel a) tk s s1 → s1.hart.portKey ≠ 0 → s1.pushOut.hart.portOut = [] →
    Completes (.vportw tk k sel a) tk s s1.pushOut (after4 s)) ∧
  (∀ tk k sel a s s1, Ready (.vportw tk k sel a) tk s s1 → s1.hart.portKey ≠ 0 → s1.pushOut.hart.portOut ≠ [] →
    exec (.vportw tk k sel a) s = .next (s1.pushOut.waiting (.full (s1.hart.portKey - 1))))

/-! Loads (R195-R205). -/

/-- R199, R65: the scalar loads, with widths 1, 2, 4 and 8 bytes, signed and unsigned, and the compressed forms on x2. -/
def Sys2Proof.Spec.ScalarLoadForms : Prop :=
  (∀ tk d a (imm : BitVec 13),
    ScalarLoad (.ldB tk d a imm) tk d a (.scalar 1 true) 1 (imm.signExtend 64) after4 ∧
    ScalarLoad (.ldBu tk d a imm) tk d a (.scalar 1 false) 1 (imm.signExtend 64) after4 ∧
    ScalarLoad (.ldH tk d a imm) tk d a (.scalar 2 true) 2 (imm.signExtend 64) after4 ∧
    ScalarLoad (.ldHu tk d a imm) tk d a (.scalar 2 false) 2 (imm.signExtend 64) after4 ∧
    ScalarLoad (.ldW tk d a imm) tk d a (.scalar 4 true) 4 (imm.signExtend 64) after4 ∧
    ScalarLoad (.ldWu tk d a imm) tk d a (.scalar 4 false) 4 (imm.signExtend 64) after4 ∧
    ScalarLoad (.ldD tk d a imm) tk d a (.scalar 8 true) 8 (imm.signExtend 64) after4) ∧
  (∀ tk d a, ScalarLoad (.ldt tk d a) tk d a .tagged 4 0#64 after4) ∧
  (∀ d (i : BitVec 5),
    ScalarLoad (.cLdd d i) bare d 2#5 (.scalar 8 true) 8 (BitVec.ofNat 64 (i.toNat * 8)) after2 ∧
    ScalarLoad (.cLdw d i) bare d 2#5 (.scalar 4 true) 4 (BitVec.ofNat 64 (i.toNat * 4)) after2)

/-- R200, R201, R211: vld reads 64 lanes from consecutive words, vldx the word that each active lane's signed offset names; a lane
with a poisoned address is suppressed; the lowest misaligned lane is MISALIGN. -/
def Obligations.VectorLoads : Prop :=
  (∀ tk d a (imm : BitVec 13) s s1 s2 x, Ready (.vld tk d a imm) tk s s1 → Parties s1 [] [] [] [d] → s1.readU a = .got x s2 →
    (d.toNat < 28 → s2.hart.vBusy d = false) →
    let ea := x.val + imm.signExtend 64
    let words := (List.range 64).map (fun k => (⟨k, (ea + BitVec.ofNat 64 (4 * k)).toNat, 4⟩ : Access))
    let ranges := words.flatMap (fun w => [(w.va, 4), (shadowOf s2.hart.tagbase w.va, 1)])
    (x.poison = true → ∀ s3, (s2.note true 2).putV d
        (fun _ _ => VVal.ofFn (fun _ => ⟨0#32, 0xFF#8⟩) (fun _ => true)) = .ok s3 → Completes (.vld tk d a imm) tk s s3 (after4 s)) ∧
    (x.poison = false → ea.toNat % 4 ≠ 0 → exec (.vld tk d a imm) s = .next (s1.trapNow 0x05 ea)) ∧
    (x.poison = false → ea.toNat % 4 = 0 → s2.hart.storeOverlap ranges = false → s2.hart.loadOverlap ranges = false →
      ∀ ps s3, s2.place true words = .ok ps → Begins s2 (s2.loadDstV d) (.vector (BitVec.allOnes 64)) ps 0#64 ranges s3 →
        Completes (.vld tk d a imm) tk s s3 (after4 s))) ∧
  (∀ tk k d a b s s1 s2 s3 x idx, Ready (.vldx tk k d a b) tk s s1 → Parties s1 [] [] [] [d] →
    s1.readU a = .got x s2 → s2.readV b = .got idx s3 → (d.toNat < 28 → s3.hart.vBusy d = false) →
    let m := s3.hart.mval k
    let live := (activeLanes m).filter (fun i => !(x.poison || idx.poisonOf i))
    let addr (i : Nat) : Word := x.val + (idx.lane i).bits.signExtend 64
    let words := live.map (fun i => (⟨i, (addr i).toNat, 4⟩ : Access))
    let dead := (activeLanes m).filter (fun i => !live.contains i)
    let u := s3.note (!dead.isEmpty) 2
    let ranges := words.flatMap (fun w => [(w.va, 4), (shadowOf u.hart.tagbase w.va, 1)])
    (∀ i, live.find? (fun i => (addr i).toNat % 4 ≠ 0) = some i → exec (.vldx tk k d a b) s = .next (s1.trapNow 0x05 (addr i))) ∧
    ((∀ i ∈ live, (addr i).toNat % 4 = 0) → u.hart.storeOverlap ranges = false → u.hart.loadOverlap ranges = false →
      ∀ ps s4, u.place true words = .ok ps → Begins u (s3.loadDstV d) (.vector m) ps (maskOf (fun i => dead.contains i)) ranges s4 →
        Completes (.vldx tk k d a b) tk s s4 (after4 s)))

/-- R195, R199, R211: the data of an outstanding scalar load with one piece is there: LOAD_DATA_RETURN writes the register with the
little-endian value of its bytes, sign- or zero-extended, tag 24, and the poison of its word. -/
def Sys2Proof.Spec.LoadDataReturn : Prop :=
  ∀ s h idx (l : Load) (p : Piece) (d : Reg) n sg, (s.hartAt h).loads[idx]? = some l → l.ready = true →
    l.kind = .scalar n sg → l.pieces = [p] → p.shadow = none → p.bytes = n → 1 ≤ n → l.dst = .xreg d → d ≠ 0#5 → d.toNat < 24 →
    let v : Nat := ((List.range n).map (fun i => (l.byte (p.pa + i)).toNat * 256 ^ i)).sum
    ∃ t, exec (.loadDataReturn h idx) s = .next t ∧ t.mem = s.mem ∧
      (t.hartAt h).xval d =
        ⟨if sg ∧ 2 ^ (8 * n - 1) ≤ v then BitVec.ofInt 64 ((v : Int) - 2 ^ (8 * n)) else BitVec.ofNat 64 v, 24#5, l.poisonAt p.pa⟩ ∧
      (∀ r, r ≠ d → (t.hartAt h).xval r = (s.hartAt h).xval r) ∧
      (t.hartAt h).chkiv = (s.hartAt h).chkiv ||| (if l.poisonAt p.pa then 1#5 else 0#5) ∧
      (t.hartAt h).loads.length + 1 = (s.hartAt h).loads.length

/-! Stores (R199-R205, R225, R234). -/

/-- R199, R205, R65: the scalar stores of 1, 2, 4 and 8 bytes, stt with its tag byte, and the compressed forms on x2. -/
def Sys2Proof.Spec.ScalarStores : Prop :=
  (∀ tk b a (imm : BitVec 13),
    ScalarStore (.stB tk b a imm) tk b a 0 1 false (imm.signExtend 64) after4 ∧
    ScalarStore (.stH tk b a imm) tk b a 1 2 false (imm.signExtend 64) after4 ∧
    ScalarStore (.stW tk b a imm) tk b a 2 4 false (imm.signExtend 64) after4 ∧
    ScalarStore (.stD tk b a imm) tk b a 3 8 false (imm.signExtend 64) after4) ∧
  (∀ tk b a, ScalarStore (.stt tk b a) tk b a 2 4 true 0#64 after4) ∧
  (∀ d (i : BitVec 5),
    ScalarStore (.cStd d i) bare d 2#5 3 8 false (BitVec.ofNat 64 (i.toNat * 8)) after2 ∧
    ScalarStore (.cStw d i) bare d 2#5 2 4 false (BitVec.ofNat 64 (i.toNat * 4)) after2)

/-- R200, R201, R225: vst and vstx of a compute hart enter the store path with one part for each lane they move, in lane order,
with the lane's tag field as its tag byte; a suppressed lane has none. -/
def Sys2Proof.Spec.VectorStores : Prop :=
  let part (v : VVal) (addr : Nat → Word) (k : Nat) : StorePart :=
    ⟨k, (addr k).toNat, natBytes 4 (v.lane k).bits.toNat, v.poisonOf k, some (v.lane k).tag⟩
  let covered (s : State) (ps : List StorePart) : List (Nat × Nat) :=
    ps.flatMap (fun p => [(p.va, p.bytes.length), (shadowOf s.hart.tagbase p.va, 1)])
  let queued (s : State) (swid : Nat) (ps : List StorePart) : State :=
    let u := s.note (ps.any (fun p => p.poison)) 3
    if ps = [] then u else u.modHart (fun h => { h with stores := h.stores ++ [⟨swid, ps, h.instret + 1#64⟩] })
  (∀ tk b a (imm : BitVec 13) s s1 s2 s3 x v, Ready (.vst tk b a imm) tk s s1 → Parties s1 [] [] [b] [] →
    s1.readU a = .got x s2 → s2.readV b = .got v s3 →
    let ea := x.val + imm.signExtend 64
    let ps := (List.range 64).map (part v (fun k => ea + BitVec.ofNat 64 (4 * k)))
    (x.poison = true → Completes (.vst tk b a imm) tk s (s3.note true 2) (after4 s)) ∧
    (x.poison = false → ea.toNat % 4 ≠ 0 → exec (.vst tk b a imm) s = .next (s1.trapNow 0x05 ea)) ∧
    (x.poison = false → ea.toNat % 4 = 0 → isStreamer s3.cur = false → s3.hart.stores.length < 8 →
      s3.hart.storeOverlap (covered s3 ps) = false → s3.hart.loadOverlap (covered s3 ps) = false →
      Completes (.vst tk b a imm) tk s (queued s3 4 ps) (after4 s))) ∧
  (∀ tk k d a b s s1 s2 s3 s4 x idx v, Ready (.vstx tk k d a b) tk s s1 → Parties s1 [] [] [d] [] →
    s1.readU a = .got x s2 → s2.readV b = .got idx s3 → s3.readV d = .got v s4 →
    let m := s4.hart.mval k
    let live := (activeLanes m).filter (fun i => !(x.poison || idx.poisonOf i))
    let addr (i : Nat) : Word := x.val + (idx.lane i).bits.signExtend 64
    let u := s4.note (decide (live.length < (activeLanes m).length)) 2
    let ps := live.map (part v addr)
    (∀ i, live.find? (fun i => (addr i).toNat % 4 ≠ 0) = some i → exec (.vstx tk k d a b) s = .next (s1.trapNow 0x05 (addr i))) ∧
    ((∀ i ∈ live, (addr i).toNat % 4 = 0) → isStreamer u.cur = false → u.hart.stores.length < 8 →
      u.hart.storeOverlap (covered u ps) = false → u.hart.loadOverlap (covered u ps) = false →
      Completes (.vstx tk k d a b) tk s (queued u 5 ps) (after4 s)))

/-- R225, R37, R377, R433: STORE_TRANSLATION_DONE takes an untranslated store of a hart, but for the tile stores that wait inside the
matrix engine (R346). Where every part is translated and the commit buffer has room, each byte of a part goes to the physical address
that its access translates to, a later part over an earlier one; no other byte changes, as the hart's region sees memory, nor what
another hart holds. Without room, or behind a store of the hart's cell that waits, the store waits and no byte of memory changes; a turn
of the cell lets it enter once there is room. -/
def Sys2Proof.Spec.StoreTranslation : Prop :=
  (∀ s h idx (st : PendingStore) (wss : List (List (Nat × List Byte))), (s.hartAt h).stores[idx]? = some st →
    st.swid < 8 → st.parts.map (fun p => (s.as h).placePart p) = wss.map PartRes.ok → s.mem.wf →
    let ws := wss.flatten
    let size := (ws.map (fun w => w.2.length)).sum
    let unit := unitOf (cellOf h)
    (s.unentered h = true ∨ s.commitRoom (s.hartAt h).regionId unit size = false →
      ∃ t p, exec (.storeTranslationDone h idx) s = .next t ∧ (t.hartAt h).stores = dropNth (s.hartAt h).stores idx ∧
        (t.cellAt (cellOf h)).parked = (s.cellAt (cellOf h)).parked ++ [p] ∧ p.hart = h ∧ p.writes.map Prod.snd = ws ∧
        t.mem = s.mem ∧ t.regions = s.regions ∧ (∀ k, k ≠ h → t.hartAt k = s.hartAt k) ∧ (t.hartAt h).x = (s.hartAt h).x) ∧
    (s.unentered h = false → s.commitRoom (s.hartAt h).regionId unit size = true →
    ∃ t, exec (.storeTranslationDone h idx) s = .next t ∧ (t.hartAt h).stores = dropNth (s.hartAt h).stores idx ∧
      (∀ a, t.viewByte (s.hartAt h).regionId a =
        ((ws.reverse.find? (fun w => decide (w.1 ≤ a) && decide (a < w.1 + w.2.length))).map (fun w => w.2.getD (a - w.1) 0#8)).getD
          (s.viewByte (s.hartAt h).regionId a)) ∧
      (∀ a, (∀ w ∈ ws, a < w.1 ∨ w.1 + w.2.length ≤ a) → ∀ r, t.viewByte r a = s.viewByte r a) ∧
      (∀ k, k ≠ h → t.hartAt k = s.hartAt k) ∧ (t.hartAt h).x = (s.hartAt h).x ∧ (t.hartAt h).v = (s.hartAt h).v)) ∧
  (∀ (s : State) c p rest, (s.cellAt c).parked = p :: rest →
    (s.commitRoom p.region p.unit p.size = true → rest = [] →
      s.enterParked c = (s.performAs p).modCell c (fun x => { x with parked := [] })) ∧
    (s.commitRoom p.region p.unit p.size = false →
      (s.enterParked c).mem = s.mem ∧ (s.enterParked c).regions = s.regions ∧ ((s.enterParked c).cellAt c).parked = p :: rest))

/-! Ordered forms, atomics, fences (R202, R206-R210). -/

/-- R202, R371, R376: an acquiring load takes its bytes as it completes, those of its region over which stores of its cell that wait for
room lie, and at a scope beyond the cell the lines of its cell's L1 go. -/
def Sys2Proof.Spec.AcquireLoad : Prop :=
  (∀ s : State, s.cell.parked = [] → ∀ pa,
    s.cellData pa = (s.view s.hart.regionId pa 64, (List.range 8).map (fun u => s.viewPoison s.hart.regionId (pa / 8 + u)))) ∧
  ∀ tk (wd : BitVec 3) d a sc s s1 s2 x, Ready (.ldAcq tk wd d a sc) tk s s1 → Parties s1 [] [d] [] [] → s1.readU a = .got x s2 →
    let n := if wd.toNat ≤ 1 then 1 else if wd.toNat ≤ 3 then 2 else if wd.toNat ≤ 5 then 4 else 8
    let sg := decide (wd.toNat % 2 = 0) || decide (wd = 7#3)
    (x.poison = true → ∀ s3, (s2.note true 2).putU d ⟨0#64, 24#5, true⟩ = .ok s3 →
      Completes (.ldAcq tk wd d a sc) tk s s3 (after4 s)) ∧
    (x.poison = false → x.val.toNat % n ≠ 0 → exec (.ldAcq tk wd d a sc) s = .next (s1.trapNow 0x05 x.val)) ∧
    (x.poison = false → x.val.toNat % n = 0 →
      s2.hart.storeOverlap [(x.val.toNat, n)] = false → s2.hart.loadOverlap [(x.val.toNat, n)] = false →
      ∀ pa e, s2.access x.val.toNat true false = .hit pa e → pa % n = 0 →
      let line := s2.cellData (pa / 64 * 64)
      let v := leNat ((line.1.drop (pa % 64)).take n)
      let p := line.2.getD (pa % 64 / 8) false
      let u := if 2 ≤ sc.toNat then s2.dropLines (cellOf s2.cur) else s2.refresh (cellOf s2.cur) s2.hart.regionId [(pa / 64 * 64, 64)]
      ∀ s3, (u.note p 0).putU d
        ⟨if sg ∧ 2 ^ (8 * n - 1) ≤ v then BitVec.ofInt 64 ((v : Int) - 2 ^ (8 * n)) else BitVec.ofNat 64 v, 24#5, p⟩ = .ok s3 →
        Completes (.ldAcq tk wd d a sc) tk s s3 (after4 s))

/-- R202, R210, R429, R433: a releasing store waits for the hart's older accesses, at a scope beyond the cell until they have entered
their commit buffer, then translates, and performs or waits behind its cell's waiting stores; at device or system scope its interval is
marked to be committed. -/
def Sys2Proof.Spec.ReleaseStore : Prop :=
  ∀ tk (wd : BitVec 2) b a sc s s1 s2 s3 x y, Ready (.stRel tk wd b a sc) tk s s1 →
    s1.hart.stores = [] → s1.hart.loads = [] → s1.hart.sfrq = [] → (2 ≤ sc.toNat → s1.cell.parked = [] ∨ s1.draining = true) →
    Parties s1 [b] [] [] [] → s1.readU a = .got x s2 → s2.readU b = .got y s3 →
    let n := 2 ^ wd.toNat
    let part : StorePart := ⟨0, x.val.toNat, natBytes n y.val.toNat, y.poison, none⟩
    let u := s3.note y.poison 3
    (x.poison = true → Completes (.stRel tk wd b a sc) tk s (s3.note true 2) (after4 s)) ∧
    (x.poison = false → x.val.toNat % n ≠ 0 → exec (.stRel tk wd b a sc) s = .next (s1.trapNow 0x05 x.val)) ∧
    (x.poison = false → x.val.toNat % n = 0 → ∀ pa, u.placePart part = .ok [(pa, natBytes n y.val.toNat)] →
      let rs : List (StorePart × PartRes) := [(part, .ok [(pa, natBytes n y.val.toNat)])]
      let room := u.commitRoom u.hart.regionId (unitOf (cellOf u.cur)) n
      (u.cell.parked = [] → room = true →
        Completes (.stRel tk wd b a sc) tk s ((u.performParts rs).noteRelease sc) (after4 s)) ∧
      (u.cell.parked ≠ [] ∨ room = false →
        Completes (.stRel tk wd b a sc) tk s ((u.modCell (cellOf u.cur) (fun c =>
          { c with parked := c.parked ++ [u.translated rs] })).noteRelease sc) (after4 s)))

/-- R207: the eight atomics. -/
def Obligations.Atomics : Prop :=
  Atomic .amoadd (fun w o b _ => some ((o + b) % 2 ^ w)) (fun o b => o || b) ∧
  Atomic .amoand (fun _ o b _ => some (o &&& b)) (fun o b => o || b) ∧
  Atomic .amoor (fun _ o b _ => some (o ||| b)) (fun o b => o || b) ∧
  Atomic .amoxor (fun _ o b _ => some (o ^^^ b)) (fun o b => o || b) ∧
  Atomic .amomin (fun w o b _ => some (if signedOf w b < signedOf w o then b else o)) (fun o b => o || b) ∧
  Atomic .amomax (fun w o b _ => some (if signedOf w o < signedOf w b then b else o)) (fun o b => o || b) ∧
  Atomic .amoswap (fun _ _ b _ => some b) (fun _ b => b) ∧
  Atomic .amocas (fun _ o b d => if o = d then some b else none) (fun _ b => b)

/-- R209, R210, R213, R372, R376, R429, R433: a fence completes once the accesses it orders have ended (and at a scope beyond the cell, once
the hart's stores have entered their commit buffer); fence.rel and fence.ar of device and system scope mark their interval to be
committed, fence.acq and fence.ar of a scope beyond the cell drop the lines of the cell's L1; sdrain completes once the hart's stores are
translated; chkerr reads CHKIV once older loads are in, and its clearing form clears it. -/
def Sys2Proof.Spec.FencesAndPolling : Prop :=
  (∀ tk kk sc s s1, Ready (.fence tk kk sc) tk s s1 → s1.hart.loads = [] →
    (kk = 1#2 ∨ (s1.hart.stores = [] ∧ s1.hart.sfrq = [] ∧ (2 ≤ sc.toNat → s1.unentered s1.cur = false ∨ s1.draining = true))) →
    let u := if kk = 1#2 then s1 else s1.noteRelease sc
    Completes (.fence tk kk sc) tk s (if kk ≠ 2#2 ∧ 2 ≤ sc.toNat then u.dropLines (cellOf u.cur) else u) (after4 s)) ∧
  (∀ tk kk sc s s1, Ready (.fence tk kk sc) tk s s1 → s1.hart.loads = [] → s1.hart.stores = [] → s1.hart.sfrq = [] → kk ≠ 1#2 →
    2 ≤ sc.toNat → s1.unentered s1.cur = true → s1.draining = false → exec (.fence tk kk sc) s = .next (s1.waiting (.full 302))) ∧
  (∀ tk s s1, Ready (.sdrain tk) tk s s1 → s1.hart.stores = [] → s1.hart.sfrq = [] → Completes (.sdrain tk) tk s s1 (after4 s)) ∧
  (∀ tk d s s1 s2, Ready (.chkerr tk d) tk s s1 → s1.hart.loads = [] →
    s1.putU d ⟨s1.hart.chkiv.setWidth 64, 24#5, false⟩ = .ok s2 → Completes (.chkerr tk d) tk s s2 (after4 s)) ∧
  (∀ tk d s s1 s2, Ready (.chkerrClr tk d) tk s s1 → s1.hart.loads = [] →
    (s1.modHart (fun h => { h with chkiv := 0#5 })).putU d ⟨s1.hart.chkiv.setWidth 64, 24#5, false⟩ = .ok s2 →
    Completes (.chkerrClr tk d) tk s s2 (after4 s)) ∧
  (∀ tk s s1, Ready (.sdrain tk) tk s s1 → s1.hart.stores ≠ [] → exec (.sdrain tk) s = .next (s1.waiting .memory))

/-! CSRs, traps and returns (R216-R224). -/

/-- R219, R211: the CSR instructions. csrr reads; csrw, csrs and csrc write xa, OR it in, clear its bits; csrs and csrc return the
old value. A poisoned value is discarded with CHKIV.SYSTEM. Outside a handler a write of the CSRs of handlers traps PRIV. -/
def Sys2Proof.Spec.CsrInstructions : Prop :=
  (∀ tk d n s s1 s2, Ready (.csrr tk d n) tk s s1 → s1.putU d ⟨s1.csrRead n.toNat, 24#5, false⟩ = .ok s2 →
    Completes (.csrr tk d n) tk s s2 (after4 s)) ∧
  (∀ tk a (n : BitVec 11) s s1, handlerCsr n.toNat = true → s1.hart.hnd = false →
    (Ready (.csrw tk a n) tk s s1 → exec (.csrw tk a n) s = .next (s1.trapNow 0x04 (n.setWidth 64))) ∧
    (∀ d, Ready (.csrs tk d a n) tk s s1 → exec (.csrs tk d a n) s = .next (s1.trapNow 0x04 (n.setWidth 64))) ∧
    (∀ d, Ready (.csrc tk d a n) tk s s1 → exec (.csrc tk d a n) s = .next (s1.trapNow 0x04 (n.setWidth 64)))) ∧
  (∀ tk a (n : BitVec 11) s s1 s2 x, (handlerCsr n.toNat = true → s1.hart.hnd = true) → s1.readU a = .got x s2 →
    let old := s2.csrRead n.toNat
    let written (rw w1c : Word) (u : State) : Prop := if x.poison then u = s2.note true 4 else s2.csrWrite n.toNat rw w1c = .ok u
    (∀ u, Ready (.csrw tk a n) tk s s1 → written x.val x.val u → Completes (.csrw tk a n) tk s u (after4 s)) ∧
    (∀ d u v, Ready (.csrs tk d a n) tk s s1 → written (old ||| x.val) x.val u → u.putU d ⟨old, 24#5, false⟩ = .ok v →
      Completes (.csrs tk d a n) tk s v (after4 s)) ∧
    (∀ d u v, Ready (.csrc tk d a n) tk s s1 → written (old &&& ~~~x.val) 0#64 u → u.putU d ⟨old, 24#5, false⟩ = .ok v →
      Completes (.csrc tk d a n) tk s v (after4 s)))

/-- R218: the trap CSRs as written and read: in a handler SSTAT and TVAL keep 64 bits, TCAUSE its fields, TEPC and TVEC bits 51:1;
R160: a write of 5 to 7 leaves FCSR.RM; R187: SIGTHR.THR above 24 stores 24; R31, R131: TKSEL 8 bits, PCHAN 6. -/
def Sys2Proof.Spec.CsrFields : Prop :=
  ∀ (s : State) (v w : Word),
    (∀ t, s.csrWrite 0x001 v w = .ok t → t.csrRead 0x001 = v) ∧ (∀ t, s.csrWrite 0x004 v w = .ok t → t.csrRead 0x004 = v) ∧
    (∀ t, s.csrWrite 0x003 v w = .ok t → t.csrRead 0x003 = v &&& 0xFFFF00000000077F#64) ∧
    (∀ t, s.csrWrite 0x002 v w = .ok t → t.csrRead 0x002 = v &&& 0x000FFFFFFFFFFFFE#64) ∧
    (∀ t, s.csrWrite 0x005 v w = .ok t → t.csrRead 0x005 = v &&& 0x000FFFFFFFFFFFFE#64) ∧
    (∀ t, s.csrWrite 0x010 v w = .ok t → (t.csrRead 0x010).toNat % 32 = v.toNat % 32 ∧
      (t.csrRead 0x010).toNat / 32 = if v.toNat / 32 % 8 ≤ 4 then v.toNat / 32 % 8 else s.hart.fcsr.toNat / 32) ∧
    (∀ t, s.csrWrite 0x011 v w = .ok t → (t.csrRead 0x011).toNat = (if v.getLsbD 8 then 256 else 0) + min (v.toNat % 32) 24) ∧
    (∀ t, s.csrWrite 0x021 v w = .ok t → (t.csrRead 0x021).toNat = v.toNat % 64) ∧
    (∀ t, s.csrWrite 0x022 v w = .ok t → (t.csrRead 0x022).toNat = v.toNat % 256)

/-- R222: a trap of a hart whose stores are all translated, in no handler, with a handler set and no store-fault record, is entered. -/
def Sys2Proof.Spec.TrapEntry : Prop :=
  ∀ (s : State) code value, MayTrap s → Entered s (s.trapNow code value) code value

/-- R222: a trap in a handler (but BAD_SSTAT), or with no handler set, ends the task, and the region's kill record takes it. -/
def Sys2Proof.Spec.TrapWithoutHandler : Prop :=
  ∀ (s : State) code value (g : Region) (ti : TaskInfo), s.hart.stores = [] → s.hart.sfrq = [] →
    s.hart.task = some ti → s.region? ti.region = some g →
    ((s.hart.hnd = true ∧ code ≠ 0x03) ∨ (s.hart.hnd = false ∧ s.hart.tvec = 0#64)) →
    let t := s.trapNow code value
    t.hart.task = none ∧ t.hart.hnd = false ∧ (isStreamer s.cur = false → t.mem = s.mem) ∧
      ∃ g', t.region? ti.region = some g' ∧ (s.cur, code) ∈ g'.kills ∧ g'.killed = min (g.killed + 1) 65535

/-- R224, R222: ecall, ebreak and c.ebreak take the traps ECALL (0x07) and BREAK (0x06) with value 0: their effect is that entry, after
the W pop. -/
def Sys2Proof.Spec.CallsAndBreaks : Prop :=
  ∀ tk s s1, MayTrap s1 →
    (Ready (.ecall tk) tk s s1 → ∃ t, exec (.ecall tk) s = .next t ∧ Entered s1 t 0x07 0#64) ∧
    (Ready (.ebreak tk) tk s s1 → ∃ t, exec (.ebreak tk) s = .next t ∧ Entered s1 t 0x06 0#64) ∧
    (Ready .cEbreak bare s s1 → ∃ t, exec .cEbreak s = .next t ∧ Entered s1 t 0x06 0#64)

/-- R223, R236: tret in a handler restores NUT and SIGTHR.EN from SSTAT, clears HND and goes to TEPC; outside a handler it traps
ILL_TRET (0x02), with reserved SSTAT bits BAD_SSTAT (0x03) with SSTAT. -/
def Sys2Proof.Spec.TrapReturn : Prop :=
  ∀ tk s s1, Ready (.tret tk) tk s s1 →
    (s1.hart.hnd = true → s1.hart.sstat.toNat < 4 → isStreamer s1.cur = false →
      Completes (.tret tk) tk s (s1.modHart (fun h => { h with
        sigEn := h.sstat.getLsbD 1, nut := h.sstat.getLsbD 0, hnd := false })) s1.hart.tepc) ∧
    (s1.hart.hnd = true → s1.hart.sstat.toNat < 4 → isStreamer s1.cur = true →
      Completes (.tret tk) tk s (s1.modHart (fun h => { h with hnd := false })) s1.hart.tepc) ∧
    (s1.hart.hnd = false → exec (.tret tk) s = .next (s1.trapNow 0x02 0#64)) ∧
    (s1.hart.hnd = true → 4 ≤ s1.hart.sstat.toNat → exec (.tret tk) s = .next (s1.trapNow 0x03 s1.hart.sstat))

/-- R43, R66, R67, R222: bits that decode to no instruction are ILLEGAL with those bits as value, and a fetch that faults is FETCH_PAGE
with the parcel's address, where no trap is due before: their effect is that entry. R66: ILLEGAL is also the trap of an instruction that
the class of the hart does not have. -/
def Sys2Proof.Spec.FailedFetch : Prop :=
  (∀ (w : BitVec 32) s, s.dueTrap = none → exec (.illegal w) s = .next (s.trapNow 0x01 (w.setWidth 64)) ∧
    (MayTrap s → ∃ t, exec (.illegal w) s = .next t ∧ Entered s t 0x01 (w.setWidth 64))) ∧
  (∀ (a : Word) s, s.dueTrap = none → exec (.fetchPage a) s = .next (s.trapNow 0x0C a) ∧
    (MayTrap s → ∃ t, exec (.fetchPage a) s = .next t ∧ Entered s t 0x0C a)) ∧
  (∀ tk d a b s, s.dueTrap = none → isStreamer s.cur = true →
    exec (.fadd tk 0#3 d a b) s = .next (s.trapNow 0x01 (instrWord (.fadd tk 0#3 d a b)))) ∧
  (∀ tk a b s, s.dueTrap = none → isStreamer s.cur = false →
    exec (.strm tk a b) s = .next (s.trapNow 0x01 (instrWord (.strm tk a b))))

/-- R128: qtest writes whether something stands at a queue or port, qtok reads its kind (0 for data); neither pops. -/
def Sys2Proof.Spec.QueueTests : Prop :=
  (∀ tk p q s s1, Ready (.qtest tk p q) tk s s1 → (q.toNat < 4 → s1.badSrcU (3#2 ++ q) = false) →
    Completes (.qtest tk p q) tk s (s1.modHart (fun h => h.setP p (s1.headKind q).isSome)) (after4 s)) ∧
  (∀ tk d q s s1 s2 k, Ready (.qtok tk d q) tk s s1 → (q.toNat < 4 → s1.badSrcU (3#2 ++ q) = false) → s1.headKind q = some k →
    s1.putU d ⟨BitVec.ofNat 64 k, 24#5, false⟩ = .ok s2 → Completes (.qtok tk d q) tk s s2 (after4 s))
/-! Groups and exchange (R189-R194, R230, R231). -/

/-- R190, R32: the JOIN that makes a group complete retires with its GID: bit 31, its rank by hart ID, size less 1, the ID; the others
wait, recorded as members, and in the same clk get theirs and retire, or, while their token has no room, retire with the end of the JOIN
that stands for them. Bad operands trap GROUP with their reason. -/
def Sys2Proof.Spec.JoinGroup : Prop :=
  ∀ tk a b s s1 s2 s3 x y, Ready (.join tk a b) tk s s1 → s1.readU a = .got x s2 → s2.readU b = .got y s3 → s3.draining = false →
    let g := x.val.toNat
    let n := y.val.toNat
    let u := s3.note (x.poison || y.poison) 4
    let gid (h : Nat) (members : List Nat) : Word := BitVec.ofNat 64 (2 ^ 31 + indexOfNat h members * 2 ^ 16 + (n - 1) * 2 ^ 8 + g)
    (u.hart.stage ≠ .arrived → (63 < g ∨ n = 0 ∨ 256 < n) → exec (.join tk a b) s = .next (s1.trapNow 0x0F 1#64)) ∧
    (u.hart.stage ≠ .arrived → g ≤ 63 → 1 ≤ n → n ≤ 256 → u.hart.gid.getLsbD 31 = true →
      exec (.join tk a b) s = .next (s1.trapNow 0x0F 2#64)) ∧
    (u.hart.stage ≠ .arrived → g ≤ 63 → 1 ≤ n → n ≤ 256 → u.hart.gid.getLsbD 31 = false →
      let k := (u.group g).getD ⟨n, [], false, [], [], [], false, []⟩
      let k' := { k with members := insertNat u.cur k.members }
      ((k.size ≠ n ∨ k.complete = true) → exec (.join tk a b) s = .next (s1.trapNow 0x0F 3#64)) ∧
      (k.size = n → k.complete = false → k'.members.length = n →
        let t := u.completeJoin g k'
        Completes (.join tk a b) tk s t (after4 s) ∧ t.mem = s.mem ∧
        (k'.members.Nodup → (∀ h ∈ k'.members, (t.hartAt h).gid = gid h k'.members) ∧
          (∀ h ∈ k'.members, h ≠ u.cur → (u.hartAt h).sBit = false →
            (t.hartAt h).pc = (u.hartAt h).pc + 4#64 ∧ (t.hartAt h).stage = .fresh))) ∧
      (k.size = n → k.complete = false → k'.members.length ≠ n →
        exec (.join tk a b) s = .next (((s1.setGroup g k').modHart (fun h =>
          { h with stage := .arrived, sBit := tk.s })).waiting .group))) ∧
    (u.hart.stage = .arrived → ∀ v t, u.takeVerdict g = some (v, t) → Completes (.join tk a b) tk s t (after4 s))

/-- R191, R192, R194: leave ends membership and clears GID. A member's k-th GBAR since JOIN is complete once every other member has
executed its k-th: the last of them retires with p3 = 0 and leaves the verdict 0 for each member that waits in an instance so complete; a
member that waits retires with p3 telling whether the instance was broken. Both trap GROUP with reason 4 outside their group. -/
def Sys2Proof.Spec.LeaveAndBarrier : Prop :=
  (∀ tk a s s1 s2 x, Ready (.leave tk a) tk s s1 → s1.readU a = .got x s2 →
    let u := s2.note x.poison 4
    ((u.hart.gid.getLsbD 31 = false ∨ x.val.toNat ≠ u.hart.gid.toNat % 64) →
      exec (.leave tk a) s = .next (s1.trapNow 0x0F 4#64)) ∧
    (u.hart.gid.getLsbD 31 = true → x.val.toNat = u.hart.gid.toNat % 64 →
      Completes (.leave tk a) tk s ((u.modRegion u.hart.regionId (fun r => r.leaveGroup u.cur x.val.toNat false)).modHart
        (fun h => { h with gid := 0#64 })) (after4 s))) ∧
  (∀ tk a s s1 s2 x, Ready (.gbar tk a) tk s s1 → s1.hart.stores = [] → s1.hart.loads = [] → s1.hart.sfrq = [] →
    s1.unentered s1.cur = false →
    s1.readU a = .got x s2 → s2.draining = false →
    let u := s2.note x.poison 4
    let g := x.val.toNat
    (u.hart.stage ≠ .arrived → (u.hart.gid.getLsbD 31 = false ∨ g ≠ u.hart.gid.toNat % 64) →
      exec (.gbar tk a) s = .next (s1.trapNow 0x0F 4#64)) ∧
    (u.hart.stage ≠ .arrived → u.hart.gid.getLsbD 31 = true → g = u.hart.gid.toNat % 64 → ∀ k, u.group g = some k →
      (∀ v ∈ k.verdicts, v.1 ≠ u.cur) →
      let count (m : Nat) : Nat := if m = u.cur then k.barCount m + 1 else k.barCount m
      let through (h : Nat) : Bool := k.members.all (fun m => decide (count h ≤ count m))
      let there := insertNat u.cur k.atBar
      let k' : Group := { k with
        bars := insertAt u.cur (k.barCount u.cur + 1) k.bars, atBar := there.filter (fun h => !through h) }
      let told := (there.filter (fun h => through h && decide (h ≠ u.cur))).map (fun h => (h, (0, [])))
      let left : Group := { k' with verdicts := k.verdicts ++ told }
      (through u.cur = true → Completes (.gbar tk a) tk s
        ((u.setGroup g left).acquired.modHart (fun h => h.setP 3#2 false)) (after4 s)) ∧
      (through u.cur = false → exec (.gbar tk a) s = .next (((s1.setGroup g left).modHart (fun h =>
          { h with stage := .arrived })).waiting .group))) ∧
    (u.hart.stage = .arrived → ∀ code data t, u.takeVerdict g = some ((code, data), t) →
      Completes (.gbar tk a) tk s (t.acquired.modHart (fun h => h.setP 3#2 (decide (code ≠ 0)))) (after4 s)))

/-- R193: the last member to reach a VEXCH with the members' one chunk size c: lane j·c + i of vd is lane r·c + i of member j, with
its tag field, for the members in ascending hart IDs and r its own rank; the other lanes of a register stay, and p3 is 0. -/
def Obligations.VectorExchange : Prop :=
  ∀ tk d a b s s1 s2 s3 v y (k : Group), Ready (.vexch tk d a b) tk s s1 → Parties s1 [] [] [a] [d] →
    s1.readV a = .got v s2 → s2.readU b = .got y s3 → s3.draining = false →
    s1.hart.stage ≠ .arrived → s1.hart.gid.getLsbD 31 = true → s1.group (s1.hart.gid.toNat % 64) = some k → k.left = false →
    let c := y.val.toNat
    c ∈ [1, 2, 4, 8, 16, 32, 64] → k.size * c ≤ 64 → k.verdicts = [] →
    let all := k.atExch ++ [(s1.cur, (c, v))]
    (∀ p ∈ all, p.2.1 = c) → (∀ m ∈ k.members, ∃ p ∈ all, p.1 = m) → (∀ p ∈ k.atExch, p.1 ≠ s1.cur) →
    let data := sortBy (fun p => p.1) all
    let rest : Group := { k with atExch := [], verdicts := k.atExch.map (fun p => (p.1, (0, all))) }
    ∀ s4, ((s3.setGroup (s1.hart.gid.toNat % 64) rest).modHart (fun h => h.setP 3#2 false)).putV d (fun old keep =>
        updateLanes old keep (fun l => if l < data.length * c then
          let w := ((data[l / c]?).map (fun p => p.2.2)).getD VVal.zero18
          let i := bits s3.hart.gid.toNat 23 16 * c + l % c
          some ⟨(w.lane i).bits, (w.lane i).tag, w.poisonOf i⟩ else none)) = .ok s4 →
      Completes (.vexch tk d a b) tk s s4 (after4 s)

/-- R230, R231: gkill outside a handler is PRIV with the instruction word; of a group that does not exist it sets p3, but clears it where
another gkill has ended that group in the same clk; of a group of which the hart is no member it ends every member's task as a killed one
and clears p3; of its own group it retires and ends with them. -/
def Sys2Proof.Spec.KillGroup : Prop :=
  ∀ tk a s s1, Ready (.gkill tk a) tk s s1 →
    (s1.hart.hnd = false → exec (.gkill tk a) s = .next (s1.trapNow 0x04 (instrWord (.gkill tk a)))) ∧
    (s1.hart.hnd = true → s1.hart.stores = [] → s1.hart.sfrq = [] → ∀ s2 x, s1.readU a = .got x s2 →
      let u := s2.note x.poison 4
      let g := x.val.toNat
      let r := u.hart.regionId
      let freed (q : Region) : Region := { q with groups := removeAt g q.groups, killedNow := insertNat g q.killedNow }
      ((63 < g ∨ u.group g = none) →
        Completes (.gkill tk a) tk s (u.modHart (fun h => h.setP 3#2 (!u.myRegion.killedNow.contains g))) (after4 s)) ∧
      (g ≤ 63 → ∀ k, u.group g = some k → u.cur ∉ k.members →
        Completes (.gkill tk a) tk s
          ((k.members.foldl (fun t m => t.endMember m (some 0)) (u.modHart (fun h => h.setP 3#2 false))).modRegion r freed)
          (after4 s)) ∧
      (g ≤ 63 → ∀ k, u.group g = some k → u.cur ∈ k.members → ∀ t, u.pushS tk = some t →
        exec (.gkill tk a) s = .next
          ((k.members.foldl (fun t m => t.endMember m (some (if m = u.cur then u.hart.tcause.toNat % 128 else 0)))
            (t.retire (t.hart.pc + 4#64))).modRegion r freed)))

/-! Tasks, events, messages (R384-R414). -/

/-- R384, R399, R400: evset adds its bit to the bits that the clk sets, once older stores are translated; evclr adds it to those it
clears; wfe completes when its bit is set, which is an acquire, else it waits. -/
def Sys2Proof.Spec.EventInstructions : Prop :=
  (∀ tk n s s1, Ready (.evset tk n) tk s s1 → s1.hart.stores = [] → s1.hart.loads = [] → s1.hart.sfrq = [] →
    s1.unentered s1.cur = false → s1.draining = false →
    Completes (.evset tk n) tk s (s1.setEvents s1.myBay (1#256 <<< n.toNat) (some s1.cur)) (after4 s)) ∧
  (∀ tk n s s1, Ready (.evclr tk n) tk s s1 →
    Completes (.evclr tk n) tk s (s1.modBay s1.myBay (fun b => { b with clrs := b.clrs ||| 1#256 <<< n.toNat })) (after4 s)) ∧
  (∀ tk n s s1, Ready (.wfe tk n) tk s s1 →
    ((s1.bayAt s1.myBay).events.getLsbD n.toNat = true → s1.draining = false →
      Completes (.wfe tk n) tk s (s1.dropLines (cellOf s1.cur)) (after4 s)) ∧
    (s1.draining = true → Completes (.wfe tk n) tk s s1 (after4 s)) ∧
    ((s1.bayAt s1.myBay).events.getLsbD n.toNat = false → s1.draining = false →
      exec (.wfe tk n) s = .next (s1.waiting .event)))

/-- R384: the event bits of a bay at the end of a clk: what starts consumed and evclr cleared leaves, then what was set comes. -/
def Sys2Proof.Spec.EventBitsOfAClk : Prop :=
  ∀ (s : State) b n, n < 256 →
    (s.bayAt b).clock.events.getLsbD n =
      ((s.bayAt b).sets.getLsbD n || ((s.bayAt b).events.getLsbD n && !(s.bayAt b).cons.getLsbD n && !(s.bayAt b).clrs.getLsbD n)) ∧
    (s.bayAt b).clock.sets = 0#256 ∧ (s.bayAt b).clock.cons = 0#256 ∧ (s.bayAt b).clock.clrs = 0#256

/-- R398, R264, R296: texit and c.texit, once older stores are translated and, in a streamer, every slot is EMPTY or IDLE and the EOS of
each ring whose last counted producer it ends is in: the token is pushed, the task's set mask is added to the event bits, INSTRET counts
it, and the hart is idle from the next clk. -/
def Sys2Proof.Spec.TaskExit : Prop :=
  ∀ s s1 ti, s1.hart.task = some ti → s1.hart.stores = [] → s1.hart.loads = [] → s1.hart.sfrq = [] → s1.unentered s1.cur = false →
    (isStreamer s1.cur = true → ∀ k, k < 8 → (s1.hart.slot k).state = .empty ∨ (s1.hart.slot k).state = .idle) →
    s1.hart.gid.getLsbD 31 = false → s1.draining = false →
    let w := if isStreamer s1.cur then s1.leaveRings s1.cur else s1
    w.eosWaits w.cur = [] →
    (∀ tk, Ready (.texit tk) tk s s1 → ∀ t, w.pushS tk = some t → ∃ u, exec (.texit tk) s = .next u ∧
      u.hart.task = none ∧ u.hart.idleFrom = s.clk + 1 ∧ u.hart.lastCtx = some ti.ctx ∧ u.hart.instret = s.hart.instret + 1#64 ∧
      u.hart.pc = s.hart.pc + 4#64 ∧ u.hart.x = s.hart.x ∧
      (u.bayAt s1.myBay).sets = (s1.bayAt s1.myBay).sets ||| ti.setMask ∧ (isStreamer s1.cur = false → u.mem = s.mem)) ∧
    (Ready .cTexit bare s s1 → ∃ u, exec .cTexit s = .next u ∧
      u.hart.task = none ∧ u.hart.idleFrom = s.clk + 1 ∧ u.hart.instret = s.hart.instret + 1#64 ∧ u.hart.pc = s.hart.pc + 2#64 ∧
      (u.bayAt s1.myBay).sets = (s1.bayAt s1.myBay).sets ||| ti.setMask)

/-- R397, R386: tspawn of a well-formed record, which it reads once, as it issues, puts it into the store of the hart's own bay when it
names that bay and there is room, for which it waits with the record it has read, or sends it there; a target outside the region or a
malformed record is BAD_OPERAND. -/
def Sys2Proof.Spec.TaskSpawn : Prop :=
  ∀ tk a b s s1 s2 s3 x y, Ready (.tspawn tk a b) tk s s1 → s1.draining = false →
    s1.hart.stores = [] → s1.hart.loads = [] → s1.hart.sfrq = [] → s1.unentered s1.cur = false →
    s1.readU a = .got x s2 → s2.readU b = .got y s3 →
    let u := s3.note (x.poison || y.poison) 4
    let v := y.val.toNat
    let bay := if v / 256 % 2 = 1 then u.myBay else v % 256
    let bad := 512 ≤ v ∨ (v / 256 % 2 = 1 ∧ v % 256 ≠ 0) ∨ 192 ≤ bay ∨ u.myRegion.hasBay bay = false
    (bad → exec (.tspawn tk a b) s = .next (s1.trapNow 0x0A y.val)) ∧
    (¬ bad → x.val.toNat % 64 ≠ 0 → exec (.tspawn tk a b) s = .next (s1.trapNow 0x05 x.val)) ∧
    (¬ bad → x.val.toNat % 64 = 0 → ∀ bs ps,
      (u.hart.record = some (bs, ps) ∨ (u.hart.record = none ∧ ∃ d1 p1, u.readDword (x.val.toNat + 8) = .ok (d1, p1) ∧
        u.readNow x.val.toNat (if bits d1.toNat 4 4 = 1 then 64 else 128) = .ok (bs, ps))) →
      (∀ k, recordBad bay bs = some k → exec (.tspawn tk a b) s = .next (s1.trapNow 0x0A (x.val + BitVec.ofNat 64 (8 * k)))) ∧
      (recordBad bay bs = none →
        let w := u.note (ps.any (fun p => p)) 4
        let iv := w.interval w.hart.regionId w.cur
        (bay = w.myBay → (w.bayAt bay).hasRoom = true →
          Completes (.tspawn tk a b) tk s (w.enterRecord bay (parseRecord 0 w.hart.ctxId w.hart.regionId iv none bs ps)) (after4 s)) ∧
        (bay = w.myBay → (w.bayAt bay).hasRoom = false → exec (.tspawn tk a b) s =
          .next ((s1.modHart (fun h => { h with record := some (bs, ps) })).waiting (.full 300))) ∧
        (bay ≠ w.myBay →
          Completes (.tspawn tk a b) tk s
            (w.send ⟨5, false, 0, taskUnitCell bay, cellOf w.cur, w.hart.ctxId, slotOf w.cur, iv, bs, ps⟩) (after4 s))))

/-- R410, R411: send of a well-formed message without a completion object, to an engine of the region whose inbox has room, sends
the 64 bytes; a bad target or a malformed dword is BAD_OPERAND. -/
def Sys2Proof.Spec.SendMessage : Prop :=
  ∀ tk a b s s1 s2 s3 x y, Ready (.send tk a b) tk s s1 → s1.draining = false →
    s1.hart.stores = [] → s1.hart.loads = [] → s1.hart.sfrq = [] → s1.unentered s1.cur = false →
    s1.readU a = .got x s2 → s2.readU b = .got y s3 →
    let u := s3.note (x.poison || y.poison) 4
    let v := y.val.toNat
    let kind := v / 2 ^ 14 % 4
    let target := v % 4096
    let good := v < 65536 ∧ v / 4096 % 4 = 0 ∧
      ((kind = 0 ∧ isM target = true ∧ u.myRegion.hasCell target = true) ∨
       (kind = 1 ∧ target < 192 ∧ u.myRegion.hasBay target = true))
    (¬ good → exec (.send tk a b) s = .next (s1.trapNow 0x0A y.val)) ∧
    (good → x.val.toNat % 64 ≠ 0 → exec (.send tk a b) s = .next (s1.trapNow 0x05 x.val)) ∧
    (good → x.val.toNat % 64 = 0 → ∀ bs ps, u.readNow x.val.toNat 64 = .ok (bs, ps) → (∀ p ∈ ps, p = false) →
      let bad := if kind = 0 then copyBad (dwordOf bs) else collectiveBad (dwordOf bs);
      (∀ k, bad = some k → exec (.send tk a b) s =
        .next ((s1.note (x.poison || y.poison) 4).trapNow 0x0A (x.val + BitVec.ofNat 64 (8 * k)))) ∧
      (bad = none → dwordOf bs 1 = 0 → u.inboxLoad kind target < u.inboxCap kind target →
        Completes (.send tk a b) tk s
          (u.send ⟨6, false, 0, if kind = 0 then target else taskUnitCell target, cellOf u.cur, u.hart.ctxId, 0,
            kind * 65536 + u.cur, bs, []⟩) (after4 s)) ∧
      (bad = none → dwordOf bs 1 = 0 → u.inboxCap kind target ≤ u.inboxLoad kind target →
        exec (.send tk a b) s = .next (s1.waiting (.full 301))))

/-- R374, R414: waitc, which reads past the L1 and is an acquire, completes when the count dword, read as a signed number, is at most 0, and waits while it is above. -/
def Sys2Proof.Spec.WaitCompletion : Prop :=
  ∀ tk a s s1 s2 x, Ready (.waitc tk a) tk s s1 → s1.readU a = .got x s2 → s2.draining = false →
    (x.poison = true → Completes (.waitc tk a) tk s (s2.note true 2) (after4 s)) ∧
    (x.poison = false → x.val.toNat % 8 ≠ 0 → exec (.waitc tk a) s = .next (s1.trapNow 0x05 x.val)) ∧
    (x.poison = false → x.val.toNat % 8 = 0 → s2.hart.storeOverlap [(x.val.toNat, 8)] = false →
      ∀ v p, s2.acquired.readDword x.val.toNat = .ok (v, p) →
        (v.toInt ≤ 0 → Completes (.waitc tk a) tk s s2.acquired (after4 s)) ∧
        (0 < v.toInt → exec (.waitc tk a) s = .next (s1.waiting .completion)))

/-- R440, R441: shadow of an installed image of the same placement, other than the active one, with no swap under way, starts
its fetch in every cell; recfg of the shadow's ID requests the switch wave, another operand is BAD_OPERAND. -/
def Obligations.Reconfiguration : Prop :=
  (∀ tk a s s1 s2 x im, Ready (.shadow tk a) tk s s1 → s1.readU a = .got x s2 → s2.draining = false →
    let u := s2.note x.poison 4
    1 ≤ x.val.toNat → x.val.toNat < 256 → x.val.toNat ≠ u.myRegion.acfg → u.myImage x.val.toNat = some im →
    u.myRegion.sws ≠ 3 → im.place = [u.myRegion.bx, u.myRegion.by', u.myRegion.bw, u.myRegion.bh] →
    Completes (.shadow tk a) tk s (u.startShadow u.hart.regionId x.val.toNat) (after4 s)) ∧
  (∀ tk a s s1 s2 x, Ready (.recfg tk a) tk s s1 → s1.readU a = .got x s2 → s2.draining = false →
    let u := s2.note x.poison 4
    (x.val.toNat < 256 → u.myRegion.scfg ≠ 0 → x.val.toNat = u.myRegion.scfg →
      Completes (.recfg tk a) tk s
        (u.modRegion u.hart.regionId (fun g => { g with requested := some (g.requested.getD (g.interval u.cur)) })) (after4 s)) ∧
    (256 ≤ x.val.toNat ∨ u.myRegion.scfg = 0 ∨ x.val.toNat ≠ u.myRegion.scfg →
      exec (.recfg tk a) s = .next (s1.trapNow 0x0A x.val)))
/-! The matrix engine (R331-R357). -/

/-- R342, R344, R337, R345: tld and the pool forms check the tile's shape as the work that waits leaves it, its address or its pool
slot, and name a barrier object; the engine is given the bytes as the hart's cell sees them. A load that is done stands in the tile with
the tags of its format and its sums, not stale, and its delivery is outstanding. -/
def Sys2Proof.Spec.TileLoads : Prop :=
  (∀ tk d a b s s1 s2 s3 x y, Ready (.tld tk d a b) tk s s1 → s1.readU a = .got x s2 → s2.readU b = .got y s3 →
    let bad := x.poison || y.poison
    let u := s3.note bad 4
    let v := u.mxe.nextShape d.toNat
    let n := shpBytes v + shpScales v
    (shpLegal v = false →
      exec (.tld tk d a b) s = .next ((s1.note bad 4).trapNow 0x11 (BitVec.ofNat 64 (d.toNat * 256 + 1)))) ∧
    (shpLegal v = true → x.val.toNat % 32 ≠ 0 → exec (.tld tk d a b) s = .next ((s1.note bad 4).trapNow 0x05 x.val)) ∧
    (shpLegal v = true → x.val.toNat % 32 = 0 → u.hart.storeOverlap [(x.val.toNat, n)] = false →
      ∀ ps bar, u.rangePas (n + 1) x.val.toNat n = .ok ps → Barrier u y.val bar →
        let bytes := ps.flatMap (fun p => (List.range p.2).map (fun i => u.cellByte (cellOf u.cur) u.hart.regionId (p.1 + i)))
        let data := (bytes.map Prod.fst).take (shpBytes v)
        let scales := (bytes.map Prod.fst).drop (shpBytes v)
        GivesWork (.tld tk d a b) tk s u (.tld d.toNat data scales (tileUnits (shpBytes v) bytes) none bar none)
          (u.acceptTld d.toNat data scales (tileUnits (shpBytes v) bytes) none bar none))) ∧
  PoolTileLoad .tldH true ∧ PoolTileLoad .tldHk false ∧
  (∀ (s : State) c r pa, (s.cellAt c).parkedAt (pa / 64 * 64) 64 = false → s.cellByte c r pa = (s.viewByte r pa, s.viewPoison r (pa / 8))) ∧
  (∀ (s : State) (t : TReg) data scales poison sums bar pool,
    let u := s.acceptTld t.toNat data scales poison sums bar pool
    let v := s.mxe.shape t.toNat
    let y := u.mxe.tile t.toNat
    (∀ k, y.data.byte k = data.getD k 0#8) ∧ (∀ k, y.scales.byte k = scales.getD k 0#8) ∧ y.stale = false ∧
    (∀ i, i < 64 → y.rowTag i = fmtPrec (shpFmt v)) ∧ (sums = none → y.sums v = y.trueSums v) ∧
    (∀ j : TReg, j ≠ t → u.mxe.tile j.toNat = s.mxe.tile j.toNat) ∧ u.mem = s.mem ∧ (∀ h, u.hartAt h = s.hartAt h) ∧
    u.mxe.pending = s.mxe.pending ++
      [⟨t.toNat, s.cur, data.length + scales.length, bar, pool, sums.any (fun w => decide (w ≠ y.trueSums v))⟩])

/-- R342, R343: a part of the bytes of an accepted tile load arrives, as many as the model's free value says (assumption 32): the
barrier object is lowered by them, and the load is done with the last. -/
def Sys2Proof.Spec.TileDelivery : Prop :=
  ∀ s cell (t : TReg) i (p : PendingTld),
    findNth (fun q => decide (q.tile = t.toNat)) (s.cellAt cell).mxe.pending 0 = some (i, p) → 1 ≤ p.left →
    s.cellMoves cell = true → p.pool = none →
    (∀ pa, p.barrier = some pa → s.commitRoom (s.cellRegion cell) (unitOf cell) 8 = true ∧ (s.cellAt cell).parkedAt pa 8 = false) →
    ∃ u n, exec (.tldDelivery cell t) s = .next u ∧ 1 ≤ n ∧ n ≤ p.left ∧
      (u.cellAt cell).mxe.pending = (if n = p.left then dropNth (s.cellAt cell).mxe.pending i
        else setNth (s.cellAt cell).mxe.pending i { p with left := p.left - n }) ∧
      (∀ r a, (∀ pa, p.barrier = some pa → a < pa ∨ pa + 8 ≤ a) → u.viewByte r a = s.viewByte r a) ∧
      (∀ pa, p.barrier = some pa →
        leNat (u.view (s.cellRegion cell) pa 8) = (leNat (s.view (s.cellRegion cell) pa 8) + 2 ^ 64 - n) % 2 ^ 64) ∧
      (∀ h, u.hartAt h = s.hartAt h)

/-- R332, R337, R338, R346, R347: tzero, tcsum, tst and tcchk check the tile's shape as the work that waits leaves it: one that is not
legal is TILE_SHAPE with operand and reason 1. The first three give the engine their work, a tile store once its places are translated;
one that waits stays an older store of its hart. tcchk waits until nothing is under way with its tile, and tells whether its sidecar is
right. -/
def Sys2Proof.Spec.TileRegisters : Prop :=
  (∀ tk (d : TReg) s s1, Ready (.tzero tk d) tk s s1 →
    (shpLegal (s1.mxe.nextShape d.toNat) = false →
      exec (.tzero tk d) s = .next (s1.trapNow 0x11 (BitVec.ofNat 64 (d.toNat * 256 + 1)))) ∧
    (shpLegal (s1.mxe.nextShape d.toNat) = true → GivesWork (.tzero tk d) tk s s1 (.tzero d.toNat) (s1.tzeroWork d.toNat))) ∧
  (∀ tk (d : TReg) s s1, Ready (.tcsum tk d) tk s s1 →
    (shpLegal (s1.mxe.nextShape d.toNat) = false →
      exec (.tcsum tk d) s = .next (s1.trapNow 0x11 (BitVec.ofNat 64 (d.toNat * 256 + 1)))) ∧
    (shpLegal (s1.mxe.nextShape d.toNat) = true → GivesWork (.tcsum tk d) tk s s1 (.tcsum d.toNat) (s1.tcsumWork d.toNat))) ∧
  (∀ tk p (a : TReg) s s1, Ready (.tcchk tk p a) tk s s1 →
    let v := s1.mxe.nextShape a.toNat
    let t := s1.mxe.tile a.toNat
    let poison := (List.range ((shpBytes v + 7) / 8)).any t.data.poisoned
    (shpLegal v = false → exec (.tcchk tk p a) s = .next (s1.trapNow 0x11 (BitVec.ofNat 64 (a.toNat * 256 + 1)))) ∧
    (shpLegal v = true → s1.tileAtRest (cellOf s1.cur) a.toNat = true →
      Completes (.tcchk tk p a) tk s (((s1.note poison 0).note poison 1).modHart
        (fun h => h.setP p (decide (t.stale = false ∧ t.sums v = t.trueSums v)))) (after4 s)) ∧
    (shpLegal v = true → s1.tileAtRest (cellOf s1.cur) a.toNat = false → exec (.tcchk tk p a) s = .next (s1.waiting .memory))) ∧
  (∀ tk (b : TReg) a s s1 s2 x, Ready (.tst tk b a) tk s s1 → s1.readU a = .got x s2 →
    let u := s2.note x.poison 4
    let v := u.mxe.nextShape b.toNat
    (shpLegal v = false →
      exec (.tst tk b a) s = .next ((s1.note x.poison 4).trapNow 0x11 (BitVec.ofNat 64 (b.toNat * 256 + 1)))) ∧
    (shpLegal v = true → x.val.toNat % 32 ≠ 0 → exec (.tst tk b a) s = .next ((s1.note x.poison 4).trapNow 0x05 x.val)) ∧
    (shpLegal v = true → x.val.toNat % 32 = 0 → u.hart.stores = [] →
      u.hart.loadOverlap [(x.val.toNat, shpBytes v + shpScales v)] = false → ∀ ws : List (List (Nat × List Byte)),
      let parts := storeParts x.val.toNat (shpBytes v) ++ storeParts (x.val.toNat + shpBytes v) (shpScales v)
      let op := MxOp.tst b.toNat (ws.flatten.map (fun w => (w.1, w.2.length)))
      parts.map (fun p => u.placePart p) = ws.map PartRes.ok →
      (u.mxBusy (cellOf u.cur) op = false → Completes (.tst tk b a) tk s (u.doWork op) (after4 s)) ∧
      (u.mxBusy (cellOf u.cur) op = true → Completes (.tst tk b a) tk s
        ((u.modCell (cellOf u.cur) (fun c => { c with mxe := { c.mxe with work := c.mxe.work ++ [⟨u.cur, op⟩] } })).modHart (fun h =>
          { h with stores := h.stores ++ [⟨8, parts, h.instret + 1#64⟩] })) (after4 s))))

/-- R332, R338, R346, R347, R211: what tzero, tcsum and tst do as the engine does them, and the write of TSHPn, which keeps the bits of the
fields and makes the sidecar of a tile whose shape changes stale. A tile store lays the data and the scales over its places, in order; one
whose sidecar is not right raises CKSUM and stores nothing. -/
def Obligations.TileWork : Prop :=
  (∀ (s : State) (d : TReg), let v := s.mxe.shape d.toNat
    shpLegal v = true → ∃ y : Tile, s.tzeroWork d.toNat = s.modMxe (fun m => m.setTile d.toNat y) ∧
      (∀ k, y.data.byte k = 0#8) ∧ (∀ k, k < 1024 → y.scales.byte k = 0x7F#8) ∧ y.stale = false ∧
      y.sums v = List.replicate (shpRows v + shpCols v) 0#32 ∧ (∀ k, y.data.poisoned k = false) ∧
      (∀ i, i < 64 → y.rowTag i = fmtPrec (shpFmt v))) ∧
  (∀ (s : State) (d : TReg), let v := s.mxe.shape d.toNat
    let t := s.mxe.tile d.toNat
    let poison := (List.range ((shpBytes v + 7) / 8)).any t.data.poisoned
    shpLegal v = true → ∃ y : Tile, s.tcsumWork d.toNat = (s.note poison 0).modMxe (fun m => m.setTile d.toNat y) ∧
      y.data = t.data ∧ y.scales = t.scales ∧ y.rowTags = t.rowTags ∧ y.stale = false ∧ y.sums v = t.trueSums v) ∧
  (∀ (s : State) (b : TReg) places, let v := s.mxe.shape b.toNat
    let t := s.mxe.tile b.toNat
    let poison := (List.range ((shpBytes v + 7) / 8)).any t.data.poisoned
    let rg := s.hart.regionId
    (t.stale = true ∨ t.sums v = t.trueSums v → (places.map Prod.snd).sum = shpBytes v + shpScales v →
      ∃ ws : List (Bool × (Nat × List Byte)), ws.map (fun w => (w.2.1, w.2.2.length)) = places ∧
        ws.flatMap (fun w => w.2.2) = t.data.read 0 (shpBytes v) ++ t.scales.read 0 (shpScales v) ∧
        s.tstWork b.toNat places =
          ((s.enterStore ⟨s.cur, rg, unitOf (cellOf s.cur), s.interval rg s.cur, ws⟩).note poison 0).note poison 3) ∧
    (t.stale = false → t.sums v ≠ t.trueSums v → s.tstWork b.toNat places = s.cause s.mxRegion 0x40)) ∧
  (∀ cell (n : TReg) (v : Word) s, ∃ t, exec (.tshpWrite cell n v) s = .next t ∧
    (t.cellAt cell).mxe.shape n.toNat = v &&& 0xFE3FFF#64 ∧
    ((s.cellAt cell).mxe.shape n.toNat ≠ v &&& 0xFE3FFF#64 → ((t.cellAt cell).mxe.tile n.toNat).stale = true) ∧
    (∀ j : TReg, j ≠ n → (t.cellAt cell).mxe.tile j.toNat = (s.cellAt cell).mxe.tile j.toNat ∧
      (t.cellAt cell).mxe.shape j.toNat = (s.cellAt cell).mxe.shape j.toNat) ∧
    t.mem = s.mem ∧ t.harts = s.harts)

/-- R337, R348, R351: the multiplies check their operands as all accepted work leaves them: a failed check traps with the operand and
the reason. Then the engine is given the product, or the groups of a table that has been read, and the instruction completes. -/
def Obligations.MatrixInstructions : Prop :=
  (∀ tk (d : AReg) (a b : TReg) s s1 check, (check = true → Ready (.mma tk d a b) tk s s1) →
    (check = false → Ready (.mmaNc tk d a b) tk s s1) →
    let i : Instr := if check then .mma tk d a b else .mmaNc tk d a b
    let bad := s1.expected.mulBad d.toNat a.toNat b.toNat check
    (∀ o r, bad = some (o, r) → r ≠ 0 → exec i s = .next (s1.trapNow 0x11 (BitVec.ofNat 64 (o * 256 + r)))) ∧
    (∀ o, bad = some (8 + o, 0) → exec i s = .next (s1.trapNow 0x12 (BitVec.ofNat 64 o))) ∧
    (bad = none → GivesWork i tk s s1 (.mul check d.toNat a.toNat b.toNat) (s1.mulWork check d.toNat a.toNat b.toNat))) ∧
  (∀ tk (d : AReg) (a : TReg) b s s1 s2 x check, (check = true → Ready (.mmag tk d a b) tk s s1) →
    (check = false → Ready (.mmagNc tk d a b) tk s s1) → s1.readU b = .got x s2 →
    let i : Instr := if check then .mmag tk d a b else .mmagNc tk d a b
    let u := s2.note x.poison 4
    (x.val.toNat % 8 ≠ 0 → exec i s = .next ((s1.note x.poison 4).trapNow 0x05 x.val)) ∧
    (x.val.toNat % 8 = 0 → u.hart.storeOverlap [(x.val.toNat, 136)] = false → ∀ w p, u.readTable 1 x.val.toNat = .ok [(w, p)] →
      let g := w.toNat
      ((g = 0 ∨ 32 < g) → exec i s = .next ((s1.note x.poison 4).trapNow 0x11 0xFF09#64)) ∧
      (1 ≤ g → g ≤ 32 → ∀ ws, u.readTable ((g + 1) / 2) (x.val.toNat + 8) = .ok ws →
        let entry (j : Nat) : Nat := ((ws.map Prod.fst).getD (j / 2) 0#64).toNat / 2 ^ (32 * (j % 2)) % 2 ^ 32
        let tab := (List.range g).map (fun j => (entry j / 256 % 8, entry j % 128))
        let good : Prop := (∀ j, j < g → entry j / 2048 = 0 ∧ entry j / 128 % 2 = 0) ∧
          (tab.map Prod.snd).sum ≤ shpRows (u.mxe.nextShape a.toNat)
        (¬ good → exec i s = .next ((s1.note x.poison 4).trapNow 0x11 0xFF09#64)) ∧
        (good →
          let u1 := u.note (p || ws.any Prod.snd) 0
          (∀ q ∈ groupRows 0 tab, u1.expected.mulBad d.toNat a.toNat q.1 check = none) →
          GivesWork i tk s u1 (.groups check d.toNat a.toNat tab) (u1.groupWork check d.toNat a.toNat tab)))))

/-- R335, R352, R356: acz and acnv give the engine their work: acz one that makes an accumulator EMPTY with every element 0, acnv one that
narrows an accumulator into a tile of the format that the instruction names, each element divided by its scale. An accumulator that the
node holds, and a tile of the wrong shape, are TILE_SHAPE with their reason. -/
def Sys2Proof.Spec.Accumulators : Prop :=
  (∀ tk (d : AReg) s s1, Ready (.acz tk d) tk s s1 →
    (s1.nodeHolds d.toNat = true → exec (.acz tk d) s = .next (s1.trapNow 0x11 (BitVec.ofNat 64 (d.toNat * 256 + 10)))) ∧
    (s1.nodeHolds d.toNat = false → ∃ z : Acc,
      GivesWork (.acz tk d) tk s s1 (.acz d.toNat) (s1.modMxe (fun m => m.setAcc d.toNat z)) ∧
      z.kind = .empty ∧ (∀ k, z.array.getD k 0#32 = 0#32) ∧ (∀ i, i < 64 → z.rowTag i = 24) ∧ z.poison = [] ∧
      (∀ i, i < 64 → lookupD 0#32 i z.rowSums = 0#32 ∧ lookupD 0#32 i z.colSums = 0#32))) ∧
  (∀ tk (f : BitVec 4) (d : TReg) (a : AReg) s s1, Ready (.acnv tk f d a) tk s s1 →
    let v := s1.mxe.nextShape d.toNat
    let rm := s1.hart.fcsr.toNat / 32
    let trap (reason : Nat) : Prop := exec (.acnv tk f d a) s = .next (s1.trapNow 0x11 (BitVec.ofNat 64 (d.toNat * 256 + reason)))
    (shpLegal v = false → trap 1) ∧
    (shpLegal v = true → shpFmt v ≠ f.toNat → trap 7) ∧
    (shpLegal v = true → shpFmt v = f.toNat → (64 < shpRows v ∨ 64 < shpCols v) → trap 4) ∧
    (shpLegal v = true → shpFmt v = f.toNat → shpRows v ≤ 64 → shpCols v ≤ 64 →
      GivesWork (.acnv tk f d a) tk s s1 (.acnv f.toNat d.toNat a.toNat rm) (s1.acnvWork f.toNat d.toNat a.toNat rm))) ∧
  (∀ (s : State) (f : BitVec 4) (d : TReg) (a : AReg) rm,
    let v := s.mxe.shape d.toNat
    let t := s.mxe.tile d.toNat
    let acc := s.mxe.acc a.toNat
    shpLegal v = true → shpFmt v = f.toNat → shpRows v ≤ 64 → shpCols v ≤ 64 → acc.poison = [] →
    (∀ k, shpBlock v ≠ 0 → t.scales.poisoned k = false) → ∃ y : Tile,
      s.acnvWork f.toNat d.toNat a.toNat rm = s.modMxe (fun m => m.setTile d.toNat y) ∧
      (∀ i j, i < shpRows v → j < shpCols v → (y.codes v).getD (i * shpCols v + j) 0 =
        narrowElem acc.kind f.toNat (t.scaleOf v i j) (RMode.ofCode rm) (acc.array.getD (64 * i + j) 0#32) % 2 ^ fmtBits f.toNat) ∧
      y.scales = t.scales ∧ y.stale = false ∧ y.sums v = y.trueSums v ∧ y.data.poison = [] ∧
      (∀ i, i < 64 → y.rowTag i = if (fmtFloat f.toNat).isSome then min (acc.rowTag i) (fmtPrec f.toNat) else 24))

/-- R348, R349, R351, R103, R104: what the engine does with a product. A product without a check accumulates each result on the
accumulator as R103 and R104 say, rows and columns outside it unchanged, and gives it its kind and its checksums; a checked one is the
checked and perhaps corrected result, or raises CKSUM and has no effect; the groups of a table run one after the other, all or none. Where
no stream holds a tile and no work waits, the operands are checked as they stand. -/
def Obligations.MatrixProducts : Prop :=
  (∀ (s : State) check d a b, let rows := List.range (shpRows (s.mxe.shape a))
    (∀ t, s.multiply d a b rows check = some t → s.mulWork check d a b = t) ∧
    (s.multiply d a b rows check = none → s.mulWork check d a b = s.cause s.mxRegion 0x40)) ∧
  (∀ (s : State) check d a tab,
    let u := s.modMxe (fun m => { m with groupTable := tab })
    let run := (groupRows 0 tab).foldlM (fun (t : State) q => t.multiply d a q.1 q.2 check) u
    (∀ t, run = some t → s.groupWork check d a tab = t) ∧ (run = none → s.groupWork check d a tab = s.cause s.mxRegion 0x40)) ∧
  (∀ s : State, s.mxe.work = [] → (∀ k, k < 8 → s.tileFree (cellOf s.cur) k = true) → s.expected.mxe = s.mxe) ∧
  (∀ (s : State) (d : AReg) (a b : TReg), s.mulBad d.toNat a.toNat b.toNat false = none → s.mxe.flips = [] →
    let va := s.mxe.shape a.toNat
    let vb := s.mxe.shape b.toNat
    let m := shpRows va
    let k := shpCols va
    let n := shpCols vb
    let ca := (s.mxe.tile a.toNat).codes va
    let cb := (s.mxe.tile b.toNat).codes vb
    let fa (i x : Nat) : XR :=
      scaledElem (shpFmt va) ((s.mxe.tile a.toNat).scaleOf va i x) (ca.getD (i * k + x) 0)
    let fb (x j : Nat) : XR :=
      scaledElem (shpFmt vb) ((s.mxe.tile b.toNat).scaleOf vb x j) (cb.getD (x * n + j) 0)
    let old (i j : Nat) : Word32 := (s.mxe.acc d.toNat).array.getD (64 * i + j) 0#32
    ∃ t, s.multiply d.toNat a.toNat b.toNat (List.range m) false = some t ∧
      (∀ i j, i < 64 → j < 64 → (t.mxe.acc d.toNat).array.getD (64 * i + j) 0#32 =
        if i < m ∧ j < n then
          dotOf (decide (mulClass (shpFmt va) ≠ some 5)) (s.freeWords (64 * i + j)) (old i j)
            ((List.range k).map (fun x => (fa i x, fb x j)))
        else old i j) ∧
      (t.mxe.acc d.toNat).kind = (if mulClass (shpFmt va) = some 5 then .int32 else .fp32) ∧
      (∀ e : AReg, e ≠ d → t.mxe.acc e.toNat = s.mxe.acc e.toNat) ∧ t.mxe.tiles = s.mxe.tiles ∧ t.mxe.tshp = s.mxe.tshp ∧
      t.mem = s.mem ∧ t.hart.x = s.hart.x ∧ t.hart.v = s.hart.v ∧ t.regions = s.regions)

/-- R353-R356: the matrix node. tbound sets the trip counts at a group boundary, and traps TILE_SHAPE 0xFE0B where no node is
configured or a reserved bit is set; a node without a latched B passes a control flit on, takes a BOUND, and latches B with a
token; a node with a latched B takes what stands at its input, and a row that is there fires, on the last pass once the output has room;
it emits before it takes. -/
def Obligations.MatrixNode : Prop :=
  (∀ tk a s s1 s2 x, Ready (.tbound tk a) tk s s1 → s1.readU a = .got x s2 →
    let u := s2.note x.poison 4
    ((u.cell.nodeOn = false ∨ 2 ^ 28 ≤ x.val.toNat) → exec (.tbound tk a) s = .next ((s1.note x.poison 4).trapNow 0x11 0xFE0B#64)) ∧
    (u.cell.nodeOn = true → x.val.toNat < 2 ^ 28 → u.mxe.node.pass = 0 → u.mxe.node.row = 0 → u.mxe.node.latched = none →
      u.mxe.node.output = [] → (∀ i, u.nodeHead (cellOf u.cur) = some i → i.flit.isBound = false) →
      Completes (.tbound tk a) tk s (u.modNode (cellOf u.cur) (fun n => { n with
        m := x.val.toNat / 2 ^ 22 + 1, n := x.val.toNat / 2 ^ 16 % 64 + 1, k := x.val.toNat % 2 ^ 16 + 1 })) (after4 s))) ∧
  (∀ s c, s.nodeRuns c = true →
    let n := (s.cellAt c).mxe.node
    (∀ f rest, n.output = f :: rest → s.bufRoom c 120 1 = true →
      let t := ((s.pushFlits c 120 (32768 + c) [f]).modNode c (fun n => { n with output := rest })).fire (s.cellRegion c)
      exec (.nodePass c) s = .next t ∧ exec (.nodeRow c) s = .next t) ∧
    (n.output = [] → n.latched = none → n.pass = 0 → ∀ i, s.nodeHead c = some i → i.flit.isData = false →
      (i.flit.isBound = true → i.flit.data.toNat % 2 ^ 32 < 2 ^ 28 →
        exec (.nodePass c) s = .next (((s.nodePop c).fire (s.cellRegion c)).modNode c (fun k => { k with
          m := i.flit.data.toNat % 2 ^ 28 / 2 ^ 22 + 1, n := i.flit.data.toNat % 2 ^ 22 / 2 ^ 16 + 1,
          k := i.flit.data.toNat % 2 ^ 16 + 1 }))) ∧
      (i.flit.isBound = false →
        exec (.nodePass c) s = .next (((s.nodePop c).fire (s.cellRegion c)).modNode c (fun k => { k with output := [i.flit] })))) ∧
    (∀ t v i, n.output = [] → n.latched = some (t, v) → n.row < n.m → s.nodeHead c = some i → i.flit.isData = true →
      n.tagDue = false → n.input = [] →
      let e := (s.cellAt c).cftEntry i.input i.flit.vc.toNat
      (mulClass (e % 16) ≠ mulClass (shpFmt v) →
        exec (.nodeRow c) s = .next ((s.modNode c (fun n => { n with stopped := true })).cause (s.cellRegion c) 0x47)) ∧
      (mulClass (e % 16) = mulClass (shpFmt v) → e / 256 % 4 = 0 → e / 1024 % 4 ≠ 1 →
        let u := ((s.nodePop c).fire (s.cellRegion c)).modNode c (fun k => { k with entry := e, input := [i.flit], tagDue := false })
        exec (.nodeRow c) s = .next (if 256 < shpRows v * fmtBits (e % 16) then u
          else if (u.cellAt c).mxe.node.pass + 1 < (u.cellAt c).mxe.node.k ∨ u.bufRoom c 120 1 = true then u.nodeFire c t v else u))))

/-! The tile pool (R305-R321). -/

/-- R311, R312, R314, R318: alloc gives the handle that its pool has answered, else it asks and waits; seal waits for its hart's own
stores to the slot, gives the bytes of a FILLING slot that nothing wrote the value 0 and makes it SEALED with the sums of its bytes, and a
sidecar that arrived and differs is cause 0x40; tpdrop takes dead reads off COUNT. What fails traps with its cause. -/
def Sys2Proof.Spec.PoolInstructions : Prop :=
  (∀ tk d a z s s1 s2 x, Ready (.alloc tk d a z) tk s s1 → s1.readU a = .got x s2 → s2.draining = false →
    let u := s2.note x.poison 4
    let n := 2 ^ z.toNat
    let trap (code : Nat) (v : Word) : Prop := exec (.alloc tk d a z) s = .next ((s1.note x.poison 4).trapNow code v)
    (x.val.toNat % 4096 = 0 → trap 0x01 (instrWord (.alloc tk d a z))) ∧
    (x.val.toNat % 4096 ≠ 0 → descFits x.val (4096 * n) = false → trap 0x11 x.val) ∧
    (x.val.toNat % 4096 ≠ 0 → descFits x.val (4096 * n) = true → ∀ k q,
      (u.cellAt (unitOf (cellOf u.cur))).pool.partOf u.hart.ctxId = some (k, q) →
      (q.max < n → trap 0x23 x.val) ∧
      (n ≤ q.max → ∀ w t, u.hart.reply = some w → u.putU d ⟨w, 24#5, false⟩ = .ok t → Completes (.alloc tk d a z) tk s t (after4 s)) ∧
      (n ≤ q.max → u.hart.reply = none → u.hart.stage ≠ .arrived →
        exec (.alloc tk d a z) s = .next ((((s1.note x.poison 4).askPool k ⟨s1.cur, n, x.val⟩).modHart
          (fun h => { h with stage := .arrived })).waiting .pool)))) ∧
  (∀ tk a s s1 s2 x, Ready (.sealTile tk a) tk s s1 → s1.readU a = .got x s2 →
    let u := s2.note x.poison 4
    let trap (code : Nat) : Prop := exec (.sealTile tk a) s = .next ((s1.note x.poison 4).trapNow code x.val)
    (∀ code, u.resolveRef x.val = .error code → trap code) ∧
    (∀ c t, u.resolveRef x.val = .ok (c, t) →
      ((t.state ≠ .filling ∨ t.owner ≠ u.cur) → trap 0x22) ∧
      (t.state = .filling → t.owner = u.cur → u.namesSlot u.cur c t.first = true →
        exec (.sealTile tk a) s = .next (s1.waiting .pool)) ∧
      (t.state = .filling → t.owner = u.cur → u.namesSlot u.cur c t.first = false →
        let w := if coverAll t.written (descBytes t.desc (4096 * t.n)) = true then u else u.zeroUnwritten c u.cur t
        let sums := w.slotSums c t
        let done := w.modPool c u.cur (fun p => p.modSlot t.first (fun t => { t with state := .sealed, sidecar := sums }))
        ((∀ ws, t.arrived = some ws → ws = sums) → Completes (.sealTile tk a) tk s done (after4 s)) ∧
        (∀ ws, t.arrived = some ws → ws ≠ sums →
          Completes (.sealTile tk a) tk s (done.cause done.hart.regionId 0x40) (after4 s))))) ∧
  (∀ tk a b s s1 s2 s3 x y, Ready (.tpdrop tk a b) tk s s1 → s1.readU a = .got x s2 → s2.readU b = .got y s3 →
    let bad := x.poison || y.poison
    let u := s3.note bad 4
    let trap (code : Nat) : Prop := exec (.tpdrop tk a b) s = .next ((s1.note bad 4).trapNow code x.val)
    (∀ code, u.resolveRef x.val = .error code → trap code) ∧
    (∀ c t, u.resolveRef x.val = .ok (c, t) →
      (t.count - t.claims < y.val.toNat → trap 0x21) ∧
      (y.val.toNat ≤ t.count - t.claims →
        Completes (.tpdrop tk a b) tk s (u.modPool c u.cur (fun p =>
          (p.modSlot t.first (fun t => ({ t with count := t.count - y.val.toNat }).settle (u.interval (u.cellRegion c) u.cur))).sweep
            (u.waveOf c))) (after4 s))))

/-- R312, R315: the head of an allocation queue gets the lowest aligned run of FREE granules, which becomes a FILLING slot of its
hart with the COUNT of its descriptor, and the hart is answered with the handle; a read of a stream is admitted once its slot is
SEALED: a consuming one claims a read, a pinning one pins. -/
def Sys2Proof.Spec.PoolSteps : Prop :=
  (∀ s cell part q (a : AllocReq) rest g, s.cellMoves cell = true → lookup part (s.cellAt cell).pool.parts = some q →
    lookupD [] part (s.cellAt cell).pool.queues = a :: rest → (s.cellAt cell).pool.choose q a.n = some g →
    let p := (s.cellAt cell).pool
    exec (.allocServe cell part) s = .next
      (((s.modPool cell a.hart (fun p => p.give part a g)).fire (s.cellRegion cell)).answerAlloc cell a.hart
        (lookupD 0 g p.gens % 16 * 4096 + g)) ∧
    (p.give part a g).slots = p.slots ++ [⟨g, a.n, part, .filling, a.desc, a.hart, a.desc.toNat % 4096, 0, 0, [], none, []⟩] ∧
    (g % a.n = 0 ∧ ∀ t ∈ p.slots, t.first + t.n ≤ g ∨ g + a.n ≤ t.first)) ∧
  (∀ s h slot m t, ((s.hartAt h).slot slot).cmd = some m → ((s.hartAt h).slot slot).state = .active → m.space = 2 → m.op ≠ 2 →
    ((s.hartAt h).slot slot).admitted = false → s.cellMoves (cellOf h) = true → m.ep < 16 →
    let c := unitOf (cellOf h)
    let fault (code : Nat) : Prop := exec (.readAdmission h slot) s = .next (s.modSlot h slot (fun k =>
      { k with state := .faulted code (BitVec.ofInt 64 (m.base * 2 ^ 32 + elemAddr k.image 0 0 0)) }))
    ((s.cellAt c).pool.resolve m.ctx m.base = none → fault 0x20) ∧
    ((s.cellAt c).pool.resolve m.ctx m.base = some t →
      (t.state = .filling → exec (.readAdmission h slot) s = .next s) ∧
      (t.state = .sealed → m.op = 3 → t.claims = t.count → fault 0x21) ∧
      (t.state = .sealed → m.op = 3 → t.claims ≠ t.count →
        exec (.readAdmission h slot) s = .next (((s.modPool c h (fun p => p.modSlot t.first (fun t =>
          { t with claims := t.claims + 1 }))).fire (s.cellRegion c)).modSlot h slot (fun k => { k with admitted := true }))) ∧
      (t.state = .sealed → m.op ≠ 3 →
        exec (.readAdmission h slot) s = .next (((s.modPool c h (fun p => p.modSlot t.first (fun t =>
          { t with pins := t.pins + 1 }))).fire (s.cellRegion c)).modSlot h slot (fun k => { k with admitted := true })))))

/-! Streams (R232-R264, R289-R297). -/

/-- R240, R241, R245, R247: spbset loads an image from a 64-byte block of its cell's memory and makes the slot IDLE; strm starts a
stream on an IDLE slot. A bad block, a malformed image, a digest that differs, an EMPTY slot and an image that cannot serve trap. -/
def Sys2Proof.Spec.StreamInstructions : Prop :=
  (∀ tk n a s s1 s2 x, Ready (.spbset tk n a) tk s s1 → s1.readU a = .got x s2 →
    let u := s2.note x.poison 4
    let c := cellOf u.cur
    let off := x.val.toNat
    let im := (List.range 8).map (fun k => BitVec.ofNat 64 (dwordAt ((u.cellAt c).sram.read off 64) (8 * k)))
    ((u.hart.slot n.toNat).state = .empty ∨ (u.hart.slot n.toNat).state = .idle) →
    ((off % 64 ≠ 0 ∨ u.generalEnd c < off + 64) →
      exec (.spbset tk n a) s = .next ((s1.note x.poison 4).trapNow 0x0A x.val)) ∧
    (off % 64 = 0 → off + 64 ≤ u.generalEnd c → (∀ k, k < 8 → (u.cellAt c).sram.poisoned (off / 8 + k) = false) →
      (∀ k, imageBad im = some k →
        exec (.spbset tk n a) s = .next ((s1.note x.poison 4).trapNow 0x24 (BitVec.ofNat 64 (65536 + 8 * k)))) ∧
      (imageBad im = none → imgDigest im ≠ digestOf im →
        exec (.spbset tk n a) s = .next ((s1.note x.poison 4).trapNow 0x24 (BitVec.ofNat 64 (digestOf im)))) ∧
      (imageBad im = none → imgDigest im = digestOf im →
        Completes (.spbset tk n a) tk s (u.modHart (fun h => { h with
          slots := h.slots.setIfInBounds n.toNat { Slot.reset with state := .idle, image := im } })) (after4 s)))) ∧
  (∀ tk a b s s1 s2 s3 x y, Ready (.strm tk a b) tk s s1 → s1.readU a = .got x s2 → s2.readU b = .got y s3 → s3.draining = false →
    let bad := x.poison || y.poison
    let u := s3.note bad 4
    let m := commandOf u.hart.ctxId u.hart.regionId y.val x.val
    let n := y.val.toNat / 2 ^ 57 % 8
    let k := u.hart.slot n
    let ms := u.cell.mapFor (slotOf u.cur)
    let trap (code : Nat) (v : Word) : Prop := exec (.strm tk a b) s = .next ((s1.note bad 4).trapNow code v)
    let legal := commandBad (!isC (cellOf u.cur)) m y.val x.val = false
    let parties := (m.isPort = true ∨ m.isTile = true ∨
        (if m.isStore then consumes ms (slotOf u.cur) m.code else produces ms (slotOf u.cur) m.code) = true) ∧
      (m.tkp = true → produces ms (slotOf u.cur) (16 + m.tkf) = true) ∧ (m.space = 1 → u.myRegion.hasCell m.cell = true)
    (¬ legal → trap 0x01 (instrWord (.strm tk a b))) ∧
    (legal → parties → k.state = .empty → trap 0x24 0x20000#64) ∧
    (legal → parties → k.state = .idle → u.cannotServe u.cur k.image m = true → trap 0x24 0x30000#64) ∧
    (legal → parties → k.state = .active → exec (.strm tk a b) s = .next (s1.waiting .slot)) ∧
    (legal → parties → k.state = .idle → u.cannotServe u.cur k.image m = false →
      (m.space = 2 ∨ (m.base % min (imgE k.image) 8 = 0 ∧ (imgMode k.image ≤ 1 → ∀ l, l < imgLevels k.image →
        imgStride k.image l % (min (imgE k.image) 8 : Nat) = 0))) →
      (∀ j, j < 8 → (u.hart.slot j).state = .active → ∀ m', (u.hart.slot j).cmd = some m' → m'.clashes m = false) →
      Completes (.strm tk a b) tk s (u.modHart (fun h => { h with
        slots := h.slots.setIfInBounds n { h.slot n with
          state := .active, cmd := some m, elem := 0, chase := m.base
          segPhase := if imgSeg (h.slot n).image && !m.isTile then 0 else 1
          part := [], admitted := false, covered := [] } })) (after4 s)))

/-- R249, R259, R261, R429: swait retires on a slot that is EMPTY or IDLE and waits on the others; spillq extends a queue of which the
hart is a party by a spill area whose pages translate; kerf opens a wave and is its streamer's part of it, and waits while one is in
flight. -/
def Sys2Proof.Spec.StreamControl : Prop :=
  (∀ tk (n : BitVec 3) s s1, Ready (.swait tk n) tk s s1 →
    ((s1.hart.slot n.toNat).state = .empty ∨ (s1.hart.slot n.toNat).state = .idle → Completes (.swait tk n) tk s s1 (after4 s)) ∧
    ((s1.hart.slot n.toNat).state = .active → s1.draining = false → exec (.swait tk n) s = .next (s1.waiting .slot))) ∧
  (∀ tk q a s s1 s2 x, Ready (.spillq tk q a) tk s s1 → s1.readU a = .got x s2 →
    let u := s2.note x.poison 4
    let ms := u.cell.mapFor (slotOf u.cur)
    let code := spillCode ms q.toNat
    let cap := x.val.toNat % 4096
    let base := x.val.toNat - cap
    let k := u.cell.queue code
    (consumes ms (slotOf u.cur) code = false → produces ms (slotOf u.cur) code = false →
      exec (.spillq tk q a) s = .next ((s1.note x.poison 4).trapNow 0x10 (q.setWidth 64))) ∧
    ((consumes ms (slotOf u.cur) code = true ∨ produces ms (slotOf u.cur) code = true) → base < 2 ^ 52 →
      (∀ va, va = base ∨ va % 8192 = 0 → base ≤ va → va < base + 512 * cap → ∃ pa e, u.access va true true = .hit pa e) →
      (∀ i ∈ k.items, i.isSpilled = false) →
      Completes (.spillq tk q a) tk s (u.modCell (cellOf u.cur) (fun c => c.setQueue code { k with
        depth := k.depth - (k.ext.map SpillExt.cap).getD 0 + cap
        ext := if cap = 0 then none else some ⟨base, cap, 0, false⟩ })) (after4 s))) ∧
  (∀ tk s s1, Ready (.kerf tk) tk s s1 → s1.draining = false →
    (s1.myRegion.inFlight = true → exec (.kerf tk) s = .next (s1.waiting .control)) ∧
    (s1.myRegion.inFlight = false →
      Completes (.kerf tk) tk s ((s1.openWave s1.hart.regionId).takePart s1.hart.regionId s1.cur) (after4 s)))

/-- R226, R227, R257: in a handler, SFDROP discards the head store-fault record and SFRPL takes it off and performs what is left of
it, behind the handler's own older stores to its bytes, or lets it wait for room in its commit buffer (R433); STREAM_ABORT makes a FAULTED slot IDLE and STREAM_RESUME makes it ACTIVE again. Outside a handler none has an effect. -/
def Sys2Proof.Spec.FaultRecords : Prop :=
  (∀ s h, (s.hartAt h).hnd = false → exec (.sfdrop h) s = .next (s.as h) ∧ exec (.sfrpl h) s = .next (s.as h)) ∧
  (∀ s h, (s.hartAt h).hnd = true →
    exec (.sfdrop h) s = .next ((s.as h).modHart (fun k => { k with sfrq := k.sfrq.tail, sfrf := false }.showHead))) ∧
  (∀ s h q rest (wss : List (List (Nat × List Byte))), (s.hartAt h).hnd = true → (s.hartAt h).sfrq = q :: rest →
    (6 ≤ q.swid → exec (.sfrpl h) s = exec (.sfdrop h) s) ∧
    (q.swid < 6 → (s.hartAt h).storeOverlap (q.parts.flatMap (StorePart.ranges (s.hartAt h).tagbase)) = true →
      exec (.sfrpl h) s = .next (s.as h)) ∧
    (q.swid < 6 → (s.hartAt h).storeOverlap (q.parts.flatMap (StorePart.ranges (s.hartAt h).tagbase)) = false →
      q.parts.map (s.as h).placePart = wss.map PartRes.ok →
      exec (.sfrpl h) s = .next (((s.as h).performStore (q.parts.map (fun p => (p, (s.as h).placePart p)))).modHart
        (fun k => { k with sfrq := k.sfrq.tail, sfrf := false }.showHead)))) ∧
  (∀ s h k code v, (s.hartAt h).hnd = true → k < 8 → ((s.hartAt h).slot k).state = .faulted code v →
    (∃ t, exec (.streamAbort h k) s = .next t ∧ ((t.hartAt h).slot k).state = .idle) ∧
    (∃ t, exec (.streamResume h k) s = .next t ∧ ((t.hartAt h).slot k).state = .active ∧
      ((t.hartAt h).slot k).elem = ((s.hartAt h).slot k).elem ∧ t.mem = s.mem)) ∧
  (∀ s h k, (s.hartAt h).hnd = false → exec (.streamAbort h k) s = .next s ∧ exec (.streamResume h k) s = .next s)

/-- R242-R248, R253, R322: STREAM_ELEMENT moves one element of an ACTIVE stream that may move, or stops it with a fault at the
element it stands at; for a LOAD of SPACE 1 into a load queue, the entry pushed has the bytes at the element's address, and the
stream stands at the next element. -/
def Sys2Proof.Spec.StreamElements : Prop :=
  (∀ s h n (m : StreamCmd), ((s.hartAt h).slot n).cmd = some m →
    let k := (s.hartAt h).slot n
    (s.streamRuns h k m = false → exec (.streamElement h n) s = .next s) ∧
    (s.streamRuns h k m = true → (m.space ≠ 2 ∨ m.isStore = false ∨ k.admitted = true) →
      (∀ t, s.streamMove h n k m = .go t → exec (.streamElement h n) s = .next (t.fire m.region)) ∧
      (∀ t, s.streamMove h n k m = .wait t → exec (.streamElement h n) s = .next t) ∧
      (∀ t code v, s.streamMove h n k m = .fault t code v →
        exec (.streamElement h n) s = .next (t.modSlot h n (fun j => { j with state := .faulted code (k.faultValue m v) }))))) ∧
  (∀ s h n (m : StreamCmd), n < 8 → ((s.hartAt h).slot n).cmd = some m →
    let k := (s.hartAt h).slot n
    let e := imgE k.image
    let a := elemAddr k.image m.base k.elem (loopIndex k.image k.elem 0)
    s.streamRuns h k m = true → m.op = 1 → m.ep < 4 → m.space = 1 → imgMode k.image = 0 → k.segPhase = 1 → e ≤ 8 →
    0 ≤ a → a + e ≤ s.generalEnd m.cell → ((s.cellAt (cellOf h)).queue m.ep).accepts (slotOf h) = true →
    ((s.cellAt (cellOf h)).queue m.ep).ext = none → cellOf h = m.cell →
    let bs := (s.cellAt m.cell).sram.read a.toNat e
    ∃ t, exec (.streamElement h n) s = .next t ∧
      ((t.cellAt (cellOf h)).queue m.ep).items = ((s.cellAt (cellOf h)).queue m.ep).items ++
        [.entry (.uniform ⟨BitVec.ofNat 64 (leNat bs), 24#5,
          (List.range e).any (fun i => (s.cellAt m.cell).sram.poisoned ((a.toNat + i) / 8))⟩) (slotOf h)] ∧
      ((t.hartAt h).slot n).elem = k.elem + 1 ∧ t.mem = s.mem)

/-- R248, R296: a stream that has moved everything pushes its token, if it has one, and its slot is IDLE; a ring whose counted
producers have all ended gets one EOS once it has a free slot. -/
def Sys2Proof.Spec.StreamCompletion : Prop :=
  (∀ s h n (m : StreamCmd), n < 8 → ((s.hartAt h).slot n).cmd = some m → ((s.hartAt h).slot n).state = .active →
    ((s.hartAt h).slot n).segPhase = 3 → s.cellMoves (cellOf h) = true → m.space ≠ 2 → m.ep < 16 →
    (m.tkp = true → 16 ≤ tokenCount ((s.cellAt (cellOf h)).fifo m.tkf) → exec (.streamComplete h n) s = .next s) ∧
    ((m.tkp = true → tokenCount ((s.cellAt (cellOf h)).fifo m.tkf) < 16) → ∃ t, exec (.streamComplete h n) s = .next t ∧
      ((t.hartAt h).slot n).state = .idle ∧
      (t.cellAt (cellOf h)).fifo m.tkf = (s.cellAt (cellOf h)).fifo m.tkf ++ (if m.tkp then [.token (slotOf h)] else []) ∧
      (∀ j, j ≠ n → (t.hartAt h).slot j = (s.hartAt h).slot j) ∧ t.mem = s.mem)) ∧
  (∀ s cell ring,
    let q := (s.cellAt cell).queue (32 + ring)
    ((q.eosDue = none ∨ q.depth ≤ q.count) → exec (.ringEos cell ring) s = .next s) ∧
    (∀ slot, ring < 8 → q.eosDue = some slot → q.count < q.depth → q.ext = none → s.cellMoves cell = true →
      ∃ t src, exec (.ringEos cell ring) s = .next t ∧
        (t.cellAt cell).queue (32 + ring) =
          { q with items := q.items ++ [.entry (.token ⟨3#3, 0#5, 0#6, 0#32⟩) src], ended := [], eosDue := none }))

/-! Switches and the static network (R265-R287). -/

/-- R271, R277, R280, R281: a route moves the flit at the head of its input to its output when that has room, in order, and counts
it; the word ends with its last flit, or with the first flit of the kind that ROUTEC names. A route from one input to two outputs
moves a flit when both have room. A channel gets a flit behind what it holds, and a port register one with its input. -/
def Obligations.SwitchRoutes : Prop :=
  (∀ s r0 r1 r2 r3 cnt m,
    let c := cellOf s.cur
    let inp := r0.toNat / 32
    let out := r0.toNat % 32
    let key := inKey c inp out
    let s0 := s.begin c 1 (cnt.toNat + 1)
    let i : Instr := .route 0#2 r0 r1 r2 r3 cnt
    (s0.cellAt c).sw.left = [m] → 0 < m →
    (s0.headFlit c key = none → exec i s = .next s0) ∧
    (∀ f rest t, s0.headFlit c key = some (f, rest) → outTie c inp out = some t →
      (s0.tieRoom t = false → exec i s = .next s0) ∧
      (s0.tieRoom t = true →
        let u := (s0.popFlit c inp key f rest).pushAll c inp f [(out, t)]
        exec i s = .next (if m = 1 then (u.setLeft c [0]).switchNext c else u.setLeft c [m - 1])))) ∧
  (∀ s r0 r1 r2 r3 cnt m f rest t0 t1,
    let c := cellOf s.cur
    let inp := r0.toNat / 32
    let key := inKey c inp (r0.toNat % 32)
    let s0 := s.begin c 2 (cnt.toNat + 1)
    let i : Instr := .route 1#2 r0 r1 r2 r3 cnt
    r1.toNat / 32 = inp → inKey c inp (r1.toNat % 32) = key →
    (s0.cellAt c).sw.left = [m, m] → 0 < m → s0.headFlit c key = some (f, rest) →
    outTie c inp (r0.toNat % 32) = some t0 → outTie c inp (r1.toNat % 32) = some t1 →
    (s0.tieRoom t0 = false ∨ s0.tieRoom t1 = false → exec i s = .next s0) ∧
    (s0.tieRoom t0 = true → s0.tieRoom t1 = true →
      let u := (s0.popFlit c inp key f rest).pushAll c inp f [(r0.toNat % 32, t0), (r1.toNat % 32, t1)]
      exec i s = .next (if m = 1 then (u.setLeft c [0, 0]).switchNext c else u.setLeft c [m - 1, m - 1]))) ∧
  (∀ s r0 r1 r2 r3 kind,
    let c := cellOf s.cur
    let inp := r0.toNat / 32
    let out := r0.toNat % 32
    let key := inKey c inp out
    let i : Instr := .routec 0#2 r0 r1 r2 r3 kind
    (s.headFlit c key = none → exec i s = .next s) ∧
    (∀ f rest t, s.headFlit c key = some (f, rest) → outTie c inp out = some t →
      (s.tieRoom t = false → exec i s = .next s) ∧
      (s.tieRoom t = true →
        let u := (s.popFlit c inp key f rest).pushAll c inp f [(out, t)]
        exec i s = .next (if f.kind = kind then u.switchNext c else u)))) ∧
  (∀ (s : State) c inp d key f, key < 128 →
    let t := s.pushTie c inp (.buf d key) f
    (t.cellAt d).buf key = (s.cellAt d).buf key ++ [f] ∧
    (∀ d' key', d' ≠ d ∨ key' ≠ key → (t.cellAt d').buf key' = (s.cellAt d').buf key') ∧
    t.mem = s.mem ∧ t.harts = s.harts ∧ (∀ d', (t.cellAt d').ports = (s.cellAt d').ports ∧ (t.cellAt d').sw = (s.cellAt d').sw)) ∧
  (∀ (s : State) c inp d pk f, pk < 48 → f.isData = true →
    let e := (s.cellAt d).cftEntry inp f.vc.toNat
    e / 2 ^ 10 % 4 ≠ 1 → blkSize (e / 2 ^ 8 % 4) = 0 →
    let t := s.pushTie c inp (.port d pk) f
    lookupD [] pk (t.cellAt d).ports = lookupD [] pk (s.cellAt d).ports ++ [⟨f, inp, [], false, none⟩] ∧
    t.mem = s.mem ∧ t.harts = s.harts)

/-- R282, R283: STEER sends a data flit to the output that bit 0 of a decision names, poisoned when the decision was, and a control
flit to both outputs; MERGE passes the data flit of the input that a decision names, and two control flits at its inputs as one
where they agree, else both, in0's first. A control flit on the control input that makes no decision is consumed. -/
def Obligations.SwitchChoices : Prop :=
  (∀ k : Flit, k.decision =
    if k.isData = true ∨ (k.kind = 6#3 ∧ k.sub = 5) then some (k.data.getLsbD 0) else none) ∧
  (∀ s (inp o0 o1 ctl : BitVec 5) (cnt : BitVec 12) m t0 t1,
    let c := cellOf s.cur
    let s0 := s.begin c 1 (cnt.toNat + 1)
    let i : Instr := .steer inp o0 o1 ctl cnt
    (s0.cellAt c).sw.left = [m] → 0 < m → outTie c inp.toNat o0.toNat = some t0 → outTie c inp.toNat o1.toNat = some t1 →
    (s0.headFlit c inp.toNat = none → exec i s = .next s0) ∧
    (∀ d drest, s0.headFlit c inp.toNat = some (d, drest) →
      (d.isData = false → s0.tieRoom t0 = true → s0.tieRoom t1 = true → exec i s =
        .next ((s0.popFlit c inp.toNat inp.toNat d drest).pushAll c inp.toNat d [(o0.toNat, t0), (o1.toNat, t1)])) ∧
      (d.isData = false → (s0.tieRoom t0 = false ∨ s0.tieRoom t1 = false) → exec i s = .next s0) ∧
      (d.isData = true → s0.headFlit c ctl.toNat = none → exec i s = .next s0) ∧
      (d.isData = true → ∀ k krest, s0.headFlit c ctl.toNat = some (k, krest) →
        (k.decision = none → exec i s = .next (s0.popFlit c ctl.toNat ctl.toNat k krest)) ∧
        (∀ b, k.decision = some b →
          let o := if b then o1.toNat else o0.toNat
          let t := if b then t1 else t0
          (s0.tieRoom t = false → exec i s = .next s0) ∧
          (s0.tieRoom t = true →
            let u := ((s0.popFlit c ctl.toNat ctl.toNat k krest).popFlit c inp.toNat inp.toNat d drest).pushAll c inp.toNat
              (if k.kind = 7#3 then { d with kind := 7#3 } else d) [(o, t)]
            exec i s = .next (if m = 1 then (u.setLeft c [0]).switchNext c else u.setLeft c [m - 1])))))) ∧
  (∀ s (i0 i1 out ctl : BitVec 5) (cnt : BitVec 12) m t,
    let c := cellOf s.cur
    let s0 := s.begin c 1 (cnt.toNat + 1)
    let i : Instr := .merge i0 i1 out ctl cnt
    let both : Prop := ∃ f fr g gr, s0.headFlit c i0.toNat = some (f, fr) ∧ s0.headFlit c i1.toNat = some (g, gr) ∧
      f.isData = false ∧ g.isData = false
    (s0.cellAt c).sw.left = [m] → 0 < m → outTie c i0.toNat out.toNat = some t →
    (∀ f fr g gr, s0.headFlit c i0.toNat = some (f, fr) → s0.headFlit c i1.toNat = some (g, gr) →
      f.isData = false → g.isData = false → s0.tieRoom t = true →
      let u := ((s0.popFlit c i0.toNat i0.toNat f fr).popFlit c i1.toNat i1.toNat g gr).pushAll c i0.toNat f [(out.toNat, t)]
      (f.kind = g.kind → (f.kind = 6#3 → f.sub = g.sub) → f.data.extractLsb' 0 32 = g.data.extractLsb' 0 32 →
        exec i s = .next u) ∧
      ((f.kind ≠ g.kind ∨ (f.kind = 6#3 ∧ f.sub ≠ g.sub) ∨ f.data.extractLsb' 0 32 ≠ g.data.extractLsb' 0 32) →
        (∀ d key, t = .buf d key → s0.bufRoom d key 2 = true) →
        (∀ d pk, t = .port d pk → portCount (lookupD [] pk (s0.cellAt d).ports) ≤ lookupD 0 (portGrown pk) (s0.cellAt d).grown) →
        exec i s = .next (u.pushAll c i1.toNat g [(out.toNat, t)]))) ∧
    (¬ both → s0.headFlit c ctl.toNat = none → exec i s = .next s0) ∧
    (¬ both → ∀ k krest, s0.headFlit c ctl.toNat = some (k, krest) →
      (k.decision = none → exec i s = .next (s0.popFlit c ctl.toNat ctl.toNat k krest)) ∧
      (∀ b, k.decision = some b →
        let j := if b then i1.toNat else i0.toNat
        (s0.headFlit c j = none → exec i s = .next s0) ∧
        (∀ d drest, s0.headFlit c j = some (d, drest) →
          (d.isData = false ∨ s0.tieRoom t = false → exec i s = .next s0) ∧
          (d.isData = true → s0.tieRoom t = true →
            let u := ((s0.popFlit c ctl.toNat ctl.toNat k krest).popFlit c j j d drest).pushAll c j
              (if k.kind = 7#3 then { d with kind := 7#3 } else d) [(out.toNat, t)]
            exec i s = .next (if m = 1 then (u.setLeft c [0]).switchNext c else u.setLeft c [m - 1]))))))

/-- R284-R286, R382: EMIT pushes a flit of its kind, VC and value where there is room, and gives away what a TENON names; WAITTOK
consumes a flit of its kind and subtype, loading a counter where asked, and goes elsewhere on another; LOOP, BNZ, JMP and HALT
change the counter, the word and the run of the switch and nothing else of it. -/
def Sys2Proof.Spec.SwitchControl : Prop :=
  (∀ s (out : BitVec 5) kind vc (sb : BitVec 6) (value : BitVec 32) t,
    let c := cellOf s.cur
    let i : Instr := .emit out kind vc sb value
    let f : Flit := ⟨kind, vc, if kind = 6#3 then (sb ++ value).setWidth 256 else value.setWidth 256⟩
    outTie c 31 out.toNat = some t →
    (s.tieRoom t = false → exec i s = .next s) ∧
    (s.tieRoom t = true → ¬ (kind = 6#3 ∧ sb = 4#6) → exec i s = .next ((s.pushAll c 31 f [(out.toNat, t)]).switchNext c)) ∧
    (s.tieRoom t = true → kind = 6#3 → sb = 4#6 → s.releaseOwner c value.toNat = none → exec i s = .next s) ∧
    (∀ u, s.tieRoom t = true → kind = 6#3 → sb = 4#6 → s.releaseOwner c value.toNat = some u →
      exec i s = .next ((u.pushAll c 31 f [(out.toNat, t)]).switchNext c))) ∧
  (∀ s (inp : BitVec 5) (kind : BitVec 3) (sb : BitVec 6) (ld : BitVec 1) (ck : BitVec 2) (target : BitVec 12),
    let c := cellOf s.cur
    let i : Instr := .waittok inp kind sb ld ck target
    (s.headFlit c inp.toNat = none → exec i s = .next s) ∧
    (∀ f rest, s.headFlit c inp.toNat = some (f, rest) →
      let good : Prop := f.kind = kind ∧ (kind = 6#3 → sb = 0x3F#6 ∨ f.sub = sb.toNat)
      let u := s.popFlit c inp.toNat inp.toNat f rest
      (¬ good → exec i s = .next (s.switchGo c target.toNat)) ∧
      (good → ld = 0#1 → exec i s = .next (u.switchNext c)) ∧
      (good → ld = 1#1 → exec i s = .next ((u.modCell c (fun x => { x with sw := { x.sw with
        c := x.sw.c.setIfInBounds ck.toNat (f.data.extractLsb' 0 24) } })).switchNext c)))) ∧
  (∀ s (ck : BitVec 2) (n : BitVec 24), ∃ t, exec (.loop ck n) s = .next t ∧
    (t.cellAt (cellOf s.cur)).sw.pc = (s.cellAt (cellOf s.cur)).sw.pc + 1 ∧
    (∀ j, j < 4 → (t.cellAt (cellOf s.cur)).sw.c[j]? =
      if j = ck.toNat then some n else (s.cellAt (cellOf s.cur)).sw.c[j]?) ∧
    (t.cellAt (cellOf s.cur)).bufs = (s.cellAt (cellOf s.cur)).bufs ∧ t.mem = s.mem ∧ t.harts = s.harts) ∧
  (∀ s (ck : BitVec 2) (target : BitVec 12) v,
    let k := s.cellAt (cellOf s.cur)
    k.sw.c[ck.toNat]? = some v →
    let v' := if v = 0#24 then 0#24 else v - 1#24
    ∃ t, exec (.bnz ck target) s = .next t ∧
      (t.cellAt (cellOf s.cur)).sw.pc = (if v' = 0#24 then k.sw.pc + 1 else target.toNat) ∧
      (∀ j, j < 4 → (t.cellAt (cellOf s.cur)).sw.c[j]? = if j = ck.toNat then some v' else k.sw.c[j]?) ∧
      (t.cellAt (cellOf s.cur)).bufs = k.bufs ∧ t.mem = s.mem ∧ t.harts = s.harts) ∧
  (∀ s (target : BitVec 12), ∃ t, exec (.jmp target) s = .next t ∧
    (t.cellAt (cellOf s.cur)).sw = { (s.cellAt (cellOf s.cur)).sw with pc := target.toNat, left := [] } ∧
    (t.cellAt (cellOf s.cur)).bufs = (s.cellAt (cellOf s.cur)).bufs ∧ t.mem = s.mem ∧ t.harts = s.harts) ∧
  (∀ s, ∃ t, exec .halt s = .next t ∧
    (t.cellAt (cellOf s.cur)).sw = { (s.cellAt (cellOf s.cur)).sw with halt := true } ∧
    (t.cellAt (cellOf s.cur)).bufs = (s.cellAt (cellOf s.cur)).bufs ∧ t.mem = s.mem ∧ t.harts = s.harts)

/-- R270, R277: one flit passes under the running word of a switch as that word says; a seam that cannot deliver a data flit intact
poisons it, and one that cannot deliver a control flit loses it and raises cause 0x48. -/
def Sys2Proof.Spec.SwitchEvents : Prop :=
  (∀ s cell port, port < 8 →
    let u := s.as (8 * cell + 7)
    let pass : Out := exec (.switchFlitPass cell port) s
    (u.cellMoves cell = false → pass = .next u) ∧
    (u.cellMoves cell = true →
      (∀ r0 r1 r2 r3 cnt, u.fetchSwitch cell = .ok (some (.route 0#2 r0 r1 r2 r3 cnt)) → r0.toNat / 32 = port →
        pass = exec (.route 0#2 r0 r1 r2 r3 cnt) u) ∧
      (∀ r0 r1 r2 r3 kind, u.fetchSwitch cell = .ok (some (.routec 0#2 r0 r1 r2 r3 kind)) → r0.toNat / 32 = port →
        pass = exec (.routec 0#2 r0 r1 r2 r3 kind) u) ∧
      (∀ inp o0 o1 ctl cnt, u.fetchSwitch cell = .ok (some (.steer inp o0 o1 ctl cnt)) → inp.toNat = port →
        pass = exec (.steer inp o0 o1 ctl cnt) u) ∧
      (∀ i0 i1 out ctl cnt, u.fetchSwitch cell = .ok (some (.merge i0 i1 out ctl cnt)) → (i0.toNat = port ∨ i1.toNat = port) →
        pass = exec (.merge i0 i1 out ctl cnt) u))) ∧
  (∀ s cell port,
    (isSeam cell port = false → exec (.seamRetryFailure cell port) s = .next s) ∧
    (isSeam cell port = true → port < 8 → ∀ fs f, (s.cellAt cell).buf port = fs ++ [f] →
      (f.isData = true → exec (.seamRetryFailure cell port) s =
        .next (s.modCell cell (fun x => x.setBuf port (fs ++ [{ f with kind := 7#3 }])))) ∧
      (f.isData = false → f.isMarker = false → exec (.seamRetryFailure cell port) s =
        .next ((s.modCell cell (fun x => x.setBuf port fs)).cause (s.cellRegion cell) 0x48))))

/-- R97, R326, R327, R329, R330: the compressor and the converter of an M-cell emit the next flit where there is room, else take the
next flit of the VC; a tile is compressed once its last dense flit is in and expanded once its end record is; a computed scale
makes the largest magnitude of a block the format's largest power of two. -/
def Obligations.Converters : Prop :=
  (∀ s cell vc (up : Bool), isM cell = true → s.cellMoves cell = true →
    let i : Instr := if up then .expandTile cell vc else .compressTile cell vc
    let e := lookupD 0 vc (s.cellAt cell).cfg.cmpt
    let k := (s.cellAt cell).compAt vc
    e / 2 ^ 30 % 2 = (if up then 1 else 0) → 1 ≤ e % 16 → e % 16 ≤ 10 →
    (∀ f rest, k.out = f :: rest → s.bufRoom cell 88 1 = true → exec i s =
      .next (((s.pushFlits cell 88 (engineParty cell 3 0) [f]).fire (s.cellRegion cell)).modCell cell
        (fun y => y.setComp { k with out := rest }))) ∧
    (∀ j js, k.out = [] → s.engineHead cell 50 = some (j, js) → j.flit.kind ≠ 4#3 → j.flit.vc = BitVec.ofNat 5 vc →
      exec i s = .next ((s.setInput cell 50 js).modCell cell (fun y => y.setComp (compTake e k j.flit))))) ∧
  (∀ e (k : CompState) (f : Flit), f.isData = true → e / 2 ^ 30 % 2 = 0 →
    ((k.flits ++ [f]).length = cmpFlits e → compTake e k f = { k with flits := [], out := compressed e (k.flits ++ [f]) }) ∧
    ((k.flits ++ [f]).length ≠ cmpFlits e → compTake e k f = { k with flits := k.flits ++ [f] })) ∧
  (∀ e (k : CompState) (f : Flit), f.isData = true → e / 2 ^ 30 % 2 = 1 →
    (recordsOf (k.flits ++ [f]) = none → compTake e k f = { k with flits := k.flits ++ [f] }) ∧
    (∀ rs, recordsOf (k.flits ++ [f]) = some rs → ((compTake e k f).flits = [] ∧
      (compTake e k f).out.length = cmpFlits e ∧ ∀ g ∈ (compTake e k f).out, g.isData = true ∧
        g.vc = BitVec.ofNat 5 (e / 2 ^ 25) ∧
        (recordsGood e rs = false → g = ⟨7#3, BitVec.ofNat 5 (e / 2 ^ 25), 0#256⟩)))) ∧
  (∀ s cell vc, isM cell = true → hasConverter cell = true → s.cellMoves cell = true →
    let x := s.cellAt cell
    let k := x.convAt vc
    1 ≤ (x.convSpec vc).fmt → (x.convSpec vc).fmt ≤ 11 →
    (∀ f rest, k.out = f :: rest → s.bufRoom cell 80 1 = true → exec (.convert cell vc) s =
      .next (((s.pushFlits cell 80 (engineParty cell 2 0) [f]).fire (s.cellRegion cell)).modCell cell
        (fun y => y.setConv { k with out := rest }))) ∧
    (∀ j js, k.out = [] → s.engineHead cell 48 = some (j, js) → j.flit.kind ≠ 4#3 → j.flit.vc = BitVec.ofNat 5 vc →
      x.cftEntry j.input vc % 16 ≠ 0 →
      exec (.convert cell vc) s = .next ((s.setInput cell 48 js).modCell cell
        (fun y => y.setConv (x.convTake s.freeWords k j vc 64))))) ∧
  (∀ f rm (xs : List XR),
    (xs.any (fun x => x.isNan || x.isInf) = true → scaledBlock f rm xs = (0xFF, List.replicate xs.length 0)) ∧
    (xs.any (fun x => x.isNan || x.isInf) = false →
      (scaledBlock f rm xs).2.length = xs.length ∧ (scaledBlock f rm xs).1 < 255))
/-! Packets of the dynamic network and bulk engines (R402-R421). -/

/-- R407, R450: a packet that another of its class, source and destination precedes is not taken, nor is one whose type is another,
nor one for a FROZEN region; then nothing changes. -/
def Sys2Proof.Spec.PacketOrder : Prop :=
  ∀ s n, ∀ c ∈ [(Instr.read n, 0), (.write n, 1), (.atomic n, 2), (.readReply n, 3), (.writeAcknowledgement n, 4), (.taskRecord n, 5),
      (.activeMessage n, 6), (.inboxAcknowledgement n, 7), (.poolRequest n, 8), (.poolReply n, 9), (.walkRequest n, 10),
      (.walkReply n, 11), (.interrupt n, 12), (.purge n, 13), (.purgeAcknowledgement n, 14)],
    (s.net[n]? = none → exec c.1 s = .next s) ∧
    (∀ p, s.net[n]? = some p →
      (p.type ≠ c.2 ∨ s.waitsOutside p = true ∨
        (∃ q ∈ s.net.take n, q.reply = p.reply ∧ q.src = p.src ∧ q.dst = p.dst)) → exec c.1 s = .next s)

/-- R406, R207, R412, R421, R462: reads, writes and atomics at their memory, and what comes back: a read gives 64 bytes as the
region of the request sees them; a write is performed and acknowledged, and dropped for a purged context or, at a scarf interface, where
its operation is gone; an atomic gives the old
value and writes the new one; a line that arrives fills the load that asked for it; an acknowledgement of a peer reaches the
operation that waits for it. -/
def Obligations.MemoryPackets : Prop :=
  (∀ s n p q, Arrives s n 0 p → s.requests.find? (fun q => q.xid = p.xid) = some q →
    let t := without s n
    exec (.read n) s = .next (t.send ⟨3, true, p.dev, p.src, p.dst, p.ctx, p.xid, p.addr,
      (List.range 64).map (fun k => t.viewByte q.region (p.addr + k)),
      (List.range 8).map (fun u => t.viewPoison q.region (p.addr / 8 + u))⟩)) ∧
  (∀ s n p, Arrives s n 1 p →
    let t := without s n
    let ack (status : Nat) (at' : List Byte) : Packet := ⟨4, true, p.dev, p.src, p.dst, p.ctx, p.xid, status, at', []⟩
    ((p.dst, p.ctx) ∈ s.pkg.purged → exec (.write n) s = .next t) ∧
    ((p.dst, p.ctx) ∉ s.pkg.purged → p.dev = 0 → p.dst = memNode p.addr → exec (.write n) s =
      .next ({ t with mem := t.mem.writeUnits p.addr p.payload p.poison }.send (ack 0 []))) ∧
    ((p.dst, p.ctx) ∉ s.pkg.purged → p.dev = 0 → p.dst ≠ memNode p.addr → exec (.write n) s =
      .next ((t.modCell p.dst (fun c => { c with sram := c.sram.writeUnits (p.addr % 0x400000) p.payload p.poison })).send (ack 0 []))) ∧
    ((p.dst, p.ctx) ∉ s.pkg.purged → p.dev ≠ 0 → s.requests.find? (fun q => q.xid = p.xid) = none → exec (.write n) s = .next t) ∧
    (∀ q, (p.dst, p.ctx) ∉ s.pkg.purged → p.dev ≠ 0 → s.requests.find? (fun q => q.xid = p.xid) = some q →
      ∃ status, status ∈ [0, 0x20, 0x02, 0x04] ∧
        exec (.write n) s = .next ({ t with fresh := t.fresh + 1 }.send (ack status (natBytes 8 p.addr))))) ∧
  (∀ s n p op, Arrives s n 2 p → (p.dst, p.ctx) ∉ s.pkg.purged → packetOp (dwordAt p.payload 0) = some op →
    let t := without s n
    let k := if dwordAt p.payload 8 = 4 then 4 else 8
    let old := leNat (t.mem.read p.addr k)
    let ack : Packet := ⟨3, true, p.dev, p.src, p.dst, p.ctx, p.xid, p.addr, natBytes k old, [t.mem.anyPoison p.addr k]⟩
    let new := amoValue op (8 * k) old (dwordAt p.payload 16 % 2 ^ (8 * k)) (dwordAt p.payload 24 % 2 ^ (8 * k))
    (new = none → exec (.atomic n) s = .next (t.send ack)) ∧
    (∀ v, new = some v → ∃ q, exec (.atomic n) s = .next ({ t with mem := t.mem.write p.addr (natBytes k v) q }.send ack))) ∧
  (∀ s n p q h id pa, Arrives s n 3 p → s.requests.find? (fun q => q.xid = p.xid) = some q → q.what = .line h id pa →
    ∃ t, exec (.readReply n) s = .next t ∧ t.net = dropNth s.net n ∧
      t.requests = s.requests.filter (fun r => r.xid ≠ p.xid) ∧ t.mem = s.mem ∧
      (t.hartAt h).loads = (s.hartAt h).loads.map (fun l => if l.id = id then
        { l with lines := l.lines.map (fun k => if k.pa = pa then { k with data := some (p.payload, p.poison) } else k) } else l) ∧
      (t.hartAt h).x = (s.hartAt h).x ∧ (∀ j, j ≠ h → t.hartAt j = s.hartAt j) ∧
      (isCompute h = true → (∃ l ∈ (s.hartAt h).loads, l.id = id) → let l1 := (t.cellAt (cellOf h)).l1
        ⟨pa, s.view q.region pa 64, (List.range 8).map (fun u => s.viewPoison q.region (pa / 8 + u))⟩ ∈ l1 ∧ l1.length ≤ 1024 ∧
        (((s.cellAt (cellOf h)).l1.map L1Line.pa).Nodup → (l1.map L1Line.pa).Nodup))) ∧
  (∀ s n p, Arrives s n 4 p →
    let t := without s n
    (s.requests.find? (fun q => q.xid = p.xid) = none → exec (.writeAcknowledgement n) s = .next t) ∧
    (∀ q r, s.requests.find? (fun q => q.xid = p.xid) = some q → q.what = .peer r →
      exec (.writeAcknowledgement n) s = .next ({ t with requests := t.requests.filter (fun k => k.xid ≠ p.xid) }.peerAck r p.xid
        p.addr (leNat p.payload))))

/-- R308, R362, R364, R365, R397, R405, R406, R408, R411, R462: the other packets at their receivers. A miss takes its place at its
walker behind those of earlier clks and, in its clk, those of lower M-cells; one of the four engines that serve the first four answers it
with the leaf, or with none, and an entry read poisoned is cause 0x48 of the region that asked. -/
def Sys2Proof.Spec.ControlPackets : Prop :=
  (∀ s n p, Arrives s n 5 p → p.spawnOf = none →
    let t := without s n
    let bay := bayOf p.dst
    (t.regionFor p.ctx bay = none → exec (.taskRecord n) s = .next (t.discardSpawn none)) ∧
    (∀ r g, t.regionFor p.ctx bay = some (r, g) →
      ((g.state = .teardown ∨ (g.state = .idle ∧ g.holds = false)) → exec (.taskRecord n) s = .next (t.discardSpawn none)) ∧
      (g.state = .active → g.shut = false → (t.bayAt bay).hasRoom = true → exec (.taskRecord n) s =
        .next (t.enterRecord bay (parseRecord 0 p.ctx r p.addr none p.payload p.poison))) ∧
      (g.state = .active → g.shut = false → (t.bayAt bay).hasRoom = false → exec (.taskRecord n) s = .next s))) ∧
  (∀ s n p r, Arrives s n 6 p → s.regionOfBay (bayOf p.dst) = some r →
    let m : Message := ⟨(List.range 8).map (fun k => BitVec.ofNat 64 (dwordOf p.payload k)), p.addr % 65536, p.ctx, r⟩
    ∃ t, exec (.activeMessage n) s = .next t ∧
      t.net = dropNth s.net n ++ [⟨7, true, p.dev, p.src, p.dst, p.ctx, p.xid, 0, [], []⟩] ∧
      (p.addr / 65536 = 0 → (t.cellAt p.dst).inbox = (s.cellAt p.dst).inbox ++ [m] ∧ t.bays = s.bays) ∧
      (p.addr / 65536 ≠ 0 → (t.bayAt (bayOf p.dst)).inbox = (s.bayAt (bayOf p.dst)).inbox ++ [m] ∧ t.cells = s.cells) ∧
      t.mem = s.mem ∧ t.harts = s.harts) ∧
  (∀ s n p, Arrives s n 7 p → exec (.inboxAcknowledgement n) s = .next (without s n)) ∧
  (∀ s n p k q, Arrives s n 8 p → (s.cellAt p.dst).pool.partOf p.ctx = some (k, q) → exec (.poolRequest n) s =
    .next ((without s n).modPool p.dst p.addr (fun q =>
      q.enqueue k ⟨p.addr, dwordAt p.payload 0, BitVec.ofNat 64 (dwordAt p.payload 8)⟩))) ∧
  (∀ s n p q h, Arrives s n 9 p → s.requests.find? (fun q => q.xid = p.xid) = some q → q.what = .pool h →
    ∃ t, exec (.poolReply n) s = .next t ∧ (t.hartAt h).reply = some (BitVec.ofNat 64 (dwordAt p.payload 0)) ∧
      (t.hartAt h).x = (s.hartAt h).x ∧ (∀ j, j ≠ h → t.hartAt j = s.hartAt j) ∧ t.cells = s.cells ∧ t.mem = s.mem) ∧
  (∀ s n p, Arrives s n 10 p →
    let b := bayOf p.dst
    let ms := lookupD [] b s.walkers
    exec (.walkRequest n) s = .next { without s n with walkers := insertAt b (queueMiss s.clk p ms) s.walkers } ∧
    ∃ before behind, ms = before ++ behind ∧ queueMiss s.clk p ms = before ++ (s.clk, p) :: behind ∧
      (∀ q ∈ before, q.1 < s.clk ∨ (q.1 = s.clk ∧ q.2.src ≤ p.src)) ∧
      (∀ q rest, behind = q :: rest → s.clk < q.1 ∨ (s.clk = q.1 ∧ p.src < q.2.src))) ∧
  (∀ (s : State) b engine q p, ((lookupD [] b s.walkers).take 4)[engine]? = some (q, p) →
    let t : State := { s with walkers := insertAt b (dropNth (lookupD [] b s.walkers) engine) s.walkers }
    let w := t.walk p.ctx p.addr
    let u := t.send ⟨11, true, p.dev, p.src, p.dst, p.ctx, p.xid, p.addr, (w.1.map leafBytes).getD [], []⟩
    (w.2 = false → s.endWalk b engine = u) ∧
    (w.2 = true → ∀ r, t.regionOfCell p.src = some r → s.endWalk b engine = u.cause r 0x48)) ∧
  (∀ s n p q c ctx page, Arrives s n 11 p → s.requests.find? (fun q => q.xid = p.xid) = some q → q.what = .walk c ctx page →
    ∃ t, exec (.walkReply n) s = .next t ∧ (t.cellAt c).walks = (s.cellAt c).walks.filter (fun w => w ≠ (ctx, page)) ∧
      (p.payload = [] → (t.cellAt c).walkFaults = (s.cellAt c).walkFaults ++ [(ctx, page)] ∧ (t.cellAt c).tlb = (s.cellAt c).tlb) ∧
      (∀ e : TlbEntry, e.ctx = ctx → e.va < 2 ^ 64 → e.size < 2 ^ 64 → e.pa < 2 ^ 64 → p.payload = leafBytes e →
        (t.cellAt c).tlb.head? = some e ∧ (t.cellAt c).tlb.length ≤ 256 ∧ (t.cellAt c).walkFaults = (s.cellAt c).walkFaults) ∧
      t.harts = s.harts ∧ t.mem = s.mem) ∧
  (∀ s n p, Arrives s n 12 p → exec (.interrupt n) s =
    .next { without s n with pkg := { s.pkg with interrupts := s.pkg.interrupts ++ [(p.src, (p.addr, p.payload))] } }) ∧
  (∀ s n p, Arrives s n 13 p → exec (.purge n) s =
    .next { without s n with
      pkg := { s.pkg with purged := s.pkg.purged ++ [(p.dst, p.ctx)] }
      net := dropNth s.net n ++ [⟨14, true, p.dev, p.src, p.dst, p.ctx, p.xid, p.addr, [], []⟩] }) ∧
  (∀ s n p c, Arrives s n 14 p → s.ctx? p.ctx = some c →
    (c.killing = none → exec (.purgeAcknowledgement n) s = .next (without s n)) ∧
    (∀ k, c.killing = some k → 1 < k →
      exec (.purgeAcknowledgement n) s = .next ((without s n).modCtx p.ctx (fun c => { c with killing := some (k - 1) }))) ∧
    (∀ k, c.killing = some k → k ≤ 1 → exec (.purgeAcknowledgement n) s = .next ((without s n).finishKill p.ctx)))

/-- R411-R421: an engine begins the message at the head of its inbox when its opcode is named: OVLP, FACCESS and REMOTE end it at
once; else it stands at its first byte. An operation goes on by the bytes up to the next 64-byte boundary of what it writes, into
the commit buffer of its unit, and ends with its last byte, or with the status and the address of an access that fails. The end of
an operation queues its completion update, gives what it wrote to its sender's interval, and takes the message off. -/
def Sys2Proof.Spec.BulkOperations : Prop :=
  (∀ s target, ∀ c ∈ [(Instr.copy target, (0, 1)), (.copy2d target, (0, 2)), (.fill target, (0, 3)), (.reduce target, (1, 0x10)),
      (.bcast target, (1, 0x11))],
    let kind := c.2.1
    let cell := if kind = 0 then target else taskUnitCell target
    (s.messageHead kind target = none → exec c.1 s = .next s) ∧
    (∀ m, s.messageHead kind target = some m →
      ((m.op ≠ c.2.2 ∨ s.cellMoves cell = false) → exec c.1 s = .next s) ∧
      (m.op = c.2.2 → s.cellMoves cell = true → s.engineRun kind target = none →
        let u : State := { s with fresh := s.fresh + 1 }
        let ended (status fva : Nat) : Prop := exec c.1 s = .next (u.endOp kind target m s.fresh status fva)
        ∀ list, u.readList (unitOf cell) m = .ok list →
          let w := collectiveWidth m.fmt
          let aligned : Prop := ∀ a ∈ m.operands list, a % w = 0
          let clear : Prop := ∀ a ∈ m.reads list, ∀ b ∈ m.writes list, overlaps a b = false
          (∀ pre a post, m.operands list = pre ++ a :: post → (∀ x ∈ pre, x % w = 0) → a % w ≠ 0 → ended 4 a) ∧
          (aligned → m.ddev = 0 → ¬ clear → ended 8 0) ∧
          (aligned → m.ddev = 0 → clear → exec c.1 s = .next (u.setRun kind target (some ⟨s.fresh, 0, false, list, 0⟩))) ∧
          (aligned → m.ddev ≠ 0 → ((u.peer m.ctx m.ddev).bind u.pickLink) = none → ended 0x20 0) ∧
          (∀ l, aligned → m.ddev ≠ 0 → ((u.peer m.ctx m.ddev).bind u.pickLink) = some l →
            exec c.1 s = .next (u.setRun kind target (some ⟨s.fresh, 0, false, list, l⟩)))) ∧
      (m.op = c.2.2 → s.cellMoves cell = true → ∀ run, s.engineRun kind target = some run →
        let unit := unitOf cell
        let row := run.pos / m.rowBytes
        let off := run.pos % m.rowBytes
        let va := m.dstRow run.list row + off
        let n := min (m.rowBytes - off) (64 - va % 64)
        let was := if run.poison then 0x40 else 0
        (∀ st f, s.pieceBytes unit m run row off n = .error (.ended st f) →
          exec c.1 s = .next (s.endOp kind target m run.id (st ||| was) f)) ∧
        (∀ bs, s.pieceBytes unit m run row off n = .ok bs →
          (∀ st f, s.writePiece unit m run va bs = .error (.ended st f) →
            exec c.1 s = .next (s.endOp kind target m run.id (st ||| was) f)) ∧
          (s.writePiece unit m run va bs = .ok none → exec c.1 s = .next s) ∧
          (∀ t, s.writePiece unit m run va bs = .ok (some t) →
            let u : State := { t with fresh := t.fresh + 4096 }
            let poison := run.poison || bs.any Prod.snd
            (run.pos + n < m.rows * m.rowBytes → exec c.1 s =
              .next ((u.setRun kind target (some { run with pos := run.pos + n, poison := poison })).fire m.region)) ∧
            (m.rows * m.rowBytes ≤ run.pos + n → exec c.1 s =
              .next ((u.endOp kind target m run.id (if poison then 0x40 else 0) 0).fire m.region))))))) ∧
  (∀ (s : State) kind target (m : Message) id status fva g, s.region? m.region = some g →
    (status / 2 % 2 = 0 ∨ s.walkLost (unitOf (if kind = 0 then target else taskUnitCell target)) m.ctx fva 1 = false) →
    let t := s.endOp kind target m id status fva
    ((t.region? m.region).map Region.updates) =
      some (g.updates ++ [⟨id, m.ctx, m.object, status, fva % 2 ^ 64, s.interval m.region m.sender, []⟩]) ∧
    (kind = 0 → (t.cellAt target).inbox = (s.cellAt target).inbox.drop 1 ∧ (t.cellAt target).run = none) ∧
    (kind ≠ 0 → (t.bayAt target).inbox = (s.bayAt target).inbox.drop 1 ∧ (t.bayAt target).run = none) ∧
    t.mem = s.mem ∧ t.harts = s.harts)

/-- R416, R418, R419: where the rows of an operation stand, and what its bytes are: COPY and BCAST take the bytes of their source,
COPY2D those of the row of its source, FILL the bytes of its dword from its first byte on, REDUCE the combination of the elements of
its sources. An INT32 sum is the sum modulo 2^32 and an INT32 minimum or maximum is one, in whatever grouping they are made. -/
def Sys2Proof.Spec.BulkValues : Prop :=
  (∀ (m : Message) list i,
    (m.op = 1 → m.rows = 1 ∧ m.rowBytes = m.d 2 ∧ m.dstRow list i = m.d 4 ∧ m.srcRow i = m.d 3) ∧
    (m.op = 2 → m.rows = m.d 2 / 2 ^ 32 % 2 ^ 32 ∧ m.rowBytes = m.d 2 % 2 ^ 32 ∧
      m.dstRow list i = m.d 4 + i * (m.d 5 / 2 ^ 32 % 2 ^ 32) ∧ m.srcRow i = m.d 3 + i * (m.d 5 % 2 ^ 32)) ∧
    (m.op = 3 → m.rows = 1 ∧ m.rowBytes = m.d 2 ∧ m.dstRow list i = m.d 4) ∧
    (m.op = 0x10 → m.rows = 1 ∧ m.rowBytes = m.d 2 * (if m.fmt = 2 then 2 else 4) ∧ m.dstRow list i = m.d 4) ∧
    (m.op = 0x11 → m.rows = m.n ∧ m.rowBytes = m.d 2 ∧ m.dstRow list i = list.getD i 0 ∧ m.srcRow i = m.d 3)) ∧
  (∀ (s : State) unit (m : Message) run row off n,
    (m.op = 1 ∨ m.op = 2 ∨ m.op = 0x11 →
      s.pieceBytes unit m run row off n = s.engineRead unit m (m.srcRow row + off) n) ∧
    (m.op = 3 → ∃ bs, s.pieceBytes unit m run row off n = .ok bs ∧ bs.length = n ∧
      ∀ i, i < n → bs[i]? = some (BitVec.ofNat 8 (m.d 3 / 2 ^ (8 * ((off + i) % 8))), false)) ∧
    (m.op = 0x10 → m.fmt = 10 → m.rop = 0 → n % 4 = 0 → ∀ xs, s.engineReads unit m off n run.list = .ok xs →
      xs ≠ [] → ∃ bs, s.pieceBytes unit m run row off n = .ok bs ∧
        ∀ e, e < n / 4 → leNat (((bs.drop (4 * e)).take 4).map Prod.fst) =
          (xs.map (fun x => leNat (((x.drop (4 * e)).take 4).map Prod.fst))).sum % 2 ^ 32)) ∧
  (∀ free (xs : List Nat), xs ≠ [] →
    ((∀ x ∈ xs, x < 2 ^ 32) → reduceElem 10 0 free xs = xs.sum % 2 ^ 32) ∧
    (reduceElem 10 1 free xs ∈ xs ∧ ∀ x ∈ xs, signedOf 32 (reduceElem 10 1 free xs) ≤ signedOf 32 x) ∧
    (reduceElem 10 2 free xs ∈ xs ∧ ∀ x ∈ xs, signedOf 32 x ≤ signedOf 32 (reduceElem 10 2 free xs)))

/-- R417: a tile copy moves one whole tile in one step: out of a pool slot, whose read it is, or into a slot that its sender is
filling, of the same shape; a reference that does not resolve is POOL with the reference, and a slot that is not sealed yet is
waited for. A source that differs from its sidecar is cause 0x40, and the copy is dropped with no status (R113, R420). -/
def Obligations.TileCopies : Prop :=
  ∀ s cell m, s.messageHead 0 cell = some m → m.op = 4 → s.cellMoves cell = true →
    let u : State := { s with fresh := s.fresh + 1 }
    let id := s.fresh
    let ended (status fva : Nat) : Prop := exec (.tcopy cell) s = .next (u.endOp 0 cell m id status fva)
    ((m.d 2).testBit 0 = true →
      (u.engineRef m (m.d 3) = none → ended 0x10 (m.d 3)) ∧
      (∀ c k0, u.engineRef m (m.d 3) = some (c, k0) →
        (u.admitRead c m.sender m.ctx (m.d 3 % 65536) ((m.d 2).testBit 2) = .waiting → exec (.tcopy cell) s = .next s) ∧
        (∀ code, u.admitRead c m.sender m.ctx (m.d 3 % 65536) ((m.d 2).testBit 2) = .fault code → ended 0x10 (m.d 3)) ∧
        (∀ t c' k w, u.admitRead c m.sender m.ctx (m.d 3 % 65536) ((m.d 2).testBit 2) = .admitted t →
          t.engineRef m (m.d 3) = some (c', k) →
          t.placeTile (unitOf cell) id m (k.desc.toNat / 4096) (t.slotData c k) (some k.sidecar) = .ok (some w) →
          (descFmt k.desc = 11 ∨ s.slotSums c k = k.sidecar) →
          exec (.tcopy cell) s = .next (((w.endRead c m.sender k.first ((m.d 2).testBit 2)).endOp 0 cell m id
            (if (t.slotData c k).any Prod.snd then 0x40 else 0) 0).fire m.region)) ∧
        (∀ t c' k, u.admitRead c m.sender m.ctx (m.d 3 % 65536) ((m.d 2).testBit 2) = .admitted t →
          t.engineRef m (m.d 3) = some (c', k) → descFmt k.desc ≠ 11 → s.slotSums c k ≠ k.sidecar →
          exec (.tcopy cell) s = .next ((((t.modPool c m.sender (fun p => (p.abortRead k.first ((m.d 2).testBit 2)).sweep
            (t.waveOf c))).dropMessage 0 cell).cause m.region 0x40))))) ∧
    ((m.d 2).testBit 0 = false →
      (u.engineRef m (m.d 4) = none → ended 0x10 (m.d 4)) ∧
      (∀ c k, u.engineRef m (m.d 4) = some (c, k) →
        (k.desc.toNat / 4096 ≠ m.d 5 / 4096 → ended 0x10 (m.d 4)) ∧
        (k.desc.toNat / 4096 = m.d 5 / 4096 →
          (∀ st f, u.engineRead (unitOf cell) m (m.d 3) (descBytes k.desc (4096 * k.n)) = .error (.ended st f) → ended st f) ∧
          (∀ bs, u.engineRead (unitOf cell) m (m.d 3) (descBytes k.desc (4096 * k.n)) = .ok bs →
            (m.d 2).testBit 1 = true →
            ((k.state ≠ .filling ∨ k.owner ≠ m.sender) → ended 0x10 (m.d 4)) ∧
            (k.state = .filling → k.owner = m.sender → exec (.tcopy cell) s =
              .next (((u.fillTile c m.sender k bs none).endOp 0 cell m id (if bs.any Prod.snd then 0x40 else 0) 0).fire m.region))))))

/-- R388-R391, R394: a dispatch that finds no ready record starts no task; one that finds a single ready record, and a hart eligible
for it, starts it there: it fetches from the next clk on, with its pc, arguments, cleared handler state, registers cleared where the context before was another. Ageing moves
records that stood 4,096 clk up by one queue. -/
def Obligations.TaskUnit : Prop :=
  (∀ s bay, let u := s.modBay bay Bay.refresh
    let b := u.bayAt bay
    (b.order = [] → exec (.dispatch bay) s = .next u) ∧
    (∀ r, b.order = [r] → b.events &&& ~~~b.cons &&& r.waits = r.waits →
      ((∀ h ∈ matching bay r.cells r.classes, u.eligible r h = false) → exec (.dispatch bay) s = .next u) ∧
      (∀ pre h post, matching bay r.cells r.classes = pre ++ h :: post → (∀ k ∈ pre, u.eligible r k = false) →
        u.eligible r h = true → exec (.dispatch bay) s = .next (u.startRecord bay r h)))) ∧
  (∀ (x : Hart) clk str (r : Record) tagbase,
    let y := x.start clk str r tagbase
    y.fetchFrom = clk + 1 ∧ y.pc = r.pc ∧ y.fcsr = 0#8 ∧ y.sigEn = false ∧ y.hnd = false ∧ y.nut = false ∧ y.gid = 0#64 ∧ y.tvec = 0#64 ∧ y.tagbase = tagbase ∧
    y.task = some ⟨r.ctx, r.region, r.cfgid, r.setm, r.fromHost⟩ ∧ y.instret = x.instret ∧
    (∀ k, k < 4 → y.xval (BitVec.ofNat 5 (20 + k)) = ⟨r.args.getD k 0#64, 24#5, r.argPoison.getD k false⟩) ∧
    (∀ k : Reg, k.toNat < 20 ∨ 24 ≤ k.toNat →
      y.xval k = if x.lastCtx = some r.ctx then x.xval k else Hart.reset.xval k) ∧
    (x.lastCtx ≠ some r.ctx → y.v = Hart.reset.v ∧ y.m = Hart.reset.m ∧ y.p = Hart.reset.p) ∧
    (x.lastCtx = some r.ctx → y.v = x.v ∧ y.m = x.m ∧ y.p = x.p)) ∧
  (∀ s bay, ∃ t, exec (.ageing bay) s = .next t ∧ (t.bayAt bay).store = (s.bayAt bay).store ∧
    (∀ i, i < 4 → ((t.bayAt bay).ready[i]?).getD [] =
      (((s.bayAt bay).ready[i]?).getD []).filter (fun e => i = 3 ∨ e.2 < 4096) ++
        (if i = 0 then [] else ((((s.bayAt bay).ready[i - 1]?).getD []).filter (fun e => 4096 ≤ e.2)).map (fun e => (e.1, 0)))) ∧
    t.harts = s.harts ∧ t.cells = s.cells ∧ t.mem = s.mem)
/-! Regions: waves, rollbacks, configurations, watchdogs (R423-R450). -/

/-- R429-R432, R436, R439, R445: the wave of a region. A wave that is wanted opens once none is in flight; KI elements and an overdue
release ask for one; a party takes its part when it is due; a wave of which every part is taken, and every KERF has done its work,
completes: its interval commits (what a commit's drains do is stated of themselves), the final wave of a pre-emption parks the region, and
the last one of a teardown ends that. -/
def Obligations.KerfWaves : Prop :=
  ∀ (s : State) r g, s.region? r = some g →
    ((g.cuts = true ∧ g.wanted = true ∧ g.inFlight = false → exec (.waveOpen r) s = .next (s.openWave r)) ∧
      (g.cuts = false ∨ g.wanted = false ∨ g.inFlight = true → exec (.waveOpen r) s = .next s)) ∧
    (let t := s.openWave r
      ∃ h, t.region? r = some h ∧ h.inFlight = true ∧ h.wanted = false ∧ h.parted = [] ∧ h.moved = 0 ∧ h.wave = g.wave ∧
        h.commit = g.commit ∧ t.mem = s.mem ∧ t.harts = s.harts ∧ t.cells = s.cells) ∧
    (let ki := g.rparm.toNat / 2 ^ 32;
      (g.cuts = true → ki ≤ g.moved → g.inFlight = false → exec (.kiCut r) s = .next (s.openWave r)) ∧
      (g.cuts = true → ki ≤ g.moved → g.inFlight = true →
        exec (.kiCut r) s = .next (s.modRegion r (fun g => { g with wanted := true }))) ∧
      (g.cuts = false ∨ g.moved < ki → exec (.kiCut r) s = .next s)) ∧
    (let limit := 2 ^ (g.rparm.toNat / 2 ^ 19 % 32);
      (g.cuts = true → (∃ w ∈ g.releases, limit ≤ w.2) → ∃ t h, exec (.releaseCommitTimeout r) s = .next t ∧ t.region? r = some h ∧
        (h.inFlight = true ∧ (g.inFlight = true → h.wanted = true)) ∧
        h.releases = g.releases.map (fun w => if limit ≤ w.2 then (w.1, 0) else w)) ∧
      ((g.cuts = false ∨ ∀ w ∈ g.releases, w.2 < limit) → exec (.releaseCommitTimeout r) s = .next s)) ∧
    (∀ p, (g.cuts = true → g.inFlight = true → p ∈ s.parties g → p ∉ g.parted → s.partDue g p = true →
        exec (.kerfPart r p) s = .next (s.takePart r p)) ∧
      ((g.cuts = false ∨ g.inFlight = false ∨ p ∉ s.parties g ∨ p ∈ g.parted ∨ s.partDue g p = false) →
        exec (.kerfPart r p) s = .next s)) ∧
    (g.cuts = true → g.inFlight = true → (∀ p ∈ s.parties g, p ∈ g.parted) → (∀ t ∈ s.ties g, s.kerfDone g t = true) →
      let t := (s.clearKerfs g).commitWave r g;
      (g.finalWave = true → exec (.waveComplete r) s = .next (t.park r ((t.region? r).bind Region.snap))) ∧
      (g.finalWave = false → exec (.waveComplete r) s = .next (t.wind r))) ∧
    ((g.cuts = false ∨ g.inFlight = false ∨ (∃ p ∈ s.parties g, p ∉ g.parted) ∨ (∃ t ∈ s.ties g, s.kerfDone g t = false)) →
      exec (.waveComplete r) s = .next s)

/-- R432, R434: draining writes moves them from the commit buffers to memory: the region sees every byte and every poison bit as
before, memory changes only where a drained write stands, and no drained write is left. -/
def Obligations.CommitDrains : Prop :=
  ∀ (s : State) r g (p : CWrite → Bool), s.region? r = some g → s.mem.wf →
    (∀ w ∈ g.commit, (w.units.map Prod.fst).Nodup) →
    let t := s.drainWrites r p
    (∀ a, t.viewByte r a = s.viewByte r a) ∧ (∀ u, t.viewPoison r u = s.viewPoison r u) ∧
    (∀ a, (∀ w ∈ g.commit, p w = true → a < w.pa ∨ w.pa + w.bytes.length ≤ a) → t.mem.byte a = s.mem.byte a) ∧
    ((∀ w ∈ g.commit, p w = true) → ∀ a, t.mem.byte a = s.viewByte r a) ∧
    (∃ h, t.region? r = some h ∧ h.commit.length = (g.commit.filter (fun w => !p w)).length ∧
      h.commit.map CWrite.interval = (g.commit.filter (fun w => !p w)).map CWrite.interval ∧ h.wave = g.wave) ∧
    (∀ q, q ≠ r → t.region? q = s.region? q) ∧ t.harts = s.harts ∧ t.cells = s.cells ∧ t.mem.wf

/-- R434-R436, R439, R446: a region cause is counted and recorded; a cause whose action is a rollback rolls the region back to its
last complete wave while it is ACTIVE or DRAINING, its wave in flight abandoned; an exposed region, one without a snapshot and one
that has rolled back seven times from this wave is killed instead; the drain of a rollback ends after 2^16 clk, and once every hart is
idle the snapshot is restored and the region goes on. -/
def Obligations.Rollbacks : Prop :=
  (∀ (s : State) r g code, s.region? r = some g →
    let t := s.report r code;
    (∃ h, t.region? r = some h ∧ h.code = (if g.codeAt = some s.clk then min g.code code else code) ∧ h.causes = min (g.causes + 1) (2 ^ 32 - 1) ∧ h.state = g.state) ∧
    (code ∈ [0x40, 0x41, 0x43, 0x45, 0x46, 0x48] → g.state = .active ∨ g.state = .draining →
      ((∀ w, g.exposed = some w → w ≤ g.wave) → g.rollbacks < 7 → g.snap ≠ none → s.cause r code = t.startRollback r code) ∧
      (((∃ w, g.exposed = some w ∧ g.wave < w) ∨ 7 ≤ g.rollbacks ∨ g.snap = none) → s.cause r code = t.killContext g.ctx)) ∧
    (code ∈ [0x40, 0x41, 0x43, 0x45, 0x46, 0x48] → g.state = .rollback →
      s.cause r code = if code = 0x48 ∧ g.snap = none then t.killContext g.ctx else t) ∧
    (code ∈ [0x40, 0x41, 0x43, 0x45, 0x46, 0x48] → g.state ≠ .active → g.state ≠ .draining → g.state ≠ .rollback →
      s.cause r code = if g.state = .frozen ∧ g.actedAt = some s.clk then t else t.postpone r code) ∧
    (code ∈ [0x44, 0x49] →
      (g.state = .active ∨ g.state = .draining ∨ (g.state = .rollback ∧ g.actedAt = some s.clk) → s.cause r code = t.freeze r code) ∧
      (g.state = .frozen → s.cause r code = t) ∧
      (g.state ≠ .active → g.state ≠ .draining → g.state ≠ .frozen → (g.state = .rollback → g.actedAt ≠ some s.clk) →
        s.cause r code = t.postpone r code)) ∧
    (code = 0x42 → s.cause r code = t.killContext g.ctx)) ∧
  (∀ (s : State) r g code, s.region? r = some g → ∃ h, (s.startRollback r code).region? r = some h ∧ h.state = .rollback ∧
    h.cause = code ∧ h.drainClk = 0 ∧ h.rollbacks = g.rollbacks + 1 ∧ h.inFlight = false ∧ h.parted = [] ∧ h.taking = none ∧
    h.wave = g.wave ∧ h.snap = g.snap ∧ (s.startRollback r code).mem = s.mem) ∧
  (∀ (s : State) r g, s.region? r = some g →
    (g.state = .rollback → 2 ^ 16 ≤ g.drainClk →
      exec (.rollbackDrainTimeout r) s = .next ((s.running r).foldl (fun s h => s.endMember h none) s)) ∧
    ((g.state ≠ .rollback ∨ g.drainClk < 2 ^ 16) → exec (.rollbackDrainTimeout r) s = .next s) ∧
    ((g.state ≠ .rollback ∨ g.debugHalt = true ∨ s.running r ≠ []) → exec (.rollbackRestore r) s = .next s) ∧
    (g.state = .rollback → g.debugHalt = false → s.running r = [] →
      (g.snap = none → exec (.rollbackRestore r) s = .next ((s.report r 0x48).killContext g.ctx)) ∧
      (∀ k, g.snap = some k → g.forced = true → exec (.rollbackRestore r) s = .next ((s.restore r g k).park r (some k))) ∧
      (∀ k, g.snap = some k → g.forced = false →
        let t := ((s.restore r g k).modRegion r (fun g => { g with
          state := if g.wasDraining then .draining else .active, wasDraining := false, resumeCmd := none })).actWaiting r
        (g.resumeCmd = none → exec (.rollbackRestore r) s = .next t) ∧
        (∀ fn seq, g.resumeCmd = some (fn, seq) → exec (.rollbackRestore r) s = .next (t.complete fn seq 0#64)))) ∧
    (g.state = .draining → g.debugHalt = false → g.inFlight = false → s.drained? r g = true →
      exec (.drainComplete r) s = .next ((s.openWave r).modRegion r (fun g => { g with finalWave := true }))) ∧
    ((g.state ≠ .draining ∨ g.debugHalt = true ∨ g.inFlight = true ∨ s.drained? r g = false) →
      exec (.drainComplete r) s = .next s) ∧
    (let due := g.state = .draining ∧ g.finalWave = false ∧ 2 ^ (g.rparm.toNat / 2 ^ 4 % 32) ≤ g.pdl
      let t := s.report r 0x4D;
      (¬ due → exec (.preemptTimeout r) s = .next s) ∧
      (due → (g.exposed ≠ none ∨ g.snap = none) → exec (.preemptTimeout r) s = .next (t.killContext g.ctx)) ∧
      (due → g.exposed = none → g.snap ≠ none → exec (.preemptTimeout r) s = .next ((t.startRollback r 0x4D).modRegion r
        (fun h => { h with forced := true, kept := t.messagesOf r g, rollbacks := g.rollbacks })))))

/-- R425-R428, R438, R440, R442-R444: a load completes once every cell has its sections; a cell that has fetched its sections is ready;
a fault of a fetch is reported once, a digest that differs twice kills the context; a parity error is reported and rolls back; a cell
that is due swaps to its shadow configuration. -/
def Obligations.Configurations : Prop :=
  (∀ (s : State) r g fn seq id, s.region? r = some g → g.state = .loading → g.loadCmd = some (fn, (seq, id)) →
    (g.holds = true → ∀ im, s.image? g.ctx id = some im →
      (s.allFetched g id = true →
        exec (.configLoadComplete r) s = .next ((s.activate r g id im).complete fn seq (BitVec.ofNat 64 id))) ∧
      (s.allFetched g id = false → exec (.configLoadComplete r) s = .next s)) ∧
    (g.holds = false → s.baysFree r g = true → exec (.configLoadComplete r) s = .next ((s.allocate r g).fetchAll g id)) ∧
    (g.holds = false → s.baysFree r g = false → exec (.configLoadComplete r) s = .next s)) ∧
  (∀ (s : State) r g, s.region? r = some g → g.state = .resuming → exec (.configLoadComplete r) s = .next (s.resumeStep r g)) ∧
  (∀ (s : State) r g, s.region? r = some g → g.state ≠ .resuming → g.state ≠ .loading → exec (.configLoadComplete r) s = .next s) ∧
  (∀ (s : State) cell r g id n stalled im, (s.cellAt cell).shadow = .pending id n stalled → s.regionOfCell cell = some r →
    s.region? r = some g → s.image? g.ctx id = some im →
    (s.fetchCell r g.ctx cell im = .none → exec (.shadowFetchDone cell) s = .next (s.gotSections r cell id none)) ∧
    (∀ k, s.fetchCell r g.ctx cell im = .got k → exec (.shadowFetchDone cell) s = .next (s.gotSections r cell id (some k))) ∧
    (∀ va, s.fetchCell r g.ctx cell im = .fault va → g.state ≠ .loading →
      let t := s.noteWalk r (unitOf cell) g.ctx va 1
      (stalled = true → exec (.shadowFetchDone cell) s = .next t) ∧
      (stalled = false → exec (.shadowFetchDone cell) s =
        .next ((t.setShadow cell (.pending id n true)).reportFetch r cell va))) ∧
    (s.fetchCell r g.ctx cell im = .differs → g.state ≠ .loading →
      (n = 0 → exec (.shadowFetchDone cell) s = .next ((s.setShadow cell (.pending id 1 false)).reportFetch r cell im.va)) ∧
      (n ≠ 0 → exec (.shadowFetchDone cell) s = .next ((s.report r 0x47).killContext g.ctx))) ∧
    (∀ va, s.fetchCell r g.ctx cell im = .fault va → g.state = .loading →
      exec (.shadowFetchDone cell) s = .next ((s.noteWalk r (unitOf cell) g.ctx va 1).failLoad r g)) ∧
    (s.fetchCell r g.ctx cell im = .differs → g.state = .loading → exec (.shadowFetchDone cell) s = .next (s.failLoad r g))) ∧
  (∀ (s : State) r cell id k, ((s.gotSections r cell id k).cellAt cell).shadow = .ready id k) ∧
  (∀ (s : State) cell u r, s.regionOfCell cell = some r → ∃ code, code = 0x46 ∨ code = 0x48 ∧
    exec (.cfgParity cell u) s = .next ({ s with fresh := s.fresh + 1 }.cause r code)) ∧
  (∀ (s : State) cell r g, s.regionOfCell cell = some r → s.region? r = some g →
    (s.swapDue r g cell = false → exec (.cellSwap cell) s = .next s) ∧
    (s.swapDue r g cell = true → (s.image? g.ctx g.acfg).isSome = true → (s.image? g.ctx g.scfg).isSome = true →
      s.oldOutputs g cell = [] → (∃ c ∈ g.cells, c ≠ cell ∧ c ∉ g.swapped) →
      ∃ t h, exec (.cellSwap cell) s = .next t ∧ t.region? r = some h ∧ cell ∈ h.swapped ∧ h.sws = 3 ∧ h.acfg = g.acfg ∧
        (t.cellAt cell).shadow = .idle ∧ (t.cellAt cell).prev = some ((s.cellAt cell).cfgid, (s.cellAt cell).cfg) ∧
        (∀ k, (s.cellAt cell).shadow = .ready g.scfg (some k) → (t.cellAt cell).cfg = k ∧ (t.cellAt cell).cfgid = g.scfg) ∧
        (∀ c, c ≠ cell → t.cellAt c = s.cellAt c) ∧ t.harts = s.harts))

/-- R433, R447-R449: the stall watchdog enlarges the smallest full queue on which a party is blocked, from a spill area that has room for
it, else it counts the area as exhausted; the hang monitor raises cause 0x44, or 0x49 with an exhausted area; a request older than MTO is
given up with cause 0x45; the debugger halts a region. -/
def Obligations.Watchdogs : Prop :=
  ∀ (s : State) r g, s.region? r = some g →
    (let due := g.cuts = true ∧ 2 ^ (g.rparm.toNat / 2 ^ 19 % 32) ≤ g.swd;
      (¬ due → exec (.stallWatchdog r) s = .next s) ∧
      (due → s.smallestFull r g = none → exec (.stallWatchdog r) s = .next s) ∧
      (due → ∀ f, s.smallestFull r g = some f →
        (g.spillFree < s.growSize f → exec (.stallWatchdog r) s = .next (s.modRegion r (fun g => { g with spillOut := true }))) ∧
        (s.growSize f ≤ g.spillFree → s.enlarge r g f = none →
          exec (.stallWatchdog r) s = .next (s.modRegion r (fun g => { g with spillOut := true }))) ∧
        (∀ t, s.growSize f ≤ g.spillFree → s.enlarge r g f = some t → exec (.stallWatchdog r) s =
          .next (t.modRegion r (fun g => { g with swd := 0, spillUsed := g.spillUsed + s.growSize f }))))) ∧
    (let due := g.cuts = true ∧ 2 ^ (g.rparm.toNat / 2 ^ 14 % 32) ≤ g.hng;
      (¬ due → exec (.hang r) s = .next s) ∧
      (due → exec (.hang r) s =
        .next (((s.modRegion r (fun g => { g with hng := 0 })).cause r (if g.spillOut then 0x49 else 0x44)).writeMap r
          (if g.spillOut then 0x49 else 0x44)))) ∧
    (let old (q : Request) : Prop := q.region = r ∧ s.awaitsReply q = true ∧ q.sent + 2 ^ (g.rparm.toNat / 2 ^ 9 % 32) < s.clk;
      ((∀ q ∈ s.requests, ¬ old q) → exec (.replyTimeout r) s = .next s) ∧
      (∀ pre q post, s.requests = pre ++ q :: post → (∀ x ∈ pre, ¬ old x) → old q →
        let t : State := { s with requests := s.requests.filter (fun x => x.xid ≠ q.xid) };
        (∀ h id pa, q.what = .line h id pa → exec (.replyTimeout r) s = .next (t.cause r 0x45)) ∧
        (∀ c ctx page, q.what = .walk c ctx page → exec (.replyTimeout r) s = .next ((t.modCell c (fun x =>
          { x with walks := x.walks.filter (fun w => w ≠ (ctx, page)) })).cause r 0x45)) ∧
        (∀ p, q.what = .peer p → exec (.replyTimeout r) s = .next ((t.peerAck p q.xid 0x20 0).cause r 0x45)))) ∧
    (∀ on, exec (.debuggerHalt r on) s = .next (s.modRegion r (fun g => { g with debugHalt := on })))

/-! The host and the package (R451-R473). -/

/-- R451, R453-R456, R466: a write to the inbox window is taken in whole records, 256 at most, INBOXFREE counts the free places, and one of a
part of a record is an error; the window reads 0, and what lies beyond it is read-only. A write is dropped while Haltin has not started. A record is refused with its reason or becomes the next journal entry, accepted; an accepted
command does nothing until it may start. -/
def Obligations.HostRecords : Prop :=
  (∀ (s : State) fn off bs, let write : Out := exec (.inboxWrite fn off bs) s
    let heard : Prop := s.pkg.bootstat % 2 = 1 ∧ s.pkg.bootstat / 16 % 2 = 1 ∧ fn < 32
    (¬ heard → write = .next s) ∧
    (heard → bs.length = 64 → off % 64 = 0 → off < 4096 →
      (s.pkg.inbox.length < 256 → write = .next { s with pkg := { s.pkg with inbox := s.pkg.inbox ++ [(fn, bs)] } }) ∧
      (256 ≤ s.pkg.inbox.length → write = .next (s.modFn fn (fun f => { f with inboxdrop := f.inboxdrop + 1 })))) ∧
    (heard → bs ≠ [] → bs.length < 64 → off % 64 + bs.length ≤ 64 → off < 4096 →
      write = .next (s.modFn fn (fun f => { f with inboxerr := f.inboxerr + 1 }))) ∧
    (heard → 4096 ≤ off → write = .next s) ∧
    s.bar0Read fn 0x210 = 256 - s.pkg.inbox.length ∧ (off < 0x1000 → s.bar2Read fn off = 0)) ∧
  (∀ (s : State) fn seq, ∀ c ∈ [(Instr.openRegion fn seq, 0x01), (.map fn seq, 0x02), (.unmap fn seq, 0x03), (.loadcfg fn seq, 0x04),
      (.spawn fn seq, 0x05), (.signal fn seq, 0x06), (.preempt fn seq, 0x07), (.resume fn seq, 0x08), (.kill fn seq, 0x09),
      (.query fn seq, 0x0A), (.attest fn seq, 0x0B), (.fwupd fn seq, 0x0C)],
    (s.entry? fn seq = none → s.pkg.inbox = [] → exec c.1 s = .next s) ∧
    (∀ bs rest, s.entry? fn seq = none → s.pkg.inbox = (fn, bs) :: rest → seq = (s.fnAt fn).jacc + 1 → recOp bs = c.2 →
      exec c.1 s = .next (s.takeRecord fn bs)) ∧
    (∀ e, s.entry? fn seq = some e →
      (e.op ≠ c.2 ∨ 3 ≤ e.state ∨ (e.state = 1 ∧ s.mayStart fn seq e = false)) → exec c.1 s = .next s)) ∧
  (∀ (s : State) fn bs head rest, s.pkg.inbox = head :: rest →
    let u : State := { s with pkg := { s.pkg with inbox := rest } }
    let reason := u.recordReason fn bs
    let t := s.takeRecord fn bs
    t.pkg = u.pkg ∧ t.mem = s.mem ∧ t.regions = s.regions ∧
    (reason ≠ 0 → (t.fnAt fn).refcnt = (s.fnAt fn).refcnt + 1 ∧ (t.fnAt fn).jacc = (s.fnAt fn).jacc ∧
      lookup ((s.fnAt fn).refcnt % 64) (t.fnAt fn).refusals =
        some (BitVec.ofNat 64 (recD bs 1), BitVec.ofNat 64 (reason + fn * 256))) ∧
    (reason = 0 → (t.fnAt fn).jacc = (s.fnAt fn).jacc + 1 ∧ (t.fnAt fn).refcnt = (s.fnAt fn).refcnt ∧
      ∃ e, t.entry? fn ((s.fnAt fn).jacc + 1) = some e ∧ e.op = recOp bs ∧ e.ctx = recCtx bs ∧ e.state = 1 ∧
        e.htag = BitVec.ofNat 64 (recD bs 1) ∧ (∀ k, k < 6 → e.a k = recA bs k % 2 ^ 64)))

/-- R405, R423, R428, R445, R457, R462, R469: the commands that act on a context and its regions, as they start: OPEN, SPAWN, SIGNAL,
PREEMPT, RESUME, KILL and LOADCFG. -/
def Obligations.RegionCommands : Prop :=
  (∀ s fn seq e r c t, Starts s fn seq 0x01 e →
    let u := started s fn seq
    lowest 0 192 (fun r => (u.region? r).isNone) = some r → u.openCtx fn e = some (c, t) →
    (u.placeOk fn (openedRegion c e) = true → exec (.openRegion fn seq) s =
      .next (((t.openIn r (openedRegion c e)).modEntry fn seq (fun e => { e with ctx := c })).complete fn seq
        (BitVec.ofNat 64 (c + r * 2 ^ 16)))) ∧
    (u.placeOk fn (openedRegion c e) = false → exec (.openRegion fn seq) s = .next (u.failed fn seq 0x4E))) ∧
  (∀ s fn seq e, Starts s fn seq 0x05 e →
    let u := started s fn seq;
    (192 ≤ e.a 1 ∨ u.regionFor e.ctx (e.a 1) = none → exec (.spawn fn seq) s = .next (u.failed fn seq 0x4E)) ∧
    (e.a 1 < 192 → u.regionFor e.ctx (e.a 1) ≠ none →
      (∀ code, u.spawnRecord e.ctx (e.a 1) (e.a 0) = .error code →
        (code ≠ 0x08 ∨ (u.lostWalk e.ctx (e.a 0) 64 = false ∧ u.lostWalk e.ctx (e.a 0) 128 = false)) →
        exec (.spawn fn seq) s = .next (u.failed fn seq code)) ∧
      (∀ bs ps, u.spawnRecord e.ctx (e.a 1) (e.a 0) = .ok (bs, ps) → exec (.spawn fn seq) s =
        .next (u.send ⟨5, false, 0, taskUnitCell (e.a 1), 24, e.ctx, seq * 32 + fn, 0, bs, ps⟩)))) ∧
  (∀ s fn seq e r g, Starts s fn seq 0x06 e → e.a 0 < 192 →
    let u := started s fn seq
    u.regionFor e.ctx (e.a 0) = some (r, g) →
    (g.takesSignals = true → exec (.signal fn seq) s =
      .next ((u.setEvents (e.a 0) (eventBit (BitVec.ofNat 8 (e.a 1))) none).complete fn seq 0#64)) ∧
    (g.takesSignals = false → exec (.signal fn seq) s = .next u)) ∧
  (∀ s fn seq e g, Starts s fn seq 0x07 e →
    let u := started s fn seq;
    (u.ownRegion e.ctx (e.a 0) = none → exec (.preempt fn seq) s = .next (u.failed fn seq 0x4E)) ∧
    (u.ownRegion e.ctx (e.a 0) = some g → g.state = .active → g.preemptCmd = none → exec (.preempt fn seq) s =
      .next (u.modRegion (e.a 0) (fun g => { g with state := .draining, pdl := 0, preemptCmd := some (fn, seq) })))) ∧
  (∀ s fn seq e g, Starts s fn seq 0x08 e →
    let u := started s fn seq;
    (u.ownRegion e.ctx (e.a 0) = none → exec (.resume fn seq) s = .next (u.failed fn seq 0x4E)) ∧
    (u.ownRegion e.ctx (e.a 0) = some g → g.state = .preempted → g.holds = false → g.resumeCmd = none →
      exec (.resume fn seq) s = .next (u.modRegion (e.a 0) (fun g => { g with state := .resuming, resumeCmd := some (fn, seq) }))) ∧
    (u.ownRegion e.ctx (e.a 0) = some g → g.state = .frozen → g.resumeCmd = none → (∀ w, g.exposed = some w → w ≤ g.wave) →
      g.rollbacks < 7 → g.snap ≠ none → exec (.resume fn seq) s =
        .next ((u.startRollback (e.a 0) g.code).modRegion (e.a 0) (fun g => { g with resumeCmd := some (fn, seq) })))) ∧
  (∀ s fn seq e, Starts s fn seq 0x09 e → exec (.kill fn seq) s = .next ((started s fn seq).killContext e.ctx)) ∧
  (∀ s fn seq e, Starts s fn seq 0x04 e →
    let u := started s fn seq;
    (u.ownRegion e.ctx (e.a 1) = none → exec (.loadcfg fn seq) s = .next (u.failed fn seq 0x4E)) ∧
    (∀ g, u.ownRegion e.ctx (e.a 1) = some g → e.a 2 % 2 = 1 → g.state ≠ .idle → g.state ≠ .active → exec (.loadcfg fn seq) s = .next u) ∧
    (∀ g, u.ownRegion e.ctx (e.a 1) = some g → (e.a 2 % 2 = 0 ∨ g.state = .idle ∨ g.state = .active) →
      (u.readImage e.ctx (e.a 0) = none → u.lostImage e.ctx (e.a 0) = false →
        exec (.loadcfg fn seq) s = .next (u.failed fn seq 0x47)) ∧
      (∀ bs, u.readImage e.ctx (e.a 0) = some bs →
        (∀ code, u.refusal g bs = some code → exec (.loadcfg fn seq) s = .next (u.failed fn seq code)) ∧
        (u.refusal g bs = none → u.idInUse e.ctx (byteAt bs 6) = true → exec (.loadcfg fn seq) s = .next (u.failed fn seq 0x47)) ∧
        (u.refusal g bs = none → u.idInUse e.ctx (byteAt bs 6) = false → e.a 2 = 0 →
          let v := u.modCtx e.ctx (fun c => { c with images := insertAt (byteAt bs 6) (imageOf (e.a 0) bs) c.images })
          exec (.loadcfg fn seq) s = .next ((v.modRegion (e.a 1) (fun g => { g with
            rspill := if e.a 3 = 0 then g.rspill else BitVec.ofNat 64 (e.a 3), spillOut := g.spillOut && decide (e.a 3 = 0)
            rdiag := if e.a 4 = 0 then g.rdiag else BitVec.ofNat 64 (e.a 4) })).complete fn seq (BitVec.ofNat 64 (byteAt bs 6)))))))

/-- R366, R457, R466-R469, R473: the commands that act on memory and on the device, as they start: MAP, UNMAP, QUERY, ATTEST, FWUPD. A
range that is mapped already fails with 0x51, one that finds no page with 0x50; the pages of an UNMAP are given up once no access can
use them. -/
def Obligations.MemoryCommands : Prop :=
  (∀ s fn seq e, Starts s fn seq 0x02 e →
    let u := started s fn seq
    let mapped := u.firstMapped e.ctx (e.a 1 / 8192 + 1) (e.a 0) (e.a 0 + e.a 1)
    let pages := e.a 1 / mapPage (e.a 2 % 4);
    (mapped ≠ none → exec (.map fn seq) s = .next (u.failed fn seq 0x51)) ∧
    (mapped = none → maskTargets (e.a 3) ≠ [] → u.mapPages e.ctx (e.a 2) (maskTargets (e.a 3)) pages (e.a 0) 0 = none →
      exec (.map fn seq) s = .next (u.failed fn seq 0x50)) ∧
    (mapped = none → maskTargets (e.a 3) = [] → e.a 1 ≠ 0 → exec (.map fn seq) s = .next (u.failed fn seq 0x50)) ∧
    (∀ t, mapped = none → maskTargets (e.a 3) ≠ [] → u.mapPages e.ctx (e.a 2) (maskTargets (e.a 3)) pages (e.a 0) 0 = some t →
      e.a 4 = 0 → ∃ v, exec (.map fn seq) s = .next v ∧ v.mem = t.mem ∧ v.pages = t.pages ∧ v.regions = t.regions ∧ v.harts = t.harts)) ∧
  (∀ s fn seq e, Starts s fn seq 0x03 e →
    let u := started s fn seq
    let leaves := u.wholeLeaves e.ctx (e.a 0) (e.a 0 + e.a 1) (e.a 1 / 8192 + 2) (e.a 0);
    (∀ code, leaves = .error code → exec (.unmap fn seq) s = .next (u.failed fn seq code)) ∧
    (leaves = .ok [] → u.commitWaits e.ctx = [] → ∃ v, exec (.unmap fn seq) s = .next v ∧ v.mem = u.mem ∧ v.pages = u.pages ∧
      v.regions = u.regions ∧ ((v.entry? fn seq).map JEntry.state) = some 3)) ∧
  (∀ s fn seq e, Starts s fn seq 0x0A e →
    let u := started s fn seq
    let put (bs : List Byte) : Prop := exec (.query fn seq) s = .next ((u.dmaWrite (e.a 3) (bs.take (e.a 2))).complete fn seq 0#64);
    (∀ g, e.a 0 = 0 → u.ownRegion e.ctx (e.a 1) = some g → put (g.registers.flatMap (natBytes 8))) ∧
    (e.a 0 = 0 → u.ownRegion e.ctx (e.a 1) = none → exec (.query fn seq) s = .next (u.failed fn seq 0x4E)) ∧
    (e.a 0 = 1 → put ((u.regions.filter (fun p => p.2.ctx = e.ctx)).flatMap (fun p => natBytes 8 p.1))) ∧
    (∀ bs ps, e.a 0 = 2 → u.committed e.ctx (e.a 1) (e.a 2) = .ok (bs, ps) → put bs) ∧
    (∀ f, e.a 0 = 2 → u.committed e.ctx (e.a 1) (e.a 2) = .error f →
      exec (.query fn seq) s = .next (u.failed fn seq (if f.2 then 0x0A else 0x08)))) ∧
  (∀ s fn seq e, Starts s fn seq 0x0B e → ∃ bs, bs.length = 512 ∧ bs.take 4 = [0x4E#8, 0x41#8, 0x54#8, 0x31#8] ∧
    (bs.drop 4).take 16 = natBytes 8 (e.a 0) ++ natBytes 8 (e.a 1) ∧
    exec (.attest fn seq) s = .next (((started s fn seq).dmaWrite (e.a 2) bs).complete fn seq 0#64)) ∧
  (∀ s fn seq e, Starts s fn seq 0x0C e →
    let u := started s fn seq
    let t : State := { u with fresh := u.fresh + 1 }
    let image := (List.range (e.a 1)).map (fun i => Config.hostByte u.fresh (e.a 0 + i));
    (Config.fwVersion image = none → exec (.fwupd fn seq) s = .next (t.failed fn seq 0x47)) ∧
    (∀ v, Config.fwVersion image = some v →
      (v < u.pkg.fused → exec (.fwupd fn seq) s = .next (t.failed fn seq 0x47)) ∧
      (u.pkg.fused ≤ v → exec (.fwupd fn seq) s =
        .next ({ t with pkg := { t.pkg with staged := some v } }.complete fn seq 0#64))))

/-- R422, R452, R466, R468, R470-R472: a cold reset, the reset of the physical function and a thermal trip leave the machine as at
reset, but for what boot finds, the interrupts of the links that it finds down, TRIP and the versions of Haltin; a VF reset kills the contexts of the function; throttling, the power
limit, VFRECT and PSTAT; a scarf link that goes down, and a packet to a peer that cannot be delivered. -/
def Obligations.PackageEvents : Prop :=
  (∀ (s : State), ∀ c ∈ [(Instr.coldReset, false), (.pfFunctionLevelReset, s.pkg.trip), (.thermalTrip, true)], ∃ t,
    exec c.1 s = .next t ∧ t.mem = State.reset.mem ∧ t.harts = State.reset.harts ∧ t.cells = State.reset.cells ∧
      t.bays = State.reset.bays ∧ t.regions = State.reset.regions ∧ t.ctxs = State.reset.ctxs ∧ t.fns = State.reset.fns ∧
      t.net = t.pkg.linksDown.map (fun n => ⟨12, false, 0, 24, linkNode n, 0, 0, n, [], []⟩) ∧ t.clk = State.reset.clk ∧ t.resets = s.resets + 1 ∧ t.pkg.trip = c.2 ∧
      t.pkg.plimit = State.reset.pkg.plimit ∧ t.pkg.running = s.pkg.staged.getD s.pkg.running ∧
      t.pkg.fused = max s.pkg.fused (s.pkg.staged.getD s.pkg.fused) ∧ t.pkg.staged = none) ∧
  (∀ (s : State) fn, (fn = 0 ∨ 31 < fn → exec (.vfReset fn) s = .next s) ∧
    (1 ≤ fn → fn ≤ 31 →
      let u := s.modFn fn (fun f => { f with resetting := true })
      exec (.vfReset fn) s = .next ((u.ctxs.filter (fun c => c.2.fn = fn)).foldl (fun s c => s.killContext c.1) u).settleReset)) ∧
  (∀ (s : State) bays, (∃ t, exec (.throttle bays true) s = .next t ∧
      (∀ b, b ∈ t.pkg.throttled ↔ b ∈ s.pkg.throttled ∨ b ∈ bays) ∧ t.cells = s.cells ∧ t.harts = s.harts ∧ t.mem = s.mem) ∧
    (∃ t, exec (.throttle bays false) s = .next t ∧
      (∀ b, b ∈ t.pkg.throttled ↔ b ∈ s.pkg.throttled ∧ b ∉ bays) ∧ t.cells = s.cells ∧ t.harts = s.harts ∧ t.mem = s.mem)) ∧
  (∀ (s : State) (v : BitVec 64), let w := v.toNat % 4096;
    (1000 ≤ w → w ≤ 2800 → exec (.plimitWrite v) s = .next { s with pkg := { s.pkg with plimit := w } }) ∧
    (w < 1000 ∨ 2800 < w → exec (.plimitWrite v) s = .next s)) ∧
  (∀ (s : State) n (v : BitVec 64),
    (1 ≤ n → n ≤ 31 → (∃ c ∈ s.ctxs, c.2.fn = n) →
      exec (.vfrectWrite n v) s = .next { s with pkg := { s.pkg with vferr := s.pkg.vferr + 1 } }) ∧
    (1 ≤ n → n ≤ 31 → (∀ c ∈ s.ctxs, c.2.fn ≠ n) →
      exec (.vfrectWrite n v) s = .next (s.modFn n (fun f => { f with rect := v &&& 0xFFFFFFFF#64 }))) ∧
    (n = 0 ∨ 31 < n → exec (.vfrectWrite n v) s = .next s)) ∧
  (∀ (s : State) fn off (v : BitVec 64),
    (fn = 0 → off = 0x020 → v.getLsbD 63 = true →
      exec (.mgmtRegisterWrite fn off v) s = .next { s with pkg := { s.pkg with trip := false } }) ∧
    ((fn ≠ 0 ∨ off ≠ 0x020 ∨ v.getLsbD 63 = false) → exec (.mgmtRegisterWrite fn off v) s = .next s)) ∧
  (∀ (s : State) n, (12 ≤ n ∨ n ∈ s.pkg.linksDown → exec (.scarfLinkDown n) s = .next s) ∧
    (n < 12 → n ∉ s.pkg.linksDown → ∃ t, exec (.scarfLinkDown n) s = .next t ∧ n ∈ t.pkg.linksDown)) ∧
  (∀ (s : State) n p, s.net[n]? = some p →
    (p.dev = 0 → exec (.scarfDeliveryFailure n) s = .next s) ∧
    (p.dev ≠ 0 → (s.requests.find? (fun q => q.xid = p.xid) = none → exec (.scarfDeliveryFailure n) s =
        .next { s with net := dropNth s.net n }) ∧
      (∀ q r, s.requests.find? (fun q => q.xid = p.xid) = some q → q.what = .peer r → exec (.scarfDeliveryFailure n) s =
        .next ({ s with net := dropNth s.net n, requests := s.requests.filter (fun x => x.xid ≠ p.xid) }.peerAck r p.xid
          0x20 0))))
/-! The whole machine: words, steps, reset, operands, frames, and the invariant. -/

/-- R42, R49-R72: words written out bit by bit from the encoding tables, with the instructions they stand for. -/
def Obligations.EncodingOfWords : Prop :=
  decodeTableWord 32 0x040A4183 = some (.mul ⟨false, false⟩ 3#5 4#5 5#5) ∧
  decodeTableWord 32 0x00080205 = some (.addi ⟨false, false⟩ 4#5 0#5 4#13) ∧
  decodeTableWord 32 0x004620B1 = some (.vadd ⟨false, false⟩ .i32 1#3 1#5 2#5 3#5) ∧
  decodeTableWord 32 0x000A41AB = some (.fadd ⟨false, false⟩ 0#3 3#5 4#5 5#5) ∧
  decodeTableWord 32 0x018A41AD = some (.fma ⟨false, false⟩ 3#5 4#5 5#5 6#5) ∧
  decodeTableWord 32 0x002062D9 = some (.ldW ⟨false, false⟩ 5#5 6#5 16#13) ∧
  decodeTableWord 32 0x3FCE2C67 = some (.stD ⟨false, false⟩ 7#5 2#5 (BitVec.ofInt 13 (-8))) ∧
  decodeTableWord 32 0x040C72EF = some (.amoadd ⟨false, false⟩ 4#3 0#1 5#5 7#5 6#5) ∧
  decodeTableWord 32 0x10049071 = some (.csrw ⟨false, false⟩ 9#5 0x002#11) ∧
  decodeTableWord 32 0x01800073 = some (.tret ⟨false, false⟩) ∧
  decodeTableWord 32 0x000C5429 = some (.btsb ⟨false, false⟩ 5#5 8#5 6#13)

/-- R66, R72: decoding the encoding of a well-formed instruction gives it back, at every value of every field: no bit of an encoding
is dropped, in the 32-bit words, the parcels and the switch words. -/
def Obligations.DecodeOfEncode : Prop :=
  ∀ i e, i.wf = true → encode i = some e → decode e = some i

/-- R66, R72: a word that decodes is the encoding of the well-formed instruction it decodes to, so no two words of one
length have the same instruction. -/
def Obligations.EncodeOfDecode : Prop :=
  ∀ e i, decode e = some i → i.wf = true ∧ encode i = some e

/-- A step runs the instruction that the bytes at the pc decode to (R42, R43, R276): of the hart whose turn it is, with one
translation for each parcel; the word at the switch's pc; the outcome ILLEGAL for bytes no instruction has (R66); nothing for a hart
without a task, or one that has had its turn in this clk (R234, R394). An instruction that has issued goes on without a fetch (R124). The
turn leaves the agenda, and is none where the order of the clk has passed it (R29, R319); with no turn left the clk ends. The order of
turns is the model's free schedule (log entry 3). -/
def Obligations.StepRunsTheDecodedInstruction : Prop :=
  (∀ s t rest, s.agenda = t :: rest → s.tooLate t = true → step s = .next { s with agenda := rest }) ∧
  (∀ s h rest, s.agenda = .hart h :: rest → s.tooLate (.hart h) = false →
    let u : State := { s with agenda := rest, phase := s.phaseAfter (.hart h), cur := h }
    let v : State := u.modHart (fun x => { x with fetchFrom := u.clk + 1 })
    ((u.hart.task = none ∨ u.clk < u.hart.fetchFrom) → step s = .next u) ∧
    (u.hart.task.isSome = true → u.hart.fetchFrom ≤ u.clk → u.cellMoves (cellOf h) = true →
      (∀ i, u.hart.issued = some i → step s = exec i v) ∧
      (u.hart.issued = none → v.hart.pc.toNat + 2 < 2 ^ 52 →
        ∀ pa0 e0, v.translate (unitOf (cellOf h)) v.hart.ctxId v.hart.pc.toNat false false true = .hit pa0 e0 →
          let lo := v.view v.hart.regionId pa0 2
          ((v.viewByte v.hart.regionId pa0).getLsbD 0 = false →
            (∀ i more, decodeHartBytes lo = .ok (i, more) → step s = exec i v) ∧
            (∀ w, decodeHartBytes lo = .error (.illegal w) → step s = exec (.illegal w) v)) ∧
          ((v.viewByte v.hart.regionId pa0).getLsbD 0 = true →
            ∀ pa1 e1, v.translate (unitOf (cellOf h)) v.hart.ctxId (v.hart.pc.toNat + 2) false false true = .hit pa1 e1 →
              let hi := v.view v.hart.regionId pa1 2
              (∀ i more, decodeHartBytes (lo ++ hi) = .ok (i, more) → step s = exec i v) ∧
              (∀ w, decodeHartBytes (lo ++ hi) = .error (.illegal w) → step s = exec (.illegal w) v))))) ∧
  (∀ s c rest, s.agenda = .switch c :: rest → s.tooLate (.switch c) = false →
    let u : State := { s with agenda := rest, phase := s.phaseAfter (.switch c), cur := 8 * c + 7 }
    u.cellMoves c = true → (u.cellAt c).sw.halt = false →
      (∀ w i, (u.cellAt c).cfg.program[(u.cellAt c).sw.pc]? = some w → decodeSwitchWord w = some i → step s = exec i u) ∧
      ((u.cellAt c).cfg.program[(u.cellAt c).sw.pc]? = none → step s = .next u)) ∧
  (∀ s i rest, s.agenda = .event i :: rest → s.tooLate (.event i) = false → isEvent i = true →
    step s = exec i { s with agenda := rest, phase := s.phaseAfter (.event i) }) ∧
  (∀ s c pa rest, s.agenda = .evict c pa :: rest → ∃ t, step s = .next t ∧ (∀ l ∈ (t.cellAt c).l1, l.pa ≠ pa) ∧
    (t.cellAt c) = { s.cellAt c with l1 := (t.cellAt c).l1 } ∧ (∀ d, d ≠ c → t.cellAt d = s.cellAt d) ∧
    t = { s with agenda := rest, cells := t.cells }) ∧
  (∀ s c rest, s.agenda = .enter c :: rest → step s = .next (State.enterParked { s with agenda := rest } c)) ∧
  (∀ s c rest, s.agenda = .matrix c :: rest → step s = .next (State.nextWork { s with agenda := rest } c)) ∧
  (∀ s, s.agenda = [] → ∃ t, step s = .next t ∧ t.clk = s.clk + 1 ∧ t.phase = 0 ∧ (∀ c, (t.cellAt c).young = []) ∧
    (∀ b, (t.bayAt b).events = (s.actCauses.bayAt b).clock.events))

/-- What reset leaves (R120, R216-R218, R255, R302, R332, R336, R385, R423, R459, R466, R472): every hart idle with its registers clear, tags 24
and 0x18; tiles STALE and accumulators EMPTY; SNAPU 2; no context, region, page, packet or journal entry; PLIMIT 2,800, BOOTSTAT 31; and
what RPARM holds in a new region. Its memory is in canonical form. -/
def Obligations.ResetValues : Prop :=
  let s := State.reset
  (∀ h, (s.hartAt h).task = none ∧ (s.hartAt h).lastCtx = none ∧
    (∀ r, (s.hartAt h).xval r = ⟨0#64, 24#5, false⟩) ∧ (∀ p, (s.hartAt h).pval p = false) ∧
    (∀ m, m ≠ 0#3 → (s.hartAt h).mval m = 0#64) ∧ (s.hartAt h).mval 0#3 = BitVec.allOnes 64 ∧
    (∀ r k, r.toNat < 28 → k < 64 → ((s.hartAt h).vval r).lane k = ⟨0#32, 0x18#8⟩ ∧ ((s.hartAt h).vval r).poisonOf k = false) ∧
    (s.hartAt h).hnd = false ∧ (s.hartAt h).nut = false ∧ (s.hartAt h).sfrf = false ∧ (s.hartAt h).sstat = 0#64 ∧
    (s.hartAt h).tvec = 0#64 ∧ (s.hartAt h).tcause = 0#64 ∧ (s.hartAt h).tval = 0#64 ∧ (s.hartAt h).tepc = 0#64 ∧
    (s.hartAt h).fcsr = 0#8 ∧ (s.hartAt h).sigEn = false ∧ (s.hartAt h).chkiv = 0#5 ∧ (s.hartAt h).gid = 0#64 ∧
    (s.hartAt h).tksel = 0#8 ∧ (s.hartAt h).pchan = 0#6 ∧ (s.hartAt h).loads = [] ∧ (s.hartAt h).stores = [] ∧
    (s.hartAt h).sfrq = [] ∧ (∀ k (hk : k < 8), (s.hartAt h).slots[k].state = .empty)) ∧
  (∀ c, (s.cellAt c).snapu = 2 ∧ (s.cellAt c).cfgid = 0 ∧ (s.cellAt c).tlb = [] ∧
    (∀ q, ((s.cellAt c).queue q).items = []) ∧ (∀ f, (s.cellAt c).fifo f = []) ∧
    (∀ k (hk : k < 8), (s.cellAt c).mxe.tiles[k].stale = true ∧ (∀ a, (s.cellAt c).mxe.tiles[k].data.byte a = 0#8)) ∧
    (∀ k (hk : k < 8), (s.cellAt c).mxe.tshp[k] = 0#64) ∧
    (∀ k (hk : k < 4), (s.cellAt c).mxe.accs[k].kind = .empty)) ∧
  (∀ b, (s.bayAt b).events = 0#256 ∧ (s.bayAt b).store = []) ∧
  (∀ n, (s.fnAt n).journal = [] ∧ (s.fnAt n).jacc = 0) ∧
  s.regions = [] ∧ s.ctxs = [] ∧ s.pages = [] ∧ s.net = [] ∧ s.pkg.inbox = [] ∧ s.pkg.plimit = 2800 ∧ s.pkg.bootstat = 31 ∧
  Region.reset.rparm = BitVec.ofNat 64 (65536 * 2 ^ 32 + 4 * 2 ^ 24 + 14 * 2 ^ 19 + 22 * 2 ^ 14 + 24 * 2 ^ 9 + 20 * 2 ^ 4) ∧
  s.mem.wf

/-- Every step keeps device memory in its canonical form: addresses strictly rising, no listed byte 0, poisoned units strictly
rising. Equal memories are then equal data. -/
def Obligations.StepKeepsMemoryCanonical : Prop :=
  ∀ s t, s.mem.wf → step s = .next t → t.mem.wf

/-- R29, R46, R48, R115, R116, R121, R144, R211: what reading and writing an operand does. x0 reads 0 with tag 24 and discards writes, m0
reads ones and discards writes; a register is read and written in place; a queue register pops the head of its queue, but none that came
in this clk, and pushes at the end, and waits while the queue is empty or full; popped poison sets CHKIV.LOAD and pushed poison
CHKIV.EXPORT. Nothing else of the machine changes. -/
def Obligations.OperandForms : Prop :=
  (∀ s : State, s.readU 0#5 = .got ⟨0#64, 24#5, false⟩ s) ∧
  (∀ (s : State) v, ∃ t : State, s.putU 0#5 v = .ok t ∧ t = { s with harts := t.harts } ∧ ∀ h, t.hartAt h = s.hartAt h) ∧
  (∀ (s : State) (r : Reg), 0 < r.toNat → (hr : r.toNat < 24) → s.hart.xBusy r = false →
    s.readU r = .got s.hart.x[r.toNat] s ∧
    ∀ v, ∃ t : State, s.putU r v = .ok t ∧ t = { s with harts := t.harts } ∧ t.hart = { s.hart with x := s.hart.x.set r.toNat v } ∧
      ∀ h, h ≠ s.cur → t.hartAt h = s.hartAt h) ∧
  (∀ (s : State) (r : Reg), (hr : r.toNat < 28) → s.hart.vBusy r = false →
    s.readV r = .got s.hart.v[r.toNat] s ∧
    ∀ f, ∃ t : State, s.putV r f = .ok t ∧ t = { s with harts := t.harts } ∧
      t.hart = { s.hart with v := s.hart.v.set r.toNat (f s.hart.v[r.toNat] true) } ∧ ∀ h, h ≠ s.cur → t.hartAt h = s.hartAt h) ∧
  (∀ (s : State) (r : Reg), r ≠ 0#5 → r.toNat < 24 → s.hart.xBusy r = true →
    s.readU r = .wait .memory ∧ ∀ v, s.putU r v = .error .memory) ∧
  (∀ (h : Hart) v, h.mval 0#3 = BitVec.allOnes 64 ∧ h.setM 0#3 v = h) ∧
  (∀ (h : Hart) (m : MReg) v, m ≠ 0#3 → (h.setM m v).mval m = v ∧ ∀ n, n ≠ m → (h.setM m v).mval n = h.mval n) ∧
  (∀ (h : Hart) (p : PReg) v, (h.setP p v).pval p = v ∧ ∀ q, q ≠ p → (h.setP p v).pval q = h.pval q) ∧
  (∀ (s : State) (r : Reg), 24 ≤ r.toNat → r.toNat < 28 →
    let code := readCode (s.cell.mapFor (slotOf s.cur)) (r.toNat - 24)
    let q := s.cell.queue code
    s.hart.held = [] → q.ext = none →
    (q.items = [] → s.draining = false → s.readU r = .wait (.empty code)) ∧
    (q.items = [] → s.draining = true → s.readU r = .got ⟨0#64, 0#5, true⟩ s) ∧
    let d := s.cell.ringDepth code
    let popped (rest : List QItem) : State := s.modCell (cellOf s.cur) (fun c => c.setQueue code
      { q with items := rest, head := if d = 0 then q.head else (q.head + 1) % d })
    (∀ i rest, q.items = i :: rest → rest.length < s.cell.youngOf code → s.draining = false → s.readU r = .wait (.empty code)) ∧
    (∀ u src rest, q.items = .entry (.uniform u) src :: rest → s.cell.youngOf code ≤ rest.length →
      s.readU r = .got u ((popped rest).note u.poison 0)) ∧
    (∀ v src rest, q.items = .entry (.vector v) src :: rest → s.cell.youngOf code ≤ rest.length → s.readU r = .wrong (popped rest))) ∧
  (∀ (s : State) (r : Reg) v, 24 ≤ r.toNat → r.toNat < 28 →
    let code := writeCode (s.cell.mapFor (slotOf s.cur)) (r.toNat - 24)
    let q := s.cell.queue code
    q.ext = none → q.lock = none → q.ended = [] → s.hart.dstHeld = none →
    (q.depth ≤ q.count → s.draining = false → s.putU r v = .error (.full code)) ∧
    (q.count < q.depth → ∃ t : State, s.putU r v = .ok t ∧ (t.cell.queue code).items = q.items ++ [.entry (.uniform v) (slotOf s.cur)] ∧
      t.mem = s.mem ∧ t.hart.x = s.hart.x ∧ t.hart.v = s.hart.v ∧
      t.hart.chkiv = s.hart.chkiv ||| (if v.poison then 8#5 else 0#5)))

/-- The frame of every instruction that works on registers alone (uniform and vector integer and float arithmetic, predicates, masks,
moves, tags, branches and jumps), with register operands: unless it traps with the one cause it has, everything but its
destination, its token FIFOs and what every instruction moves on is as before, whether it retires or waits. A float instruction only adds
flags to FCSR. -/
def Obligations.RegisterInstructionsFrame : Prop :=
  ∀ i f s s1 t, footprint i = some f → (∀ r ∈ f.us, r.toNat < 24) → (∀ r ∈ f.vs, r.toNat < 28) →
    Ready i f.tok s s1 → exec i s = .next t →
    Framed f s s1 t (t.hart.loads = s.hart.loads ∧ t.hart.stores = s.hart.stores ∧ t.net = s.net ∧ t.mem = s.mem)

/-- The frame of loads and of the stores of compute harts, with register operands (R195, R203, R225): memory, as every region sees it,
is as before, since a store reaches it only when it is translated; the registers are as before but for a load's destination. What the
parts of a store then write lies within them (R199, R200, R205). An atomic that does not trap leaves every byte outside its aligned one,
and every register but its destination (R207, R208); at device and system scope its region sees those of its stores that waited for room
(R434). -/
def Obligations.MemoryInstructionsFrame : Prop :=
  (∀ i f s s1 t, loadFootprint i = some f → (∀ r ∈ f.us, r.toNat < 24) → (∀ r ∈ f.vs, r.toNat < 28) →
    Ready i f.tok s s1 → exec i s = .next t → Framed f s s1 t (t.hart.stores = s.hart.stores ∧ t.mem = s.mem)) ∧
  (∀ i f s s1 t, storeFootprint i = some f → isStreamer s.cur = false → (∀ r ∈ f.us, r.toNat < 24) → (∀ r ∈ f.vs, r.toNat < 28) →
    Ready i f.tok s s1 → exec i s = .next t → Framed f s s1 t (t.hart.loads = s.hart.loads ∧ t.net = s.net ∧ t.mem = s.mem)) ∧
  (∀ (s : State) rs q, (∀ p ∈ rs, ∀ w ∈ PartRes.writes p.2, q < w.1 ∨ w.1 + w.2.length ≤ q) →
    let t := s.performParts rs
    t = { s with mem := t.mem, regions := t.regions, cells := t.cells } ∧
    (∀ c, t.cellAt c = { s.cellAt c with l1 := (t.cellAt c).l1 }) ∧ ∀ r, t.viewByte r q = s.viewByte r q) ∧
  (∀ mk ∈ [Instr.amoadd, Instr.amoand, Instr.amoor, Instr.amoxor, Instr.amomin, Instr.amomax, Instr.amoswap, Instr.amocas],
    ∀ tk sc z d a b s s1 t x, a.toNat < 24 → b.toNat < 24 → d.toNat < 24 → Ready (mk tk sc z d a b) tk s s1 → s.mem.wf →
    s1.readU a = .got x s1 → exec (mk tk sc z d a b) s = .next t → (∃ c v, t = s1.trapNow c v) ∨
    (∀ q, (∀ pa e, s1.access x.val.toNat true true = .hit pa e → q < pa ∨ pa + (if z = 0#1 then 4 else 8) ≤ q) →
      ((∀ c, (s.cellAt c).parked = []) → t.viewByte s.hart.regionId q = s.viewByte s.hart.regionId q) ∧
      (sc ≠ 4#3 → sc ≠ 5#3 → ∀ r, t.viewByte r q = s.viewByte r q)) ∧
    (∀ r, r ≠ d → t.hart.xval r = s.hart.xval r) ∧ (∀ r, t.hart.vval r = s.hart.vval r) ∧
    (∀ m, t.hart.mval m = s.hart.mval m) ∧ (∀ p, t.hart.pval p = s.hart.pval p) ∧ t.hart.fcsr = s.hart.fcsr)

/-! Rounding (R88-R91). -/

/-- R88, R89: ROUND gives the canonical NaN for a NaN, +0 with NV where the format has none; infinity for infinity, or the largest
finite magnitude with OF and NX where the format has none; and a real rounded in its mode, with the flags of overflow, underflow and
inexact results. -/
def Sys2Proof.Spec.RoundFunction : Prop :=
  (∀ f mode sg, roundX f mode (.nan sg) = if f = .e2m1 then (0, .invalid) else (f.nanCode, .none)) ∧
  (∀ f mode neg, roundX f mode (.inf neg) =
    if f = .e4m3 ∨ f = .e2m1 then (f.withSign neg f.maxCode, .overflow) else (f.withSign neg f.infCode, .none)) ∧
  (∀ f mode neg m e v, 0 < m → HasValue (.real neg m e false) v →
    Rounds f mode v neg (roundX f mode (.real neg m e false)).1 (roundX f mode (.real neg m e false)).2) ∧
  (∀ f mode neg e, roundX f mode (.real neg 0 e false) = (f.withSign neg 0, .none))

/-- R91, R163, R164, R169: in the formats of the harts every operation on finite values is the exact result, as a real number,
rounded once; an exact zero has the sign that R91 gives it; a quotient by zero and a root of a negative value are as R90 says; a NaN
operand gives the canonical NaN. -/
def Sys2Proof.Spec.FloatElements : Prop :=
  ∀ f ∈ [FFmt.fp32, .bf16, .fp16], ∀ mode thr a b c,
  let res (op : FOp) : ElemRes := fElem op f mode thr a b c
  let gives (op : FOp) (v : ℝ) (zero : Bool) : Prop :=
    (v ≠ 0 → Rounds f mode v (decide (v < 0)) (res op).code (res op).flags) ∧
    (v = 0 → (res op).code = f.withSign zero 0 ∧ (res op).flags = .none)
  let bad (op : FOp) : Prop := (res op).code = f.nanCode ∧ (res op).flags = .invalid
  let na := (decodeF f a.code).neg
  let nb := (decodeF f b.code).neg
  let nc := (decodeF f c.code).neg
  let zeroSum (n k : Bool) : Bool := if n = k then n else decide (mode = .rdn)
  (∀ x y, HasValue (decodeF f a.code) x → HasValue (decodeF f b.code) y →
    gives .add (x + y) (zeroSum na nb) ∧ gives .sub (x - y) (zeroSum na (!nb)) ∧ gives .mul (x * y) (na != nb) ∧
    (y ≠ 0 → gives .div (x / y) (na != nb)) ∧ (y = 0 → x = 0 → bad .div) ∧
    (y = 0 → x ≠ 0 → (res .div).code = f.withSign (na != nb) f.infCode ∧ (res .div).flags = .divZero) ∧
    (0 ≤ x → gives .sqrt (Real.sqrt x) na) ∧ (x < 0 → bad .sqrt) ∧
    (∀ z, HasValue (decodeF f c.code) z →
      gives .fma (x * y + z) (zeroSum (na != nb) nc) ∧ gives .fnma (z - x * y) (zeroSum (na == nb) nc))) ∧
  (∀ op ∈ [FOp.add, .sub, .mul, .div], ((decodeF f a.code).isNan = true ∨ (decodeF f b.code).isNan = true) →
    (res op).code = f.nanCode ∧
      (res op).flags = if (decodeF f a.code).signalling ∨ (decodeF f b.code).signalling then .invalid else .none) ∧
  (∀ n k, decodeF f a.code = .inf n → decodeF f b.code = .inf k →
    (n ≠ k → bad .add) ∧ (n = k → bad .sub) ∧ bad .div ∧
    (res .mul).code = f.withSign (n != k) f.infCode ∧ (n = k → (res .add).code = f.withSign n f.infCode)) ∧
  (∀ n y, decodeF f a.code = .inf n → HasValue (decodeF f b.code) y → (y = 0 → bad .mul) ∧
    (y ≠ 0 → (res .mul).code = f.withSign (n != nb) f.infCode ∧ (res .mul).flags = .none))

/-! Statements of several parts. -/

/-- From R135-R138, R65: the register forms, divisions, counts and immediate forms of the uniform integer instructions, and the integer
parcels. -/
def Obligations.UniformIntegerInstructions : Prop :=
  UniformInteger ∧ UniformDivision ∧ UniformCounts ∧ UniformImmediate ∧ CompressedInteger

/-- From R139-R142, R183, R65: predicates, conditional branches and jumps. -/
def Obligations.BranchesAndJumps : Prop :=
  PredicateSet ∧ ConditionalBranches ∧ Jumps

/-- From R162-R168: uniform float arithmetic, comparisons, classification and conversion. -/
def Obligations.UniformFloatInstructions : Prop :=
  UniformFloat ∧ FloatClassAndConvert

/-- From R146: the element-wise vector integer instructions. -/
def Obligations.VectorIntegerInstructions : Prop :=
  VectorInteger ∧ VectorBitwise

/-- From R144, R147, R156, R172: the vector comparisons, which write masks, and the mask instructions. -/
def Obligations.VectorComparisonsAndMasks : Prop :=
  VectorCompare ∧ VectorFloatCompare ∧ MaskInstructions

/-- From R148, R153-R155, R177, R178: selection, permutation and the moves between the register files. -/
def Obligations.VectorMoves : Prop :=
  VectorSelectAndMove ∧ FileMoves ∧ UniformLanes

/-- From R149, R150, R174: reductions, scans and dot products. -/
def Obligations.VectorReductionInstructions : Prop :=
  VectorReductions ∧ VectorDot ∧ VectorFloatReductions

/-- From R170-R175, R184-R186: vector float arithmetic, conversions, special functions, and tags as data. -/
def Obligations.VectorFloatInstructions : Prop :=
  VectorFloat ∧ VectorConvert ∧ SpecialFunctions ∧ TagInstructions

/-- From R123-R125, R128: port reads and writes of vectors, and the tests of queues. -/
def Obligations.VectorPorts : Prop :=
  VectorPortRead ∧ VectorPortWrite ∧ QueueTests

/-- From R199-R201, R205, R225: scalar and vector stores, and their translation. -/
def Obligations.Stores : Prop :=
  ScalarStores ∧ VectorStores ∧ StoreTranslation

/-- From R199, R195, R211, R65: the scalar loads, and how their data arrives. -/
def Obligations.ScalarLoads : Prop :=
  ScalarLoadForms ∧ LoadDataReturn

/-- From R202, R209, R210, R213: acquiring loads, releasing stores, fences, and the reading of CHKIV. -/
def Obligations.AcquireAndRelease : Prop :=
  AcquireLoad ∧ ReleaseStore ∧ FencesAndPolling

/-- From R130-R132, R216-R219: the CSR instructions and the fields of the CSRs. -/
def Obligations.ControlAndStatusRegisters : Prop :=
  CsrInstructions ∧ CsrFields

/-- From R215-R222: taking a trap, with a handler and without. -/
def Obligations.Traps : Prop :=
  TrapEntry ∧ TrapWithoutHandler

/-- From R222-R224, R66, R143: calls and breaks, the return from a handler, failed fetches. -/
def Obligations.CallsBreaksAndReturns : Prop :=
  CallsAndBreaks ∧ TrapReturn ∧ FailedFetch

/-- From R189-R192, R230, R231: groups of harts. -/
def Obligations.Groups : Prop :=
  JoinGroup ∧ LeaveAndBarrier ∧ KillGroup

/-- From R383, R384, R399, R400: event bits. -/
def Obligations.Events : Prop :=
  EventInstructions ∧ EventBitsOfAClk

/-- From R397, R398, R410, R414: the end of a task, spawning, messages, and the wait for completions. -/
def Obligations.Tasks : Prop :=
  TaskExit ∧ TaskSpawn ∧ SendMessage ∧ WaitCompletion

/-- From R342-R344: tile loads and their delivery. -/
def Obligations.TileLoadInstructions : Prop :=
  TileLoads ∧ TileDelivery

/-- From R336, R346, R347, R352: tile registers and accumulators. -/
def Obligations.TilesAndAccumulators : Prop :=
  TileRegisters ∧ Accumulators

/-- From R311, R314, R318: the pool instructions. -/
def Obligations.TilePool : Prop :=
  PoolInstructions

/-- From R312, R315: what the pool does by itself. -/
def Obligations.TilePoolSteps : Prop :=
  PoolSteps

/-- From R241-R264, R227: the stream instructions, stream faults, and the store-fault records. -/
def Obligations.Streams : Prop :=
  StreamInstructions ∧ StreamControl ∧ FaultRecords

/-- From R243-R255: the elements of a stream and its end. -/
def Obligations.StreamTransfers : Prop :=
  StreamElements ∧ StreamCompletion

/-- From R276-R286: the switch instructions that move no flit of another, and the events of the network. -/
def Obligations.SwitchControlInstructions : Prop :=
  SwitchControl ∧ SwitchEvents

/-- From R406-R408: the order of packets, and the packets of control. -/
def Obligations.DynamicPackets : Prop :=
  PacketOrder ∧ ControlPackets

/-- From R410-R419: the operations of the copy and collective engines. -/
def Obligations.BulkEngines : Prop :=
  BulkOperations ∧ BulkValues

/-- From R88, R89, R91, R163, R164: rounding, and the float operations as exact results rounded once. -/
def Obligations.FloatRounding : Prop :=
  RoundFunction ∧ FloatElements
end

