-- ==== Sys2Proof/Laws/Assoc.lean ====
section
/-! SUPPORT. The sparse maps: reading after writing, and their canonical form, keys strictly rising. -/

namespace Sys2Proof.Machine

variable {α : Type}

/-- Keys strictly rising. -/
def Rising (m : List (Nat × α)) : Prop := m.Pairwise (fun a b => a.1 < b.1)

/-- A key that is not below the head of a rising map's tail is not listed before it. -/
theorem lookup_eq_none_of_lt {k : Nat} {m : List (Nat × α)} (h : ∀ c ∈ m, k < c.1) : lookup k m = none := by
  induction m with
  | nil => rfl
  | cons c r ih =>
    obtain ⟨j, a⟩ := c
    have hj : k < j := h (j, a) (by simp)
    have hne : ¬ j = k := by omega
    simp only [lookup, if_neg hne]
    exact ih (fun c hc => h c (List.mem_cons_of_mem _ hc))

/-- Reading a map at the key just written. -/
@[simp] theorem lookup_insertAt_self (k : Nat) (a : α) (m : List (Nat × α)) : lookup k (insertAt k a m) = some a := by
  induction m with
  | nil => simp [insertAt, lookup]
  | cons c r ih =>
    obtain ⟨j, b⟩ := c
    rcases lt_trichotomy j k with h | h | h
    · have hne : ¬ j = k := by omega
      simp [insertAt, if_pos h, lookup, hne, ih]
    · subst h; simp [insertAt, lookup]
    · have h1 : ¬ j < k := by omega
      have h2 : ¬ j = k := by omega
      simp [insertAt, h1, h2, lookup]

/-- Reading a map at a key other than the one written. -/
@[simp] theorem lookup_insertAt_ne {i k : Nat} (h : i ≠ k) (a : α) (m : List (Nat × α)) :
    lookup i (insertAt k a m) = lookup i m := by
  induction m with
  | nil => simp [insertAt, lookup, Ne.symm h]
  | cons c r ih =>
    obtain ⟨j, b⟩ := c
    rcases lt_trichotomy j k with g | g | g
    · by_cases e : j = i
      · subst e; simp [insertAt, if_pos g, lookup]
      · simp [insertAt, if_pos g, lookup, e, ih]
    · subst g; simp [insertAt, lookup, Ne.symm h]
    · have h1 : ¬ j < k := by omega
      have h2 : ¬ j = k := by omega
      simp [insertAt, h1, h2, lookup, Ne.symm h]

/-- Reading a map after a write, with the default of a key not listed. -/
theorem lookupD_insertAt (d : α) (i k : Nat) (a : α) (m : List (Nat × α)) :
    lookupD d i (insertAt k a m) = if i = k then a else lookupD d i m := by
  by_cases h : i = k
  · subst h; simp [lookupD]
  · simp [lookupD, h]

@[simp] theorem lookupD_insertAt_self (d : α) (k : Nat) (a : α) (m : List (Nat × α)) :
    lookupD d k (insertAt k a m) = a := by simp [lookupD_insertAt]

@[simp] theorem lookupD_insertAt_ne (d : α) {i k : Nat} (h : i ≠ k) (a : α) (m : List (Nat × α)) :
    lookupD d i (insertAt k a m) = lookupD d i m := by simp [lookupD_insertAt, h]

/-- What stands in a map after a write: the new entry, or an old one of another key (in a rising map). -/
theorem mem_insertAt {k : Nat} {a : α} {m : List (Nat × α)} {c : Nat × α} (h : c ∈ insertAt k a m) :
    c = (k, a) ∨ c ∈ m := by
  induction m with
  | nil => simpa [insertAt] using h
  | cons d r ih =>
    obtain ⟨j, b⟩ := d
    simp only [insertAt] at h
    split at h
    · rcases List.mem_cons.mp h with e | e
      · exact .inr (by simp [e])
      · exact (ih e).imp id (List.mem_cons_of_mem _)
    · split at h
      · rcases List.mem_cons.mp h with e | e
        · exact .inl e
        · exact .inr (List.mem_cons_of_mem _ e)
      · rcases List.mem_cons.mp h with e | e
        · exact .inl e
        · exact .inr e

/-- A write keeps the keys of a map strictly rising. -/
theorem Rising.insertAt {m : List (Nat × α)} (h : Rising m) (k : Nat) (a : α) : Rising (insertAt k a m) := by
  induction m with
  | nil => simp [Machine.insertAt, Rising]
  | cons d r ih =>
    obtain ⟨j, b⟩ := d
    have hr : Rising r := (List.pairwise_cons.mp h).2
    have hj := (List.pairwise_cons.mp h).1
    simp only [Machine.insertAt]
    split
    · rename_i g
      refine List.pairwise_cons.mpr ⟨fun c hc => ?_, ih hr⟩
      rcases mem_insertAt hc with e | e
      · simpa [e] using g
      · exact hj c e
    · split
      · rename_i g; subst g
        exact List.pairwise_cons.mpr ⟨hj, hr⟩
      · refine List.pairwise_cons.mpr ⟨fun c hc => ?_, h⟩
        rcases List.mem_cons.mp hc with e | e
        · subst e; simp only; omega
        · have := hj c e; simp only at this ⊢; omega

/-- What stands in a map after a key is removed stood in it before. -/
theorem mem_removeAt {k : Nat} {m : List (Nat × α)} {c : Nat × α} (h : c ∈ removeAt k m) : c ∈ m := by
  induction m with
  | nil => simp [removeAt] at h
  | cons d r ih =>
    obtain ⟨j, b⟩ := d
    simp only [removeAt] at h
    split at h
    · exact List.mem_cons_of_mem _ h
    · rcases List.mem_cons.mp h with e | e
      · simp [e]
      · exact List.mem_cons_of_mem _ (ih e)

/-- Removing a key keeps the keys of a map strictly rising. -/
theorem Rising.removeAt {m : List (Nat × α)} (h : Rising m) (k : Nat) : Rising (removeAt k m) := by
  induction m with
  | nil => simp [Machine.removeAt, Rising]
  | cons d r ih =>
    obtain ⟨j, b⟩ := d
    have hr : Rising r := (List.pairwise_cons.mp h).2
    have hj := (List.pairwise_cons.mp h).1
    simp only [Machine.removeAt]
    split
    · exact hr
    · exact List.pairwise_cons.mpr ⟨fun c hc => hj c (mem_removeAt hc), ih hr⟩

/-- In a rising map a removed key is not listed. -/
theorem lookup_removeAt_self {m : List (Nat × α)} (h : Rising m) (k : Nat) : lookup k (removeAt k m) = none := by
  induction m with
  | nil => rfl
  | cons d r ih =>
    obtain ⟨j, b⟩ := d
    have hr : Rising r := (List.pairwise_cons.mp h).2
    have hj := (List.pairwise_cons.mp h).1
    simp only [removeAt]
    split
    · rename_i g; subst g
      exact lookup_eq_none_of_lt hj
    · rename_i g
      simp [lookup, g, ih hr]

/-- Removing a key leaves the others. -/
theorem lookup_removeAt_ne {i k : Nat} (h : i ≠ k) (m : List (Nat × α)) : lookup i (removeAt k m) = lookup i m := by
  induction m with
  | nil => rfl
  | cons d r ih =>
    obtain ⟨j, b⟩ := d
    simp only [removeAt]
    split
    · rename_i g; subst g; simp [lookup, Ne.symm h]
    · by_cases e : j = i
      · simp [lookup, e]
      · simp [lookup, e, ih]

/-- What stands in a sorted list of numbers after an insertion. -/
theorem mem_insertNat {k i : Nat} {l : List Nat} : i ∈ insertNat k l ↔ i = k ∨ i ∈ l := by
  induction l with
  | nil => simp [insertNat]
  | cons j r ih =>
    simp only [insertNat]
    split
    · simp only [List.mem_cons, ih]; tauto
    · split
      · rename_i g; subst g; simp
      · simp

/-- An insertion keeps a list of numbers strictly rising. -/
theorem pairwise_insertNat {l : List Nat} (h : l.Pairwise (· < ·)) (k : Nat) : (insertNat k l).Pairwise (· < ·) := by
  induction l with
  | nil => simp [insertNat]
  | cons j r ih =>
    have hr := (List.pairwise_cons.mp h).2
    have hj := (List.pairwise_cons.mp h).1
    simp only [insertNat]
    split
    · rename_i g
      refine List.pairwise_cons.mpr ⟨fun c hc => ?_, ih hr⟩
      rcases mem_insertNat.mp hc with e | e
      · omega
      · exact hj c e
    · split
      · exact h
      · refine List.pairwise_cons.mpr ⟨fun c hc => ?_, h⟩
        rcases List.mem_cons.mp hc with e | e
        · omega
        · have := hj c e; omega

end Sys2Proof.Machine
end

