-- ==== Sys2Proof/Laws/Memory.lean ====
section
/-! SUPPORT. Memory: reading a byte after a write, and the canonical form, which every memory operation keeps. -/

namespace Sys2Proof.Machine

/-- The empty memory is in its canonical form. -/
theorem Mem.empty_wf : Mem.empty.wf := by simp [Mem.wf, Mem.empty]

/-- The memory of the reset state is in its canonical form. -/
theorem reset_mem_wf : State.reset.mem.wf := Mem.empty_wf

/-! One byte. -/

@[simp] theorem Mem.setByte_poison (m : Mem) (a : Nat) (b : Byte) : (m.setByte a b).poison = m.poison := rfl

@[simp] theorem Mem.setPoison_bytes (m : Mem) (u : Nat) (p : Bool) : (m.setPoison u p).bytes = m.bytes := rfl

/-- The byte at an address after a byte was set there. -/
theorem Mem.setByte_byte_self {m : Mem} (h : m.wf) (a : Nat) (b : Byte) : (m.setByte a b).byte a = b := by
  by_cases e : b = 0#8
  · subst e; simp [Mem.setByte, Mem.byte, lookupD, lookup_removeAt_self h.1]
  · simp [Mem.setByte, Mem.byte, e]

/-- Every other byte stays. -/
@[simp] theorem Mem.setByte_byte_ne (m : Mem) {a i : Nat} (h : i ≠ a) (b : Byte) : (m.setByte a b).byte i = m.byte i := by
  by_cases e : b = 0#8
  · simp [Mem.setByte, Mem.byte, e, lookupD, lookup_removeAt_ne h]
  · simp [Mem.setByte, Mem.byte, e, h]

/-- Setting a byte keeps the canonical form. -/
theorem Mem.setByte_wf {m : Mem} (h : m.wf) (a : Nat) (b : Byte) : (m.setByte a b).wf := by
  obtain ⟨h1, h2, h3⟩ := h
  by_cases e : b = 0#8
  · exact ⟨by simpa [Mem.setByte, e, Rising] using Rising.removeAt h1 a,
      fun c hc => h2 c (mem_removeAt (by simpa [Mem.setByte, e] using hc)), h3⟩
  · refine ⟨by simpa [Mem.setByte, e, Rising] using Rising.insertAt h1 a b, fun c hc => ?_, h3⟩
    rcases mem_insertAt (by simpa [Mem.setByte, e] using hc) with g | g
    · simpa [g] using e
    · exact h2 c g

/-- Setting a poison bit keeps the canonical form. -/
theorem Mem.setPoison_wf {m : Mem} (h : m.wf) (u : Nat) (p : Bool) : (m.setPoison u p).wf := by
  obtain ⟨h1, h2, h3⟩ := h
  refine ⟨h1, h2, ?_⟩
  cases p
  · simpa [Mem.setPoison] using h3.filter _
  · simpa [Mem.setPoison] using pairwise_insertNat h3 u

@[simp] theorem Mem.setPoison_byte (m : Mem) (u : Nat) (p : Bool) (a : Nat) : (m.setPoison u p).byte a = m.byte a := rfl

/-- The poison bit of a unit after it was set. -/
theorem Mem.setPoison_poisoned (m : Mem) (u v : Nat) (p : Bool) :
    (m.setPoison u p).poisoned v = if v = u then p else m.poisoned v := by
  by_cases e : v = u
  · subst e; cases p
    · simp [Mem.setPoison, Mem.poisoned]
    · simp [Mem.setPoison, Mem.poisoned, mem_insertNat]
  · cases p
    · simp [Mem.setPoison, Mem.poisoned, e]
    · simp [Mem.setPoison, Mem.poisoned, mem_insertNat, e]

/-! Many bytes. -/

/-- Setting bytes keeps the canonical form. -/
theorem Mem.setBytes_wf {m : Mem} (h : m.wf) (a : Nat) (bs : List Byte) : (m.setBytes a bs).wf := by
  induction bs generalizing m a with
  | nil => exact h
  | cons b bs ih => exact ih (Mem.setByte_wf h a b) (a + 1)

/-- Bytes outside those set stay. -/
theorem Mem.setBytes_byte_outside (m : Mem) {a i : Nat} (bs : List Byte) (h : i < a ∨ a + bs.length ≤ i) :
    (m.setBytes a bs).byte i = m.byte i := by
  induction bs generalizing m a with
  | nil => rfl
  | cons b bs ih =>
    simp only [List.length_cons] at h
    rw [Mem.setBytes, ih (m.setByte a b) (by omega), Mem.setByte_byte_ne _ (by omega)]

/-- The bytes set are read back. -/
theorem Mem.setBytes_byte_inside {m : Mem} (h : m.wf) (a : Nat) (bs : List Byte) {i : Nat} (hi : i < bs.length) :
    (m.setBytes a bs).byte (a + i) = bs[i] := by
  induction bs generalizing m a i with
  | nil => simp at hi
  | cons b bs ih =>
    cases i with
    | zero =>
      rw [Mem.setBytes, Mem.setBytes_byte_outside _ _ (by omega), Nat.add_zero, Mem.setByte_byte_self h]; rfl
    | succ i =>
      have := ih (Mem.setByte_wf h a b) (a + 1) (i := i) (by simpa using hi)
      rw [Mem.setBytes, show a + (i + 1) = a + 1 + i by omega, this]; rfl

/-- Setting poison bits keeps the canonical form. -/
theorem Mem.foldPoison_wf {β : Type} (l : List β) (f : Mem → β → Nat) (g : Mem → β → Bool) {m : Mem} (h : m.wf) :
    (l.foldl (fun m x => m.setPoison (f m x) (g m x)) m).wf := by
  induction l generalizing m with
  | nil => exact h
  | cons x l ih => exact ih (Mem.setPoison_wf h _ _)

/-- Setting poison bits leaves every byte. -/
theorem Mem.foldPoison_byte {β : Type} (l : List β) (f : Mem → β → Nat) (g : Mem → β → Bool) (m : Mem) (a : Nat) :
    (l.foldl (fun m x => m.setPoison (f m x) (g m x)) m).byte a = m.byte a := by
  induction l generalizing m with
  | nil => rfl
  | cons x l ih => rw [List.foldl_cons, ih, Mem.setPoison_byte]

/-- A write keeps the canonical form. -/
theorem Mem.write_wf {m : Mem} (h : m.wf) (a : Nat) (bs : List Byte) (p : Bool) : (m.write a bs p).wf :=
  Mem.foldPoison_wf _ (fun _ u => u) (fun m u => p || (!covers a bs.length u && m.poisoned u)) (Mem.setBytes_wf h a bs)

/-- Bytes outside a write stay. -/
theorem Mem.write_byte_outside (m : Mem) {a i : Nat} (bs : List Byte) (p : Bool) (h : i < a ∨ a + bs.length ≤ i) :
    (m.write a bs p).byte i = m.byte i := by
  rw [Mem.write, Mem.foldPoison_byte _ (fun _ u => u) (fun m u => p || (!covers a bs.length u && m.poisoned u)),
    Mem.setBytes_byte_outside _ _ h]

/-- The bytes written are read back. -/
theorem Mem.write_byte_inside {m : Mem} (h : m.wf) (a : Nat) (bs : List Byte) (p : Bool) {i : Nat} (hi : i < bs.length) :
    (m.write a bs p).byte (a + i) = bs[i] := by
  rw [Mem.write, Mem.foldPoison_byte _ (fun _ u => u) (fun m u => p || (!covers a bs.length u && m.poisoned u)),
    Mem.setBytes_byte_inside h a bs hi]

/-- A write with a poison bit per unit keeps the canonical form. -/
theorem Mem.writeUnits_wf {m : Mem} (h : m.wf) (a : Nat) (bs : List Byte) (ps : List Bool) : (m.writeUnits a bs ps).wf := by
  induction ps generalizing m a bs with
  | nil => exact Mem.write_wf h a bs false
  | cons p ps ih =>
    cases ps with
    | nil => exact Mem.write_wf h a bs p
    | cons q qs => exact ih (Mem.write_wf h a _ p) _ _

/-- What a write of the commit buffers still has keeps the canonical form. -/
theorem Mem.setSome_wf {m : Mem} (h : m.wf) (a : Nat) (bs : List (Option Byte)) : (m.setSome a bs).wf := by
  induction bs generalizing m a with
  | nil => exact h
  | cons b bs ih =>
    cases b with
    | none => exact ih h (a + 1)
    | some b => exact ih (Mem.setByte_wf h a b) (a + 1)

/-- A commit of a write keeps the canonical form. -/
theorem Mem.apply_wf {m : Mem} (h : m.wf) (w : CWrite) : (m.apply w).wf :=
  Mem.foldPoison_wf w.units (fun _ u => u.1) (fun _ u => u.2) (Mem.setSome_wf h w.pa w.bytes)

/-- Commits of several writes keep the canonical form. -/
theorem Mem.applyAll_wf (ws : List CWrite) {m : Mem} (h : m.wf) : (ws.foldl Mem.apply m).wf := by
  induction ws generalizing m with
  | nil => exact h
  | cons w ws ih => exact ih (Mem.apply_wf h w)

/-- Clearing a range keeps the canonical form. -/
theorem Mem.clear_wf {m : Mem} (h : m.wf) (a n : Nat) : (m.clear a n).wf :=
  ⟨h.1.filter _, fun c hc => h.2.1 c (List.mem_filter.mp hc).1, h.2.2.filter _⟩

end Sys2Proof.Machine
end

