-- ==== Sys2Proof/Laws/PerInstr.lean ====
section
/-! SUPPORT. Instruction by instruction: the first candidate of the decoder for an encoding is the instruction that was encoded. -/

namespace Sys2Proof.Laws

/-! Bits of fields written side by side. -/

/-- Bits that lie in the upper field. -/
theorem bits_above {n m : Nat} (a : BitVec n) (b : BitVec m) (k w : Nat) :
    (a ++ b).extractLsb' (k + m) w = a.extractLsb' k w := by
  apply BitVec.eq_of_getLsbD_eq; intro i h
  rw [BitVec.getLsbD_extractLsb', BitVec.getLsbD_append, BitVec.getLsbD_extractLsb']
  have : ¬ k + m + i < m := by omega
  rw [if_neg this, show k + m + i - m = k + i by omega]

/-- Bits that lie in the lower field. -/
theorem bits_below {n m : Nat} (a : BitVec n) (b : BitVec m) {k w : Nat} (h : k + w ≤ m) :
    (a ++ b).extractLsb' k w = b.extractLsb' k w := by
  apply BitVec.eq_of_getLsbD_eq; intro i hi
  rw [BitVec.getLsbD_extractLsb', BitVec.getLsbD_append, BitVec.getLsbD_extractLsb']
  have : k + i < m := by omega
  rw [if_pos this]

/-- Bits from their upper and their lower part. -/
theorem join_bits {w : Nat} (x : BitVec w) (k n m : Nat) :
    x.extractLsb' (k + m) n ++ x.extractLsb' k m = x.extractLsb' k (n + m) := by
  apply BitVec.eq_of_getLsbD_eq; intro i h
  rw [BitVec.getLsbD_append, BitVec.getLsbD_extractLsb', BitVec.getLsbD_extractLsb', BitVec.getLsbD_extractLsb']
  by_cases g : i < m
  · simp [g, h]
  · rw [if_neg g, show k + m + (i - m) = k + i by omega, show decide (i - m < n) = true by simp; omega]; simp [h]

@[simp] theorem bits8_5_3_3_5 (a : BitVec 5) (b : BitVec 3) : BitVec.extractLsb' 3 5 (a ++ b : BitVec 8) = a.extractLsb' 0 5 :=
  bits_above a b 0 5
@[simp] theorem bits8_5_3_0_3 (a : BitVec 5) (b : BitVec 3) : BitVec.extractLsb' 0 3 (a ++ b : BitVec 8) = b.extractLsb' 0 3 :=
  bits_below a b (by omega)
@[simp] theorem bits8_5_3_6_2 (a : BitVec 5) (b : BitVec 3) : BitVec.extractLsb' 6 2 (a ++ b : BitVec 8) = a.extractLsb' 3 2 :=
  bits_above a b 3 2
@[simp] theorem bits8_5_3_3_3 (a : BitVec 5) (b : BitVec 3) : BitVec.extractLsb' 3 3 (a ++ b : BitVec 8) = a.extractLsb' 0 3 :=
  bits_above a b 0 3
@[simp] theorem bits8_7_1_1_7 (a : BitVec 7) (b : BitVec 1) : BitVec.extractLsb' 1 7 (a ++ b : BitVec 8) = a.extractLsb' 0 7 :=
  bits_above a b 0 7
@[simp] theorem bits8_7_1_0_1 (a : BitVec 7) (b : BitVec 1) : BitVec.extractLsb' 0 1 (a ++ b : BitVec 8) = b.extractLsb' 0 1 :=
  bits_below a b (by omega)
@[simp] theorem bits8_7_1_5_3 (a : BitVec 7) (b : BitVec 1) : BitVec.extractLsb' 5 3 (a ++ b : BitVec 8) = a.extractLsb' 4 3 :=
  bits_above a b 4 3
@[simp] theorem bits8_7_1_2_3 (a : BitVec 7) (b : BitVec 1) : BitVec.extractLsb' 2 3 (a ++ b : BitVec 8) = a.extractLsb' 1 3 :=
  bits_above a b 1 3
@[simp] theorem bits8_7_1_1_1 (a : BitVec 7) (b : BitVec 1) : BitVec.extractLsb' 1 1 (a ++ b : BitVec 8) = a.extractLsb' 0 1 :=
  bits_above a b 0 1
@[simp] theorem bits8_2_6_6_2 (a : BitVec 2) (b : BitVec 6) : BitVec.extractLsb' 6 2 (a ++ b : BitVec 8) = a.extractLsb' 0 2 :=
  bits_above a b 0 2
@[simp] theorem bits8_2_6_0_6 (a : BitVec 2) (b : BitVec 6) : BitVec.extractLsb' 0 6 (a ++ b : BitVec 8) = b.extractLsb' 0 6 :=
  bits_below a b (by omega)
@[simp] theorem bits8_3_5_5_3 (a : BitVec 3) (b : BitVec 5) : BitVec.extractLsb' 5 3 (a ++ b : BitVec 8) = a.extractLsb' 0 3 :=
  bits_above a b 0 3
@[simp] theorem bits8_3_5_0_5 (a : BitVec 3) (b : BitVec 5) : BitVec.extractLsb' 0 5 (a ++ b : BitVec 8) = b.extractLsb' 0 5 :=
  bits_below a b (by omega)
@[simp] theorem bits8_4_4_4_4 (a : BitVec 4) (b : BitVec 4) : BitVec.extractLsb' 4 4 (a ++ b : BitVec 8) = a.extractLsb' 0 4 :=
  bits_above a b 0 4
@[simp] theorem bits8_4_4_0_4 (a : BitVec 4) (b : BitVec 4) : BitVec.extractLsb' 0 4 (a ++ b : BitVec 8) = b.extractLsb' 0 4 :=
  bits_below a b (by omega)
@[simp] theorem bits8_6_2_0_2 (a : BitVec 6) (b : BitVec 2) : BitVec.extractLsb' 0 2 (a ++ b : BitVec 8) = b.extractLsb' 0 2 :=
  bits_below a b (by omega)
@[simp] theorem bits8_6_2_2_1 (a : BitVec 6) (b : BitVec 2) : BitVec.extractLsb' 2 1 (a ++ b : BitVec 8) = a.extractLsb' 0 1 :=
  bits_above a b 0 1
@[simp] theorem bits7_6_1_4_3 (a : BitVec 6) (b : BitVec 1) : BitVec.extractLsb' 4 3 (a ++ b : BitVec 7) = a.extractLsb' 3 3 :=
  bits_above a b 3 3
@[simp] theorem bits7_6_1_1_3 (a : BitVec 6) (b : BitVec 1) : BitVec.extractLsb' 1 3 (a ++ b : BitVec 7) = a.extractLsb' 0 3 :=
  bits_above a b 0 3
@[simp] theorem bits7_6_1_0_1 (a : BitVec 6) (b : BitVec 1) : BitVec.extractLsb' 0 1 (a ++ b : BitVec 7) = b.extractLsb' 0 1 :=
  bits_below a b (by omega)
@[simp] theorem bits6_3_3_3_3 (a : BitVec 3) (b : BitVec 3) : BitVec.extractLsb' 3 3 (a ++ b : BitVec 6) = a.extractLsb' 0 3 :=
  bits_above a b 0 3
@[simp] theorem bits6_3_3_0_3 (a : BitVec 3) (b : BitVec 3) : BitVec.extractLsb' 0 3 (a ++ b : BitVec 6) = b.extractLsb' 0 3 :=
  bits_below a b (by omega)
@[simp] theorem bits5_2_3_0_3 (a : BitVec 2) (b : BitVec 3) : BitVec.extractLsb' 0 3 (a ++ b : BitVec 5) = b.extractLsb' 0 3 :=
  bits_below a b (by omega)
@[simp] theorem bits5_2_3_3_2 (a : BitVec 2) (b : BitVec 3) : BitVec.extractLsb' 3 2 (a ++ b : BitVec 5) = a.extractLsb' 0 2 :=
  bits_above a b 0 2
@[simp] theorem bits5_3_2_0_2 (a : BitVec 3) (b : BitVec 2) : BitVec.extractLsb' 0 2 (a ++ b : BitVec 5) = b.extractLsb' 0 2 :=
  bits_below a b (by omega)
@[simp] theorem bits16_15_1_11_5 (a : BitVec 15) (b : BitVec 1) : BitVec.extractLsb' 11 5 (a ++ b : BitVec 16) = a.extractLsb' 10 5 :=
  bits_above a b 10 5
@[simp] theorem bits16_15_1_6_5 (a : BitVec 15) (b : BitVec 1) : BitVec.extractLsb' 6 5 (a ++ b : BitVec 16) = a.extractLsb' 5 5 :=
  bits_above a b 5 5
@[simp] theorem bits16_15_1_1_5 (a : BitVec 15) (b : BitVec 1) : BitVec.extractLsb' 1 5 (a ++ b : BitVec 16) = a.extractLsb' 0 5 :=
  bits_above a b 0 5
@[simp] theorem bits16_15_1_1_10 (a : BitVec 15) (b : BitVec 1) : BitVec.extractLsb' 1 10 (a ++ b : BitVec 16) = a.extractLsb' 0 10 :=
  bits_above a b 0 10
@[simp] theorem bits15_10_5_10_5 (a : BitVec 10) (b : BitVec 5) : BitVec.extractLsb' 10 5 (a ++ b : BitVec 15) = a.extractLsb' 5 5 :=
  bits_above a b 5 5
@[simp] theorem bits15_10_5_5_5 (a : BitVec 10) (b : BitVec 5) : BitVec.extractLsb' 5 5 (a ++ b : BitVec 15) = a.extractLsb' 0 5 :=
  bits_above a b 0 5
@[simp] theorem bits15_10_5_0_5 (a : BitVec 10) (b : BitVec 5) : BitVec.extractLsb' 0 5 (a ++ b : BitVec 15) = b.extractLsb' 0 5 :=
  bits_below a b (by omega)
@[simp] theorem bits15_5_10_10_5 (a : BitVec 5) (b : BitVec 10) : BitVec.extractLsb' 10 5 (a ++ b : BitVec 15) = a.extractLsb' 0 5 :=
  bits_above a b 0 5
@[simp] theorem bits15_5_10_0_10 (a : BitVec 5) (b : BitVec 10) : BitVec.extractLsb' 0 10 (a ++ b : BitVec 15) = b.extractLsb' 0 10 :=
  bits_below a b (by omega)
@[simp] theorem bits10_5_5_5_5 (a : BitVec 5) (b : BitVec 5) : BitVec.extractLsb' 5 5 (a ++ b : BitVec 10) = a.extractLsb' 0 5 :=
  bits_above a b 0 5
@[simp] theorem bits10_5_5_0_5 (a : BitVec 5) (b : BitVec 5) : BitVec.extractLsb' 0 5 (a ++ b : BitVec 10) = b.extractLsb' 0 5 :=
  bits_below a b (by omega)
@[simp] theorem bits64_61_3_59_5 (a : BitVec 61) (b : BitVec 3) : BitVec.extractLsb' 59 5 (a ++ b : BitVec 64) = a.extractLsb' 56 5 :=
  bits_above a b 56 5
@[simp] theorem bits64_61_3_57_2 (a : BitVec 61) (b : BitVec 3) : BitVec.extractLsb' 57 2 (a ++ b : BitVec 64) = a.extractLsb' 54 2 :=
  bits_above a b 54 2
@[simp] theorem bits64_61_3_45_10 (a : BitVec 61) (b : BitVec 3) : BitVec.extractLsb' 45 10 (a ++ b : BitVec 64) = a.extractLsb' 42 10 :=
  bits_above a b 42 10
@[simp] theorem bits64_61_3_35_10 (a : BitVec 61) (b : BitVec 3) : BitVec.extractLsb' 35 10 (a ++ b : BitVec 64) = a.extractLsb' 32 10 :=
  bits_above a b 32 10
@[simp] theorem bits64_61_3_25_10 (a : BitVec 61) (b : BitVec 3) : BitVec.extractLsb' 25 10 (a ++ b : BitVec 64) = a.extractLsb' 22 10 :=
  bits_above a b 22 10
@[simp] theorem bits64_61_3_15_10 (a : BitVec 61) (b : BitVec 3) : BitVec.extractLsb' 15 10 (a ++ b : BitVec 64) = a.extractLsb' 12 10 :=
  bits_above a b 12 10
@[simp] theorem bits64_61_3_3_12 (a : BitVec 61) (b : BitVec 3) : BitVec.extractLsb' 3 12 (a ++ b : BitVec 64) = a.extractLsb' 0 12 :=
  bits_above a b 0 12
@[simp] theorem bits61_49_12_56_5 (a : BitVec 49) (b : BitVec 12) : BitVec.extractLsb' 56 5 (a ++ b : BitVec 61) = a.extractLsb' 44 5 :=
  bits_above a b 44 5
@[simp] theorem bits61_49_12_54_2 (a : BitVec 49) (b : BitVec 12) : BitVec.extractLsb' 54 2 (a ++ b : BitVec 61) = a.extractLsb' 42 2 :=
  bits_above a b 42 2
@[simp] theorem bits61_49_12_42_10 (a : BitVec 49) (b : BitVec 12) : BitVec.extractLsb' 42 10 (a ++ b : BitVec 61) = a.extractLsb' 30 10 :=
  bits_above a b 30 10
@[simp] theorem bits61_49_12_32_10 (a : BitVec 49) (b : BitVec 12) : BitVec.extractLsb' 32 10 (a ++ b : BitVec 61) = a.extractLsb' 20 10 :=
  bits_above a b 20 10
@[simp] theorem bits61_49_12_22_10 (a : BitVec 49) (b : BitVec 12) : BitVec.extractLsb' 22 10 (a ++ b : BitVec 61) = a.extractLsb' 10 10 :=
  bits_above a b 10 10
@[simp] theorem bits61_49_12_12_10 (a : BitVec 49) (b : BitVec 12) : BitVec.extractLsb' 12 10 (a ++ b : BitVec 61) = a.extractLsb' 0 10 :=
  bits_above a b 0 10
@[simp] theorem bits61_49_12_0_12 (a : BitVec 49) (b : BitVec 12) : BitVec.extractLsb' 0 12 (a ++ b : BitVec 61) = b.extractLsb' 0 12 :=
  bits_below a b (by omega)
@[simp] theorem bits49_39_10_44_5 (a : BitVec 39) (b : BitVec 10) : BitVec.extractLsb' 44 5 (a ++ b : BitVec 49) = a.extractLsb' 34 5 :=
  bits_above a b 34 5
@[simp] theorem bits49_39_10_42_2 (a : BitVec 39) (b : BitVec 10) : BitVec.extractLsb' 42 2 (a ++ b : BitVec 49) = a.extractLsb' 32 2 :=
  bits_above a b 32 2
@[simp] theorem bits49_39_10_30_10 (a : BitVec 39) (b : BitVec 10) : BitVec.extractLsb' 30 10 (a ++ b : BitVec 49) = a.extractLsb' 20 10 :=
  bits_above a b 20 10
@[simp] theorem bits49_39_10_20_10 (a : BitVec 39) (b : BitVec 10) : BitVec.extractLsb' 20 10 (a ++ b : BitVec 49) = a.extractLsb' 10 10 :=
  bits_above a b 10 10
@[simp] theorem bits49_39_10_10_10 (a : BitVec 39) (b : BitVec 10) : BitVec.extractLsb' 10 10 (a ++ b : BitVec 49) = a.extractLsb' 0 10 :=
  bits_above a b 0 10
@[simp] theorem bits49_39_10_0_10 (a : BitVec 39) (b : BitVec 10) : BitVec.extractLsb' 0 10 (a ++ b : BitVec 49) = b.extractLsb' 0 10 :=
  bits_below a b (by omega)
@[simp] theorem bits39_29_10_34_5 (a : BitVec 29) (b : BitVec 10) : BitVec.extractLsb' 34 5 (a ++ b : BitVec 39) = a.extractLsb' 24 5 :=
  bits_above a b 24 5
@[simp] theorem bits39_29_10_32_2 (a : BitVec 29) (b : BitVec 10) : BitVec.extractLsb' 32 2 (a ++ b : BitVec 39) = a.extractLsb' 22 2 :=
  bits_above a b 22 2
@[simp] theorem bits39_29_10_20_10 (a : BitVec 29) (b : BitVec 10) : BitVec.extractLsb' 20 10 (a ++ b : BitVec 39) = a.extractLsb' 10 10 :=
  bits_above a b 10 10
@[simp] theorem bits39_29_10_10_10 (a : BitVec 29) (b : BitVec 10) : BitVec.extractLsb' 10 10 (a ++ b : BitVec 39) = a.extractLsb' 0 10 :=
  bits_above a b 0 10
@[simp] theorem bits39_29_10_0_10 (a : BitVec 29) (b : BitVec 10) : BitVec.extractLsb' 0 10 (a ++ b : BitVec 39) = b.extractLsb' 0 10 :=
  bits_below a b (by omega)
@[simp] theorem bits29_19_10_24_5 (a : BitVec 19) (b : BitVec 10) : BitVec.extractLsb' 24 5 (a ++ b : BitVec 29) = a.extractLsb' 14 5 :=
  bits_above a b 14 5
@[simp] theorem bits29_19_10_22_2 (a : BitVec 19) (b : BitVec 10) : BitVec.extractLsb' 22 2 (a ++ b : BitVec 29) = a.extractLsb' 12 2 :=
  bits_above a b 12 2
@[simp] theorem bits29_19_10_10_10 (a : BitVec 19) (b : BitVec 10) : BitVec.extractLsb' 10 10 (a ++ b : BitVec 29) = a.extractLsb' 0 10 :=
  bits_above a b 0 10
@[simp] theorem bits29_19_10_0_10 (a : BitVec 19) (b : BitVec 10) : BitVec.extractLsb' 0 10 (a ++ b : BitVec 29) = b.extractLsb' 0 10 :=
  bits_below a b (by omega)
@[simp] theorem bits19_9_10_14_5 (a : BitVec 9) (b : BitVec 10) : BitVec.extractLsb' 14 5 (a ++ b : BitVec 19) = a.extractLsb' 4 5 :=
  bits_above a b 4 5
@[simp] theorem bits19_9_10_12_2 (a : BitVec 9) (b : BitVec 10) : BitVec.extractLsb' 12 2 (a ++ b : BitVec 19) = a.extractLsb' 2 2 :=
  bits_above a b 2 2
@[simp] theorem bits19_9_10_0_10 (a : BitVec 9) (b : BitVec 10) : BitVec.extractLsb' 0 10 (a ++ b : BitVec 19) = b.extractLsb' 0 10 :=
  bits_below a b (by omega)
@[simp] theorem bits9_7_2_4_5 (a : BitVec 7) (b : BitVec 2) : BitVec.extractLsb' 4 5 (a ++ b : BitVec 9) = a.extractLsb' 2 5 :=
  bits_above a b 2 5
@[simp] theorem bits9_7_2_2_2 (a : BitVec 7) (b : BitVec 2) : BitVec.extractLsb' 2 2 (a ++ b : BitVec 9) = a.extractLsb' 0 2 :=
  bits_above a b 0 2
@[simp] theorem bits7_5_2_2_5 (a : BitVec 5) (b : BitVec 2) : BitVec.extractLsb' 2 5 (a ++ b : BitVec 7) = a.extractLsb' 0 5 :=
  bits_above a b 0 5
@[simp] theorem bits7_5_2_0_2 (a : BitVec 5) (b : BitVec 2) : BitVec.extractLsb' 0 2 (a ++ b : BitVec 7) = b.extractLsb' 0 2 :=
  bits_below a b (by omega)
@[simp] theorem bits64_52_12_59_5 (a : BitVec 52) (b : BitVec 12) : BitVec.extractLsb' 59 5 (a ++ b : BitVec 64) = a.extractLsb' 47 5 :=
  bits_above a b 47 5
@[simp] theorem bits64_52_12_57_2 (a : BitVec 52) (b : BitVec 12) : BitVec.extractLsb' 57 2 (a ++ b : BitVec 64) = a.extractLsb' 45 2 :=
  bits_above a b 45 2
@[simp] theorem bits64_52_12_45_10 (a : BitVec 52) (b : BitVec 12) : BitVec.extractLsb' 45 10 (a ++ b : BitVec 64) = a.extractLsb' 33 10 :=
  bits_above a b 33 10
@[simp] theorem bits64_52_12_35_10 (a : BitVec 52) (b : BitVec 12) : BitVec.extractLsb' 35 10 (a ++ b : BitVec 64) = a.extractLsb' 23 10 :=
  bits_above a b 23 10
@[simp] theorem bits64_52_12_25_10 (a : BitVec 52) (b : BitVec 12) : BitVec.extractLsb' 25 10 (a ++ b : BitVec 64) = a.extractLsb' 13 10 :=
  bits_above a b 13 10
@[simp] theorem bits64_52_12_15_10 (a : BitVec 52) (b : BitVec 12) : BitVec.extractLsb' 15 10 (a ++ b : BitVec 64) = a.extractLsb' 3 10 :=
  bits_above a b 3 10
@[simp] theorem bits64_52_12_12_3 (a : BitVec 52) (b : BitVec 12) : BitVec.extractLsb' 12 3 (a ++ b : BitVec 64) = a.extractLsb' 0 3 :=
  bits_above a b 0 3
@[simp] theorem bits52_49_3_47_5 (a : BitVec 49) (b : BitVec 3) : BitVec.extractLsb' 47 5 (a ++ b : BitVec 52) = a.extractLsb' 44 5 :=
  bits_above a b 44 5
@[simp] theorem bits52_49_3_45_2 (a : BitVec 49) (b : BitVec 3) : BitVec.extractLsb' 45 2 (a ++ b : BitVec 52) = a.extractLsb' 42 2 :=
  bits_above a b 42 2
@[simp] theorem bits52_49_3_33_10 (a : BitVec 49) (b : BitVec 3) : BitVec.extractLsb' 33 10 (a ++ b : BitVec 52) = a.extractLsb' 30 10 :=
  bits_above a b 30 10
@[simp] theorem bits52_49_3_23_10 (a : BitVec 49) (b : BitVec 3) : BitVec.extractLsb' 23 10 (a ++ b : BitVec 52) = a.extractLsb' 20 10 :=
  bits_above a b 20 10
@[simp] theorem bits52_49_3_13_10 (a : BitVec 49) (b : BitVec 3) : BitVec.extractLsb' 13 10 (a ++ b : BitVec 52) = a.extractLsb' 10 10 :=
  bits_above a b 10 10
@[simp] theorem bits52_49_3_3_10 (a : BitVec 49) (b : BitVec 3) : BitVec.extractLsb' 3 10 (a ++ b : BitVec 52) = a.extractLsb' 0 10 :=
  bits_above a b 0 10
@[simp] theorem bits52_49_3_0_3 (a : BitVec 49) (b : BitVec 3) : BitVec.extractLsb' 0 3 (a ++ b : BitVec 52) = b.extractLsb' 0 3 :=
  bits_below a b (by omega)
@[simp] theorem bits64_37_27_59_5 (a : BitVec 37) (b : BitVec 27) : BitVec.extractLsb' 59 5 (a ++ b : BitVec 64) = a.extractLsb' 32 5 :=
  bits_above a b 32 5
@[simp] theorem bits64_37_27_54_5 (a : BitVec 37) (b : BitVec 27) : BitVec.extractLsb' 54 5 (a ++ b : BitVec 64) = a.extractLsb' 27 5 :=
  bits_above a b 27 5
@[simp] theorem bits64_37_27_49_5 (a : BitVec 37) (b : BitVec 27) : BitVec.extractLsb' 49 5 (a ++ b : BitVec 64) = a.extractLsb' 22 5 :=
  bits_above a b 22 5
@[simp] theorem bits64_37_27_44_5 (a : BitVec 37) (b : BitVec 27) : BitVec.extractLsb' 44 5 (a ++ b : BitVec 64) = a.extractLsb' 17 5 :=
  bits_above a b 17 5
@[simp] theorem bits64_37_27_39_5 (a : BitVec 37) (b : BitVec 27) : BitVec.extractLsb' 39 5 (a ++ b : BitVec 64) = a.extractLsb' 12 5 :=
  bits_above a b 12 5
@[simp] theorem bits64_37_27_27_12 (a : BitVec 37) (b : BitVec 27) : BitVec.extractLsb' 27 12 (a ++ b : BitVec 64) = a.extractLsb' 0 12 :=
  bits_above a b 0 12
@[simp] theorem bits37_25_12_32_5 (a : BitVec 25) (b : BitVec 12) : BitVec.extractLsb' 32 5 (a ++ b : BitVec 37) = a.extractLsb' 20 5 :=
  bits_above a b 20 5
@[simp] theorem bits37_25_12_27_5 (a : BitVec 25) (b : BitVec 12) : BitVec.extractLsb' 27 5 (a ++ b : BitVec 37) = a.extractLsb' 15 5 :=
  bits_above a b 15 5
@[simp] theorem bits37_25_12_22_5 (a : BitVec 25) (b : BitVec 12) : BitVec.extractLsb' 22 5 (a ++ b : BitVec 37) = a.extractLsb' 10 5 :=
  bits_above a b 10 5
@[simp] theorem bits37_25_12_17_5 (a : BitVec 25) (b : BitVec 12) : BitVec.extractLsb' 17 5 (a ++ b : BitVec 37) = a.extractLsb' 5 5 :=
  bits_above a b 5 5
@[simp] theorem bits37_25_12_12_5 (a : BitVec 25) (b : BitVec 12) : BitVec.extractLsb' 12 5 (a ++ b : BitVec 37) = a.extractLsb' 0 5 :=
  bits_above a b 0 5
@[simp] theorem bits37_25_12_0_12 (a : BitVec 25) (b : BitVec 12) : BitVec.extractLsb' 0 12 (a ++ b : BitVec 37) = b.extractLsb' 0 12 :=
  bits_below a b (by omega)
@[simp] theorem bits25_20_5_20_5 (a : BitVec 20) (b : BitVec 5) : BitVec.extractLsb' 20 5 (a ++ b : BitVec 25) = a.extractLsb' 15 5 :=
  bits_above a b 15 5
@[simp] theorem bits25_20_5_15_5 (a : BitVec 20) (b : BitVec 5) : BitVec.extractLsb' 15 5 (a ++ b : BitVec 25) = a.extractLsb' 10 5 :=
  bits_above a b 10 5
@[simp] theorem bits25_20_5_10_5 (a : BitVec 20) (b : BitVec 5) : BitVec.extractLsb' 10 5 (a ++ b : BitVec 25) = a.extractLsb' 5 5 :=
  bits_above a b 5 5
@[simp] theorem bits25_20_5_5_5 (a : BitVec 20) (b : BitVec 5) : BitVec.extractLsb' 5 5 (a ++ b : BitVec 25) = a.extractLsb' 0 5 :=
  bits_above a b 0 5
@[simp] theorem bits25_20_5_0_5 (a : BitVec 20) (b : BitVec 5) : BitVec.extractLsb' 0 5 (a ++ b : BitVec 25) = b.extractLsb' 0 5 :=
  bits_below a b (by omega)
@[simp] theorem bits20_15_5_15_5 (a : BitVec 15) (b : BitVec 5) : BitVec.extractLsb' 15 5 (a ++ b : BitVec 20) = a.extractLsb' 10 5 :=
  bits_above a b 10 5
@[simp] theorem bits20_15_5_10_5 (a : BitVec 15) (b : BitVec 5) : BitVec.extractLsb' 10 5 (a ++ b : BitVec 20) = a.extractLsb' 5 5 :=
  bits_above a b 5 5
@[simp] theorem bits20_15_5_5_5 (a : BitVec 15) (b : BitVec 5) : BitVec.extractLsb' 5 5 (a ++ b : BitVec 20) = a.extractLsb' 0 5 :=
  bits_above a b 0 5
@[simp] theorem bits20_15_5_0_5 (a : BitVec 15) (b : BitVec 5) : BitVec.extractLsb' 0 5 (a ++ b : BitVec 20) = b.extractLsb' 0 5 :=
  bits_below a b (by omega)
@[simp] theorem bits64_56_8_59_5 (a : BitVec 56) (b : BitVec 8) : BitVec.extractLsb' 59 5 (a ++ b : BitVec 64) = a.extractLsb' 51 5 :=
  bits_above a b 51 5
@[simp] theorem bits64_56_8_54_5 (a : BitVec 56) (b : BitVec 8) : BitVec.extractLsb' 54 5 (a ++ b : BitVec 64) = a.extractLsb' 46 5 :=
  bits_above a b 46 5
@[simp] theorem bits64_56_8_51_3 (a : BitVec 56) (b : BitVec 8) : BitVec.extractLsb' 51 3 (a ++ b : BitVec 64) = a.extractLsb' 43 3 :=
  bits_above a b 43 3
@[simp] theorem bits64_56_8_46_5 (a : BitVec 56) (b : BitVec 8) : BitVec.extractLsb' 46 5 (a ++ b : BitVec 64) = a.extractLsb' 38 5 :=
  bits_above a b 38 5
@[simp] theorem bits64_56_8_40_6 (a : BitVec 56) (b : BitVec 8) : BitVec.extractLsb' 40 6 (a ++ b : BitVec 64) = a.extractLsb' 32 6 :=
  bits_above a b 32 6
@[simp] theorem bits64_56_8_8_32 (a : BitVec 56) (b : BitVec 8) : BitVec.extractLsb' 8 32 (a ++ b : BitVec 64) = a.extractLsb' 0 32 :=
  bits_above a b 0 32
@[simp] theorem bits56_24_32_51_5 (a : BitVec 24) (b : BitVec 32) : BitVec.extractLsb' 51 5 (a ++ b : BitVec 56) = a.extractLsb' 19 5 :=
  bits_above a b 19 5
@[simp] theorem bits56_24_32_46_5 (a : BitVec 24) (b : BitVec 32) : BitVec.extractLsb' 46 5 (a ++ b : BitVec 56) = a.extractLsb' 14 5 :=
  bits_above a b 14 5
@[simp] theorem bits56_24_32_43_3 (a : BitVec 24) (b : BitVec 32) : BitVec.extractLsb' 43 3 (a ++ b : BitVec 56) = a.extractLsb' 11 3 :=
  bits_above a b 11 3
@[simp] theorem bits56_24_32_38_5 (a : BitVec 24) (b : BitVec 32) : BitVec.extractLsb' 38 5 (a ++ b : BitVec 56) = a.extractLsb' 6 5 :=
  bits_above a b 6 5
@[simp] theorem bits56_24_32_32_6 (a : BitVec 24) (b : BitVec 32) : BitVec.extractLsb' 32 6 (a ++ b : BitVec 56) = a.extractLsb' 0 6 :=
  bits_above a b 0 6
@[simp] theorem bits56_24_32_0_32 (a : BitVec 24) (b : BitVec 32) : BitVec.extractLsb' 0 32 (a ++ b : BitVec 56) = b.extractLsb' 0 32 :=
  bits_below a b (by omega)
@[simp] theorem bits24_18_6_19_5 (a : BitVec 18) (b : BitVec 6) : BitVec.extractLsb' 19 5 (a ++ b : BitVec 24) = a.extractLsb' 13 5 :=
  bits_above a b 13 5
@[simp] theorem bits24_18_6_14_5 (a : BitVec 18) (b : BitVec 6) : BitVec.extractLsb' 14 5 (a ++ b : BitVec 24) = a.extractLsb' 8 5 :=
  bits_above a b 8 5
@[simp] theorem bits24_18_6_11_3 (a : BitVec 18) (b : BitVec 6) : BitVec.extractLsb' 11 3 (a ++ b : BitVec 24) = a.extractLsb' 5 3 :=
  bits_above a b 5 3
@[simp] theorem bits24_18_6_6_5 (a : BitVec 18) (b : BitVec 6) : BitVec.extractLsb' 6 5 (a ++ b : BitVec 24) = a.extractLsb' 0 5 :=
  bits_above a b 0 5
@[simp] theorem bits24_18_6_0_6 (a : BitVec 18) (b : BitVec 6) : BitVec.extractLsb' 0 6 (a ++ b : BitVec 24) = b.extractLsb' 0 6 :=
  bits_below a b (by omega)
@[simp] theorem bits18_13_5_13_5 (a : BitVec 13) (b : BitVec 5) : BitVec.extractLsb' 13 5 (a ++ b : BitVec 18) = a.extractLsb' 8 5 :=
  bits_above a b 8 5
@[simp] theorem bits18_13_5_8_5 (a : BitVec 13) (b : BitVec 5) : BitVec.extractLsb' 8 5 (a ++ b : BitVec 18) = a.extractLsb' 3 5 :=
  bits_above a b 3 5
@[simp] theorem bits18_13_5_5_3 (a : BitVec 13) (b : BitVec 5) : BitVec.extractLsb' 5 3 (a ++ b : BitVec 18) = a.extractLsb' 0 3 :=
  bits_above a b 0 3
@[simp] theorem bits18_13_5_0_5 (a : BitVec 13) (b : BitVec 5) : BitVec.extractLsb' 0 5 (a ++ b : BitVec 18) = b.extractLsb' 0 5 :=
  bits_below a b (by omega)
@[simp] theorem bits13_10_3_8_5 (a : BitVec 10) (b : BitVec 3) : BitVec.extractLsb' 8 5 (a ++ b : BitVec 13) = a.extractLsb' 5 5 :=
  bits_above a b 5 5
@[simp] theorem bits13_10_3_3_5 (a : BitVec 10) (b : BitVec 3) : BitVec.extractLsb' 3 5 (a ++ b : BitVec 13) = a.extractLsb' 0 5 :=
  bits_above a b 0 5
@[simp] theorem bits13_10_3_0_3 (a : BitVec 10) (b : BitVec 3) : BitVec.extractLsb' 0 3 (a ++ b : BitVec 13) = b.extractLsb' 0 3 :=
  bits_below a b (by omega)
@[simp] theorem bits64_52_12_54_5 (a : BitVec 52) (b : BitVec 12) : BitVec.extractLsb' 54 5 (a ++ b : BitVec 64) = a.extractLsb' 42 5 :=
  bits_above a b 42 5
@[simp] theorem bits64_52_12_51_3 (a : BitVec 52) (b : BitVec 12) : BitVec.extractLsb' 51 3 (a ++ b : BitVec 64) = a.extractLsb' 39 3 :=
  bits_above a b 39 3
@[simp] theorem bits64_52_12_45_6 (a : BitVec 52) (b : BitVec 12) : BitVec.extractLsb' 45 6 (a ++ b : BitVec 64) = a.extractLsb' 33 6 :=
  bits_above a b 33 6
@[simp] theorem bits64_52_12_44_1 (a : BitVec 52) (b : BitVec 12) : BitVec.extractLsb' 44 1 (a ++ b : BitVec 64) = a.extractLsb' 32 1 :=
  bits_above a b 32 1
@[simp] theorem bits64_52_12_42_2 (a : BitVec 52) (b : BitVec 12) : BitVec.extractLsb' 42 2 (a ++ b : BitVec 64) = a.extractLsb' 30 2 :=
  bits_above a b 30 2
@[simp] theorem bits64_52_12_0_12 (a : BitVec 52) (b : BitVec 12) : BitVec.extractLsb' 0 12 (a ++ b : BitVec 64) = b.extractLsb' 0 12 :=
  bits_below a b (by omega)
@[simp] theorem bits52_22_30_47_5 (a : BitVec 22) (b : BitVec 30) : BitVec.extractLsb' 47 5 (a ++ b : BitVec 52) = a.extractLsb' 17 5 :=
  bits_above a b 17 5
@[simp] theorem bits52_22_30_42_5 (a : BitVec 22) (b : BitVec 30) : BitVec.extractLsb' 42 5 (a ++ b : BitVec 52) = a.extractLsb' 12 5 :=
  bits_above a b 12 5
@[simp] theorem bits52_22_30_39_3 (a : BitVec 22) (b : BitVec 30) : BitVec.extractLsb' 39 3 (a ++ b : BitVec 52) = a.extractLsb' 9 3 :=
  bits_above a b 9 3
@[simp] theorem bits52_22_30_33_6 (a : BitVec 22) (b : BitVec 30) : BitVec.extractLsb' 33 6 (a ++ b : BitVec 52) = a.extractLsb' 3 6 :=
  bits_above a b 3 6
@[simp] theorem bits52_22_30_32_1 (a : BitVec 22) (b : BitVec 30) : BitVec.extractLsb' 32 1 (a ++ b : BitVec 52) = a.extractLsb' 2 1 :=
  bits_above a b 2 1
@[simp] theorem bits52_22_30_30_2 (a : BitVec 22) (b : BitVec 30) : BitVec.extractLsb' 30 2 (a ++ b : BitVec 52) = a.extractLsb' 0 2 :=
  bits_above a b 0 2
@[simp] theorem bits22_20_2_17_5 (a : BitVec 20) (b : BitVec 2) : BitVec.extractLsb' 17 5 (a ++ b : BitVec 22) = a.extractLsb' 15 5 :=
  bits_above a b 15 5
@[simp] theorem bits22_20_2_12_5 (a : BitVec 20) (b : BitVec 2) : BitVec.extractLsb' 12 5 (a ++ b : BitVec 22) = a.extractLsb' 10 5 :=
  bits_above a b 10 5
@[simp] theorem bits22_20_2_9_3 (a : BitVec 20) (b : BitVec 2) : BitVec.extractLsb' 9 3 (a ++ b : BitVec 22) = a.extractLsb' 7 3 :=
  bits_above a b 7 3
@[simp] theorem bits22_20_2_3_6 (a : BitVec 20) (b : BitVec 2) : BitVec.extractLsb' 3 6 (a ++ b : BitVec 22) = a.extractLsb' 1 6 :=
  bits_above a b 1 6
@[simp] theorem bits22_20_2_2_1 (a : BitVec 20) (b : BitVec 2) : BitVec.extractLsb' 2 1 (a ++ b : BitVec 22) = a.extractLsb' 0 1 :=
  bits_above a b 0 1
@[simp] theorem bits22_20_2_0_2 (a : BitVec 20) (b : BitVec 2) : BitVec.extractLsb' 0 2 (a ++ b : BitVec 22) = b.extractLsb' 0 2 :=
  bits_below a b (by omega)
@[simp] theorem bits20_19_1_15_5 (a : BitVec 19) (b : BitVec 1) : BitVec.extractLsb' 15 5 (a ++ b : BitVec 20) = a.extractLsb' 14 5 :=
  bits_above a b 14 5
@[simp] theorem bits20_19_1_10_5 (a : BitVec 19) (b : BitVec 1) : BitVec.extractLsb' 10 5 (a ++ b : BitVec 20) = a.extractLsb' 9 5 :=
  bits_above a b 9 5
@[simp] theorem bits20_19_1_7_3 (a : BitVec 19) (b : BitVec 1) : BitVec.extractLsb' 7 3 (a ++ b : BitVec 20) = a.extractLsb' 6 3 :=
  bits_above a b 6 3
@[simp] theorem bits20_19_1_1_6 (a : BitVec 19) (b : BitVec 1) : BitVec.extractLsb' 1 6 (a ++ b : BitVec 20) = a.extractLsb' 0 6 :=
  bits_above a b 0 6
@[simp] theorem bits20_19_1_0_1 (a : BitVec 19) (b : BitVec 1) : BitVec.extractLsb' 0 1 (a ++ b : BitVec 20) = b.extractLsb' 0 1 :=
  bits_below a b (by omega)
@[simp] theorem bits19_13_6_14_5 (a : BitVec 13) (b : BitVec 6) : BitVec.extractLsb' 14 5 (a ++ b : BitVec 19) = a.extractLsb' 8 5 :=
  bits_above a b 8 5
@[simp] theorem bits19_13_6_9_5 (a : BitVec 13) (b : BitVec 6) : BitVec.extractLsb' 9 5 (a ++ b : BitVec 19) = a.extractLsb' 3 5 :=
  bits_above a b 3 5
@[simp] theorem bits19_13_6_6_3 (a : BitVec 13) (b : BitVec 6) : BitVec.extractLsb' 6 3 (a ++ b : BitVec 19) = a.extractLsb' 0 3 :=
  bits_above a b 0 3
@[simp] theorem bits19_13_6_0_6 (a : BitVec 13) (b : BitVec 6) : BitVec.extractLsb' 0 6 (a ++ b : BitVec 19) = b.extractLsb' 0 6 :=
  bits_below a b (by omega)
@[simp] theorem bits64_31_33_59_5 (a : BitVec 31) (b : BitVec 33) : BitVec.extractLsb' 59 5 (a ++ b : BitVec 64) = a.extractLsb' 26 5 :=
  bits_above a b 26 5
@[simp] theorem bits64_31_33_57_2 (a : BitVec 31) (b : BitVec 33) : BitVec.extractLsb' 57 2 (a ++ b : BitVec 64) = a.extractLsb' 24 2 :=
  bits_above a b 24 2
@[simp] theorem bits64_31_33_33_24 (a : BitVec 31) (b : BitVec 33) : BitVec.extractLsb' 33 24 (a ++ b : BitVec 64) = a.extractLsb' 0 24 :=
  bits_above a b 0 24
@[simp] theorem bits31_7_24_26_5 (a : BitVec 7) (b : BitVec 24) : BitVec.extractLsb' 26 5 (a ++ b : BitVec 31) = a.extractLsb' 2 5 :=
  bits_above a b 2 5
@[simp] theorem bits31_7_24_24_2 (a : BitVec 7) (b : BitVec 24) : BitVec.extractLsb' 24 2 (a ++ b : BitVec 31) = a.extractLsb' 0 2 :=
  bits_above a b 0 2
@[simp] theorem bits31_7_24_0_24 (a : BitVec 7) (b : BitVec 24) : BitVec.extractLsb' 0 24 (a ++ b : BitVec 31) = b.extractLsb' 0 24 :=
  bits_below a b (by omega)
@[simp] theorem bits52_7_45_47_5 (a : BitVec 7) (b : BitVec 45) : BitVec.extractLsb' 47 5 (a ++ b : BitVec 52) = a.extractLsb' 2 5 :=
  bits_above a b 2 5
@[simp] theorem bits52_7_45_45_2 (a : BitVec 7) (b : BitVec 45) : BitVec.extractLsb' 45 2 (a ++ b : BitVec 52) = a.extractLsb' 0 2 :=
  bits_above a b 0 2
@[simp] theorem bits52_5_47_47_5 (a : BitVec 5) (b : BitVec 47) : BitVec.extractLsb' 47 5 (a ++ b : BitVec 52) = a.extractLsb' 0 5 :=
  bits_above a b 0 5
@[simp] theorem bits64_5_59_59_5 (a : BitVec 5) (b : BitVec 59) : BitVec.extractLsb' 59 5 (a ++ b : BitVec 64) = a.extractLsb' 0 5 :=
  bits_above a b 0 5

@[simp] theorem join13 (x : BitVec 13) : (x.extractLsb' 5 8 ++ x.extractLsb' 0 5 : BitVec 13) = x :=
  (join_bits x 0 8 5).trans BitVec.extractLsb'_eq_self
@[simp] theorem join6 (x : BitVec 6) : (x.extractLsb' 5 1 ++ x.extractLsb' 0 5 : BitVec 6) = x :=
  (join_bits x 0 1 5).trans BitVec.extractLsb'_eq_self
@[simp] theorem join11 (x : BitVec 11) : (x.extractLsb' 5 6 ++ x.extractLsb' 0 5 : BitVec 11) = x :=
  (join_bits x 0 6 5).trans BitVec.extractLsb'_eq_self
@[simp] theorem join8 (x : BitVec 8) : (x.extractLsb' 5 3 ++ x.extractLsb' 0 5 : BitVec 8) = x :=
  (join_bits x 0 3 5).trans BitVec.extractLsb'_eq_self
@[simp] theorem join18 (x : BitVec 18) : (x.extractLsb' 10 8 ++ x.extractLsb' 5 5 ++ x.extractLsb' 0 5 : BitVec 18) = x :=
  (congrArg (· ++ x.extractLsb' 0 5) (join_bits x 5 8 5)).trans ((join_bits x 0 13 5).trans BitVec.extractLsb'_eq_self)
@[simp] theorem join23 (x : BitVec 23) :
    (x.extractLsb' 15 8 ++ x.extractLsb' 10 5 ++ x.extractLsb' 5 5 ++ x.extractLsb' 0 5 : BitVec 23) = x :=
  (congrArg (fun y => y ++ x.extractLsb' 5 5 ++ x.extractLsb' 0 5) (join_bits x 10 8 5)).trans
    ((congrArg (· ++ x.extractLsb' 0 5) (join_bits x 5 13 5)).trans ((join_bits x 0 18 5).trans BitVec.extractLsb'_eq_self))

/-- The two values of one bit. -/
theorem oneBit : ∀ e : BitVec 1, e = 0#1 ∨ e = 1#1 := by decide

@[simp] theorem leaBits : ∀ b : BitVec 2, BitVec.extractLsb' 3 5 (12#6 ++ b : BitVec 8) = 6#5 := by decide
@[simp] theorem stRelBits : ∀ b : BitVec 2, BitVec.extractLsb' 3 5 (2#6 ++ b : BitVec 8) = 1#5 := by decide

namespace Encoding

/-- Of an instruction: the first candidate that the decoder reads from its encoding is the instruction itself. -/
def Statement (i : Instr) : Prop :=
  i.wf = true →
    (∀ f, toFields i = some f → candidate f = some i) ∧
    (∀ p, toParcel i = some p → candidateParcel p = some i) ∧
    (∀ x, toSwitchWord i = some x → candidateSwitch x = some i)

theorem add tk d a b : Statement (.add tk d a b) := by
  refine fun _ => ⟨fun f h => ?_, nofun, nofun⟩
  · obtain rfl := Option.some.inj h
    simp [candidate, candOp]
theorem sub tk d a b : Statement (.sub tk d a b) := by
  refine fun _ => ⟨fun f h => ?_, nofun, nofun⟩
  · obtain rfl := Option.some.inj h
    simp [candidate, candOp]
theorem and tk d a b : Statement (.and tk d a b) := by
  refine fun _ => ⟨fun f h => ?_, nofun, nofun⟩
  · obtain rfl := Option.some.inj h
    simp [candidate, candOp]
theorem or tk d a b : Statement (.or tk d a b) := by
  refine fun _ => ⟨fun f h => ?_, nofun, nofun⟩
  · obtain rfl := Option.some.inj h
    simp [candidate, candOp]
theorem xor tk d a b : Statement (.xor tk d a b) := by
  refine fun _ => ⟨fun f h => ?_, nofun, nofun⟩
  · obtain rfl := Option.some.inj h
    simp [candidate, candOp]
theorem sll tk d a b : Statement (.sll tk d a b) := by
  refine fun _ => ⟨fun f h => ?_, nofun, nofun⟩
  · obtain rfl := Option.some.inj h
    simp [candidate, candOp]
theorem srl tk d a b : Statement (.srl tk d a b) := by
  refine fun _ => ⟨fun f h => ?_, nofun, nofun⟩
  · obtain rfl := Option.some.inj h
    simp [candidate, candOp]
theorem sra tk d a b : Statement (.sra tk d a b) := by
  refine fun _ => ⟨fun f h => ?_, nofun, nofun⟩
  · obtain rfl := Option.some.inj h
    simp [candidate, candOp]
theorem slt tk d a b : Statement (.slt tk d a b) := by
  refine fun _ => ⟨fun f h => ?_, nofun, nofun⟩
  · obtain rfl := Option.some.inj h
    simp [candidate, candOp]
theorem sltu tk d a b : Statement (.sltu tk d a b) := by
  refine fun _ => ⟨fun f h => ?_, nofun, nofun⟩
  · obtain rfl := Option.some.inj h
    simp [candidate, candOp]
theorem min tk d a b : Statement (.min tk d a b) := by
  refine fun _ => ⟨fun f h => ?_, nofun, nofun⟩
  · obtain rfl := Option.some.inj h
    simp [candidate, candOp]
theorem max tk d a b : Statement (.max tk d a b) := by
  refine fun _ => ⟨fun f h => ?_, nofun, nofun⟩
  · obtain rfl := Option.some.inj h
    simp [candidate, candOp]
theorem minu tk d a b : Statement (.minu tk d a b) := by
  refine fun _ => ⟨fun f h => ?_, nofun, nofun⟩
  · obtain rfl := Option.some.inj h
    simp [candidate, candOp]
theorem maxu tk d a b : Statement (.maxu tk d a b) := by
  refine fun _ => ⟨fun f h => ?_, nofun, nofun⟩
  · obtain rfl := Option.some.inj h
    simp [candidate, candOp]
theorem mul tk d a b : Statement (.mul tk d a b) := by
  refine fun _ => ⟨fun f h => ?_, nofun, nofun⟩
  · obtain rfl := Option.some.inj h
    simp [candidate, candOp]
theorem mulh tk d a b : Statement (.mulh tk d a b) := by
  refine fun _ => ⟨fun f h => ?_, nofun, nofun⟩
  · obtain rfl := Option.some.inj h
    simp [candidate, candOp]
theorem mulhu tk d a b : Statement (.mulhu tk d a b) := by
  refine fun _ => ⟨fun f h => ?_, nofun, nofun⟩
  · obtain rfl := Option.some.inj h
    simp [candidate, candOp]
theorem div tk d a b : Statement (.div tk d a b) := by
  refine fun _ => ⟨fun f h => ?_, nofun, nofun⟩
  · obtain rfl := Option.some.inj h
    simp [candidate, candOp]
theorem divu tk d a b : Statement (.divu tk d a b) := by
  refine fun _ => ⟨fun f h => ?_, nofun, nofun⟩
  · obtain rfl := Option.some.inj h
    simp [candidate, candOp]
theorem rem tk d a b : Statement (.rem tk d a b) := by
  refine fun _ => ⟨fun f h => ?_, nofun, nofun⟩
  · obtain rfl := Option.some.inj h
    simp [candidate, candOp]
theorem remu tk d a b : Statement (.remu tk d a b) := by
  refine fun _ => ⟨fun f h => ?_, nofun, nofun⟩
  · obtain rfl := Option.some.inj h
    simp [candidate, candOp]
theorem clz tk d a : Statement (.clz tk d a) := by
  refine fun _ => ⟨fun f h => ?_, nofun, nofun⟩
  · obtain rfl := Option.some.inj h
    simp [candidate, candOp]
theorem ctz tk d a : Statement (.ctz tk d a) := by
  refine fun _ => ⟨fun f h => ?_, nofun, nofun⟩
  · obtain rfl := Option.some.inj h
    simp [candidate, candOp]
theorem popc tk d a : Statement (.popc tk d a) := by
  refine fun _ => ⟨fun f h => ?_, nofun, nofun⟩
  · obtain rfl := Option.some.inj h
    simp [candidate, candOp]
theorem lea tk sh d a b : Statement (.lea tk sh d a b) := by
  refine fun _ => ⟨fun f h => ?_, nofun, nofun⟩
  · obtain rfl := Option.some.inj h
    simp [candidate, candOp]
theorem pset tk cc p a b : Statement (.pset tk cc p a b) := by
  refine fun _ => ⟨fun f h => ?_, nofun, nofun⟩
  · obtain rfl := Option.some.inj h
    cases cc <;> simp [candidate, candOp, IntCC.code, IntCC.ofCode]
theorem addi tk d a imm : Statement (.addi tk d a imm) := by
  refine fun _ => ⟨fun f h => ?_, nofun, nofun⟩
  · obtain rfl := Option.some.inj h
    simp [candidate]
theorem andi tk d a imm : Statement (.andi tk d a imm) := by
  refine fun _ => ⟨fun f h => ?_, nofun, nofun⟩
  · obtain rfl := Option.some.inj h
    simp [candidate]
theorem ori tk d a imm : Statement (.ori tk d a imm) := by
  refine fun _ => ⟨fun f h => ?_, nofun, nofun⟩
  · obtain rfl := Option.some.inj h
    simp [candidate]
theorem xori tk d a imm : Statement (.xori tk d a imm) := by
  refine fun _ => ⟨fun f h => ?_, nofun, nofun⟩
  · obtain rfl := Option.some.inj h
    simp [candidate]
theorem slti tk d a imm : Statement (.slti tk d a imm) := by
  refine fun _ => ⟨fun f h => ?_, nofun, nofun⟩
  · obtain rfl := Option.some.inj h
    simp [candidate]
theorem slli tk d a sh : Statement (.slli tk d a sh) := by
  refine fun _ => ⟨fun f h => ?_, nofun, nofun⟩
  · obtain rfl := Option.some.inj h
    simp [candidate, candShi]
theorem srli tk d a sh : Statement (.srli tk d a sh) := by
  refine fun _ => ⟨fun f h => ?_, nofun, nofun⟩
  · obtain rfl := Option.some.inj h
    simp [candidate, candShi]
theorem srai tk d a sh : Statement (.srai tk d a sh) := by
  refine fun _ => ⟨fun f h => ?_, nofun, nofun⟩
  · obtain rfl := Option.some.inj h
    simp [candidate, candShi]
theorem lih tk d imm : Statement (.lih tk d imm) := by
  refine fun _ => ⟨fun f h => ?_, nofun, nofun⟩
  · obtain rfl := Option.some.inj h
    simp [candidate]
theorem addpc tk d imm : Statement (.addpc tk d imm) := by
  refine fun _ => ⟨fun f h => ?_, nofun, nofun⟩
  · obtain rfl := Option.some.inj h
    simp [candidate]
theorem jalr tk d a imm : Statement (.jalr tk d a imm) := by
  refine fun _ => ⟨fun f h => ?_, nofun, nofun⟩
  · obtain rfl := Option.some.inj h
    simp [candidate]
theorem j tk imm : Statement (.j tk imm) := by
  refine fun _ => ⟨fun f h => ?_, nofun, nofun⟩
  · obtain rfl := Option.some.inj h
    simp [candidate]
theorem jal tk imm : Statement (.jal tk imm) := by
  refine fun _ => ⟨fun f h => ?_, nofun, nofun⟩
  · obtain rfl := Option.some.inj h
    simp [candidate]
theorem beq tk a b imm : Statement (.beq tk a b imm) := by
  refine fun _ => ⟨fun f h => ?_, nofun, nofun⟩
  · obtain rfl := Option.some.inj h
    simp [candidate]
theorem bne tk a b imm : Statement (.bne tk a b imm) := by
  refine fun _ => ⟨fun f h => ?_, nofun, nofun⟩
  · obtain rfl := Option.some.inj h
    simp [candidate]
theorem blt tk a b imm : Statement (.blt tk a b imm) := by
  refine fun _ => ⟨fun f h => ?_, nofun, nofun⟩
  · obtain rfl := Option.some.inj h
    simp [candidate]
theorem bge tk a b imm : Statement (.bge tk a b imm) := by
  refine fun _ => ⟨fun f h => ?_, nofun, nofun⟩
  · obtain rfl := Option.some.inj h
    simp [candidate]
theorem bltu tk a b imm : Statement (.bltu tk a b imm) := by
  refine fun _ => ⟨fun f h => ?_, nofun, nofun⟩
  · obtain rfl := Option.some.inj h
    simp [candidate]
theorem bgeu tk a b imm : Statement (.bgeu tk a b imm) := by
  refine fun _ => ⟨fun f h => ?_, nofun, nofun⟩
  · obtain rfl := Option.some.inj h
    simp [candidate]
theorem bp tk p imm : Statement (.bp tk p imm) := by
  refine fun _ => ⟨fun f h => ?_, nofun, nofun⟩
  · obtain rfl := Option.some.inj h
    simp [candidate, candBcond]
theorem bany tk m imm : Statement (.bany tk m imm) := by
  refine fun _ => ⟨fun f h => ?_, nofun, nofun⟩
  · obtain rfl := Option.some.inj h
    simp [candidate, candBcond]
theorem ball tk m imm : Statement (.ball tk m imm) := by
  refine fun _ => ⟨fun f h => ?_, nofun, nofun⟩
  · obtain rfl := Option.some.inj h
    simp [candidate, candBcond]
theorem bnone tk m imm : Statement (.bnone tk m imm) := by
  refine fun _ => ⟨fun f h => ?_, nofun, nofun⟩
  · obtain rfl := Option.some.inj h
    simp [candidate, candBcond]
theorem btsb tk a thr imm : Statement (.btsb tk a thr imm) := by
  refine fun _ => ⟨fun f h => ?_, nofun, nofun⟩
  · obtain rfl := Option.some.inj h
    simp [candidate]
theorem fadd tk rm d a b : Statement (.fadd tk rm d a b) := by
  refine fun _ => ⟨fun f h => ?_, nofun, nofun⟩
  · obtain rfl := Option.some.inj h
    simp [candidate, candOpf]
theorem fsub tk rm d a b : Statement (.fsub tk rm d a b) := by
  refine fun _ => ⟨fun f h => ?_, nofun, nofun⟩
  · obtain rfl := Option.some.inj h
    simp [candidate, candOpf]
theorem fmul tk rm d a b : Statement (.fmul tk rm d a b) := by
  refine fun _ => ⟨fun f h => ?_, nofun, nofun⟩
  · obtain rfl := Option.some.inj h
    simp [candidate, candOpf]
theorem fdiv tk rm d a b : Statement (.fdiv tk rm d a b) := by
  refine fun _ => ⟨fun f h => ?_, nofun, nofun⟩
  · obtain rfl := Option.some.inj h
    simp [candidate, candOpf]
theorem fsqrt tk rm d a : Statement (.fsqrt tk rm d a) := by
  refine fun _ => ⟨fun f h => ?_, nofun, nofun⟩
  · obtain rfl := Option.some.inj h
    simp [candidate, candOpf]
theorem fmin tk d a b : Statement (.fmin tk d a b) := by
  refine fun _ => ⟨fun f h => ?_, nofun, nofun⟩
  · obtain rfl := Option.some.inj h
    simp [candidate, candOpf]
theorem fmax tk d a b : Statement (.fmax tk d a b) := by
  refine fun _ => ⟨fun f h => ?_, nofun, nofun⟩
  · obtain rfl := Option.some.inj h
    simp [candidate, candOpf]
theorem feq tk d a b : Statement (.feq tk d a b) := by
  refine fun _ => ⟨fun f h => ?_, nofun, nofun⟩
  · obtain rfl := Option.some.inj h
    simp [candidate, candOpf]
theorem flt tk d a b : Statement (.flt tk d a b) := by
  refine fun _ => ⟨fun f h => ?_, nofun, nofun⟩
  · obtain rfl := Option.some.inj h
    simp [candidate, candOpf]
theorem fle tk d a b : Statement (.fle tk d a b) := by
  refine fun _ => ⟨fun f h => ?_, nofun, nofun⟩
  · obtain rfl := Option.some.inj h
    simp [candidate, candOpf]
theorem fclass tk d a : Statement (.fclass tk d a) := by
  refine fun _ => ⟨fun f h => ?_, nofun, nofun⟩
  · obtain rfl := Option.some.inj h
    simp [candidate, candOpf]
theorem fcvt tk dt rm st d a : Statement (.fcvt tk dt rm st d a) := by
  refine fun _ => ⟨fun f h => ?_, nofun, nofun⟩
  · obtain rfl := Option.some.inj h
    simp [candidate, candOpf]
theorem fma tk d a b c : Statement (.fma tk d a b c) := by
  refine fun _ => ⟨fun f h => ?_, nofun, nofun⟩
  · obtain rfl := Option.some.inj h
    simp [candidate, candOpf3]
theorem fnma tk d a b c : Statement (.fnma tk d a b c) := by
  refine fun _ => ⟨fun f h => ?_, nofun, nofun⟩
  · obtain rfl := Option.some.inj h
    simp [candidate, candOpf3]
theorem vadd tk e k d a b : Statement (.vadd tk e k d a b) := by
  refine fun _ => ⟨fun f h => ?_, nofun, nofun⟩
  · obtain rfl := Option.some.inj h
    cases e <;> simp [candidate, IntW.major, candDot, candVi]
theorem vsub tk e k d a b : Statement (.vsub tk e k d a b) := by
  refine fun _ => ⟨fun f h => ?_, nofun, nofun⟩
  · obtain rfl := Option.some.inj h
    cases e <;> simp [candidate, IntW.major, candDot, candVi]
theorem vmul tk e k d a b : Statement (.vmul tk e k d a b) := by
  refine fun _ => ⟨fun f h => ?_, nofun, nofun⟩
  · obtain rfl := Option.some.inj h
    cases e <;> simp [candidate, IntW.major, candDot, candVi]
theorem vmulh tk e k d a b : Statement (.vmulh tk e k d a b) := by
  refine fun _ => ⟨fun f h => ?_, nofun, nofun⟩
  · obtain rfl := Option.some.inj h
    cases e <;> simp [candidate, IntW.major, candDot, candVi]
theorem vmin tk e k d a b : Statement (.vmin tk e k d a b) := by
  refine fun _ => ⟨fun f h => ?_, nofun, nofun⟩
  · obtain rfl := Option.some.inj h
    cases e <;> simp [candidate, IntW.major, candDot, candVi]
theorem vmax tk e k d a b : Statement (.vmax tk e k d a b) := by
  refine fun _ => ⟨fun f h => ?_, nofun, nofun⟩
  · obtain rfl := Option.some.inj h
    cases e <;> simp [candidate, IntW.major, candDot, candVi]
theorem vand tk e k d a b : Statement (.vand tk e k d a b) := by
  refine fun _ => ⟨fun f h => ?_, nofun, nofun⟩
  · obtain rfl := Option.some.inj h
    cases e <;> simp [candidate, IntW.major, candDot, candVi]
theorem vor tk e k d a b : Statement (.vor tk e k d a b) := by
  refine fun _ => ⟨fun f h => ?_, nofun, nofun⟩
  · obtain rfl := Option.some.inj h
    cases e <;> simp [candidate, IntW.major, candDot, candVi]
theorem vxor tk e k d a b : Statement (.vxor tk e k d a b) := by
  refine fun _ => ⟨fun f h => ?_, nofun, nofun⟩
  · obtain rfl := Option.some.inj h
    cases e <;> simp [candidate, IntW.major, candDot, candVi]
theorem vsll tk e k d a b : Statement (.vsll tk e k d a b) := by
  refine fun _ => ⟨fun f h => ?_, nofun, nofun⟩
  · obtain rfl := Option.some.inj h
    cases e <;> simp [candidate, IntW.major, candDot, candVi]
theorem vsrl tk e k d a b : Statement (.vsrl tk e k d a b) := by
  refine fun _ => ⟨fun f h => ?_, nofun, nofun⟩
  · obtain rfl := Option.some.inj h
    cases e <;> simp [candidate, IntW.major, candDot, candVi]
theorem vsra tk e k d a b : Statement (.vsra tk e k d a b) := by
  refine fun _ => ⟨fun f h => ?_, nofun, nofun⟩
  · obtain rfl := Option.some.inj h
    cases e <;> simp [candidate, IntW.major, candDot, candVi]
theorem vcmp tk e o k d a b : Statement (.vcmp tk e o k d a b) := by
  refine fun _ => ⟨fun f h => ?_, nofun, nofun⟩
  · obtain rfl := Option.some.inj h
    cases e <;> cases o <;> simp [candidate, IntW.major, candDot, candVi, IntCC.op5]
theorem vsel tk e k d a b : Statement (.vsel tk e k d a b) := by
  refine fun _ => ⟨fun f h => ?_, nofun, nofun⟩
  · obtain rfl := Option.some.inj h
    cases e <;> simp [candidate, IntW.major, candDot, candVi]
theorem vredAdd tk e k d a : Statement (.vredAdd tk e k d a) := by
  refine fun _ => ⟨fun f h => ?_, nofun, nofun⟩
  · obtain rfl := Option.some.inj h
    cases e <;> simp [candidate, IntW.major, candDot, candVi]
theorem vredMin tk e k d a : Statement (.vredMin tk e k d a) := by
  refine fun _ => ⟨fun f h => ?_, nofun, nofun⟩
  · obtain rfl := Option.some.inj h
    cases e <;> simp [candidate, IntW.major, candDot, candVi]
theorem vredMax tk e k d a : Statement (.vredMax tk e k d a) := by
  refine fun _ => ⟨fun f h => ?_, nofun, nofun⟩
  · obtain rfl := Option.some.inj h
    cases e <;> simp [candidate, IntW.major, candDot, candVi]
theorem vscanAdd tk e k d a : Statement (.vscanAdd tk e k d a) := by
  refine fun _ => ⟨fun f h => ?_, nofun, nofun⟩
  · obtain rfl := Option.some.inj h
    cases e <;> simp [candidate, IntW.major, candDot, candVi]
theorem vdot4 tk k d a b : Statement (.vdot4 tk k d a b) := by
  refine fun _ => ⟨fun f h => ?_, nofun, nofun⟩
  · obtain rfl := Option.some.inj h
    simp [candidate, candDot]
theorem vcvtI tk e k d a sel st : Statement (.vcvtI tk e k d a sel st) := by
  refine fun _ => ⟨fun f h => ?_, nofun, nofun⟩
  · obtain rfl := Option.some.inj h
    cases e <;> simp [candidate, IntW.major, candDot, candVi]
theorem vfadd tk e k d a b : Statement (.vfadd tk e k d a b) := by
  refine fun _ => ⟨fun f h => ?_, nofun, nofun⟩
  · obtain rfl := Option.some.inj h
    cases e <;> simp [candidate, FltW.major, candSpec, candVf]
theorem vfsub tk e k d a b : Statement (.vfsub tk e k d a b) := by
  refine fun _ => ⟨fun f h => ?_, nofun, nofun⟩
  · obtain rfl := Option.some.inj h
    cases e <;> simp [candidate, FltW.major, candSpec, candVf]
theorem vfmul tk e k d a b : Statement (.vfmul tk e k d a b) := by
  refine fun _ => ⟨fun f h => ?_, nofun, nofun⟩
  · obtain rfl := Option.some.inj h
    cases e <;> simp [candidate, FltW.major, candSpec, candVf]
theorem vfdiv tk e k d a b : Statement (.vfdiv tk e k d a b) := by
  refine fun _ => ⟨fun f h => ?_, nofun, nofun⟩
  · obtain rfl := Option.some.inj h
    cases e <;> simp [candidate, FltW.major, candSpec, candVf]
theorem vfmin tk e k d a b : Statement (.vfmin tk e k d a b) := by
  refine fun _ => ⟨fun f h => ?_, nofun, nofun⟩
  · obtain rfl := Option.some.inj h
    cases e <;> simp [candidate, FltW.major, candSpec, candVf]
theorem vfmax tk e k d a b : Statement (.vfmax tk e k d a b) := by
  refine fun _ => ⟨fun f h => ?_, nofun, nofun⟩
  · obtain rfl := Option.some.inj h
    cases e <;> simp [candidate, FltW.major, candSpec, candVf]
theorem vfsqrt tk e k d a : Statement (.vfsqrt tk e k d a) := by
  refine fun _ => ⟨fun f h => ?_, nofun, nofun⟩
  · obtain rfl := Option.some.inj h
    cases e <;> simp [candidate, FltW.major, candSpec, candVf]
theorem vfcmp tk e o k d a b : Statement (.vfcmp tk e o k d a b) := by
  refine fun _ => ⟨fun f h => ?_, nofun, nofun⟩
  · obtain rfl := Option.some.inj h
    cases e <;> cases o <;> simp [candidate, FltW.major, candSpec, candVf, FltCC.op5]
theorem vcvt tk e k d a sel st : Statement (.vcvt tk e k d a sel st) := by
  refine fun _ => ⟨fun f h => ?_, nofun, nofun⟩
  · obtain rfl := Option.some.inj h
    cases e <;> simp [candidate, FltW.major, candSpec, candVf]
theorem vredFadd tk e k d a : Statement (.vredFadd tk e k d a) := by
  refine fun _ => ⟨fun f h => ?_, nofun, nofun⟩
  · obtain rfl := Option.some.inj h
    cases e <;> simp [candidate, FltW.major, candSpec, candVf]
theorem vredFmin tk e k d a : Statement (.vredFmin tk e k d a) := by
  refine fun _ => ⟨fun f h => ?_, nofun, nofun⟩
  · obtain rfl := Option.some.inj h
    cases e <;> simp [candidate, FltW.major, candSpec, candVf]
theorem vredFmax tk e k d a : Statement (.vredFmax tk e k d a) := by
  refine fun _ => ⟨fun f h => ?_, nofun, nofun⟩
  · obtain rfl := Option.some.inj h
    cases e <;> simp [candidate, FltW.major, candSpec, candVf]
theorem vscanFadd tk e k d a : Statement (.vscanFadd tk e k d a) := by
  refine fun _ => ⟨fun f h => ?_, nofun, nofun⟩
  · obtain rfl := Option.some.inj h
    cases e <;> simp [candidate, FltW.major, candSpec, candVf]
theorem vexp2 tk k d a : Statement (.vexp2 tk k d a) := by
  refine fun _ => ⟨fun f h => ?_, nofun, nofun⟩
  · obtain rfl := Option.some.inj h
    simp [candidate, candSpec]
theorem vlog2 tk k d a : Statement (.vlog2 tk k d a) := by
  refine fun _ => ⟨fun f h => ?_, nofun, nofun⟩
  · obtain rfl := Option.some.inj h
    simp [candidate, candSpec]
theorem vrcp tk k d a : Statement (.vrcp tk k d a) := by
  refine fun _ => ⟨fun f h => ?_, nofun, nofun⟩
  · obtain rfl := Option.some.inj h
    simp [candidate, candSpec]
theorem vrsq tk k d a : Statement (.vrsq tk k d a) := by
  refine fun _ => ⟨fun f h => ?_, nofun, nofun⟩
  · obtain rfl := Option.some.inj h
    simp [candidate, candSpec]
theorem vsin tk k d a : Statement (.vsin tk k d a) := by
  refine fun _ => ⟨fun f h => ?_, nofun, nofun⟩
  · obtain rfl := Option.some.inj h
    simp [candidate, candSpec]
theorem vcos tk k d a : Statement (.vcos tk k d a) := by
  refine fun _ => ⟨fun f h => ?_, nofun, nofun⟩
  · obtain rfl := Option.some.inj h
    simp [candidate, candSpec]
theorem vtsb tk e k d a : Statement (.vtsb tk e k d a) := by
  refine fun _ => ⟨fun f h => ?_, nofun, nofun⟩
  · obtain rfl := Option.some.inj h
    cases e <;> simp [candidate, FltW.major, candSpec, candVf]
theorem vtsblt tk e k d a b : Statement (.vtsblt tk e k d a b) := by
  refine fun _ => ⟨fun f h => ?_, nofun, nofun⟩
  · obtain rfl := Option.some.inj h
    cases e <;> simp [candidate, FltW.major, candSpec, candVf]
theorem vsettsb tk e k d a b : Statement (.vsettsb tk e k d a b) := by
  refine fun _ => ⟨fun f h => ?_, nofun, nofun⟩
  · obtain rfl := Option.some.inj h
    cases e <;> simp [candidate, FltW.major, candSpec, candVf]
theorem vperm tk k d a b : Statement (.vperm tk k d a b) := by
  refine fun _ => ⟨fun f h => ?_, nofun, nofun⟩
  · obtain rfl := Option.some.inj h
    simp [candidate, candVmisc]
theorem vslideUp tk k d a b : Statement (.vslideUp tk k d a b) := by
  refine fun _ => ⟨fun f h => ?_, nofun, nofun⟩
  · obtain rfl := Option.some.inj h
    simp [candidate, candVmisc]
theorem vslideDn tk k d a b : Statement (.vslideDn tk k d a b) := by
  refine fun _ => ⟨fun f h => ?_, nofun, nofun⟩
  · obtain rfl := Option.some.inj h
    simp [candidate, candVmisc]
theorem vexch tk d a b : Statement (.vexch tk d a b) := by
  refine fun _ => ⟨fun f h => ?_, nofun, nofun⟩
  · obtain rfl := Option.some.inj h
    simp [candidate, candVmisc]
theorem xtov tk k d a : Statement (.xtov tk k d a) := by
  refine fun _ => ⟨fun f h => ?_, nofun, nofun⟩
  · obtain rfl := Option.some.inj h
    simp [candidate, candVmisc]
theorem vtox tk k d a : Statement (.vtox tk k d a) := by
  refine fun _ => ⟨fun f h => ?_, nofun, nofun⟩
  · obtain rfl := Option.some.inj h
    simp [candidate, candVmisc]
theorem vtoxa tk k d a : Statement (.vtoxa tk k d a) := by
  refine fun _ => ⟨fun f h => ?_, nofun, nofun⟩
  · obtain rfl := Option.some.inj h
    simp [candidate, candVmisc]
theorem mtox tk d a : Statement (.mtox tk d a) := by
  refine fun _ => ⟨fun f h => ?_, nofun, nofun⟩
  · obtain rfl := Option.some.inj h
    simp [candidate, candVmisc]
theorem xtom tk d a : Statement (.xtom tk d a) := by
  refine fun _ => ⟨fun f h => ?_, nofun, nofun⟩
  · obtain rfl := Option.some.inj h
    simp [candidate, candVmisc]
theorem mand tk d a b : Statement (.mand tk d a b) := by
  refine fun _ => ⟨fun f h => ?_, nofun, nofun⟩
  · obtain rfl := Option.some.inj h
    simp [candidate, candVmisc]
theorem mor tk d a b : Statement (.mor tk d a b) := by
  refine fun _ => ⟨fun f h => ?_, nofun, nofun⟩
  · obtain rfl := Option.some.inj h
    simp [candidate, candVmisc]
theorem mxor tk d a b : Statement (.mxor tk d a b) := by
  refine fun _ => ⟨fun f h => ?_, nofun, nofun⟩
  · obtain rfl := Option.some.inj h
    simp [candidate, candVmisc]
theorem mnot tk d a : Statement (.mnot tk d a) := by
  refine fun _ => ⟨fun f h => ?_, nofun, nofun⟩
  · obtain rfl := Option.some.inj h
    simp [candidate, candVmisc]
theorem mpop tk d a : Statement (.mpop tk d a) := by
  refine fun _ => ⟨fun f h => ?_, nofun, nofun⟩
  · obtain rfl := Option.some.inj h
    simp [candidate, candVmisc]
theorem mfirst tk d a : Statement (.mfirst tk d a) := by
  refine fun _ => ⟨fun f h => ?_, nofun, nofun⟩
  · obtain rfl := Option.some.inj h
    simp [candidate, candVmisc]
theorem vportr tk k d p : Statement (.vportr tk k d p) := by
  refine fun _ => ⟨fun f h => ?_, nofun, nofun⟩
  · obtain rfl := Option.some.inj h
    simp [candidate, candVmisc]
theorem vportw tk k p a : Statement (.vportw tk k p a) := by
  refine fun _ => ⟨fun f h => ?_, nofun, nofun⟩
  · obtain rfl := Option.some.inj h
    simp [candidate, candVmisc]
theorem vfma tk e k d a b c : Statement (.vfma tk e k d a b c) := by
  refine fun _ => ⟨fun f h => ?_, nofun, nofun⟩
  · obtain rfl := Option.some.inj h
    cases e <;> simp [candidate, FltW.fmaMajor]
theorem vfnma tk e k d a b c : Statement (.vfnma tk e k d a b c) := by
  refine fun _ => ⟨fun f h => ?_, nofun, nofun⟩
  · obtain rfl := Option.some.inj h
    cases e <;> simp [candidate, FltW.fmaMajor]
theorem vclip tk e k d a b c : Statement (.vclip tk e k d a b c) := by
  refine fun _ => ⟨fun f h => ?_, nofun, nofun⟩
  · obtain rfl := Option.some.inj h
    obtain rfl | rfl := oneBit e
    all_goals simp [candidate]
theorem ldB tk d a imm : Statement (.ldB tk d a imm) := by
  refine fun _ => ⟨fun f h => ?_, nofun, nofun⟩
  · obtain rfl := Option.some.inj h
    simp [candidate]
theorem ldBu tk d a imm : Statement (.ldBu tk d a imm) := by
  refine fun _ => ⟨fun f h => ?_, nofun, nofun⟩
  · obtain rfl := Option.some.inj h
    simp [candidate]
theorem ldH tk d a imm : Statement (.ldH tk d a imm) := by
  refine fun _ => ⟨fun f h => ?_, nofun, nofun⟩
  · obtain rfl := Option.some.inj h
    simp [candidate]
theorem ldHu tk d a imm : Statement (.ldHu tk d a imm) := by
  refine fun _ => ⟨fun f h => ?_, nofun, nofun⟩
  · obtain rfl := Option.some.inj h
    simp [candidate]
theorem ldW tk d a imm : Statement (.ldW tk d a imm) := by
  refine fun _ => ⟨fun f h => ?_, nofun, nofun⟩
  · obtain rfl := Option.some.inj h
    simp [candidate]
theorem ldWu tk d a imm : Statement (.ldWu tk d a imm) := by
  refine fun _ => ⟨fun f h => ?_, nofun, nofun⟩
  · obtain rfl := Option.some.inj h
    simp [candidate]
theorem ldD tk d a imm : Statement (.ldD tk d a imm) := by
  refine fun _ => ⟨fun f h => ?_, nofun, nofun⟩
  · obtain rfl := Option.some.inj h
    simp [candidate]
theorem stB tk b a imm : Statement (.stB tk b a imm) := by
  refine fun _ => ⟨fun f h => ?_, nofun, nofun⟩
  · obtain rfl := Option.some.inj h
    simp [candidate]
theorem stH tk b a imm : Statement (.stH tk b a imm) := by
  refine fun _ => ⟨fun f h => ?_, nofun, nofun⟩
  · obtain rfl := Option.some.inj h
    simp [candidate]
theorem stW tk b a imm : Statement (.stW tk b a imm) := by
  refine fun _ => ⟨fun f h => ?_, nofun, nofun⟩
  · obtain rfl := Option.some.inj h
    simp [candidate]
theorem stD tk b a imm : Statement (.stD tk b a imm) := by
  refine fun _ => ⟨fun f h => ?_, nofun, nofun⟩
  · obtain rfl := Option.some.inj h
    simp [candidate]
theorem vld tk d a imm : Statement (.vld tk d a imm) := by
  refine fun _ => ⟨fun f h => ?_, nofun, nofun⟩
  · obtain rfl := Option.some.inj h
    simp [candidate]
theorem vst tk b a imm : Statement (.vst tk b a imm) := by
  refine fun _ => ⟨fun f h => ?_, nofun, nofun⟩
  · obtain rfl := Option.some.inj h
    simp [candidate]
theorem ldAcq tk wd d a sc : Statement (.ldAcq tk wd d a sc) := by
  refine fun _ => ⟨fun f h => ?_, nofun, nofun⟩
  · obtain rfl := Option.some.inj h
    simp [candidate, candMemx]
theorem stRel tk wd b a sc : Statement (.stRel tk wd b a sc) := by
  refine fun _ => ⟨fun f h => ?_, nofun, nofun⟩
  · obtain rfl := Option.some.inj h
    simp [candidate, candMemx]
theorem ldt tk d a : Statement (.ldt tk d a) := by
  refine fun _ => ⟨fun f h => ?_, nofun, nofun⟩
  · obtain rfl := Option.some.inj h
    simp [candidate, candMemx]
theorem stt tk b a : Statement (.stt tk b a) := by
  refine fun _ => ⟨fun f h => ?_, nofun, nofun⟩
  · obtain rfl := Option.some.inj h
    simp [candidate, candMemx]
theorem vldx tk k d a b : Statement (.vldx tk k d a b) := by
  refine fun _ => ⟨fun f h => ?_, nofun, nofun⟩
  · obtain rfl := Option.some.inj h
    simp [candidate, candMemx]
theorem vstx tk k d a b : Statement (.vstx tk k d a b) := by
  refine fun _ => ⟨fun f h => ?_, nofun, nofun⟩
  · obtain rfl := Option.some.inj h
    simp [candidate, candMemx]
theorem amoadd tk sc z d a b : Statement (.amoadd tk sc z d a b) := by
  refine fun _ => ⟨fun f h => ?_, nofun, nofun⟩
  · obtain rfl := Option.some.inj h
    simp [candidate, candAmo]
theorem amoand tk sc z d a b : Statement (.amoand tk sc z d a b) := by
  refine fun _ => ⟨fun f h => ?_, nofun, nofun⟩
  · obtain rfl := Option.some.inj h
    simp [candidate, candAmo]
theorem amoor tk sc z d a b : Statement (.amoor tk sc z d a b) := by
  refine fun _ => ⟨fun f h => ?_, nofun, nofun⟩
  · obtain rfl := Option.some.inj h
    simp [candidate, candAmo]
theorem amoxor tk sc z d a b : Statement (.amoxor tk sc z d a b) := by
  refine fun _ => ⟨fun f h => ?_, nofun, nofun⟩
  · obtain rfl := Option.some.inj h
    simp [candidate, candAmo]
theorem amomin tk sc z d a b : Statement (.amomin tk sc z d a b) := by
  refine fun _ => ⟨fun f h => ?_, nofun, nofun⟩
  · obtain rfl := Option.some.inj h
    simp [candidate, candAmo]
theorem amomax tk sc z d a b : Statement (.amomax tk sc z d a b) := by
  refine fun _ => ⟨fun f h => ?_, nofun, nofun⟩
  · obtain rfl := Option.some.inj h
    simp [candidate, candAmo]
theorem amoswap tk sc z d a b : Statement (.amoswap tk sc z d a b) := by
  refine fun _ => ⟨fun f h => ?_, nofun, nofun⟩
  · obtain rfl := Option.some.inj h
    simp [candidate, candAmo]
theorem amocas tk sc z d a b : Statement (.amocas tk sc z d a b) := by
  refine fun _ => ⟨fun f h => ?_, nofun, nofun⟩
  · obtain rfl := Option.some.inj h
    simp [candidate, candAmo]
theorem csrr tk d n : Statement (.csrr tk d n) := by
  refine fun _ => ⟨fun f h => ?_, nofun, nofun⟩
  · obtain rfl := Option.some.inj h
    simp [candidate, candCsr]
theorem csrw tk a n : Statement (.csrw tk a n) := by
  refine fun _ => ⟨fun f h => ?_, nofun, nofun⟩
  · obtain rfl := Option.some.inj h
    simp [candidate, candCsr]
theorem csrs tk d a n : Statement (.csrs tk d a n) := by
  refine fun _ => ⟨fun f h => ?_, nofun, nofun⟩
  · obtain rfl := Option.some.inj h
    simp [candidate, candCsr]
theorem csrc tk d a n : Statement (.csrc tk d a n) := by
  refine fun _ => ⟨fun f h => ?_, nofun, nofun⟩
  · obtain rfl := Option.some.inj h
    simp [candidate, candCsr]
theorem fence tk kk sc : Statement (.fence tk kk sc) := by
  refine fun _ => ⟨fun f h => ?_, nofun, nofun⟩
  · obtain rfl := Option.some.inj h
    simp [candidate, candSys]
theorem sdrain tk : Statement (.sdrain tk) := by
  refine fun _ => ⟨fun f h => ?_, nofun, nofun⟩
  · obtain rfl := Option.some.inj h
    simp [candidate, candSys]
theorem chkerr tk d : Statement (.chkerr tk d) := by
  refine fun _ => ⟨fun f h => ?_, nofun, nofun⟩
  · obtain rfl := Option.some.inj h
    simp [candidate, candSys]
theorem chkerrClr tk d : Statement (.chkerrClr tk d) := by
  refine fun _ => ⟨fun f h => ?_, nofun, nofun⟩
  · obtain rfl := Option.some.inj h
    simp [candidate, candSys]
theorem ecall tk : Statement (.ecall tk) := by
  refine fun _ => ⟨fun f h => ?_, nofun, nofun⟩
  · obtain rfl := Option.some.inj h
    simp [candidate, candSys]
theorem ebreak tk : Statement (.ebreak tk) := by
  refine fun _ => ⟨fun f h => ?_, nofun, nofun⟩
  · obtain rfl := Option.some.inj h
    simp [candidate, candSys]
theorem tret tk : Statement (.tret tk) := by
  refine fun _ => ⟨fun f h => ?_, nofun, nofun⟩
  · obtain rfl := Option.some.inj h
    simp [candidate, candSys]
theorem qtest tk p q : Statement (.qtest tk p q) := by
  refine fun _ => ⟨fun f h => ?_, nofun, nofun⟩
  · obtain rfl := Option.some.inj h
    simp [candidate, candSys]
theorem qtok tk d q : Statement (.qtok tk d q) := by
  refine fun _ => ⟨fun f h => ?_, nofun, nofun⟩
  · obtain rfl := Option.some.inj h
    simp [candidate, candSys]
theorem recfg tk a : Statement (.recfg tk a) := by
  refine fun _ => ⟨fun f h => ?_, nofun, nofun⟩
  · obtain rfl := Option.some.inj h
    simp [candidate, candSys]
theorem shadow tk a : Statement (.shadow tk a) := by
  refine fun _ => ⟨fun f h => ?_, nofun, nofun⟩
  · obtain rfl := Option.some.inj h
    simp [candidate, candSys]
theorem join tk a b : Statement (.join tk a b) := by
  refine fun _ => ⟨fun f h => ?_, nofun, nofun⟩
  · obtain rfl := Option.some.inj h
    simp [candidate, candTask]
theorem leave tk a : Statement (.leave tk a) := by
  refine fun _ => ⟨fun f h => ?_, nofun, nofun⟩
  · obtain rfl := Option.some.inj h
    simp [candidate, candTask]
theorem gbar tk a : Statement (.gbar tk a) := by
  refine fun _ => ⟨fun f h => ?_, nofun, nofun⟩
  · obtain rfl := Option.some.inj h
    simp [candidate, candTask]
theorem gkill tk a : Statement (.gkill tk a) := by
  refine fun _ => ⟨fun f h => ?_, nofun, nofun⟩
  · obtain rfl := Option.some.inj h
    simp [candidate, candTask]
theorem tspawn tk a b : Statement (.tspawn tk a b) := by
  refine fun _ => ⟨fun f h => ?_, nofun, nofun⟩
  · obtain rfl := Option.some.inj h
    simp [candidate, candTask]
theorem texit tk : Statement (.texit tk) := by
  refine fun _ => ⟨fun f h => ?_, nofun, nofun⟩
  · obtain rfl := Option.some.inj h
    simp [candidate, candTask]
theorem evset tk n : Statement (.evset tk n) := by
  refine fun _ => ⟨fun f h => ?_, nofun, nofun⟩
  · obtain rfl := Option.some.inj h
    simp [candidate, candTask]
theorem evclr tk n : Statement (.evclr tk n) := by
  refine fun _ => ⟨fun f h => ?_, nofun, nofun⟩
  · obtain rfl := Option.some.inj h
    simp [candidate, candTask]
theorem wfe tk n : Statement (.wfe tk n) := by
  refine fun _ => ⟨fun f h => ?_, nofun, nofun⟩
  · obtain rfl := Option.some.inj h
    simp [candidate, candTask]
theorem send tk a b : Statement (.send tk a b) := by
  refine fun _ => ⟨fun f h => ?_, nofun, nofun⟩
  · obtain rfl := Option.some.inj h
    simp [candidate, candTask]
theorem waitc tk a : Statement (.waitc tk a) := by
  refine fun _ => ⟨fun f h => ?_, nofun, nofun⟩
  · obtain rfl := Option.some.inj h
    simp [candidate, candTask]
theorem tld tk d a b : Statement (.tld tk d a b) := by
  refine fun _ => ⟨fun f h => ?_, nofun, nofun⟩
  · obtain rfl := Option.some.inj h
    simp [candidate, candMatrix]
theorem tldH tk d a b : Statement (.tldH tk d a b) := by
  refine fun _ => ⟨fun f h => ?_, nofun, nofun⟩
  · obtain rfl := Option.some.inj h
    simp [candidate, candMatrix]
theorem tldHk tk d a b : Statement (.tldHk tk d a b) := by
  refine fun _ => ⟨fun f h => ?_, nofun, nofun⟩
  · obtain rfl := Option.some.inj h
    simp [candidate, candMatrix]
theorem tst tk b a : Statement (.tst tk b a) := by
  refine fun _ => ⟨fun f h => ?_, nofun, nofun⟩
  · obtain rfl := Option.some.inj h
    simp [candidate, candMatrix]
theorem tzero tk d : Statement (.tzero tk d) := by
  refine fun _ => ⟨fun f h => ?_, nofun, nofun⟩
  · obtain rfl := Option.some.inj h
    simp [candidate, candMatrix]
theorem mma tk d a b : Statement (.mma tk d a b) := by
  refine fun _ => ⟨fun f h => ?_, nofun, nofun⟩
  · obtain rfl := Option.some.inj h
    simp [candidate, candMatrix]
theorem mmaNc tk d a b : Statement (.mmaNc tk d a b) := by
  refine fun _ => ⟨fun f h => ?_, nofun, nofun⟩
  · obtain rfl := Option.some.inj h
    simp [candidate, candMatrix]
theorem mmag tk d a b : Statement (.mmag tk d a b) := by
  refine fun _ => ⟨fun f h => ?_, nofun, nofun⟩
  · obtain rfl := Option.some.inj h
    simp [candidate, candMatrix]
theorem mmagNc tk d a b : Statement (.mmagNc tk d a b) := by
  refine fun _ => ⟨fun f h => ?_, nofun, nofun⟩
  · obtain rfl := Option.some.inj h
    simp [candidate, candMatrix]
theorem acz tk d : Statement (.acz tk d) := by
  refine fun _ => ⟨fun f h => ?_, nofun, nofun⟩
  · obtain rfl := Option.some.inj h
    simp [candidate, candMatrix]
theorem tcsum tk d : Statement (.tcsum tk d) := by
  refine fun _ => ⟨fun f h => ?_, nofun, nofun⟩
  · obtain rfl := Option.some.inj h
    simp [candidate, candMatrix]
theorem tcchk tk p a : Statement (.tcchk tk p a) := by
  refine fun _ => ⟨fun f h => ?_, nofun, nofun⟩
  · obtain rfl := Option.some.inj h
    simp [candidate, candMatrix]
theorem tbound tk a : Statement (.tbound tk a) := by
  refine fun _ => ⟨fun f h => ?_, nofun, nofun⟩
  · obtain rfl := Option.some.inj h
    simp [candidate, candMatrix]
theorem acnv tk f d a : Statement (.acnv tk f d a) := by
  refine fun _ => ⟨fun f h => ?_, nofun, nofun⟩
  · obtain rfl := Option.some.inj h
    simp [candidate, candMatrix]
theorem alloc tk d a z : Statement (.alloc tk d a z) := by
  refine fun _ => ⟨fun f h => ?_, nofun, nofun⟩
  · obtain rfl := Option.some.inj h
    simp [candidate, candStream]
theorem sealTile tk a : Statement (.sealTile tk a) := by
  refine fun _ => ⟨fun f h => ?_, nofun, nofun⟩
  · obtain rfl := Option.some.inj h
    simp [candidate, candStream]
theorem tpdrop tk a b : Statement (.tpdrop tk a b) := by
  refine fun _ => ⟨fun f h => ?_, nofun, nofun⟩
  · obtain rfl := Option.some.inj h
    simp [candidate, candStream]
theorem strm tk a b : Statement (.strm tk a b) := by
  refine fun _ => ⟨fun f h => ?_, nofun, nofun⟩
  · obtain rfl := Option.some.inj h
    simp [candidate, candStream]
theorem spbset tk n a : Statement (.spbset tk n a) := by
  refine fun _ => ⟨fun f h => ?_, nofun, nofun⟩
  · obtain rfl := Option.some.inj h
    simp [candidate, candStream]
theorem swait tk n : Statement (.swait tk n) := by
  refine fun _ => ⟨fun f h => ?_, nofun, nofun⟩
  · obtain rfl := Option.some.inj h
    simp [candidate, candStream]
theorem spillq tk q a : Statement (.spillq tk q a) := by
  refine fun _ => ⟨fun f h => ?_, nofun, nofun⟩
  · obtain rfl := Option.some.inj h
    simp [candidate, candStream]
theorem kerf tk : Statement (.kerf tk) := by
  refine fun _ => ⟨fun f h => ?_, nofun, nofun⟩
  · obtain rfl := Option.some.inj h
    simp [candidate, candStream]
theorem cMv d b : Statement (.cMv d b) := by
  refine fun _ => ⟨nofun, fun p h => ?_, nofun⟩
  · obtain rfl := Option.some.inj h
    simp [candidateParcel]
theorem cAdd d b : Statement (.cAdd d b) := by
  refine fun _ => ⟨nofun, fun p h => ?_, nofun⟩
  · obtain rfl := Option.some.inj h
    simp [candidateParcel]
theorem cSub d b : Statement (.cSub d b) := by
  refine fun _ => ⟨nofun, fun p h => ?_, nofun⟩
  · obtain rfl := Option.some.inj h
    simp [candidateParcel]
theorem cAnd d b : Statement (.cAnd d b) := by
  refine fun _ => ⟨nofun, fun p h => ?_, nofun⟩
  · obtain rfl := Option.some.inj h
    simp [candidateParcel]
theorem cOr d b : Statement (.cOr d b) := by
  refine fun _ => ⟨nofun, fun p h => ?_, nofun⟩
  · obtain rfl := Option.some.inj h
    simp [candidateParcel]
theorem cXor d b : Statement (.cXor d b) := by
  refine fun _ => ⟨nofun, fun p h => ?_, nofun⟩
  · obtain rfl := Option.some.inj h
    simp [candidateParcel]
theorem cAddi d i : Statement (.cAddi d i) := by
  refine fun _ => ⟨nofun, fun p h => ?_, nofun⟩
  · obtain rfl := Option.some.inj h
    simp [candidateParcel]
theorem cLi d i : Statement (.cLi d i) := by
  refine fun _ => ⟨nofun, fun p h => ?_, nofun⟩
  · obtain rfl := Option.some.inj h
    simp [candidateParcel]
theorem cSlli d i : Statement (.cSlli d i) := by
  refine fun _ => ⟨nofun, fun p h => ?_, nofun⟩
  · obtain rfl := Option.some.inj h
    simp [candidateParcel]
theorem cSrli d i : Statement (.cSrli d i) := by
  refine fun _ => ⟨nofun, fun p h => ?_, nofun⟩
  · obtain rfl := Option.some.inj h
    simp [candidateParcel]
theorem cSrai d i : Statement (.cSrai d i) := by
  refine fun _ => ⟨nofun, fun p h => ?_, nofun⟩
  · obtain rfl := Option.some.inj h
    simp [candidateParcel]
theorem cAndi d i : Statement (.cAndi d i) := by
  refine fun _ => ⟨nofun, fun p h => ?_, nofun⟩
  · obtain rfl := Option.some.inj h
    simp [candidateParcel]
theorem cLdd d i : Statement (.cLdd d i) := by
  refine fun _ => ⟨nofun, fun p h => ?_, nofun⟩
  · obtain rfl := Option.some.inj h
    simp [candidateParcel]
theorem cStd d i : Statement (.cStd d i) := by
  refine fun _ => ⟨nofun, fun p h => ?_, nofun⟩
  · obtain rfl := Option.some.inj h
    simp [candidateParcel]
theorem cLdw d i : Statement (.cLdw d i) := by
  refine fun _ => ⟨nofun, fun p h => ?_, nofun⟩
  · obtain rfl := Option.some.inj h
    simp [candidateParcel]
theorem cStw d i : Statement (.cStw d i) := by
  refine fun _ => ⟨nofun, fun p h => ?_, nofun⟩
  · obtain rfl := Option.some.inj h
    simp [candidateParcel]
theorem cJ i : Statement (.cJ i) := by
  refine fun _ => ⟨nofun, fun p h => ?_, nofun⟩
  · obtain rfl := Option.some.inj h
    simp [candidateParcel]
theorem cBeqz a i : Statement (.cBeqz a i) := by
  refine fun _ => ⟨nofun, fun p h => ?_, nofun⟩
  · obtain rfl := Option.some.inj h
    simp [candidateParcel]
theorem cBnez a i : Statement (.cBnez a i) := by
  refine fun _ => ⟨nofun, fun p h => ?_, nofun⟩
  · obtain rfl := Option.some.inj h
    simp [candidateParcel]
theorem cJr a : Statement (.cJr a) := by
  refine fun _ => ⟨nofun, fun p h => ?_, nofun⟩
  · obtain rfl := Option.some.inj h
    simp [candidateParcel]
theorem cJalr a : Statement (.cJalr a) := by
  refine fun _ => ⟨nofun, fun p h => ?_, nofun⟩
  · obtain rfl := Option.some.inj h
    simp [candidateParcel]
theorem cNop : Statement .cNop := by
  refine fun _ => ⟨nofun, fun p h => ?_, nofun⟩
  · obtain rfl := Option.some.inj h
    simp [candidateParcel]
theorem cTexit : Statement .cTexit := by
  refine fun _ => ⟨nofun, fun p h => ?_, nofun⟩
  · obtain rfl := Option.some.inj h
    simp [candidateParcel]
theorem cEbreak : Statement .cEbreak := by
  refine fun _ => ⟨nofun, fun p h => ?_, nofun⟩
  · obtain rfl := Option.some.inj h
    simp [candidateParcel]
theorem cSlt d b : Statement (.cSlt d b) := by
  refine fun _ => ⟨nofun, fun p h => ?_, nofun⟩
  · obtain rfl := Option.some.inj h
    simp [candidateParcel]
theorem cSltu d b : Statement (.cSltu d b) := by
  refine fun _ => ⟨nofun, fun p h => ?_, nofun⟩
  · obtain rfl := Option.some.inj h
    simp [candidateParcel]
theorem cMul d b : Statement (.cMul d b) := by
  refine fun _ => ⟨nofun, fun p h => ?_, nofun⟩
  · obtain rfl := Option.some.inj h
    simp [candidateParcel]
theorem route n r0 r1 r2 r3 cnt : Statement (.route n r0 r1 r2 r3 cnt) := by
  refine fun _ => ⟨nofun, nofun, fun x h => ?_⟩
  · obtain rfl := Option.some.inj h
    simp [candidateSwitch]
theorem routec n r0 r1 r2 r3 kind : Statement (.routec n r0 r1 r2 r3 kind) := by
  refine fun _ => ⟨nofun, nofun, fun x h => ?_⟩
  · obtain rfl := Option.some.inj h
    simp [candidateSwitch]
theorem steer inp out0 out1 ctl cnt : Statement (.steer inp out0 out1 ctl cnt) := by
  refine fun _ => ⟨nofun, nofun, fun x h => ?_⟩
  · obtain rfl := Option.some.inj h
    simp [candidateSwitch]
theorem merge in0 in1 out ctl cnt : Statement (.merge in0 in1 out ctl cnt) := by
  refine fun _ => ⟨nofun, nofun, fun x h => ?_⟩
  · obtain rfl := Option.some.inj h
    simp [candidateSwitch]
theorem emit out kind vc sb value : Statement (.emit out kind vc sb value) := by
  refine fun _ => ⟨nofun, nofun, fun x h => ?_⟩
  · obtain rfl := Option.some.inj h
    simp [candidateSwitch]
theorem waittok inp kind sb ld ck target : Statement (.waittok inp kind sb ld ck target) := by
  refine fun _ => ⟨nofun, nofun, fun x h => ?_⟩
  · obtain rfl := Option.some.inj h
    simp [candidateSwitch]
theorem loop ck n : Statement (.loop ck n) := by
  refine fun _ => ⟨nofun, nofun, fun x h => ?_⟩
  · obtain rfl := Option.some.inj h
    simp [candidateSwitch]
theorem bnz ck target : Statement (.bnz ck target) := by
  refine fun _ => ⟨nofun, nofun, fun x h => ?_⟩
  · obtain rfl := Option.some.inj h
    simp [candidateSwitch]
theorem jmp target : Statement (.jmp target) := by
  refine fun _ => ⟨nofun, nofun, fun x h => ?_⟩
  · obtain rfl := Option.some.inj h
    simp [candidateSwitch]
theorem halt : Statement .halt := by
  refine fun _ => ⟨nofun, nofun, fun x h => ?_⟩
  · obtain rfl := Option.some.inj h
    simp [candidateSwitch]
theorem illegal word : Statement (.illegal word) :=fun _ => ⟨nofun, nofun, nofun⟩
theorem fetchPage addr : Statement (.fetchPage addr) :=fun _ => ⟨nofun, nofun, nofun⟩
theorem sfdrop h : Statement (.sfdrop h) :=fun _ => ⟨nofun, nofun, nofun⟩
theorem sfrpl h : Statement (.sfrpl h) :=fun _ => ⟨nofun, nofun, nofun⟩
theorem streamAbort h slot : Statement (.streamAbort h slot) :=fun _ => ⟨nofun, nofun, nofun⟩
theorem streamResume h slot : Statement (.streamResume h slot) :=fun _ => ⟨nofun, nofun, nofun⟩
theorem tshpWrite cell n v : Statement (.tshpWrite cell n v) :=fun _ => ⟨nofun, nofun, nofun⟩
theorem switchFlitPass cell port : Statement (.switchFlitPass cell port) :=fun _ => ⟨nofun, nofun, nofun⟩
theorem seamRetryFailure cell port : Statement (.seamRetryFailure cell port) :=fun _ => ⟨nofun, nofun, nofun⟩
theorem loadDataReturn h idx : Statement (.loadDataReturn h idx) :=fun _ => ⟨nofun, nofun, nofun⟩
theorem storeTranslationDone h idx : Statement (.storeTranslationDone h idx) :=fun _ => ⟨nofun, nofun, nofun⟩
theorem streamElement h slot : Statement (.streamElement h slot) :=fun _ => ⟨nofun, nofun, nofun⟩
theorem streamComplete h slot : Statement (.streamComplete h slot) :=fun _ => ⟨nofun, nofun, nofun⟩
theorem ringEos cell ring : Statement (.ringEos cell ring) :=fun _ => ⟨nofun, nofun, nofun⟩
theorem allocServe cell part : Statement (.allocServe cell part) :=fun _ => ⟨nofun, nofun, nofun⟩
theorem readAdmission h slot : Statement (.readAdmission h slot) :=fun _ => ⟨nofun, nofun, nofun⟩
theorem compressTile cell vc : Statement (.compressTile cell vc) :=fun _ => ⟨nofun, nofun, nofun⟩
theorem expandTile cell vc : Statement (.expandTile cell vc) :=fun _ => ⟨nofun, nofun, nofun⟩
theorem convert cell vc : Statement (.convert cell vc) :=fun _ => ⟨nofun, nofun, nofun⟩
theorem tldDelivery cell t : Statement (.tldDelivery cell t) :=fun _ => ⟨nofun, nofun, nofun⟩
theorem nodePass cell : Statement (.nodePass cell) :=fun _ => ⟨nofun, nofun, nofun⟩
theorem nodeRow cell : Statement (.nodeRow cell) :=fun _ => ⟨nofun, nofun, nofun⟩
theorem read n : Statement (.read n) :=fun _ => ⟨nofun, nofun, nofun⟩
theorem write n : Statement (.write n) :=fun _ => ⟨nofun, nofun, nofun⟩
theorem atomic n : Statement (.atomic n) :=fun _ => ⟨nofun, nofun, nofun⟩
theorem readReply n : Statement (.readReply n) :=fun _ => ⟨nofun, nofun, nofun⟩
theorem writeAcknowledgement n : Statement (.writeAcknowledgement n) :=fun _ => ⟨nofun, nofun, nofun⟩
theorem taskRecord n : Statement (.taskRecord n) :=fun _ => ⟨nofun, nofun, nofun⟩
theorem activeMessage n : Statement (.activeMessage n) :=fun _ => ⟨nofun, nofun, nofun⟩
theorem inboxAcknowledgement n : Statement (.inboxAcknowledgement n) :=fun _ => ⟨nofun, nofun, nofun⟩
theorem poolRequest n : Statement (.poolRequest n) :=fun _ => ⟨nofun, nofun, nofun⟩
theorem poolReply n : Statement (.poolReply n) :=fun _ => ⟨nofun, nofun, nofun⟩
theorem walkRequest n : Statement (.walkRequest n) :=fun _ => ⟨nofun, nofun, nofun⟩
theorem walkReply n : Statement (.walkReply n) :=fun _ => ⟨nofun, nofun, nofun⟩
theorem interrupt n : Statement (.interrupt n) :=fun _ => ⟨nofun, nofun, nofun⟩
theorem purge n : Statement (.purge n) :=fun _ => ⟨nofun, nofun, nofun⟩
theorem purgeAcknowledgement n : Statement (.purgeAcknowledgement n) :=fun _ => ⟨nofun, nofun, nofun⟩
theorem copy cell : Statement (.copy cell) :=fun _ => ⟨nofun, nofun, nofun⟩
theorem copy2d cell : Statement (.copy2d cell) :=fun _ => ⟨nofun, nofun, nofun⟩
theorem fill cell : Statement (.fill cell) :=fun _ => ⟨nofun, nofun, nofun⟩
theorem tcopy cell : Statement (.tcopy cell) :=fun _ => ⟨nofun, nofun, nofun⟩
theorem reduce bay : Statement (.reduce bay) :=fun _ => ⟨nofun, nofun, nofun⟩
theorem bcast bay : Statement (.bcast bay) :=fun _ => ⟨nofun, nofun, nofun⟩
theorem dispatch bay : Statement (.dispatch bay) :=fun _ => ⟨nofun, nofun, nofun⟩
theorem ageing bay : Statement (.ageing bay) :=fun _ => ⟨nofun, nofun, nofun⟩
theorem waveOpen r : Statement (.waveOpen r) :=fun _ => ⟨nofun, nofun, nofun⟩
theorem kiCut r : Statement (.kiCut r) :=fun _ => ⟨nofun, nofun, nofun⟩
theorem releaseCommitTimeout r : Statement (.releaseCommitTimeout r) :=fun _ => ⟨nofun, nofun, nofun⟩
theorem kerfPart r party : Statement (.kerfPart r party) :=fun _ => ⟨nofun, nofun, nofun⟩
theorem waveComplete r : Statement (.waveComplete r) :=fun _ => ⟨nofun, nofun, nofun⟩
theorem rollbackDrainTimeout r : Statement (.rollbackDrainTimeout r) :=fun _ => ⟨nofun, nofun, nofun⟩
theorem rollbackRestore r : Statement (.rollbackRestore r) :=fun _ => ⟨nofun, nofun, nofun⟩
theorem cfgParity cell u : Statement (.cfgParity cell u) :=fun _ => ⟨nofun, nofun, nofun⟩
theorem configLoadComplete r : Statement (.configLoadComplete r) :=fun _ => ⟨nofun, nofun, nofun⟩
theorem shadowFetchDone cell : Statement (.shadowFetchDone cell) :=fun _ => ⟨nofun, nofun, nofun⟩
theorem cellSwap cell : Statement (.cellSwap cell) :=fun _ => ⟨nofun, nofun, nofun⟩
theorem drainComplete r : Statement (.drainComplete r) :=fun _ => ⟨nofun, nofun, nofun⟩
theorem preemptTimeout r : Statement (.preemptTimeout r) :=fun _ => ⟨nofun, nofun, nofun⟩
theorem stallWatchdog r : Statement (.stallWatchdog r) :=fun _ => ⟨nofun, nofun, nofun⟩
theorem hang r : Statement (.hang r) :=fun _ => ⟨nofun, nofun, nofun⟩
theorem replyTimeout r : Statement (.replyTimeout r) :=fun _ => ⟨nofun, nofun, nofun⟩
theorem inboxWrite fn slot rec : Statement (.inboxWrite fn slot rec) :=fun _ => ⟨nofun, nofun, nofun⟩
theorem openRegion fn seq : Statement (.openRegion fn seq) :=fun _ => ⟨nofun, nofun, nofun⟩
theorem map fn seq : Statement (.map fn seq) :=fun _ => ⟨nofun, nofun, nofun⟩
theorem unmap fn seq : Statement (.unmap fn seq) :=fun _ => ⟨nofun, nofun, nofun⟩
theorem loadcfg fn seq : Statement (.loadcfg fn seq) :=fun _ => ⟨nofun, nofun, nofun⟩
theorem spawn fn seq : Statement (.spawn fn seq) :=fun _ => ⟨nofun, nofun, nofun⟩
theorem signal fn seq : Statement (.signal fn seq) :=fun _ => ⟨nofun, nofun, nofun⟩
theorem preempt fn seq : Statement (.preempt fn seq) :=fun _ => ⟨nofun, nofun, nofun⟩
theorem resume fn seq : Statement (.resume fn seq) :=fun _ => ⟨nofun, nofun, nofun⟩
theorem kill fn seq : Statement (.kill fn seq) :=fun _ => ⟨nofun, nofun, nofun⟩
theorem query fn seq : Statement (.query fn seq) :=fun _ => ⟨nofun, nofun, nofun⟩
theorem attest fn seq : Statement (.attest fn seq) :=fun _ => ⟨nofun, nofun, nofun⟩
theorem fwupd fn seq : Statement (.fwupd fn seq) :=fun _ => ⟨nofun, nofun, nofun⟩
theorem coldReset : Statement .coldReset :=fun _ => ⟨nofun, nofun, nofun⟩
theorem pfFunctionLevelReset : Statement .pfFunctionLevelReset :=fun _ => ⟨nofun, nofun, nofun⟩
theorem vfReset fn : Statement (.vfReset fn) :=fun _ => ⟨nofun, nofun, nofun⟩
theorem thermalTrip : Statement .thermalTrip :=fun _ => ⟨nofun, nofun, nofun⟩
theorem throttle bays on : Statement (.throttle bays on) :=fun _ => ⟨nofun, nofun, nofun⟩
theorem plimitWrite v : Statement (.plimitWrite v) :=fun _ => ⟨nofun, nofun, nofun⟩
theorem vfrectWrite n v : Statement (.vfrectWrite n v) :=fun _ => ⟨nofun, nofun, nofun⟩
theorem mgmtRegisterWrite fn off v : Statement (.mgmtRegisterWrite fn off v) :=fun _ => ⟨nofun, nofun, nofun⟩
theorem scarfLinkDown n : Statement (.scarfLinkDown n) :=fun _ => ⟨nofun, nofun, nofun⟩
theorem scarfDeliveryFailure n : Statement (.scarfDeliveryFailure n) :=fun _ => ⟨nofun, nofun, nofun⟩
theorem debuggerHalt r on : Statement (.debuggerHalt r on) :=fun _ => ⟨nofun, nofun, nofun⟩

end Encoding

end Sys2Proof.Laws
end

