-- ==== Sys2Proof/Laws/State.lean ====
section
/-! SUPPORT. One lemma per field per update of the state, of a hart and of a cell: what the named updates leave as it was, and
what they write. -/

namespace Sys2Proof.Machine

/-! Updates of one entry of a map of the state. -/

@[simp] theorem State.setHart_clk (s : State) (h : Nat) (x : Hart) : (s.setHart h x).clk = s.clk := rfl
@[simp] theorem State.setHart_cur (s : State) (h : Nat) (x : Hart) : (s.setHart h x).cur = s.cur := rfl
@[simp] theorem State.setHart_resets (s : State) (h : Nat) (x : Hart) : (s.setHart h x).resets = s.resets := rfl
@[simp] theorem State.setHart_agenda (s : State) (h : Nat) (x : Hart) : (s.setHart h x).agenda = s.agenda := rfl
@[simp] theorem State.setHart_fresh (s : State) (h : Nat) (x : Hart) : (s.setHart h x).fresh = s.fresh := rfl
@[simp] theorem State.setHart_mem (s : State) (h : Nat) (x : Hart) : (s.setHart h x).mem = s.mem := rfl
@[simp] theorem State.setHart_hostMem (s : State) (h : Nat) (x : Hart) : (s.setHart h x).hostMem = s.hostMem := rfl
@[simp] theorem State.setHart_net (s : State) (h : Nat) (x : Hart) : (s.setHart h x).net = s.net := rfl
@[simp] theorem State.setHart_requests (s : State) (h : Nat) (x : Hart) : (s.setHart h x).requests = s.requests := rfl
@[simp] theorem State.setHart_nextXid (s : State) (h : Nat) (x : Hart) : (s.setHart h x).nextXid = s.nextXid := rfl
@[simp] theorem State.setHart_cells (s : State) (h : Nat) (x : Hart) : (s.setHart h x).cells = s.cells := rfl
@[simp] theorem State.setHart_bays (s : State) (h : Nat) (x : Hart) : (s.setHart h x).bays = s.bays := rfl
@[simp] theorem State.setHart_regions (s : State) (h : Nat) (x : Hart) : (s.setHart h x).regions = s.regions := rfl
@[simp] theorem State.setHart_ctxs (s : State) (h : Nat) (x : Hart) : (s.setHart h x).ctxs = s.ctxs := rfl
@[simp] theorem State.setHart_pages (s : State) (h : Nat) (x : Hart) : (s.setHart h x).pages = s.pages := rfl
@[simp] theorem State.setHart_fns (s : State) (h : Nat) (x : Hart) : (s.setHart h x).fns = s.fns := rfl
@[simp] theorem State.setHart_pkg (s : State) (h : Nat) (x : Hart) : (s.setHart h x).pkg = s.pkg := rfl
@[simp] theorem State.setHart_phase (s : State) (h : Nat) (x : Hart) : (s.setHart h x).phase = s.phase := rfl
@[simp] theorem State.setHart_walkers (s : State) (h : Nat) (x : Hart) : (s.setHart h x).walkers = s.walkers := rfl

@[simp] theorem State.setCell_clk (s : State) (c : Nat) (x : Cell) : (s.setCell c x).clk = s.clk := rfl
@[simp] theorem State.setCell_cur (s : State) (c : Nat) (x : Cell) : (s.setCell c x).cur = s.cur := rfl
@[simp] theorem State.setCell_resets (s : State) (c : Nat) (x : Cell) : (s.setCell c x).resets = s.resets := rfl
@[simp] theorem State.setCell_agenda (s : State) (c : Nat) (x : Cell) : (s.setCell c x).agenda = s.agenda := rfl
@[simp] theorem State.setCell_fresh (s : State) (c : Nat) (x : Cell) : (s.setCell c x).fresh = s.fresh := rfl
@[simp] theorem State.setCell_mem (s : State) (c : Nat) (x : Cell) : (s.setCell c x).mem = s.mem := rfl
@[simp] theorem State.setCell_hostMem (s : State) (c : Nat) (x : Cell) : (s.setCell c x).hostMem = s.hostMem := rfl
@[simp] theorem State.setCell_net (s : State) (c : Nat) (x : Cell) : (s.setCell c x).net = s.net := rfl
@[simp] theorem State.setCell_requests (s : State) (c : Nat) (x : Cell) : (s.setCell c x).requests = s.requests := rfl
@[simp] theorem State.setCell_nextXid (s : State) (c : Nat) (x : Cell) : (s.setCell c x).nextXid = s.nextXid := rfl
@[simp] theorem State.setCell_harts (s : State) (c : Nat) (x : Cell) : (s.setCell c x).harts = s.harts := rfl
@[simp] theorem State.setCell_bays (s : State) (c : Nat) (x : Cell) : (s.setCell c x).bays = s.bays := rfl
@[simp] theorem State.setCell_regions (s : State) (c : Nat) (x : Cell) : (s.setCell c x).regions = s.regions := rfl
@[simp] theorem State.setCell_ctxs (s : State) (c : Nat) (x : Cell) : (s.setCell c x).ctxs = s.ctxs := rfl
@[simp] theorem State.setCell_pages (s : State) (c : Nat) (x : Cell) : (s.setCell c x).pages = s.pages := rfl
@[simp] theorem State.setCell_fns (s : State) (c : Nat) (x : Cell) : (s.setCell c x).fns = s.fns := rfl
@[simp] theorem State.setCell_pkg (s : State) (c : Nat) (x : Cell) : (s.setCell c x).pkg = s.pkg := rfl
@[simp] theorem State.setCell_phase (s : State) (c : Nat) (x : Cell) : (s.setCell c x).phase = s.phase := rfl
@[simp] theorem State.setCell_walkers (s : State) (c : Nat) (x : Cell) : (s.setCell c x).walkers = s.walkers := rfl

@[simp] theorem State.modHart_clk (s : State) (f : Hart → Hart) : (s.modHart f).clk = s.clk := rfl
@[simp] theorem State.modHart_cur (s : State) (f : Hart → Hart) : (s.modHart f).cur = s.cur := rfl
@[simp] theorem State.modHart_resets (s : State) (f : Hart → Hart) : (s.modHart f).resets = s.resets := rfl
@[simp] theorem State.modHart_agenda (s : State) (f : Hart → Hart) : (s.modHart f).agenda = s.agenda := rfl
@[simp] theorem State.modHart_fresh (s : State) (f : Hart → Hart) : (s.modHart f).fresh = s.fresh := rfl
@[simp] theorem State.modHart_mem (s : State) (f : Hart → Hart) : (s.modHart f).mem = s.mem := rfl
@[simp] theorem State.modHart_hostMem (s : State) (f : Hart → Hart) : (s.modHart f).hostMem = s.hostMem := rfl
@[simp] theorem State.modHart_net (s : State) (f : Hart → Hart) : (s.modHart f).net = s.net := rfl
@[simp] theorem State.modHart_requests (s : State) (f : Hart → Hart) : (s.modHart f).requests = s.requests := rfl
@[simp] theorem State.modHart_nextXid (s : State) (f : Hart → Hart) : (s.modHart f).nextXid = s.nextXid := rfl
@[simp] theorem State.modHart_cells (s : State) (f : Hart → Hart) : (s.modHart f).cells = s.cells := rfl
@[simp] theorem State.modHart_bays (s : State) (f : Hart → Hart) : (s.modHart f).bays = s.bays := rfl
@[simp] theorem State.modHart_regions (s : State) (f : Hart → Hart) : (s.modHart f).regions = s.regions := rfl
@[simp] theorem State.modHart_ctxs (s : State) (f : Hart → Hart) : (s.modHart f).ctxs = s.ctxs := rfl
@[simp] theorem State.modHart_pages (s : State) (f : Hart → Hart) : (s.modHart f).pages = s.pages := rfl
@[simp] theorem State.modHart_fns (s : State) (f : Hart → Hart) : (s.modHart f).fns = s.fns := rfl
@[simp] theorem State.modHart_pkg (s : State) (f : Hart → Hart) : (s.modHart f).pkg = s.pkg := rfl
@[simp] theorem State.modHart_phase (s : State) (f : Hart → Hart) : (s.modHart f).phase = s.phase := rfl
@[simp] theorem State.modHart_walkers (s : State) (f : Hart → Hart) : (s.modHart f).walkers = s.walkers := rfl

@[simp] theorem State.modCell_clk (s : State) (c : Nat) (f : Cell → Cell) : (s.modCell c f).clk = s.clk := rfl
@[simp] theorem State.modCell_cur (s : State) (c : Nat) (f : Cell → Cell) : (s.modCell c f).cur = s.cur := rfl
@[simp] theorem State.modCell_resets (s : State) (c : Nat) (f : Cell → Cell) : (s.modCell c f).resets = s.resets := rfl
@[simp] theorem State.modCell_agenda (s : State) (c : Nat) (f : Cell → Cell) : (s.modCell c f).agenda = s.agenda := rfl
@[simp] theorem State.modCell_fresh (s : State) (c : Nat) (f : Cell → Cell) : (s.modCell c f).fresh = s.fresh := rfl
@[simp] theorem State.modCell_mem (s : State) (c : Nat) (f : Cell → Cell) : (s.modCell c f).mem = s.mem := rfl
@[simp] theorem State.modCell_hostMem (s : State) (c : Nat) (f : Cell → Cell) : (s.modCell c f).hostMem = s.hostMem := rfl
@[simp] theorem State.modCell_net (s : State) (c : Nat) (f : Cell → Cell) : (s.modCell c f).net = s.net := rfl
@[simp] theorem State.modCell_requests (s : State) (c : Nat) (f : Cell → Cell) : (s.modCell c f).requests = s.requests := rfl
@[simp] theorem State.modCell_nextXid (s : State) (c : Nat) (f : Cell → Cell) : (s.modCell c f).nextXid = s.nextXid := rfl
@[simp] theorem State.modCell_harts (s : State) (c : Nat) (f : Cell → Cell) : (s.modCell c f).harts = s.harts := rfl
@[simp] theorem State.modCell_bays (s : State) (c : Nat) (f : Cell → Cell) : (s.modCell c f).bays = s.bays := rfl
@[simp] theorem State.modCell_regions (s : State) (c : Nat) (f : Cell → Cell) : (s.modCell c f).regions = s.regions := rfl
@[simp] theorem State.modCell_ctxs (s : State) (c : Nat) (f : Cell → Cell) : (s.modCell c f).ctxs = s.ctxs := rfl
@[simp] theorem State.modCell_pages (s : State) (c : Nat) (f : Cell → Cell) : (s.modCell c f).pages = s.pages := rfl
@[simp] theorem State.modCell_fns (s : State) (c : Nat) (f : Cell → Cell) : (s.modCell c f).fns = s.fns := rfl
@[simp] theorem State.modCell_pkg (s : State) (c : Nat) (f : Cell → Cell) : (s.modCell c f).pkg = s.pkg := rfl
@[simp] theorem State.modCell_phase (s : State) (c : Nat) (f : Cell → Cell) : (s.modCell c f).phase = s.phase := rfl
@[simp] theorem State.modCell_walkers (s : State) (c : Nat) (f : Cell → Cell) : (s.modCell c f).walkers = s.walkers := rfl

@[simp] theorem State.dropLines_clk (s : State) (c : Nat) : (s.dropLines c).clk = s.clk := rfl
@[simp] theorem State.dropLines_cur (s : State) (c : Nat) : (s.dropLines c).cur = s.cur := rfl
@[simp] theorem State.dropLines_resets (s : State) (c : Nat) : (s.dropLines c).resets = s.resets := rfl
@[simp] theorem State.dropLines_agenda (s : State) (c : Nat) : (s.dropLines c).agenda = s.agenda := rfl
@[simp] theorem State.dropLines_fresh (s : State) (c : Nat) : (s.dropLines c).fresh = s.fresh := rfl
@[simp] theorem State.dropLines_mem (s : State) (c : Nat) : (s.dropLines c).mem = s.mem := rfl
@[simp] theorem State.dropLines_hostMem (s : State) (c : Nat) : (s.dropLines c).hostMem = s.hostMem := rfl
@[simp] theorem State.dropLines_net (s : State) (c : Nat) : (s.dropLines c).net = s.net := rfl
@[simp] theorem State.dropLines_requests (s : State) (c : Nat) : (s.dropLines c).requests = s.requests := rfl
@[simp] theorem State.dropLines_nextXid (s : State) (c : Nat) : (s.dropLines c).nextXid = s.nextXid := rfl
@[simp] theorem State.dropLines_harts (s : State) (c : Nat) : (s.dropLines c).harts = s.harts := rfl
@[simp] theorem State.dropLines_bays (s : State) (c : Nat) : (s.dropLines c).bays = s.bays := rfl
@[simp] theorem State.dropLines_regions (s : State) (c : Nat) : (s.dropLines c).regions = s.regions := rfl
@[simp] theorem State.dropLines_ctxs (s : State) (c : Nat) : (s.dropLines c).ctxs = s.ctxs := rfl
@[simp] theorem State.dropLines_pages (s : State) (c : Nat) : (s.dropLines c).pages = s.pages := rfl
@[simp] theorem State.dropLines_fns (s : State) (c : Nat) : (s.dropLines c).fns = s.fns := rfl
@[simp] theorem State.dropLines_pkg (s : State) (c : Nat) : (s.dropLines c).pkg = s.pkg := rfl
@[simp] theorem State.dropLines_phase (s : State) (c : Nat) : (s.dropLines c).phase = s.phase := rfl
@[simp] theorem State.dropLines_walkers (s : State) (c : Nat) : (s.dropLines c).walkers = s.walkers := rfl

@[simp] theorem State.modBay_clk (s : State) (b : Nat) (f : Bay → Bay) : (s.modBay b f).clk = s.clk := rfl
@[simp] theorem State.modBay_cur (s : State) (b : Nat) (f : Bay → Bay) : (s.modBay b f).cur = s.cur := rfl
@[simp] theorem State.modBay_resets (s : State) (b : Nat) (f : Bay → Bay) : (s.modBay b f).resets = s.resets := rfl
@[simp] theorem State.modBay_agenda (s : State) (b : Nat) (f : Bay → Bay) : (s.modBay b f).agenda = s.agenda := rfl
@[simp] theorem State.modBay_fresh (s : State) (b : Nat) (f : Bay → Bay) : (s.modBay b f).fresh = s.fresh := rfl
@[simp] theorem State.modBay_mem (s : State) (b : Nat) (f : Bay → Bay) : (s.modBay b f).mem = s.mem := rfl
@[simp] theorem State.modBay_hostMem (s : State) (b : Nat) (f : Bay → Bay) : (s.modBay b f).hostMem = s.hostMem := rfl
@[simp] theorem State.modBay_net (s : State) (b : Nat) (f : Bay → Bay) : (s.modBay b f).net = s.net := rfl
@[simp] theorem State.modBay_requests (s : State) (b : Nat) (f : Bay → Bay) : (s.modBay b f).requests = s.requests := rfl
@[simp] theorem State.modBay_nextXid (s : State) (b : Nat) (f : Bay → Bay) : (s.modBay b f).nextXid = s.nextXid := rfl
@[simp] theorem State.modBay_harts (s : State) (b : Nat) (f : Bay → Bay) : (s.modBay b f).harts = s.harts := rfl
@[simp] theorem State.modBay_cells (s : State) (b : Nat) (f : Bay → Bay) : (s.modBay b f).cells = s.cells := rfl
@[simp] theorem State.modBay_regions (s : State) (b : Nat) (f : Bay → Bay) : (s.modBay b f).regions = s.regions := rfl
@[simp] theorem State.modBay_ctxs (s : State) (b : Nat) (f : Bay → Bay) : (s.modBay b f).ctxs = s.ctxs := rfl
@[simp] theorem State.modBay_pages (s : State) (b : Nat) (f : Bay → Bay) : (s.modBay b f).pages = s.pages := rfl
@[simp] theorem State.modBay_fns (s : State) (b : Nat) (f : Bay → Bay) : (s.modBay b f).fns = s.fns := rfl
@[simp] theorem State.modBay_pkg (s : State) (b : Nat) (f : Bay → Bay) : (s.modBay b f).pkg = s.pkg := rfl
@[simp] theorem State.modBay_phase (s : State) (b : Nat) (f : Bay → Bay) : (s.modBay b f).phase = s.phase := rfl
@[simp] theorem State.modBay_walkers (s : State) (b : Nat) (f : Bay → Bay) : (s.modBay b f).walkers = s.walkers := rfl

@[simp] theorem State.modFn_clk (s : State) (n : Nat) (f : Fn → Fn) : (s.modFn n f).clk = s.clk := rfl
@[simp] theorem State.modFn_cur (s : State) (n : Nat) (f : Fn → Fn) : (s.modFn n f).cur = s.cur := rfl
@[simp] theorem State.modFn_resets (s : State) (n : Nat) (f : Fn → Fn) : (s.modFn n f).resets = s.resets := rfl
@[simp] theorem State.modFn_agenda (s : State) (n : Nat) (f : Fn → Fn) : (s.modFn n f).agenda = s.agenda := rfl
@[simp] theorem State.modFn_fresh (s : State) (n : Nat) (f : Fn → Fn) : (s.modFn n f).fresh = s.fresh := rfl
@[simp] theorem State.modFn_mem (s : State) (n : Nat) (f : Fn → Fn) : (s.modFn n f).mem = s.mem := rfl
@[simp] theorem State.modFn_hostMem (s : State) (n : Nat) (f : Fn → Fn) : (s.modFn n f).hostMem = s.hostMem := rfl
@[simp] theorem State.modFn_net (s : State) (n : Nat) (f : Fn → Fn) : (s.modFn n f).net = s.net := rfl
@[simp] theorem State.modFn_requests (s : State) (n : Nat) (f : Fn → Fn) : (s.modFn n f).requests = s.requests := rfl
@[simp] theorem State.modFn_nextXid (s : State) (n : Nat) (f : Fn → Fn) : (s.modFn n f).nextXid = s.nextXid := rfl
@[simp] theorem State.modFn_harts (s : State) (n : Nat) (f : Fn → Fn) : (s.modFn n f).harts = s.harts := rfl
@[simp] theorem State.modFn_cells (s : State) (n : Nat) (f : Fn → Fn) : (s.modFn n f).cells = s.cells := rfl
@[simp] theorem State.modFn_bays (s : State) (n : Nat) (f : Fn → Fn) : (s.modFn n f).bays = s.bays := rfl
@[simp] theorem State.modFn_regions (s : State) (n : Nat) (f : Fn → Fn) : (s.modFn n f).regions = s.regions := rfl
@[simp] theorem State.modFn_ctxs (s : State) (n : Nat) (f : Fn → Fn) : (s.modFn n f).ctxs = s.ctxs := rfl
@[simp] theorem State.modFn_pages (s : State) (n : Nat) (f : Fn → Fn) : (s.modFn n f).pages = s.pages := rfl
@[simp] theorem State.modFn_pkg (s : State) (n : Nat) (f : Fn → Fn) : (s.modFn n f).pkg = s.pkg := rfl
@[simp] theorem State.modFn_phase (s : State) (n : Nat) (f : Fn → Fn) : (s.modFn n f).phase = s.phase := rfl
@[simp] theorem State.modFn_walkers (s : State) (n : Nat) (f : Fn → Fn) : (s.modFn n f).walkers = s.walkers := rfl

@[simp] theorem State.modRegion_clk (s : State) (r : Nat) (f : Region → Region) : (s.modRegion r f).clk = s.clk := by
  unfold State.modRegion; split <;> rfl
@[simp] theorem State.modRegion_cur (s : State) (r : Nat) (f : Region → Region) : (s.modRegion r f).cur = s.cur := by
  unfold State.modRegion; split <;> rfl
@[simp] theorem State.modRegion_resets (s : State) (r : Nat) (f : Region → Region) : (s.modRegion r f).resets = s.resets := by
  unfold State.modRegion; split <;> rfl
@[simp] theorem State.modRegion_agenda (s : State) (r : Nat) (f : Region → Region) : (s.modRegion r f).agenda = s.agenda := by
  unfold State.modRegion; split <;> rfl
@[simp] theorem State.modRegion_fresh (s : State) (r : Nat) (f : Region → Region) : (s.modRegion r f).fresh = s.fresh := by
  unfold State.modRegion; split <;> rfl
@[simp] theorem State.modRegion_mem (s : State) (r : Nat) (f : Region → Region) : (s.modRegion r f).mem = s.mem := by
  unfold State.modRegion; split <;> rfl
@[simp] theorem State.modRegion_hostMem (s : State) (r : Nat) (f : Region → Region) : (s.modRegion r f).hostMem = s.hostMem := by
  unfold State.modRegion; split <;> rfl
@[simp] theorem State.modRegion_net (s : State) (r : Nat) (f : Region → Region) : (s.modRegion r f).net = s.net := by
  unfold State.modRegion; split <;> rfl
@[simp] theorem State.modRegion_requests (s : State) (r : Nat) (f : Region → Region) : (s.modRegion r f).requests = s.requests := by
  unfold State.modRegion; split <;> rfl
@[simp] theorem State.modRegion_nextXid (s : State) (r : Nat) (f : Region → Region) : (s.modRegion r f).nextXid = s.nextXid := by
  unfold State.modRegion; split <;> rfl
@[simp] theorem State.modRegion_harts (s : State) (r : Nat) (f : Region → Region) : (s.modRegion r f).harts = s.harts := by
  unfold State.modRegion; split <;> rfl
@[simp] theorem State.modRegion_cells (s : State) (r : Nat) (f : Region → Region) : (s.modRegion r f).cells = s.cells := by
  unfold State.modRegion; split <;> rfl
@[simp] theorem State.modRegion_bays (s : State) (r : Nat) (f : Region → Region) : (s.modRegion r f).bays = s.bays := by
  unfold State.modRegion; split <;> rfl
@[simp] theorem State.modRegion_ctxs (s : State) (r : Nat) (f : Region → Region) : (s.modRegion r f).ctxs = s.ctxs := by
  unfold State.modRegion; split <;> rfl
@[simp] theorem State.modRegion_pages (s : State) (r : Nat) (f : Region → Region) : (s.modRegion r f).pages = s.pages := by
  unfold State.modRegion; split <;> rfl
@[simp] theorem State.modRegion_fns (s : State) (r : Nat) (f : Region → Region) : (s.modRegion r f).fns = s.fns := by
  unfold State.modRegion; split <;> rfl
@[simp] theorem State.modRegion_pkg (s : State) (r : Nat) (f : Region → Region) : (s.modRegion r f).pkg = s.pkg := by
  unfold State.modRegion; split <;> rfl
@[simp] theorem State.modRegion_phase (s : State) (r : Nat) (f : Region → Region) : (s.modRegion r f).phase = s.phase := by
  unfold State.modRegion; split <;> rfl
@[simp] theorem State.modRegion_walkers (s : State) (r : Nat) (f : Region → Region) : (s.modRegion r f).walkers = s.walkers := by
  unfold State.modRegion; split <;> rfl

@[simp] theorem State.modCtx_clk (s : State) (c : Nat) (f : Context → Context) : (s.modCtx c f).clk = s.clk := by
  unfold State.modCtx; split <;> rfl
@[simp] theorem State.modCtx_cur (s : State) (c : Nat) (f : Context → Context) : (s.modCtx c f).cur = s.cur := by
  unfold State.modCtx; split <;> rfl
@[simp] theorem State.modCtx_resets (s : State) (c : Nat) (f : Context → Context) : (s.modCtx c f).resets = s.resets := by
  unfold State.modCtx; split <;> rfl
@[simp] theorem State.modCtx_agenda (s : State) (c : Nat) (f : Context → Context) : (s.modCtx c f).agenda = s.agenda := by
  unfold State.modCtx; split <;> rfl
@[simp] theorem State.modCtx_fresh (s : State) (c : Nat) (f : Context → Context) : (s.modCtx c f).fresh = s.fresh := by
  unfold State.modCtx; split <;> rfl
@[simp] theorem State.modCtx_mem (s : State) (c : Nat) (f : Context → Context) : (s.modCtx c f).mem = s.mem := by
  unfold State.modCtx; split <;> rfl
@[simp] theorem State.modCtx_hostMem (s : State) (c : Nat) (f : Context → Context) : (s.modCtx c f).hostMem = s.hostMem := by
  unfold State.modCtx; split <;> rfl
@[simp] theorem State.modCtx_net (s : State) (c : Nat) (f : Context → Context) : (s.modCtx c f).net = s.net := by
  unfold State.modCtx; split <;> rfl
@[simp] theorem State.modCtx_requests (s : State) (c : Nat) (f : Context → Context) : (s.modCtx c f).requests = s.requests := by
  unfold State.modCtx; split <;> rfl
@[simp] theorem State.modCtx_nextXid (s : State) (c : Nat) (f : Context → Context) : (s.modCtx c f).nextXid = s.nextXid := by
  unfold State.modCtx; split <;> rfl
@[simp] theorem State.modCtx_harts (s : State) (c : Nat) (f : Context → Context) : (s.modCtx c f).harts = s.harts := by
  unfold State.modCtx; split <;> rfl
@[simp] theorem State.modCtx_cells (s : State) (c : Nat) (f : Context → Context) : (s.modCtx c f).cells = s.cells := by
  unfold State.modCtx; split <;> rfl
@[simp] theorem State.modCtx_bays (s : State) (c : Nat) (f : Context → Context) : (s.modCtx c f).bays = s.bays := by
  unfold State.modCtx; split <;> rfl
@[simp] theorem State.modCtx_regions (s : State) (c : Nat) (f : Context → Context) : (s.modCtx c f).regions = s.regions := by
  unfold State.modCtx; split <;> rfl
@[simp] theorem State.modCtx_pages (s : State) (c : Nat) (f : Context → Context) : (s.modCtx c f).pages = s.pages := by
  unfold State.modCtx; split <;> rfl
@[simp] theorem State.modCtx_fns (s : State) (c : Nat) (f : Context → Context) : (s.modCtx c f).fns = s.fns := by
  unfold State.modCtx; split <;> rfl
@[simp] theorem State.modCtx_pkg (s : State) (c : Nat) (f : Context → Context) : (s.modCtx c f).pkg = s.pkg := by
  unfold State.modCtx; split <;> rfl
@[simp] theorem State.modCtx_phase (s : State) (c : Nat) (f : Context → Context) : (s.modCtx c f).phase = s.phase := by
  unfold State.modCtx; split <;> rfl
@[simp] theorem State.modCtx_walkers (s : State) (c : Nat) (f : Context → Context) : (s.modCtx c f).walkers = s.walkers := by
  unfold State.modCtx; split <;> rfl

@[simp] theorem State.fire_clk (s : State) (r : Nat) : (s.fire r).clk = s.clk := by simp [State.fire]
@[simp] theorem State.fire_cur (s : State) (r : Nat) : (s.fire r).cur = s.cur := by simp [State.fire]
@[simp] theorem State.fire_resets (s : State) (r : Nat) : (s.fire r).resets = s.resets := by simp [State.fire]
@[simp] theorem State.fire_agenda (s : State) (r : Nat) : (s.fire r).agenda = s.agenda := by simp [State.fire]
@[simp] theorem State.fire_fresh (s : State) (r : Nat) : (s.fire r).fresh = s.fresh := by simp [State.fire]
@[simp] theorem State.fire_mem (s : State) (r : Nat) : (s.fire r).mem = s.mem := by simp [State.fire]
@[simp] theorem State.fire_hostMem (s : State) (r : Nat) : (s.fire r).hostMem = s.hostMem := by simp [State.fire]
@[simp] theorem State.fire_net (s : State) (r : Nat) : (s.fire r).net = s.net := by simp [State.fire]
@[simp] theorem State.fire_requests (s : State) (r : Nat) : (s.fire r).requests = s.requests := by simp [State.fire]
@[simp] theorem State.fire_nextXid (s : State) (r : Nat) : (s.fire r).nextXid = s.nextXid := by simp [State.fire]
@[simp] theorem State.fire_harts (s : State) (r : Nat) : (s.fire r).harts = s.harts := by simp [State.fire]
@[simp] theorem State.fire_cells (s : State) (r : Nat) : (s.fire r).cells = s.cells := by simp [State.fire]
@[simp] theorem State.fire_bays (s : State) (r : Nat) : (s.fire r).bays = s.bays := by simp [State.fire]
@[simp] theorem State.fire_ctxs (s : State) (r : Nat) : (s.fire r).ctxs = s.ctxs := by simp [State.fire]
@[simp] theorem State.fire_pages (s : State) (r : Nat) : (s.fire r).pages = s.pages := by simp [State.fire]
@[simp] theorem State.fire_fns (s : State) (r : Nat) : (s.fire r).fns = s.fns := by simp [State.fire]
@[simp] theorem State.fire_pkg (s : State) (r : Nat) : (s.fire r).pkg = s.pkg := by simp [State.fire]
@[simp] theorem State.fire_phase (s : State) (r : Nat) : (s.fire r).phase = s.phase := by simp [State.fire]
@[simp] theorem State.fire_walkers (s : State) (r : Nat) : (s.fire r).walkers = s.walkers := by simp [State.fire]

@[simp] theorem State.note_clk (s : State) (p : Bool) (b : Nat) : (s.note p b).clk = s.clk := by unfold State.note; split <;> rfl
@[simp] theorem State.note_cur (s : State) (p : Bool) (b : Nat) : (s.note p b).cur = s.cur := by unfold State.note; split <;> rfl
@[simp] theorem State.note_resets (s : State) (p : Bool) (b : Nat) : (s.note p b).resets = s.resets := by unfold State.note; split <;> rfl
@[simp] theorem State.note_agenda (s : State) (p : Bool) (b : Nat) : (s.note p b).agenda = s.agenda := by unfold State.note; split <;> rfl
@[simp] theorem State.note_fresh (s : State) (p : Bool) (b : Nat) : (s.note p b).fresh = s.fresh := by unfold State.note; split <;> rfl
@[simp] theorem State.note_mem (s : State) (p : Bool) (b : Nat) : (s.note p b).mem = s.mem := by unfold State.note; split <;> rfl
@[simp] theorem State.note_hostMem (s : State) (p : Bool) (b : Nat) : (s.note p b).hostMem = s.hostMem := by unfold State.note; split <;> rfl
@[simp] theorem State.note_net (s : State) (p : Bool) (b : Nat) : (s.note p b).net = s.net := by unfold State.note; split <;> rfl
@[simp] theorem State.note_requests (s : State) (p : Bool) (b : Nat) : (s.note p b).requests = s.requests := by unfold State.note; split <;> rfl
@[simp] theorem State.note_nextXid (s : State) (p : Bool) (b : Nat) : (s.note p b).nextXid = s.nextXid := by unfold State.note; split <;> rfl
@[simp] theorem State.note_cells (s : State) (p : Bool) (b : Nat) : (s.note p b).cells = s.cells := by unfold State.note; split <;> rfl
@[simp] theorem State.note_bays (s : State) (p : Bool) (b : Nat) : (s.note p b).bays = s.bays := by unfold State.note; split <;> rfl
@[simp] theorem State.note_regions (s : State) (p : Bool) (b : Nat) : (s.note p b).regions = s.regions := by unfold State.note; split <;> rfl
@[simp] theorem State.note_ctxs (s : State) (p : Bool) (b : Nat) : (s.note p b).ctxs = s.ctxs := by unfold State.note; split <;> rfl
@[simp] theorem State.note_pages (s : State) (p : Bool) (b : Nat) : (s.note p b).pages = s.pages := by unfold State.note; split <;> rfl
@[simp] theorem State.note_fns (s : State) (p : Bool) (b : Nat) : (s.note p b).fns = s.fns := by unfold State.note; split <;> rfl
@[simp] theorem State.note_pkg (s : State) (p : Bool) (b : Nat) : (s.note p b).pkg = s.pkg := by unfold State.note; split <;> rfl
@[simp] theorem State.note_phase (s : State) (p : Bool) (b : Nat) : (s.note p b).phase = s.phase := by unfold State.note; split <;> rfl
@[simp] theorem State.note_walkers (s : State) (p : Bool) (b : Nat) : (s.note p b).walkers = s.walkers := by unfold State.note; split <;> rfl

@[simp] theorem State.waiting_clk (s : State) (w : Wait) : (s.waiting w).clk = s.clk := rfl
@[simp] theorem State.waiting_cur (s : State) (w : Wait) : (s.waiting w).cur = s.cur := rfl
@[simp] theorem State.waiting_resets (s : State) (w : Wait) : (s.waiting w).resets = s.resets := rfl
@[simp] theorem State.waiting_agenda (s : State) (w : Wait) : (s.waiting w).agenda = s.agenda := rfl
@[simp] theorem State.waiting_fresh (s : State) (w : Wait) : (s.waiting w).fresh = s.fresh := rfl
@[simp] theorem State.waiting_mem (s : State) (w : Wait) : (s.waiting w).mem = s.mem := rfl
@[simp] theorem State.waiting_hostMem (s : State) (w : Wait) : (s.waiting w).hostMem = s.hostMem := rfl
@[simp] theorem State.waiting_net (s : State) (w : Wait) : (s.waiting w).net = s.net := rfl
@[simp] theorem State.waiting_requests (s : State) (w : Wait) : (s.waiting w).requests = s.requests := rfl
@[simp] theorem State.waiting_nextXid (s : State) (w : Wait) : (s.waiting w).nextXid = s.nextXid := rfl
@[simp] theorem State.waiting_cells (s : State) (w : Wait) : (s.waiting w).cells = s.cells := rfl
@[simp] theorem State.waiting_bays (s : State) (w : Wait) : (s.waiting w).bays = s.bays := rfl
@[simp] theorem State.waiting_regions (s : State) (w : Wait) : (s.waiting w).regions = s.regions := rfl
@[simp] theorem State.waiting_ctxs (s : State) (w : Wait) : (s.waiting w).ctxs = s.ctxs := rfl
@[simp] theorem State.waiting_pages (s : State) (w : Wait) : (s.waiting w).pages = s.pages := rfl
@[simp] theorem State.waiting_fns (s : State) (w : Wait) : (s.waiting w).fns = s.fns := rfl
@[simp] theorem State.waiting_pkg (s : State) (w : Wait) : (s.waiting w).pkg = s.pkg := rfl
@[simp] theorem State.waiting_phase (s : State) (w : Wait) : (s.waiting w).phase = s.phase := rfl
@[simp] theorem State.waiting_walkers (s : State) (w : Wait) : (s.waiting w).walkers = s.walkers := rfl

@[simp] theorem State.raise_clk (s : State) (g : FFlags) : (s.raise g).clk = s.clk := rfl
@[simp] theorem State.raise_cur (s : State) (g : FFlags) : (s.raise g).cur = s.cur := rfl
@[simp] theorem State.raise_resets (s : State) (g : FFlags) : (s.raise g).resets = s.resets := rfl
@[simp] theorem State.raise_agenda (s : State) (g : FFlags) : (s.raise g).agenda = s.agenda := rfl
@[simp] theorem State.raise_fresh (s : State) (g : FFlags) : (s.raise g).fresh = s.fresh := rfl
@[simp] theorem State.raise_mem (s : State) (g : FFlags) : (s.raise g).mem = s.mem := rfl
@[simp] theorem State.raise_hostMem (s : State) (g : FFlags) : (s.raise g).hostMem = s.hostMem := rfl
@[simp] theorem State.raise_net (s : State) (g : FFlags) : (s.raise g).net = s.net := rfl
@[simp] theorem State.raise_requests (s : State) (g : FFlags) : (s.raise g).requests = s.requests := rfl
@[simp] theorem State.raise_nextXid (s : State) (g : FFlags) : (s.raise g).nextXid = s.nextXid := rfl
@[simp] theorem State.raise_cells (s : State) (g : FFlags) : (s.raise g).cells = s.cells := rfl
@[simp] theorem State.raise_bays (s : State) (g : FFlags) : (s.raise g).bays = s.bays := rfl
@[simp] theorem State.raise_regions (s : State) (g : FFlags) : (s.raise g).regions = s.regions := rfl
@[simp] theorem State.raise_ctxs (s : State) (g : FFlags) : (s.raise g).ctxs = s.ctxs := rfl
@[simp] theorem State.raise_pages (s : State) (g : FFlags) : (s.raise g).pages = s.pages := rfl
@[simp] theorem State.raise_fns (s : State) (g : FFlags) : (s.raise g).fns = s.fns := rfl
@[simp] theorem State.raise_pkg (s : State) (g : FFlags) : (s.raise g).pkg = s.pkg := rfl
@[simp] theorem State.raise_phase (s : State) (g : FFlags) : (s.raise g).phase = s.phase := rfl
@[simp] theorem State.raise_walkers (s : State) (g : FFlags) : (s.raise g).walkers = s.walkers := rfl

@[simp] theorem State.status_clk (s : State) (v : Bool) : (s.status v).clk = s.clk := rfl
@[simp] theorem State.status_cur (s : State) (v : Bool) : (s.status v).cur = s.cur := rfl
@[simp] theorem State.status_resets (s : State) (v : Bool) : (s.status v).resets = s.resets := rfl
@[simp] theorem State.status_agenda (s : State) (v : Bool) : (s.status v).agenda = s.agenda := rfl
@[simp] theorem State.status_fresh (s : State) (v : Bool) : (s.status v).fresh = s.fresh := rfl
@[simp] theorem State.status_mem (s : State) (v : Bool) : (s.status v).mem = s.mem := rfl
@[simp] theorem State.status_hostMem (s : State) (v : Bool) : (s.status v).hostMem = s.hostMem := rfl
@[simp] theorem State.status_net (s : State) (v : Bool) : (s.status v).net = s.net := rfl
@[simp] theorem State.status_requests (s : State) (v : Bool) : (s.status v).requests = s.requests := rfl
@[simp] theorem State.status_nextXid (s : State) (v : Bool) : (s.status v).nextXid = s.nextXid := rfl
@[simp] theorem State.status_cells (s : State) (v : Bool) : (s.status v).cells = s.cells := rfl
@[simp] theorem State.status_bays (s : State) (v : Bool) : (s.status v).bays = s.bays := rfl
@[simp] theorem State.status_regions (s : State) (v : Bool) : (s.status v).regions = s.regions := rfl
@[simp] theorem State.status_ctxs (s : State) (v : Bool) : (s.status v).ctxs = s.ctxs := rfl
@[simp] theorem State.status_pages (s : State) (v : Bool) : (s.status v).pages = s.pages := rfl
@[simp] theorem State.status_fns (s : State) (v : Bool) : (s.status v).fns = s.fns := rfl
@[simp] theorem State.status_pkg (s : State) (v : Bool) : (s.status v).pkg = s.pkg := rfl
@[simp] theorem State.status_phase (s : State) (v : Bool) : (s.status v).phase = s.phase := rfl
@[simp] theorem State.status_walkers (s : State) (v : Bool) : (s.status v).walkers = s.walkers := rfl

@[simp] theorem State.retire_clk (s : State) (pc : Word) : (s.retire pc).clk = s.clk := by simp [State.retire]
@[simp] theorem State.retire_cur (s : State) (pc : Word) : (s.retire pc).cur = s.cur := by simp [State.retire]
@[simp] theorem State.retire_resets (s : State) (pc : Word) : (s.retire pc).resets = s.resets := by simp [State.retire]
@[simp] theorem State.retire_agenda (s : State) (pc : Word) : (s.retire pc).agenda = s.agenda := by simp [State.retire]
@[simp] theorem State.retire_fresh (s : State) (pc : Word) : (s.retire pc).fresh = s.fresh := by simp [State.retire]
@[simp] theorem State.retire_mem (s : State) (pc : Word) : (s.retire pc).mem = s.mem := by simp [State.retire]
@[simp] theorem State.retire_hostMem (s : State) (pc : Word) : (s.retire pc).hostMem = s.hostMem := by simp [State.retire]
@[simp] theorem State.retire_net (s : State) (pc : Word) : (s.retire pc).net = s.net := by simp [State.retire]
@[simp] theorem State.retire_requests (s : State) (pc : Word) : (s.retire pc).requests = s.requests := by simp [State.retire]
@[simp] theorem State.retire_nextXid (s : State) (pc : Word) : (s.retire pc).nextXid = s.nextXid := by simp [State.retire]
@[simp] theorem State.retire_cells (s : State) (pc : Word) : (s.retire pc).cells = s.cells := by simp [State.retire]
@[simp] theorem State.retire_bays (s : State) (pc : Word) : (s.retire pc).bays = s.bays := by simp [State.retire]
@[simp] theorem State.retire_ctxs (s : State) (pc : Word) : (s.retire pc).ctxs = s.ctxs := by simp [State.retire]
@[simp] theorem State.retire_pages (s : State) (pc : Word) : (s.retire pc).pages = s.pages := by simp [State.retire]
@[simp] theorem State.retire_fns (s : State) (pc : Word) : (s.retire pc).fns = s.fns := by simp [State.retire]
@[simp] theorem State.retire_pkg (s : State) (pc : Word) : (s.retire pc).pkg = s.pkg := by simp [State.retire]
@[simp] theorem State.retire_phase (s : State) (pc : Word) : (s.retire pc).phase = s.phase := by simp [State.retire]
@[simp] theorem State.retire_walkers (s : State) (pc : Word) : (s.retire pc).walkers = s.walkers := by simp [State.retire]

/-! Entries after an update. -/

@[simp] theorem State.hartAt_setHart_self (s : State) (h : Nat) (x : Hart) : (s.setHart h x).hartAt h = x := by
  simp [State.hartAt, State.setHart]

@[simp] theorem State.hartAt_setHart_ne (s : State) {h k : Nat} (e : k ≠ h) (x : Hart) :
    (s.setHart h x).hartAt k = s.hartAt k := by simp [State.hartAt, State.setHart, e]

@[simp] theorem State.cellAt_setCell_self (s : State) (c : Nat) (x : Cell) : (s.setCell c x).cellAt c = x := by
  simp [State.cellAt, State.setCell]

@[simp] theorem State.cellAt_setCell_ne (s : State) {c k : Nat} (e : k ≠ c) (x : Cell) :
    (s.setCell c x).cellAt k = s.cellAt k := by simp [State.cellAt, State.setCell, e]

@[simp] theorem State.hart_modHart (s : State) (f : Hart → Hart) : (s.modHart f).hart = f s.hart := by
  simp [State.modHart, State.hart, State.hartAt, State.setHart]

@[simp] theorem State.hartAt_modHart_ne (s : State) (f : Hart → Hart) {k : Nat} (e : k ≠ s.cur) :
    (s.modHart f).hartAt k = s.hartAt k := by simp [State.modHart, e]

@[simp] theorem State.cellAt_modCell_self (s : State) (c : Nat) (f : Cell → Cell) : (s.modCell c f).cellAt c = f (s.cellAt c) := by
  simp [State.modCell]

@[simp] theorem State.cellAt_modCell_ne (s : State) {c k : Nat} (e : k ≠ c) (f : Cell → Cell) :
    (s.modCell c f).cellAt k = s.cellAt k := by simp [State.modCell, e]

@[simp] theorem State.hartAt_modCell (s : State) (c : Nat) (f : Cell → Cell) (k : Nat) : (s.modCell c f).hartAt k = s.hartAt k := rfl

@[simp] theorem State.hart_modCell (s : State) (c : Nat) (f : Cell → Cell) : (s.modCell c f).hart = s.hart := rfl

@[simp] theorem State.cellAt_modHart (s : State) (f : Hart → Hart) (k : Nat) : (s.modHart f).cellAt k = s.cellAt k := rfl

@[simp] theorem State.cell_modHart (s : State) (f : Hart → Hart) : (s.modHart f).cell = s.cell := rfl

@[simp] theorem State.hartAt_modRegion (s : State) (r : Nat) (f : Region → Region) (k : Nat) :
    (s.modRegion r f).hartAt k = s.hartAt k := by simp [State.hartAt]

@[simp] theorem State.hart_modRegion (s : State) (r : Nat) (f : Region → Region) : (s.modRegion r f).hart = s.hart := by
  simp [State.hart]

@[simp] theorem State.cellAt_modRegion (s : State) (r : Nat) (f : Region → Region) (k : Nat) :
    (s.modRegion r f).cellAt k = s.cellAt k := by simp [State.cellAt]

@[simp] theorem State.region?_modRegion_self (s : State) (r : Nat) (f : Region → Region) :
    (s.modRegion r f).region? r = (s.region? r).map f := by
  unfold State.modRegion
  split
  · rename_i g e; simp [State.region?] at e ⊢; simp [e]
  · rename_i e; simp [e]

@[simp] theorem State.region?_modRegion_ne (s : State) {r k : Nat} (e : k ≠ r) (f : Region → Region) :
    (s.modRegion r f).region? k = s.region? k := by
  unfold State.modRegion
  split
  · simp [State.region?, e]
  · rfl

@[simp] theorem State.region?_modHart (s : State) (f : Hart → Hart) (r : Nat) : (s.modHart f).region? r = s.region? r := rfl

@[simp] theorem State.region?_modCell (s : State) (c : Nat) (f : Cell → Cell) (r : Nat) :
    (s.modCell c f).region? r = s.region? r := rfl

@[simp] theorem State.bayAt_modBay_self (s : State) (b : Nat) (f : Bay → Bay) : (s.modBay b f).bayAt b = f (s.bayAt b) := by
  simp [State.bayAt, State.modBay]

@[simp] theorem State.bayAt_modBay_ne (s : State) {b k : Nat} (e : k ≠ b) (f : Bay → Bay) :
    (s.modBay b f).bayAt k = s.bayAt k := by simp [State.bayAt, State.modBay, e]

@[simp] theorem State.fnAt_modFn_self (s : State) (n : Nat) (f : Fn → Fn) : (s.modFn n f).fnAt n = f (s.fnAt n) := by
  simp [State.fnAt, State.modFn]

@[simp] theorem State.fnAt_modFn_ne (s : State) {n k : Nat} (e : k ≠ n) (f : Fn → Fn) :
    (s.modFn n f).fnAt k = s.fnAt k := by simp [State.fnAt, State.modFn, e]

/-- What retirement leaves of the running hart (R30, R132). -/
@[simp] theorem State.hart_retire (s : State) (pc : Word) : (s.retire pc).hart =
    { s.hart with
      pc := pc, instret := s.hart.instret + 1#64, stage := .fresh, wait := none, held := [], issued := none, dstHeld := none,
      portOut := [], portKey := 0, reply := none, record := none } := by
  simp [State.retire, State.fire]

/-! Updates of a hart. -/

@[simp] theorem Hart.setV_pc (h : Hart) (r : Reg) (v : VVal) : (h.setV r v).pc = h.pc := rfl
@[simp] theorem Hart.setV_x (h : Hart) (r : Reg) (v : VVal) : (h.setV r v).x = h.x := rfl
@[simp] theorem Hart.setV_p (h : Hart) (r : Reg) (v : VVal) : (h.setV r v).p = h.p := rfl
@[simp] theorem Hart.setV_m (h : Hart) (r : Reg) (v : VVal) : (h.setV r v).m = h.m := rfl
@[simp] theorem Hart.setV_hnd (h : Hart) (r : Reg) (v : VVal) : (h.setV r v).hnd = h.hnd := rfl
@[simp] theorem Hart.setV_nut (h : Hart) (r : Reg) (v : VVal) : (h.setV r v).nut = h.nut := rfl
@[simp] theorem Hart.setV_sfrf (h : Hart) (r : Reg) (v : VVal) : (h.setV r v).sfrf = h.sfrf := rfl
@[simp] theorem Hart.setV_sstat (h : Hart) (r : Reg) (v : VVal) : (h.setV r v).sstat = h.sstat := rfl
@[simp] theorem Hart.setV_tvec (h : Hart) (r : Reg) (v : VVal) : (h.setV r v).tvec = h.tvec := rfl
@[simp] theorem Hart.setV_tepc (h : Hart) (r : Reg) (v : VVal) : (h.setV r v).tepc = h.tepc := rfl
@[simp] theorem Hart.setV_tval (h : Hart) (r : Reg) (v : VVal) : (h.setV r v).tval = h.tval := rfl
@[simp] theorem Hart.setV_tcause (h : Hart) (r : Reg) (v : VVal) : (h.setV r v).tcause = h.tcause := rfl
@[simp] theorem Hart.setV_fcsr (h : Hart) (r : Reg) (v : VVal) : (h.setV r v).fcsr = h.fcsr := rfl
@[simp] theorem Hart.setV_sigEn (h : Hart) (r : Reg) (v : VVal) : (h.setV r v).sigEn = h.sigEn := rfl
@[simp] theorem Hart.setV_sigThr (h : Hart) (r : Reg) (v : VVal) : (h.setV r v).sigThr = h.sigThr := rfl
@[simp] theorem Hart.setV_tagbase (h : Hart) (r : Reg) (v : VVal) : (h.setV r v).tagbase = h.tagbase := rfl
@[simp] theorem Hart.setV_chkiv (h : Hart) (r : Reg) (v : VVal) : (h.setV r v).chkiv = h.chkiv := rfl
@[simp] theorem Hart.setV_gid (h : Hart) (r : Reg) (v : VVal) : (h.setV r v).gid = h.gid := rfl
@[simp] theorem Hart.setV_pchan (h : Hart) (r : Reg) (v : VVal) : (h.setV r v).pchan = h.pchan := rfl
@[simp] theorem Hart.setV_tksel (h : Hart) (r : Reg) (v : VVal) : (h.setV r v).tksel = h.tksel := rfl
@[simp] theorem Hart.setV_instret (h : Hart) (r : Reg) (v : VVal) : (h.setV r v).instret = h.instret := rfl
@[simp] theorem Hart.setV_task (h : Hart) (r : Reg) (v : VVal) : (h.setV r v).task = h.task := rfl
@[simp] theorem Hart.setV_lastCtx (h : Hart) (r : Reg) (v : VVal) : (h.setV r v).lastCtx = h.lastCtx := rfl
@[simp] theorem Hart.setV_idleFrom (h : Hart) (r : Reg) (v : VVal) : (h.setV r v).idleFrom = h.idleFrom := rfl
@[simp] theorem Hart.setV_stage (h : Hart) (r : Reg) (v : VVal) : (h.setV r v).stage = h.stage := rfl
@[simp] theorem Hart.setV_wait (h : Hart) (r : Reg) (v : VVal) : (h.setV r v).wait = h.wait := rfl
@[simp] theorem Hart.setV_held (h : Hart) (r : Reg) (v : VVal) : (h.setV r v).held = h.held := rfl
@[simp] theorem Hart.setV_portOut (h : Hart) (r : Reg) (v : VVal) : (h.setV r v).portOut = h.portOut := rfl
@[simp] theorem Hart.setV_portKey (h : Hart) (r : Reg) (v : VVal) : (h.setV r v).portKey = h.portKey := rfl
@[simp] theorem Hart.setV_loads (h : Hart) (r : Reg) (v : VVal) : (h.setV r v).loads = h.loads := rfl
@[simp] theorem Hart.setV_stores (h : Hart) (r : Reg) (v : VVal) : (h.setV r v).stores = h.stores := rfl
@[simp] theorem Hart.setV_sfrq (h : Hart) (r : Reg) (v : VVal) : (h.setV r v).sfrq = h.sfrq := rfl
@[simp] theorem Hart.setV_slots (h : Hart) (r : Reg) (v : VVal) : (h.setV r v).slots = h.slots := rfl
@[simp] theorem Hart.setV_collected (h : Hart) (r : Reg) (v : VVal) : (h.setV r v).collected = h.collected := rfl
@[simp] theorem Hart.setV_reply (h : Hart) (r : Reg) (v : VVal) : (h.setV r v).reply = h.reply := rfl
@[simp] theorem Hart.setV_fetchFrom (h : Hart) (r : Reg) (v : VVal) : (h.setV r v).fetchFrom = h.fetchFrom := rfl
@[simp] theorem Hart.setV_issued (h : Hart) (r : Reg) (v : VVal) : (h.setV r v).issued = h.issued := rfl
@[simp] theorem Hart.setV_dstHeld (h : Hart) (r : Reg) (v : VVal) : (h.setV r v).dstHeld = h.dstHeld := rfl
@[simp] theorem Hart.setV_record (h : Hart) (r : Reg) (v : VVal) : (h.setV r v).record = h.record := rfl
@[simp] theorem Hart.setV_sfNew (h : Hart) (r : Reg) (v : VVal) : (h.setV r v).sfNew = h.sfNew := rfl
@[simp] theorem Hart.setV_sBit (h : Hart) (r : Reg) (v : VVal) : (h.setV r v).sBit = h.sBit := rfl
@[simp] theorem Hart.setV_leaving (h : Hart) (r : Reg) (v : VVal) : (h.setV r v).leaving = h.leaving := rfl

@[simp] theorem Hart.setP_pc (h : Hart) (p : PReg) (v : Bool) : (h.setP p v).pc = h.pc := rfl
@[simp] theorem Hart.setP_x (h : Hart) (p : PReg) (v : Bool) : (h.setP p v).x = h.x := rfl
@[simp] theorem Hart.setP_v (h : Hart) (p : PReg) (v : Bool) : (h.setP p v).v = h.v := rfl
@[simp] theorem Hart.setP_m (h : Hart) (p : PReg) (v : Bool) : (h.setP p v).m = h.m := rfl
@[simp] theorem Hart.setP_hnd (h : Hart) (p : PReg) (v : Bool) : (h.setP p v).hnd = h.hnd := rfl
@[simp] theorem Hart.setP_nut (h : Hart) (p : PReg) (v : Bool) : (h.setP p v).nut = h.nut := rfl
@[simp] theorem Hart.setP_sfrf (h : Hart) (p : PReg) (v : Bool) : (h.setP p v).sfrf = h.sfrf := rfl
@[simp] theorem Hart.setP_sstat (h : Hart) (p : PReg) (v : Bool) : (h.setP p v).sstat = h.sstat := rfl
@[simp] theorem Hart.setP_tvec (h : Hart) (p : PReg) (v : Bool) : (h.setP p v).tvec = h.tvec := rfl
@[simp] theorem Hart.setP_tepc (h : Hart) (p : PReg) (v : Bool) : (h.setP p v).tepc = h.tepc := rfl
@[simp] theorem Hart.setP_tval (h : Hart) (p : PReg) (v : Bool) : (h.setP p v).tval = h.tval := rfl
@[simp] theorem Hart.setP_tcause (h : Hart) (p : PReg) (v : Bool) : (h.setP p v).tcause = h.tcause := rfl
@[simp] theorem Hart.setP_fcsr (h : Hart) (p : PReg) (v : Bool) : (h.setP p v).fcsr = h.fcsr := rfl
@[simp] theorem Hart.setP_sigEn (h : Hart) (p : PReg) (v : Bool) : (h.setP p v).sigEn = h.sigEn := rfl
@[simp] theorem Hart.setP_sigThr (h : Hart) (p : PReg) (v : Bool) : (h.setP p v).sigThr = h.sigThr := rfl
@[simp] theorem Hart.setP_tagbase (h : Hart) (p : PReg) (v : Bool) : (h.setP p v).tagbase = h.tagbase := rfl
@[simp] theorem Hart.setP_chkiv (h : Hart) (p : PReg) (v : Bool) : (h.setP p v).chkiv = h.chkiv := rfl
@[simp] theorem Hart.setP_gid (h : Hart) (p : PReg) (v : Bool) : (h.setP p v).gid = h.gid := rfl
@[simp] theorem Hart.setP_pchan (h : Hart) (p : PReg) (v : Bool) : (h.setP p v).pchan = h.pchan := rfl
@[simp] theorem Hart.setP_tksel (h : Hart) (p : PReg) (v : Bool) : (h.setP p v).tksel = h.tksel := rfl
@[simp] theorem Hart.setP_instret (h : Hart) (p : PReg) (v : Bool) : (h.setP p v).instret = h.instret := rfl
@[simp] theorem Hart.setP_task (h : Hart) (p : PReg) (v : Bool) : (h.setP p v).task = h.task := rfl
@[simp] theorem Hart.setP_lastCtx (h : Hart) (p : PReg) (v : Bool) : (h.setP p v).lastCtx = h.lastCtx := rfl
@[simp] theorem Hart.setP_idleFrom (h : Hart) (p : PReg) (v : Bool) : (h.setP p v).idleFrom = h.idleFrom := rfl
@[simp] theorem Hart.setP_stage (h : Hart) (p : PReg) (v : Bool) : (h.setP p v).stage = h.stage := rfl
@[simp] theorem Hart.setP_wait (h : Hart) (p : PReg) (v : Bool) : (h.setP p v).wait = h.wait := rfl
@[simp] theorem Hart.setP_held (h : Hart) (p : PReg) (v : Bool) : (h.setP p v).held = h.held := rfl
@[simp] theorem Hart.setP_portOut (h : Hart) (p : PReg) (v : Bool) : (h.setP p v).portOut = h.portOut := rfl
@[simp] theorem Hart.setP_portKey (h : Hart) (p : PReg) (v : Bool) : (h.setP p v).portKey = h.portKey := rfl
@[simp] theorem Hart.setP_loads (h : Hart) (p : PReg) (v : Bool) : (h.setP p v).loads = h.loads := rfl
@[simp] theorem Hart.setP_stores (h : Hart) (p : PReg) (v : Bool) : (h.setP p v).stores = h.stores := rfl
@[simp] theorem Hart.setP_sfrq (h : Hart) (p : PReg) (v : Bool) : (h.setP p v).sfrq = h.sfrq := rfl
@[simp] theorem Hart.setP_slots (h : Hart) (p : PReg) (v : Bool) : (h.setP p v).slots = h.slots := rfl
@[simp] theorem Hart.setP_collected (h : Hart) (p : PReg) (v : Bool) : (h.setP p v).collected = h.collected := rfl
@[simp] theorem Hart.setP_reply (h : Hart) (p : PReg) (v : Bool) : (h.setP p v).reply = h.reply := rfl
@[simp] theorem Hart.setP_fetchFrom (h : Hart) (p : PReg) (v : Bool) : (h.setP p v).fetchFrom = h.fetchFrom := rfl
@[simp] theorem Hart.setP_issued (h : Hart) (p : PReg) (v : Bool) : (h.setP p v).issued = h.issued := rfl
@[simp] theorem Hart.setP_dstHeld (h : Hart) (p : PReg) (v : Bool) : (h.setP p v).dstHeld = h.dstHeld := rfl
@[simp] theorem Hart.setP_record (h : Hart) (p : PReg) (v : Bool) : (h.setP p v).record = h.record := rfl
@[simp] theorem Hart.setP_sfNew (h : Hart) (p : PReg) (v : Bool) : (h.setP p v).sfNew = h.sfNew := rfl
@[simp] theorem Hart.setP_sBit (h : Hart) (p : PReg) (v : Bool) : (h.setP p v).sBit = h.sBit := rfl
@[simp] theorem Hart.setP_leaving (h : Hart) (p : PReg) (v : Bool) : (h.setP p v).leaving = h.leaving := rfl

@[simp] theorem Hart.setP3_pc (h : Hart) (v : Bool) : (h.setP3 v).pc = h.pc := rfl
@[simp] theorem Hart.setP3_x (h : Hart) (v : Bool) : (h.setP3 v).x = h.x := rfl
@[simp] theorem Hart.setP3_v (h : Hart) (v : Bool) : (h.setP3 v).v = h.v := rfl
@[simp] theorem Hart.setP3_m (h : Hart) (v : Bool) : (h.setP3 v).m = h.m := rfl
@[simp] theorem Hart.setP3_hnd (h : Hart) (v : Bool) : (h.setP3 v).hnd = h.hnd := rfl
@[simp] theorem Hart.setP3_nut (h : Hart) (v : Bool) : (h.setP3 v).nut = h.nut := rfl
@[simp] theorem Hart.setP3_sfrf (h : Hart) (v : Bool) : (h.setP3 v).sfrf = h.sfrf := rfl
@[simp] theorem Hart.setP3_sstat (h : Hart) (v : Bool) : (h.setP3 v).sstat = h.sstat := rfl
@[simp] theorem Hart.setP3_tvec (h : Hart) (v : Bool) : (h.setP3 v).tvec = h.tvec := rfl
@[simp] theorem Hart.setP3_tepc (h : Hart) (v : Bool) : (h.setP3 v).tepc = h.tepc := rfl
@[simp] theorem Hart.setP3_tval (h : Hart) (v : Bool) : (h.setP3 v).tval = h.tval := rfl
@[simp] theorem Hart.setP3_tcause (h : Hart) (v : Bool) : (h.setP3 v).tcause = h.tcause := rfl
@[simp] theorem Hart.setP3_fcsr (h : Hart) (v : Bool) : (h.setP3 v).fcsr = h.fcsr := rfl
@[simp] theorem Hart.setP3_sigEn (h : Hart) (v : Bool) : (h.setP3 v).sigEn = h.sigEn := rfl
@[simp] theorem Hart.setP3_sigThr (h : Hart) (v : Bool) : (h.setP3 v).sigThr = h.sigThr := rfl
@[simp] theorem Hart.setP3_tagbase (h : Hart) (v : Bool) : (h.setP3 v).tagbase = h.tagbase := rfl
@[simp] theorem Hart.setP3_chkiv (h : Hart) (v : Bool) : (h.setP3 v).chkiv = h.chkiv := rfl
@[simp] theorem Hart.setP3_gid (h : Hart) (v : Bool) : (h.setP3 v).gid = h.gid := rfl
@[simp] theorem Hart.setP3_pchan (h : Hart) (v : Bool) : (h.setP3 v).pchan = h.pchan := rfl
@[simp] theorem Hart.setP3_tksel (h : Hart) (v : Bool) : (h.setP3 v).tksel = h.tksel := rfl
@[simp] theorem Hart.setP3_instret (h : Hart) (v : Bool) : (h.setP3 v).instret = h.instret := rfl
@[simp] theorem Hart.setP3_task (h : Hart) (v : Bool) : (h.setP3 v).task = h.task := rfl
@[simp] theorem Hart.setP3_lastCtx (h : Hart) (v : Bool) : (h.setP3 v).lastCtx = h.lastCtx := rfl
@[simp] theorem Hart.setP3_idleFrom (h : Hart) (v : Bool) : (h.setP3 v).idleFrom = h.idleFrom := rfl
@[simp] theorem Hart.setP3_stage (h : Hart) (v : Bool) : (h.setP3 v).stage = h.stage := rfl
@[simp] theorem Hart.setP3_wait (h : Hart) (v : Bool) : (h.setP3 v).wait = h.wait := rfl
@[simp] theorem Hart.setP3_held (h : Hart) (v : Bool) : (h.setP3 v).held = h.held := rfl
@[simp] theorem Hart.setP3_portOut (h : Hart) (v : Bool) : (h.setP3 v).portOut = h.portOut := rfl
@[simp] theorem Hart.setP3_portKey (h : Hart) (v : Bool) : (h.setP3 v).portKey = h.portKey := rfl
@[simp] theorem Hart.setP3_loads (h : Hart) (v : Bool) : (h.setP3 v).loads = h.loads := rfl
@[simp] theorem Hart.setP3_stores (h : Hart) (v : Bool) : (h.setP3 v).stores = h.stores := rfl
@[simp] theorem Hart.setP3_sfrq (h : Hart) (v : Bool) : (h.setP3 v).sfrq = h.sfrq := rfl
@[simp] theorem Hart.setP3_slots (h : Hart) (v : Bool) : (h.setP3 v).slots = h.slots := rfl
@[simp] theorem Hart.setP3_collected (h : Hart) (v : Bool) : (h.setP3 v).collected = h.collected := rfl
@[simp] theorem Hart.setP3_reply (h : Hart) (v : Bool) : (h.setP3 v).reply = h.reply := rfl
@[simp] theorem Hart.setP3_fetchFrom (h : Hart) (v : Bool) : (h.setP3 v).fetchFrom = h.fetchFrom := rfl
@[simp] theorem Hart.setP3_issued (h : Hart) (v : Bool) : (h.setP3 v).issued = h.issued := rfl
@[simp] theorem Hart.setP3_dstHeld (h : Hart) (v : Bool) : (h.setP3 v).dstHeld = h.dstHeld := rfl
@[simp] theorem Hart.setP3_record (h : Hart) (v : Bool) : (h.setP3 v).record = h.record := rfl
@[simp] theorem Hart.setP3_sfNew (h : Hart) (v : Bool) : (h.setP3 v).sfNew = h.sfNew := rfl
@[simp] theorem Hart.setP3_sBit (h : Hart) (v : Bool) : (h.setP3 v).sBit = h.sBit := rfl
@[simp] theorem Hart.setP3_leaving (h : Hart) (v : Bool) : (h.setP3 v).leaving = h.leaving := rfl


@[simp] theorem Hart.setX_pc (h : Hart) (r : Reg) (v : UVal) : (h.setX r v).pc = h.pc := by unfold Hart.setX; split <;> rfl
@[simp] theorem Hart.setX_p (h : Hart) (r : Reg) (v : UVal) : (h.setX r v).p = h.p := by unfold Hart.setX; split <;> rfl
@[simp] theorem Hart.setX_v (h : Hart) (r : Reg) (v : UVal) : (h.setX r v).v = h.v := by unfold Hart.setX; split <;> rfl
@[simp] theorem Hart.setX_m (h : Hart) (r : Reg) (v : UVal) : (h.setX r v).m = h.m := by unfold Hart.setX; split <;> rfl
@[simp] theorem Hart.setX_hnd (h : Hart) (r : Reg) (v : UVal) : (h.setX r v).hnd = h.hnd := by unfold Hart.setX; split <;> rfl
@[simp] theorem Hart.setX_nut (h : Hart) (r : Reg) (v : UVal) : (h.setX r v).nut = h.nut := by unfold Hart.setX; split <;> rfl
@[simp] theorem Hart.setX_sfrf (h : Hart) (r : Reg) (v : UVal) : (h.setX r v).sfrf = h.sfrf := by unfold Hart.setX; split <;> rfl
@[simp] theorem Hart.setX_sstat (h : Hart) (r : Reg) (v : UVal) : (h.setX r v).sstat = h.sstat := by unfold Hart.setX; split <;> rfl
@[simp] theorem Hart.setX_tvec (h : Hart) (r : Reg) (v : UVal) : (h.setX r v).tvec = h.tvec := by unfold Hart.setX; split <;> rfl
@[simp] theorem Hart.setX_tepc (h : Hart) (r : Reg) (v : UVal) : (h.setX r v).tepc = h.tepc := by unfold Hart.setX; split <;> rfl
@[simp] theorem Hart.setX_tval (h : Hart) (r : Reg) (v : UVal) : (h.setX r v).tval = h.tval := by unfold Hart.setX; split <;> rfl
@[simp] theorem Hart.setX_tcause (h : Hart) (r : Reg) (v : UVal) : (h.setX r v).tcause = h.tcause := by unfold Hart.setX; split <;> rfl
@[simp] theorem Hart.setX_fcsr (h : Hart) (r : Reg) (v : UVal) : (h.setX r v).fcsr = h.fcsr := by unfold Hart.setX; split <;> rfl
@[simp] theorem Hart.setX_sigEn (h : Hart) (r : Reg) (v : UVal) : (h.setX r v).sigEn = h.sigEn := by unfold Hart.setX; split <;> rfl
@[simp] theorem Hart.setX_sigThr (h : Hart) (r : Reg) (v : UVal) : (h.setX r v).sigThr = h.sigThr := by unfold Hart.setX; split <;> rfl
@[simp] theorem Hart.setX_tagbase (h : Hart) (r : Reg) (v : UVal) : (h.setX r v).tagbase = h.tagbase := by unfold Hart.setX; split <;> rfl
@[simp] theorem Hart.setX_chkiv (h : Hart) (r : Reg) (v : UVal) : (h.setX r v).chkiv = h.chkiv := by unfold Hart.setX; split <;> rfl
@[simp] theorem Hart.setX_gid (h : Hart) (r : Reg) (v : UVal) : (h.setX r v).gid = h.gid := by unfold Hart.setX; split <;> rfl
@[simp] theorem Hart.setX_pchan (h : Hart) (r : Reg) (v : UVal) : (h.setX r v).pchan = h.pchan := by unfold Hart.setX; split <;> rfl
@[simp] theorem Hart.setX_tksel (h : Hart) (r : Reg) (v : UVal) : (h.setX r v).tksel = h.tksel := by unfold Hart.setX; split <;> rfl
@[simp] theorem Hart.setX_instret (h : Hart) (r : Reg) (v : UVal) : (h.setX r v).instret = h.instret := by unfold Hart.setX; split <;> rfl
@[simp] theorem Hart.setX_task (h : Hart) (r : Reg) (v : UVal) : (h.setX r v).task = h.task := by unfold Hart.setX; split <;> rfl
@[simp] theorem Hart.setX_lastCtx (h : Hart) (r : Reg) (v : UVal) : (h.setX r v).lastCtx = h.lastCtx := by unfold Hart.setX; split <;> rfl
@[simp] theorem Hart.setX_idleFrom (h : Hart) (r : Reg) (v : UVal) : (h.setX r v).idleFrom = h.idleFrom := by unfold Hart.setX; split <;> rfl
@[simp] theorem Hart.setX_stage (h : Hart) (r : Reg) (v : UVal) : (h.setX r v).stage = h.stage := by unfold Hart.setX; split <;> rfl
@[simp] theorem Hart.setX_wait (h : Hart) (r : Reg) (v : UVal) : (h.setX r v).wait = h.wait := by unfold Hart.setX; split <;> rfl
@[simp] theorem Hart.setX_held (h : Hart) (r : Reg) (v : UVal) : (h.setX r v).held = h.held := by unfold Hart.setX; split <;> rfl
@[simp] theorem Hart.setX_portOut (h : Hart) (r : Reg) (v : UVal) : (h.setX r v).portOut = h.portOut := by unfold Hart.setX; split <;> rfl
@[simp] theorem Hart.setX_portKey (h : Hart) (r : Reg) (v : UVal) : (h.setX r v).portKey = h.portKey := by unfold Hart.setX; split <;> rfl
@[simp] theorem Hart.setX_loads (h : Hart) (r : Reg) (v : UVal) : (h.setX r v).loads = h.loads := by unfold Hart.setX; split <;> rfl
@[simp] theorem Hart.setX_stores (h : Hart) (r : Reg) (v : UVal) : (h.setX r v).stores = h.stores := by unfold Hart.setX; split <;> rfl
@[simp] theorem Hart.setX_sfrq (h : Hart) (r : Reg) (v : UVal) : (h.setX r v).sfrq = h.sfrq := by unfold Hart.setX; split <;> rfl
@[simp] theorem Hart.setX_slots (h : Hart) (r : Reg) (v : UVal) : (h.setX r v).slots = h.slots := by unfold Hart.setX; split <;> rfl
@[simp] theorem Hart.setX_collected (h : Hart) (r : Reg) (v : UVal) : (h.setX r v).collected = h.collected := by unfold Hart.setX; split <;> rfl
@[simp] theorem Hart.setX_reply (h : Hart) (r : Reg) (v : UVal) : (h.setX r v).reply = h.reply := by unfold Hart.setX; split <;> rfl
@[simp] theorem Hart.setX_fetchFrom (h : Hart) (r : Reg) (v : UVal) : (h.setX r v).fetchFrom = h.fetchFrom := by unfold Hart.setX; split <;> rfl
@[simp] theorem Hart.setX_issued (h : Hart) (r : Reg) (v : UVal) : (h.setX r v).issued = h.issued := by unfold Hart.setX; split <;> rfl
@[simp] theorem Hart.setX_dstHeld (h : Hart) (r : Reg) (v : UVal) : (h.setX r v).dstHeld = h.dstHeld := by unfold Hart.setX; split <;> rfl
@[simp] theorem Hart.setX_record (h : Hart) (r : Reg) (v : UVal) : (h.setX r v).record = h.record := by unfold Hart.setX; split <;> rfl
@[simp] theorem Hart.setX_sfNew (h : Hart) (r : Reg) (v : UVal) : (h.setX r v).sfNew = h.sfNew := by unfold Hart.setX; split <;> rfl
@[simp] theorem Hart.setX_sBit (h : Hart) (r : Reg) (v : UVal) : (h.setX r v).sBit = h.sBit := by unfold Hart.setX; split <;> rfl
@[simp] theorem Hart.setX_leaving (h : Hart) (r : Reg) (v : UVal) : (h.setX r v).leaving = h.leaving := by unfold Hart.setX; split <;> rfl

@[simp] theorem Hart.setM_pc (h : Hart) (m : MReg) (v : Word) : (h.setM m v).pc = h.pc := by unfold Hart.setM; split <;> rfl
@[simp] theorem Hart.setM_x (h : Hart) (m : MReg) (v : Word) : (h.setM m v).x = h.x := by unfold Hart.setM; split <;> rfl
@[simp] theorem Hart.setM_p (h : Hart) (m : MReg) (v : Word) : (h.setM m v).p = h.p := by unfold Hart.setM; split <;> rfl
@[simp] theorem Hart.setM_v (h : Hart) (m : MReg) (v : Word) : (h.setM m v).v = h.v := by unfold Hart.setM; split <;> rfl
@[simp] theorem Hart.setM_hnd (h : Hart) (m : MReg) (v : Word) : (h.setM m v).hnd = h.hnd := by unfold Hart.setM; split <;> rfl
@[simp] theorem Hart.setM_nut (h : Hart) (m : MReg) (v : Word) : (h.setM m v).nut = h.nut := by unfold Hart.setM; split <;> rfl
@[simp] theorem Hart.setM_sfrf (h : Hart) (m : MReg) (v : Word) : (h.setM m v).sfrf = h.sfrf := by unfold Hart.setM; split <;> rfl
@[simp] theorem Hart.setM_sstat (h : Hart) (m : MReg) (v : Word) : (h.setM m v).sstat = h.sstat := by unfold Hart.setM; split <;> rfl
@[simp] theorem Hart.setM_tvec (h : Hart) (m : MReg) (v : Word) : (h.setM m v).tvec = h.tvec := by unfold Hart.setM; split <;> rfl
@[simp] theorem Hart.setM_tepc (h : Hart) (m : MReg) (v : Word) : (h.setM m v).tepc = h.tepc := by unfold Hart.setM; split <;> rfl
@[simp] theorem Hart.setM_tval (h : Hart) (m : MReg) (v : Word) : (h.setM m v).tval = h.tval := by unfold Hart.setM; split <;> rfl
@[simp] theorem Hart.setM_tcause (h : Hart) (m : MReg) (v : Word) : (h.setM m v).tcause = h.tcause := by unfold Hart.setM; split <;> rfl
@[simp] theorem Hart.setM_fcsr (h : Hart) (m : MReg) (v : Word) : (h.setM m v).fcsr = h.fcsr := by unfold Hart.setM; split <;> rfl
@[simp] theorem Hart.setM_sigEn (h : Hart) (m : MReg) (v : Word) : (h.setM m v).sigEn = h.sigEn := by unfold Hart.setM; split <;> rfl
@[simp] theorem Hart.setM_sigThr (h : Hart) (m : MReg) (v : Word) : (h.setM m v).sigThr = h.sigThr := by unfold Hart.setM; split <;> rfl
@[simp] theorem Hart.setM_tagbase (h : Hart) (m : MReg) (v : Word) : (h.setM m v).tagbase = h.tagbase := by unfold Hart.setM; split <;> rfl
@[simp] theorem Hart.setM_chkiv (h : Hart) (m : MReg) (v : Word) : (h.setM m v).chkiv = h.chkiv := by unfold Hart.setM; split <;> rfl
@[simp] theorem Hart.setM_gid (h : Hart) (m : MReg) (v : Word) : (h.setM m v).gid = h.gid := by unfold Hart.setM; split <;> rfl
@[simp] theorem Hart.setM_pchan (h : Hart) (m : MReg) (v : Word) : (h.setM m v).pchan = h.pchan := by unfold Hart.setM; split <;> rfl
@[simp] theorem Hart.setM_tksel (h : Hart) (m : MReg) (v : Word) : (h.setM m v).tksel = h.tksel := by unfold Hart.setM; split <;> rfl
@[simp] theorem Hart.setM_instret (h : Hart) (m : MReg) (v : Word) : (h.setM m v).instret = h.instret := by unfold Hart.setM; split <;> rfl
@[simp] theorem Hart.setM_task (h : Hart) (m : MReg) (v : Word) : (h.setM m v).task = h.task := by unfold Hart.setM; split <;> rfl
@[simp] theorem Hart.setM_lastCtx (h : Hart) (m : MReg) (v : Word) : (h.setM m v).lastCtx = h.lastCtx := by unfold Hart.setM; split <;> rfl
@[simp] theorem Hart.setM_idleFrom (h : Hart) (m : MReg) (v : Word) : (h.setM m v).idleFrom = h.idleFrom := by unfold Hart.setM; split <;> rfl
@[simp] theorem Hart.setM_stage (h : Hart) (m : MReg) (v : Word) : (h.setM m v).stage = h.stage := by unfold Hart.setM; split <;> rfl
@[simp] theorem Hart.setM_wait (h : Hart) (m : MReg) (v : Word) : (h.setM m v).wait = h.wait := by unfold Hart.setM; split <;> rfl
@[simp] theorem Hart.setM_held (h : Hart) (m : MReg) (v : Word) : (h.setM m v).held = h.held := by unfold Hart.setM; split <;> rfl
@[simp] theorem Hart.setM_portOut (h : Hart) (m : MReg) (v : Word) : (h.setM m v).portOut = h.portOut := by unfold Hart.setM; split <;> rfl
@[simp] theorem Hart.setM_portKey (h : Hart) (m : MReg) (v : Word) : (h.setM m v).portKey = h.portKey := by unfold Hart.setM; split <;> rfl
@[simp] theorem Hart.setM_loads (h : Hart) (m : MReg) (v : Word) : (h.setM m v).loads = h.loads := by unfold Hart.setM; split <;> rfl
@[simp] theorem Hart.setM_stores (h : Hart) (m : MReg) (v : Word) : (h.setM m v).stores = h.stores := by unfold Hart.setM; split <;> rfl
@[simp] theorem Hart.setM_sfrq (h : Hart) (m : MReg) (v : Word) : (h.setM m v).sfrq = h.sfrq := by unfold Hart.setM; split <;> rfl
@[simp] theorem Hart.setM_slots (h : Hart) (m : MReg) (v : Word) : (h.setM m v).slots = h.slots := by unfold Hart.setM; split <;> rfl
@[simp] theorem Hart.setM_collected (h : Hart) (m : MReg) (v : Word) : (h.setM m v).collected = h.collected := by unfold Hart.setM; split <;> rfl
@[simp] theorem Hart.setM_reply (h : Hart) (m : MReg) (v : Word) : (h.setM m v).reply = h.reply := by unfold Hart.setM; split <;> rfl
@[simp] theorem Hart.setM_fetchFrom (h : Hart) (m : MReg) (v : Word) : (h.setM m v).fetchFrom = h.fetchFrom := by unfold Hart.setM; split <;> rfl
@[simp] theorem Hart.setM_issued (h : Hart) (m : MReg) (v : Word) : (h.setM m v).issued = h.issued := by unfold Hart.setM; split <;> rfl
@[simp] theorem Hart.setM_dstHeld (h : Hart) (m : MReg) (v : Word) : (h.setM m v).dstHeld = h.dstHeld := by unfold Hart.setM; split <;> rfl
@[simp] theorem Hart.setM_record (h : Hart) (m : MReg) (v : Word) : (h.setM m v).record = h.record := by unfold Hart.setM; split <;> rfl
@[simp] theorem Hart.setM_sfNew (h : Hart) (m : MReg) (v : Word) : (h.setM m v).sfNew = h.sfNew := by unfold Hart.setM; split <;> rfl
@[simp] theorem Hart.setM_sBit (h : Hart) (m : MReg) (v : Word) : (h.setM m v).sBit = h.sBit := by unfold Hart.setM; split <;> rfl
@[simp] theorem Hart.setM_leaving (h : Hart) (m : MReg) (v : Word) : (h.setM m v).leaving = h.leaving := by unfold Hart.setM; split <;> rfl

/-- R46: x0 reads 0 with tag 24. -/
@[simp] theorem Hart.xval_zero (h : Hart) : h.xval 0#5 = UVal.plain 0#64 := by simp [Hart.xval]

/-- R46: a write to x0 is discarded. -/
@[simp] theorem Hart.setX_zero (h : Hart) (v : UVal) : h.setX 0#5 v = h := by simp [Hart.setX]

/-- A register just written. -/
theorem Hart.xval_setX_self (h : Hart) {r : Reg} (h0 : r ≠ 0#5) (h1 : r.toNat < 24) (v : UVal) : (h.setX r v).xval r = v := by
  simp [Hart.xval, Hart.setX, h0, h1]

/-- The other registers after a write. -/
theorem Hart.xval_setX_ne (h : Hart) {r k : Reg} (e : k ≠ r) (v : UVal) : (h.setX r v).xval k = h.xval k := by
  unfold Hart.xval Hart.setX
  split
  · rfl
  · split
    · rfl
    · have : r.toNat ≠ k.toNat := fun g => e (BitVec.eq_of_toNat_eq g.symm)
      simp [this]

/-! Updates of a cell. -/

@[simp] theorem Cell.setQueue_fifos (c : Cell) (code : Nat) (q : Queue) : (c.setQueue code q).fifos = c.fifos := rfl
@[simp] theorem Cell.setQueue_bufs (c : Cell) (code : Nat) (q : Queue) : (c.setQueue code q).bufs = c.bufs := rfl
@[simp] theorem Cell.setQueue_ports (c : Cell) (code : Nat) (q : Queue) : (c.setQueue code q).ports = c.ports := rfl
@[simp] theorem Cell.setQueue_scaleAt (c : Cell) (code : Nat) (q : Queue) : (c.setQueue code q).scaleAt = c.scaleAt := rfl
@[simp] theorem Cell.setQueue_sw (c : Cell) (code : Nat) (q : Queue) : (c.setQueue code q).sw = c.sw := rfl
@[simp] theorem Cell.setQueue_sram (c : Cell) (code : Nat) (q : Queue) : (c.setQueue code q).sram = c.sram := rfl
@[simp] theorem Cell.setQueue_mxe (c : Cell) (code : Nat) (q : Queue) : (c.setQueue code q).mxe = c.mxe := rfl
@[simp] theorem Cell.setQueue_pool (c : Cell) (code : Nat) (q : Queue) : (c.setQueue code q).pool = c.pool := rfl
@[simp] theorem Cell.setQueue_snapu (c : Cell) (code : Nat) (q : Queue) : (c.setQueue code q).snapu = c.snapu := rfl
@[simp] theorem Cell.setQueue_cecnt (c : Cell) (code : Nat) (q : Queue) : (c.setQueue code q).cecnt = c.cecnt := rfl
@[simp] theorem Cell.setQueue_tlb (c : Cell) (code : Nat) (q : Queue) : (c.setQueue code q).tlb = c.tlb := rfl
@[simp] theorem Cell.setQueue_walkFaults (c : Cell) (code : Nat) (q : Queue) : (c.setQueue code q).walkFaults = c.walkFaults := rfl
@[simp] theorem Cell.setQueue_walks (c : Cell) (code : Nat) (q : Queue) : (c.setQueue code q).walks = c.walks := rfl
@[simp] theorem Cell.setQueue_l1 (c : Cell) (code : Nat) (q : Queue) : (c.setQueue code q).l1 = c.l1 := rfl
@[simp] theorem Cell.setQueue_parked (c : Cell) (code : Nat) (q : Queue) : (c.setQueue code q).parked = c.parked := rfl
@[simp] theorem Cell.setQueue_inbox (c : Cell) (code : Nat) (q : Queue) : (c.setQueue code q).inbox = c.inbox := rfl
@[simp] theorem Cell.setQueue_run (c : Cell) (code : Nat) (q : Queue) : (c.setQueue code q).run = c.run := rfl
@[simp] theorem Cell.setQueue_comp (c : Cell) (code : Nat) (q : Queue) : (c.setQueue code q).comp = c.comp := rfl
@[simp] theorem Cell.setQueue_conv (c : Cell) (code : Nat) (q : Queue) : (c.setQueue code q).conv = c.conv := rfl
@[simp] theorem Cell.setQueue_cfg (c : Cell) (code : Nat) (q : Queue) : (c.setQueue code q).cfg = c.cfg := rfl
@[simp] theorem Cell.setQueue_cfgid (c : Cell) (code : Nat) (q : Queue) : (c.setQueue code q).cfgid = c.cfgid := rfl
@[simp] theorem Cell.setQueue_shadow (c : Cell) (code : Nat) (q : Queue) : (c.setQueue code q).shadow = c.shadow := rfl
@[simp] theorem Cell.setQueue_counts (c : Cell) (code : Nat) (q : Queue) : (c.setQueue code q).counts = c.counts := rfl
@[simp] theorem Cell.setQueue_grown (c : Cell) (code : Nat) (q : Queue) : (c.setQueue code q).grown = c.grown := rfl
@[simp] theorem Cell.setQueue_prev (c : Cell) (code : Nat) (q : Queue) : (c.setQueue code q).prev = c.prev := rfl
@[simp] theorem Cell.setQueue_kept (c : Cell) (code : Nat) (q : Queue) : (c.setQueue code q).kept = c.kept := rfl
@[simp] theorem Cell.setQueue_young (c : Cell) (code : Nat) (q : Queue) : (c.setQueue code q).young = c.young := rfl

@[simp] theorem Cell.setFifo_queues (c : Cell) (n : Nat) (f : List TItem) : (c.setFifo n f).queues = c.queues := rfl
@[simp] theorem Cell.setFifo_bufs (c : Cell) (n : Nat) (f : List TItem) : (c.setFifo n f).bufs = c.bufs := rfl
@[simp] theorem Cell.setFifo_ports (c : Cell) (n : Nat) (f : List TItem) : (c.setFifo n f).ports = c.ports := rfl
@[simp] theorem Cell.setFifo_scaleAt (c : Cell) (n : Nat) (f : List TItem) : (c.setFifo n f).scaleAt = c.scaleAt := rfl
@[simp] theorem Cell.setFifo_sw (c : Cell) (n : Nat) (f : List TItem) : (c.setFifo n f).sw = c.sw := rfl
@[simp] theorem Cell.setFifo_sram (c : Cell) (n : Nat) (f : List TItem) : (c.setFifo n f).sram = c.sram := rfl
@[simp] theorem Cell.setFifo_mxe (c : Cell) (n : Nat) (f : List TItem) : (c.setFifo n f).mxe = c.mxe := rfl
@[simp] theorem Cell.setFifo_pool (c : Cell) (n : Nat) (f : List TItem) : (c.setFifo n f).pool = c.pool := rfl
@[simp] theorem Cell.setFifo_snapu (c : Cell) (n : Nat) (f : List TItem) : (c.setFifo n f).snapu = c.snapu := rfl
@[simp] theorem Cell.setFifo_cecnt (c : Cell) (n : Nat) (f : List TItem) : (c.setFifo n f).cecnt = c.cecnt := rfl
@[simp] theorem Cell.setFifo_tlb (c : Cell) (n : Nat) (f : List TItem) : (c.setFifo n f).tlb = c.tlb := rfl
@[simp] theorem Cell.setFifo_walkFaults (c : Cell) (n : Nat) (f : List TItem) : (c.setFifo n f).walkFaults = c.walkFaults := rfl
@[simp] theorem Cell.setFifo_walks (c : Cell) (n : Nat) (f : List TItem) : (c.setFifo n f).walks = c.walks := rfl
@[simp] theorem Cell.setFifo_l1 (c : Cell) (n : Nat) (f : List TItem) : (c.setFifo n f).l1 = c.l1 := rfl
@[simp] theorem Cell.setFifo_parked (c : Cell) (n : Nat) (f : List TItem) : (c.setFifo n f).parked = c.parked := rfl
@[simp] theorem Cell.setFifo_inbox (c : Cell) (n : Nat) (f : List TItem) : (c.setFifo n f).inbox = c.inbox := rfl
@[simp] theorem Cell.setFifo_run (c : Cell) (n : Nat) (f : List TItem) : (c.setFifo n f).run = c.run := rfl
@[simp] theorem Cell.setFifo_comp (c : Cell) (n : Nat) (f : List TItem) : (c.setFifo n f).comp = c.comp := rfl
@[simp] theorem Cell.setFifo_conv (c : Cell) (n : Nat) (f : List TItem) : (c.setFifo n f).conv = c.conv := rfl
@[simp] theorem Cell.setFifo_cfg (c : Cell) (n : Nat) (f : List TItem) : (c.setFifo n f).cfg = c.cfg := rfl
@[simp] theorem Cell.setFifo_cfgid (c : Cell) (n : Nat) (f : List TItem) : (c.setFifo n f).cfgid = c.cfgid := rfl
@[simp] theorem Cell.setFifo_shadow (c : Cell) (n : Nat) (f : List TItem) : (c.setFifo n f).shadow = c.shadow := rfl
@[simp] theorem Cell.setFifo_counts (c : Cell) (n : Nat) (f : List TItem) : (c.setFifo n f).counts = c.counts := rfl
@[simp] theorem Cell.setFifo_grown (c : Cell) (n : Nat) (f : List TItem) : (c.setFifo n f).grown = c.grown := rfl
@[simp] theorem Cell.setFifo_prev (c : Cell) (n : Nat) (f : List TItem) : (c.setFifo n f).prev = c.prev := rfl
@[simp] theorem Cell.setFifo_kept (c : Cell) (n : Nat) (f : List TItem) : (c.setFifo n f).kept = c.kept := rfl
@[simp] theorem Cell.setFifo_young (c : Cell) (n : Nat) (f : List TItem) : (c.setFifo n f).young = c.young := rfl

@[simp] theorem Cell.setBuf_queues (c : Cell) (key : Nat) (f : Fifo) : (c.setBuf key f).queues = c.queues := rfl
@[simp] theorem Cell.setBuf_fifos (c : Cell) (key : Nat) (f : Fifo) : (c.setBuf key f).fifos = c.fifos := rfl
@[simp] theorem Cell.setBuf_ports (c : Cell) (key : Nat) (f : Fifo) : (c.setBuf key f).ports = c.ports := rfl
@[simp] theorem Cell.setBuf_scaleAt (c : Cell) (key : Nat) (f : Fifo) : (c.setBuf key f).scaleAt = c.scaleAt := rfl
@[simp] theorem Cell.setBuf_sw (c : Cell) (key : Nat) (f : Fifo) : (c.setBuf key f).sw = c.sw := rfl
@[simp] theorem Cell.setBuf_sram (c : Cell) (key : Nat) (f : Fifo) : (c.setBuf key f).sram = c.sram := rfl
@[simp] theorem Cell.setBuf_mxe (c : Cell) (key : Nat) (f : Fifo) : (c.setBuf key f).mxe = c.mxe := rfl
@[simp] theorem Cell.setBuf_pool (c : Cell) (key : Nat) (f : Fifo) : (c.setBuf key f).pool = c.pool := rfl
@[simp] theorem Cell.setBuf_snapu (c : Cell) (key : Nat) (f : Fifo) : (c.setBuf key f).snapu = c.snapu := rfl
@[simp] theorem Cell.setBuf_cecnt (c : Cell) (key : Nat) (f : Fifo) : (c.setBuf key f).cecnt = c.cecnt := rfl
@[simp] theorem Cell.setBuf_tlb (c : Cell) (key : Nat) (f : Fifo) : (c.setBuf key f).tlb = c.tlb := rfl
@[simp] theorem Cell.setBuf_walkFaults (c : Cell) (key : Nat) (f : Fifo) : (c.setBuf key f).walkFaults = c.walkFaults := rfl
@[simp] theorem Cell.setBuf_walks (c : Cell) (key : Nat) (f : Fifo) : (c.setBuf key f).walks = c.walks := rfl
@[simp] theorem Cell.setBuf_l1 (c : Cell) (key : Nat) (f : Fifo) : (c.setBuf key f).l1 = c.l1 := rfl
@[simp] theorem Cell.setBuf_parked (c : Cell) (key : Nat) (f : Fifo) : (c.setBuf key f).parked = c.parked := rfl
@[simp] theorem Cell.setBuf_inbox (c : Cell) (key : Nat) (f : Fifo) : (c.setBuf key f).inbox = c.inbox := rfl
@[simp] theorem Cell.setBuf_run (c : Cell) (key : Nat) (f : Fifo) : (c.setBuf key f).run = c.run := rfl
@[simp] theorem Cell.setBuf_comp (c : Cell) (key : Nat) (f : Fifo) : (c.setBuf key f).comp = c.comp := rfl
@[simp] theorem Cell.setBuf_conv (c : Cell) (key : Nat) (f : Fifo) : (c.setBuf key f).conv = c.conv := rfl
@[simp] theorem Cell.setBuf_cfg (c : Cell) (key : Nat) (f : Fifo) : (c.setBuf key f).cfg = c.cfg := rfl
@[simp] theorem Cell.setBuf_cfgid (c : Cell) (key : Nat) (f : Fifo) : (c.setBuf key f).cfgid = c.cfgid := rfl
@[simp] theorem Cell.setBuf_shadow (c : Cell) (key : Nat) (f : Fifo) : (c.setBuf key f).shadow = c.shadow := rfl
@[simp] theorem Cell.setBuf_counts (c : Cell) (key : Nat) (f : Fifo) : (c.setBuf key f).counts = c.counts := rfl
@[simp] theorem Cell.setBuf_grown (c : Cell) (key : Nat) (f : Fifo) : (c.setBuf key f).grown = c.grown := rfl
@[simp] theorem Cell.setBuf_prev (c : Cell) (key : Nat) (f : Fifo) : (c.setBuf key f).prev = c.prev := rfl
@[simp] theorem Cell.setBuf_kept (c : Cell) (key : Nat) (f : Fifo) : (c.setBuf key f).kept = c.kept := rfl
@[simp] theorem Cell.setBuf_young (c : Cell) (key : Nat) (f : Fifo) : (c.setBuf key f).young = c.young := rfl

@[simp] theorem Cell.pushed_queues (c : Cell) (tie n : Nat) : (c.pushed tie n).queues = c.queues := rfl
@[simp] theorem Cell.pushed_fifos (c : Cell) (tie n : Nat) : (c.pushed tie n).fifos = c.fifos := rfl
@[simp] theorem Cell.pushed_bufs (c : Cell) (tie n : Nat) : (c.pushed tie n).bufs = c.bufs := rfl
@[simp] theorem Cell.pushed_ports (c : Cell) (tie n : Nat) : (c.pushed tie n).ports = c.ports := rfl
@[simp] theorem Cell.pushed_scaleAt (c : Cell) (tie n : Nat) : (c.pushed tie n).scaleAt = c.scaleAt := rfl
@[simp] theorem Cell.pushed_sw (c : Cell) (tie n : Nat) : (c.pushed tie n).sw = c.sw := rfl
@[simp] theorem Cell.pushed_sram (c : Cell) (tie n : Nat) : (c.pushed tie n).sram = c.sram := rfl
@[simp] theorem Cell.pushed_mxe (c : Cell) (tie n : Nat) : (c.pushed tie n).mxe = c.mxe := rfl
@[simp] theorem Cell.pushed_pool (c : Cell) (tie n : Nat) : (c.pushed tie n).pool = c.pool := rfl
@[simp] theorem Cell.pushed_snapu (c : Cell) (tie n : Nat) : (c.pushed tie n).snapu = c.snapu := rfl
@[simp] theorem Cell.pushed_cecnt (c : Cell) (tie n : Nat) : (c.pushed tie n).cecnt = c.cecnt := rfl
@[simp] theorem Cell.pushed_tlb (c : Cell) (tie n : Nat) : (c.pushed tie n).tlb = c.tlb := rfl
@[simp] theorem Cell.pushed_walkFaults (c : Cell) (tie n : Nat) : (c.pushed tie n).walkFaults = c.walkFaults := rfl
@[simp] theorem Cell.pushed_walks (c : Cell) (tie n : Nat) : (c.pushed tie n).walks = c.walks := rfl
@[simp] theorem Cell.pushed_l1 (c : Cell) (tie n : Nat) : (c.pushed tie n).l1 = c.l1 := rfl
@[simp] theorem Cell.pushed_parked (c : Cell) (tie n : Nat) : (c.pushed tie n).parked = c.parked := rfl
@[simp] theorem Cell.pushed_inbox (c : Cell) (tie n : Nat) : (c.pushed tie n).inbox = c.inbox := rfl
@[simp] theorem Cell.pushed_run (c : Cell) (tie n : Nat) : (c.pushed tie n).run = c.run := rfl
@[simp] theorem Cell.pushed_comp (c : Cell) (tie n : Nat) : (c.pushed tie n).comp = c.comp := rfl
@[simp] theorem Cell.pushed_conv (c : Cell) (tie n : Nat) : (c.pushed tie n).conv = c.conv := rfl
@[simp] theorem Cell.pushed_cfg (c : Cell) (tie n : Nat) : (c.pushed tie n).cfg = c.cfg := rfl
@[simp] theorem Cell.pushed_cfgid (c : Cell) (tie n : Nat) : (c.pushed tie n).cfgid = c.cfgid := rfl
@[simp] theorem Cell.pushed_shadow (c : Cell) (tie n : Nat) : (c.pushed tie n).shadow = c.shadow := rfl
@[simp] theorem Cell.pushed_counts (c : Cell) (tie n : Nat) : (c.pushed tie n).counts = c.counts := rfl
@[simp] theorem Cell.pushed_grown (c : Cell) (tie n : Nat) : (c.pushed tie n).grown = c.grown := rfl
@[simp] theorem Cell.pushed_prev (c : Cell) (tie n : Nat) : (c.pushed tie n).prev = c.prev := rfl
@[simp] theorem Cell.pushed_kept (c : Cell) (tie n : Nat) : (c.pushed tie n).kept = c.kept := rfl

@[simp] theorem Cell.queue_setQueue_self (c : Cell) (code : Nat) (q : Queue) : (c.setQueue code q).queue code = q := by
  simp [Cell.queue, Cell.setQueue]

@[simp] theorem Cell.queue_setQueue_ne (c : Cell) {code k : Nat} (e : k ≠ code) (q : Queue) :
    (c.setQueue code q).queue k = c.queue k := by simp [Cell.queue, Cell.setQueue, e]

@[simp] theorem Cell.fifo_setFifo_self (c : Cell) (n : Nat) (f : List TItem) : (c.setFifo n f).fifo n = f := by
  simp [Cell.fifo, Cell.setFifo]

@[simp] theorem Cell.fifo_setFifo_ne (c : Cell) {n k : Nat} (e : k ≠ n) (f : List TItem) :
    (c.setFifo n f).fifo k = c.fifo k := by simp [Cell.fifo, Cell.setFifo, e]

@[simp] theorem Cell.buf_setBuf_self (c : Cell) (key : Nat) (f : Fifo) : (c.setBuf key f).buf key = f := by
  simp [Cell.buf, Cell.setBuf]

@[simp] theorem Cell.buf_setBuf_ne (c : Cell) {key k : Nat} (e : k ≠ key) (f : Fifo) :
    (c.setBuf key f).buf k = c.buf k := by simp [Cell.buf, Cell.setBuf, e]

end Sys2Proof.Machine
end

