-- ==== Sys2Proof/Laws/Run.lean ====
section
/-! SUPPORT. How an instruction of a hart runs: what `runHart` answers for each end of a body, and what the operand forms make of
operands that are there. -/

namespace Sys2Proof.Machine

open Sys2Proof.Spec

variable {i : Instr} {tk : Tok} {s s1 u v : State} {body : State → Act}

/-- Where the instruction is ready, its outcome is that of its body. -/
theorem runHart_ready (h : Ready i tk s s1) : runHart i tk s body =
    match body s1 with
    | .done s2 => .next (s1.finish s2 tk (s.hart.pc + BitVec.ofNat 64 (instrLen i)))
    | .jump s2 pc => .next (s1.finish s2 tk pc)
    | .wait w f => .next ((f s1).waiting w)
    | .trap code value => .next (s1.trapNow code value)
    | .trapWith f code value => .next ((f s1).trapNow code value)
    | .ended s2 => .next s2
    | .stop f => .fault f := by
  obtain ⟨h1, h2, h3, h4⟩ := h
  have h5 : (if s.hart.stage = .fresh then s.tokenParty tk else none) = none := by
    split
    · exact h3 ‹_›
    · rfl
  simp only [runHart, h1, ite_self, h2, h5, h4, Bool.not_true, Bool.false_eq_true, if_false]
  all_goals (cases body s1 <;> rfl)

/-- A body whose effect is complete retires past the instruction. -/
theorem runHart_done (h : Ready i tk s s1) (hb : body s1 = .done u) (hv : u.pushS tk = some v) :
    runHart i tk s body = .next (v.retire (s.hart.pc + BitVec.ofNat 64 (instrLen i))) := by
  rw [runHart_ready h, hb]; simp only [State.finish, hv]

/-- A body that transfers control retires to its target. -/
theorem runHart_jump {pc : Word} (h : Ready i tk s s1) (hb : body s1 = .jump u pc) (hv : u.pushS tk = some v) :
    runHart i tk s body = .next (v.retire pc) := by
  rw [runHart_ready h, hb]; simp only [State.finish, hv]

/-- A body that traps takes a precise trap. -/
theorem runHart_trap {code : Nat} {value : Word} (h : Ready i tk s s1) (hb : body s1 = .trap code value) :
    runHart i tk s body = .next (s1.trapNow code value) := by
  rw [runHart_ready h, hb]

/-- A body that waits leaves the hart waiting. -/
theorem runHart_wait {w : Wait} {f : State → State} (h : Ready i tk s s1) (hb : body s1 = .wait w f) :
    runHart i tk s body = .next ((f s1).waiting w) := by
  rw [runHart_ready h, hb]

/-- A body whose task ends. -/
theorem runHart_ended (h : Ready i tk s s1) (hb : body s1 = .ended u) : runHart i tk s body = .next u := by
  rw [runHart_ready h, hb]

/-- The W pop changes of the hart only how far its instruction has come. -/
theorem popW_hart (h : s.popW tk = some s1) : s1.hart = s.hart ∨ s1.hart = { s.hart with stage := .wPopped } := by
  unfold State.popW at h
  split at h
  · split at h
    · cases h; right; simp
    · split at h
      · cases h; right; simp
      · cases h
  · cases h; left; rfl

/-- The W pop leaves the pc. -/
theorem popW_pc (h : s.popW tk = some s1) : s1.hart.pc = s.hart.pc := by
  rcases popW_hart h with e | e <;> rw [e]

/-- No operand that names a queue wrongly. -/
theorem guardMap_ok {bads : List (Bool × Reg)} {k : Act} (h : ∀ b ∈ bads, b.1 = false) : guardMap bads k = k := by
  have : bads.find? (fun b => b.1) = none := List.find?_eq_none.mpr (fun b hb => by simp [h b hb])
  simp only [guardMap, this]

/-- A uniform source that is there. -/
theorem srcU_got {r : Reg} {x : UVal} {k : UVal → State → Act} (h : s.readU r = .got x s1) : srcU s r k = k x s1 := by
  simp only [srcU, h]

/-- A vector source that is there. -/
theorem srcV_got {r : Reg} {x : VVal} {k : VVal → State → Act} (h : s.readV r = .got x s1) : srcV s r k = k x s1 := by
  simp only [srcV, h]

/-- A uniform destination that is written. -/
theorem dstU_ok {r : Reg} {x : UVal} (h : s.putU r x = .ok s1) : dstU s r x = .done s1 := by
  simp only [dstU, Act.ofPut, h]

/-- A vector destination that is written. -/
theorem dstV_ok {r : Reg} {f : VVal → Bool → VVal} (h : s.putV r f = .ok s1) : dstV s r f = .done s1 := by
  simp only [dstV, Act.ofPut, h]

end Sys2Proof.Machine
end

