-- ==== Sys2Proof/Laws/Switch.lean ====
section
/-! SUPPORT. What flits on the move leave alone: taking one from an input and pushing one into an output change buffers, port
registers and the ownership table, and neither memory, nor a hart, nor how far a switch has come. -/

namespace Sys2Proof.Machine

variable (s : State) (r c d p inp key : Nat) (f : Flit)

@[simp] theorem State.cellAt_fire : (s.fire r).cellAt c = s.cellAt c := by simp [State.fire]
@[simp] theorem State.hartAt_fire : (s.fire r).hartAt d = s.hartAt d := by simp [State.fire]

@[simp] theorem State.modTaking_cells (g) : (s.modTaking r g).cells = s.cells := by simp [State.modTaking]
@[simp] theorem State.modTaking_harts (g) : (s.modTaking r g).harts = s.harts := by simp [State.modTaking]
@[simp] theorem State.modTaking_mem (g) : (s.modTaking r g).mem = s.mem := by simp [State.modTaking]
@[simp] theorem State.cellAt_modTaking (g) : (s.modTaking r g).cellAt c = s.cellAt c := by simp [State.modTaking]

@[simp] theorem State.modOwners_cells (g) : (s.modOwners r p g).cells = s.cells := by
  simp only [State.modOwners]; split <;> simp
@[simp] theorem State.modOwners_harts (g) : (s.modOwners r p g).harts = s.harts := by
  simp only [State.modOwners]; split <;> simp
@[simp] theorem State.modOwners_mem (g) : (s.modOwners r p g).mem = s.mem := by
  simp only [State.modOwners]; split <;> simp
@[simp] theorem State.cellAt_modOwners (g) : (s.modOwners r p g).cellAt c = s.cellAt c := by
  simp only [State.modOwners]; split <;> simp

/-- A change of a cell that leaves its switch leaves every switch. -/
theorem State.sw_modCell {g : Cell → Cell} (h : ∀ x, (g x).sw = x.sw) : ((s.modCell d g).cellAt c).sw = (s.cellAt c).sw := by
  by_cases e : c = d
  · subst e; simp [h]
  · simp [e]

@[simp] theorem State.sw_dropLines : ((s.dropLines d).cellAt c).sw = (s.cellAt c).sw := s.sw_modCell _ _ fun _ => rfl

/-- What came in a clk is noted beside a cell's contents and touches nothing else of it. -/
theorem Cell.pushed_eq (x : Cell) (n : Nat) : ∃ y, x.pushed key n = { x with young := y } := ⟨_, rfl⟩

/-- Flits pushed into a buffer stand behind what it held. -/
theorem State.buf_pushFlits (fs : List Flit) : ((s.pushFlits c key p fs).cellAt c).buf key = (s.cellAt c).buf key ++ fs := by
  unfold State.pushFlits; dsimp only
  split <;> simp [Cell.setBuf, Cell.buf]

/-- The other buffers are as they were. -/
theorem State.buf_pushFlits_ne (fs : List Flit) {k : Nat} (h : d ≠ c ∨ k ≠ key) :
    ((s.pushFlits c key p fs).cellAt d).buf k = (s.cellAt d).buf k := by
  unfold State.pushFlits; dsimp only
  by_cases e : d = c
  · subst e
    have hk : k ≠ key := by simpa using h
    split <;> simp [Cell.setBuf, Cell.buf, lookupD_insertAt_ne, hk]
  · split <;> simp [e]

/-- A push into a buffer leaves the rest of every cell but the note of what came in this clk. -/
theorem State.cell_pushFlits (fs : List Flit) :
    ∃ b y, (s.pushFlits c key p fs).cellAt d = { s.cellAt d with bufs := b, young := y } := by
  unfold State.pushFlits; dsimp only
  by_cases e : d = c
  · subst e
    obtain ⟨y, h⟩ := Cell.pushed_eq (256 + key) ((s.cellAt d).setBuf key ((s.cellAt d).buf key ++ fs)) fs.length
    split <;> exact ⟨_, y, by simpa using h⟩
  · split <;> exact ⟨(s.cellAt d).bufs, (s.cellAt d).young, by simp [e]⟩

theorem State.sw_pushFlits (fs : List Flit) : ((s.pushFlits c key p fs).cellAt d).sw = (s.cellAt d).sw := by
  obtain ⟨b, y, e⟩ := s.cell_pushFlits c d p key fs; rw [e]

@[simp] theorem State.pushFlits_mem (fs : List Flit) : (s.pushFlits c key p fs).mem = s.mem := by
  unfold State.pushFlits; dsimp only; split <;> simp
@[simp] theorem State.pushFlits_harts (fs : List Flit) : (s.pushFlits c key p fs).harts = s.harts := by
  unfold State.pushFlits; dsimp only; split <;> simp

/-- What a delivery does to a cell leaves its switch. -/
theorem Cell.sw_deliver (k : Cell) : (k.deliver p inp f).sw = k.sw := by
  unfold Cell.deliver Cell.modNode Cell.setYoung; dsimp only; repeat' split
  all_goals rfl

theorem State.sw_countPort : ((s.countPort d p f).cellAt c).sw = (s.cellAt c).sw := by
  unfold State.countPort; split
  · exact s.sw_modCell _ _ fun _ => rfl
  · rfl

theorem State.sw_popFlit (rest : Fifo) : ((s.popFlit d inp key f rest).cellAt c).sw = (s.cellAt c).sw := by
  simp only [State.popFlit, State.cellAt_fire, State.sw_countPort]
  exact s.sw_modCell _ _ fun _ => rfl

theorem State.sw_pushTie (t : Tie) : ((s.pushTie d inp t f).cellAt c).sw = (s.cellAt c).sw := by
  unfold State.pushTie
  split
  · split
    · rename_i e
      split at e
      · simp only [State.takeTenon] at e
        split at e <;> simp at e
        simp [← e, State.setOwner]
      · cases e
    · exact s.sw_pushFlits ..
  · dsimp only
    rw [State.sw_modCell _ _ _ fun _ => Cell.sw_deliver ..]
    split <;> split <;> simp
  · rfl

/-- A push into the outputs of a switch leaves how far every switch has come. -/
theorem State.sw_pushAll (ts : List (Nat × Tie)) : ((s.pushAll d inp f ts).cellAt c).sw = (s.cellAt c).sw := by
  simp only [State.pushAll, State.cellAt_fire]
  induction ts generalizing s with
  | nil => rfl
  | cons t ts ih => rw [List.foldl_cons, ih, State.sw_countPort, State.sw_pushTie]

end Sys2Proof.Machine
end

