-- ==== Sys2Proof/Machine/Assembler.lean ====
section
/-! DEFINITION. What pormon-as and pormon-ld make of expressions, branch targets, pseudo-instructions and relocations (R74, R76-R78, R80). No
step of the machine uses it. -/

namespace Sys2Proof.Machine

/-- An operator of an expression with two operands (R77). -/
inductive BinOp where
  | mul | div | rem | add | sub | shl | shr | and | xor | or
  deriving DecidableEq, Repr

/-- An expression (R77). -/
inductive Expr where
  | lit (v : BitVec 64)
  /-- the address of the current statement -/
  | here
  | sym (name : String)
  | neg (e : Expr)
  | not (e : Expr)
  | hi (e : Expr)
  | lo (e : Expr)
  | bin (op : BinOp) (a b : Expr)
  deriving DecidableEq, Repr

/-- Whether a value lies in the range that hi takes (R77). -/
def hiFits (v : BitVec 64) : Bool := decide (-2 ^ 30 ≤ v.toInt) && decide (v.toInt < 2 ^ 30)

/-- The value of an operator; none for a zero divisor (R77). -/
def BinOp.value (op : BinOp) (a b : BitVec 64) : Option (BitVec 64) :=
  match op with
  | .mul => some (a * b)
  | .div => if b = 0#64 then none else some (BitVec.ofInt 64 (a.toInt.tdiv b.toInt))
  | .rem => if b = 0#64 then none else some (BitVec.ofInt 64 (a.toInt.tmod b.toInt))
  | .add => some (a + b)
  | .sub => some (a - b)
  | .shl => some (a <<< b.toNat)
  | .shr => some (a.sshiftRight b.toNat)
  | .and => some (a &&& b)
  | .xor => some (a ^^^ b)
  | .or => some (a ||| b)

/-- The value of an expression at an address under the values of symbols; none is an error (R77). -/
def Expr.value (here : BitVec 64) (syms : List (String × BitVec 64)) : Expr → Option (BitVec 64)
  | .lit v => some v
  | .here => some here
  | .sym n => (syms.find? (fun p => p.1 = n)).map Prod.snd
  | .neg e => (e.value here syms).map (fun v => -v)
  | .not e => (e.value here syms).map (fun v => ~~~v)
  | .hi e => (e.value here syms).bind (fun v => if hiFits v then some (v.sshiftRight 13) else none)
  | .lo e => (e.value here syms).map (fun v => v &&& 0x1FFF#64)
  | .bin op a b => (a.value here syms).bind (fun x => (b.value here syms).bind (op.value x))

/-- A value as a signed field of w bits; none where it does not fit (R76). -/
def signedField (w : Nat) (v : Int) : Option (BitVec w) :=
  if -2 ^ (w - 1) ≤ v ∧ v < 2 ^ (w - 1) then some (BitVec.ofInt w v) else none

/-- The field of a branch or jump for an offset in bytes: even, encoded divided by 2, within reach (R74, R76). -/
def targetField (w : Nat) (offset : Int) : Option (BitVec w) :=
  if offset % 2 = 0 then signedField w (offset / 2) else none

/-! Pseudo-instructions (R78). -/

/-- A pseudo-instruction. -/
inductive Pseudo where
  | nop
  | mv (d a : Reg)
  | ret
  | call (target : BitVec 64)
  | li (d : Reg) (v : BitVec 64)
  | la (d : Reg) (target : BitVec 64)
  deriving DecidableEq, Repr

/-- An instruction without token bits. -/
def plainTok : Tok := ⟨false, false⟩

/-- An ori of a chunk, left out where the chunk is 0. -/
def orChunk (d : Reg) (c : BitVec 13) : List Instr := if c = 0#13 then [] else [.ori plainTok d d c]

/-- li of a value below 2^30 in magnitude (R78). -/
def loadShort (d : Reg) (v : BitVec 64) : List Instr :=
  if -4096 ≤ v.toInt ∧ v.toInt ≤ 4095 then [.addi plainTok d 0#5 (v.setWidth 13)]
  else .lih plainTok d ((v.sshiftRight 13).setWidth 18) :: orChunk d (v.setWidth 13)

/-- li (R78). -/
def loadValue (d : Reg) (v : BitVec 64) : List Instr :=
  if hiFits v then loadShort d v
  else
    loadShort d (v.sshiftRight 39) ++
      (.slli plainTok d d 13#6 :: orChunk d (v.extractLsb' 26 13)) ++
      (.slli plainTok d d 13#6 :: orChunk d (v.extractLsb' 13 13)) ++
      (.slli plainTok d d 13#6 :: orChunk d (v.extractLsb' 0 13))

/-- The expansion of a pseudo-instruction at an address; none where its target is out of reach (R76, R78). -/
def Pseudo.expand (here : BitVec 64) : Pseudo → Option (List Instr)
  | .nop => some [.addi plainTok 0#5 0#5 0#13]
  | .mv d a => some [.add plainTok d a 0#5]
  | .ret => some [.jalr plainTok 0#5 1#5 0#13]
  | .call t => (targetField 23 (t - here).toInt).map (fun i => [.jal plainTok i])
  | .li d v => some (loadValue d v)
  | .la d t =>
    let o := t - here
    if -2 ^ 30 < o.toInt ∧ o.toInt < 2 ^ 30 then
      let h := (o + 4096#64).sshiftRight 13
      some [.addpc plainTok d (h.setWidth 18), .addi plainTok d d ((o - h * 8192#64).setWidth 13)]
    else none

/-! Relocations (R80). -/

/-- Whether a major opcode has format B: the branches, the stores and vst (R49). -/
def formatB (maj : BitVec 6) : Bool :=
  (decide (0x0D ≤ maj.toNat) && decide (maj.toNat ≤ 0x12)) || (decide (0x30 ≤ maj.toNat) && decide (maj.toNat ≤ 0x33)) || decide (maj.toNat = 0x35)

/-- A 32-bit word with a value of 13 bits in its imm13, in format B or I (R44, R80). -/
def setImm13 (w : BitVec 32) (i : BitVec 13) : BitVec 32 :=
  let f := unpackFields w
  packFields (if formatB f.maj then { f with f8 := i.extractLsb' 5 8, rd := i.extractLsb' 0 5 }
    else { f with f8 := i.extractLsb' 5 8, rb := i.extractLsb' 0 5 })

/-- A 32-bit word with a value of 18 bits in its imm18 (R44, R80). -/
def setImm18 (w : BitVec 32) (i : BitVec 18) : BitVec 32 :=
  packFields { unpackFields w with f8 := i.extractLsb' 10 8, rb := i.extractLsb' 5 5, ra := i.extractLsb' 0 5 }

/-- A 32-bit word with a value of 23 bits in its imm23 (R44, R80). -/
def setImm23 (w : BitVec 32) (i : BitVec 23) : BitVec 32 :=
  packFields { unpackFields w with f8 := i.extractLsb' 15 8, rb := i.extractLsb' 10 5, ra := i.extractLsb' 5 5, rd := i.extractLsb' 0 5 }

/-- A relocation of a 32-bit word whose patched value is v; none where the value does not fit its field (R80). Kinds 2 and 3 take an
offset in bytes, the others the field's own value. -/
def relocate (kind : Nat) (w : BitVec 32) (v : Int) : Option (BitVec 32) :=
  match kind with
  | 2 => (targetField 13 v).map (setImm13 w)
  | 3 => (targetField 23 v).map (setImm23 w)
  | 4 => (signedField 13 v).map (setImm13 w)
  | 5 => (signedField 18 v).map (setImm18 w)
  | 6 => (signedField 18 v).map (setImm18 w)
  | _ => none

end Sys2Proof.Machine
end

