-- ==== Sys2Proof/Safety.lean ====
section
/-! DEFINITION. What a safe run is: the forms that the machine's state keeps, and the runs that never stop. -/

namespace Sys2Proof.Safety

open Sys2Proof.Machine

/-- Every memory of the machine is in its canonical form. -/
def memOk (s : State) : Prop := s.mem.wf

/-- n steps that end in a state. -/
def runsTo : Nat → State → State → Prop
  | 0, s, t => s = t
  | n + 1, s, t => ∃ u, step s = .next u ∧ runsTo n u t

/-- A state from which no run stops in a fault or a refusal. -/
def neverStops (s : State) : Prop := ∀ n t, runsTo n s t → ∃ u, step t = .next u

end Sys2Proof.Safety
end

