-- ==== Sys2Proof/Tests/Slice0.lean ====
section
/-! SUPPORT. The model's own tests: words of the encoding tables, the checks of WellFormed, single steps, and for each statement
a state and operands that meet its hypotheses. -/

namespace Sys2Proof.Tests

open Sys2Proof.Machine Sys2Proof.Spec

set_option maxRecDepth 20000

/-- No token bits. -/
abbrev n0 : Tok := ⟨false, false⟩

/-! Words written out from the encoding tables (R42-R73), family by family. -/

/-- OP (R50): mul x3, x4, x5. -/
theorem test_word_mul : decodeTableWord 32 0x040A4183 = some (.mul n0 3#5 4#5 5#5) := by decide
/-- Immediates (R51): addi x4, x0, 4. -/
theorem test_word_addi : decodeTableWord 32 0x00080205 = some (.addi n0 4#5 0#5 4#13) := by decide
/-- Branch on a tag (R52): btsb x5, 8, +12. -/
theorem test_word_btsb : decodeTableWord 32 0x000C5429 = some (.btsb n0 5#5 8#5 6#13) := by decide
/-- Float (R53): fadd.rne x3, x4, x5. -/
theorem test_word_fadd : decodeTableWord 32 0x000A41AB = some (.fadd n0 0#3 3#5 4#5 5#5) := by decide
/-- Fused (R53): fma x3, x4, x5, x6. -/
theorem test_word_fma : decodeTableWord 32 0x018A41AD = some (.fma n0 3#5 4#5 5#5 6#5) := by decide
/-- Vector integer (R54): vadd.i32 v1, v2, v3, m1. -/
theorem test_word_vadd : decodeTableWord 32 0x004620B1 = some (.vadd n0 .i32 1#3 1#5 2#5 3#5) := by decide
/-- Vector conversion (R54): vcvt.f32.f16 v2, v1, 1. -/
theorem test_word_vcvt : decodeTableWord 32 0x14121137 = some (.vcvt n0 .f32 0#3 2#5 1#5 1#2 1#3) := by decide
/-- Loads (R57): ld.w x5, [x6 + 16]. -/
theorem test_word_ldw : decodeTableWord 32 0x002062D9 = some (.ldW n0 5#5 6#5 16#13) := by decide
/-- Stores (R57): st.d x7, [x2 - 8]. -/
theorem test_word_std : decodeTableWord 32 0x3FCE2C67 = some (.stD n0 7#5 2#5 (BitVec.ofInt 13 (-8))) := by decide
/-- Vector loads (R57): vld v3, [x4 + 256]. -/
theorem test_word_vld : decodeTableWord 32 0x020041E9 = some (.vld n0 3#5 4#5 256#13) := by decide
/-- Atomics (R59): amoadd.w.device x5, x6, [x7]. -/
theorem test_word_amoadd : decodeTableWord 32 0x040C72EF = some (.amoadd n0 4#3 0#1 5#5 7#5 6#5) := by decide
/-- CSR (R60): csrw tvec, x9. -/
theorem test_word_csrw : decodeTableWord 32 0x10049071 = some (.csrw n0 9#5 0x002#11) := by decide
/-- System (R61): tret, ecall, fence.rel.device, qtok x5, iq0. -/
theorem test_word_system :
    decodeTableWord 32 0x01800073 = some (.tret n0) ∧ decodeTableWord 32 0x01000073 = some (.ecall n0) ∧
    decodeTableWord 32 0x00004173 = some (.fence n0 2#2 4#3) ∧ decodeTableWord 32 0x024182F3 = some (.qtok n0 5#5 0#3) := by decide
/-- A parcel (R65): c.add x3, x4, which has bit 0 clear. -/
theorem test_word_cadd : decodeTableWord 16 0x10C8 = some (.cAdd 3#5 4#5) := by decide
/-- A switch word (R72): jmp 5, with operation 9 in bits 63:59. -/
theorem test_word_jmp : decodeTableWord 64 0x4800000000000005 = some (.jmp 5#12) := by decide
/-- R66: a word of an unused major has no instruction. -/
theorem test_word_illegal : decodeTableWord 32 0x0000007F = none := by decide

/-! WellFormed: a term that each check refuses (R46-R66, R72, R287). -/

theorem test_wf_refuses : ∀ i ∈ [
    Instr.jalr n0 24#5 1#5 0#13,                     -- a queue outside the data positions (R47)
    .vldx n0 0#3 1#5 1#5 28#5,                       -- a vector queue as index (R47)
    .xtom n0 0#3 1#5,                                -- m0 written (R55)
    .ldAcq n0 0#3 1#5 1#5 6#3,                       -- scope 6 (R58)
    .fadd n0 6#3 1#5 2#5 3#5,                        -- rounding selection 6 (R53)
    .fcvt n0 3#3 0#3 4#3 1#5 2#5,                    -- two integer types (R53)
    .vcvt n0 .f32 0#3 1#5 2#5 2#2 1#3,               -- sel 2 of two halves (R173)
    .vcvtI n0 .i32 0#3 1#5 2#5 0#2 3#3,              -- an integer source of an integer major (R54)
    .csrr n0 1#5 0x7FF#11,                           -- a number no class has (R60)
    .btsb n0 1#5 25#5 0#13,                          -- a threshold above 24 (R52)
    .fence n0 0#2 0#3,                               -- no kind (R61)
    .acnv n0 11#4 0#3 0#2,                           -- format code 11 (R63)
    .alloc n0 1#5 2#5 3#2,                           -- size code 3 (R64)
    .route 0#2 0x108#10 0#10 0#10 0#10 0#12,         -- both ports local (R72)
    .route 1#2 0x001#10 0x021#10 0#10 0#10 0#12,     -- one output twice (R287)
    .routec 0#2 0x001#10 0#10 0#10 0#10 4#3,         -- kind KERF (R281)
    .steer 1#5 2#5 3#5 1#5 0#12,                     -- the control input is the data input (R282)
    .emit 1#5 6#3 0#5 0#6 0#32,                      -- subtype 0 of a control flit (R284)
    .waittok 1#5 6#3 7#6 0#1 0#2 0#12], i.wf = false := by decide

/-! A bench: one hart of one cell runs a task of context 1 in region 0, which holds bay 0; its page 0 is mapped. -/

/-- The region of the bench. -/
def benchRegion : Region := { Region.reset with ctx := 1, bw := 1, bh := 1, holds := true, state := .active }

/-- Hart `h` of bay 0 with a task, its record changed by `f`. -/
def bench (h : Nat) (f : Hart → Hart) : State :=
  { State.reset with
    cur := h
    harts := [(h, f { Hart.reset with pc := 0x1000#64, task := some ⟨1, 0, 0, 0#256, none⟩ })]
    cells := [(1, { Cell.reset with tlb := [⟨1, 0, 8192, 0, true, true, true, false⟩] })]
    regions := [(0, benchRegion)]
    ctxs := [(1, Context.reset)] }

/-- Without token bits an instruction that the class of the hart has is ready where no trap is due. -/
theorem ready_bare {i : Instr} {s : State} (h : s.dueTrap = none) (hl : legalFor s.cur i = true) : Ready i n0 s s :=
  ⟨h, hl, fun _ => rfl, rfl⟩

/-- Compute hart 0. -/
def p0 : State := bench 0 id

/-- Compute hart 0 with x1 = 6 and x2 = 7. -/
def p0x : State := bench 0 (fun h => (h.setX 1#5 ⟨6#64, 24#5, false⟩).setX 2#5 ⟨7#64, 24#5, false⟩)

/-! Witnesses: uniform instructions. -/

theorem witness_uniform_binary : ∃ s4 v, Ready (.add n0 3#5 1#5 2#5) n0 p0x p0x ∧ Ready (.lea n0 1#2 3#5 1#5 2#5) n0 p0x p0x ∧
    Parties p0x [1#5, 2#5] [3#5] [] [] ∧ p0x.readU 1#5 = .got ⟨6#64, 24#5, false⟩ p0x ∧
    p0x.readU 2#5 = .got ⟨7#64, 24#5, false⟩ p0x ∧ p0x.putU 3#5 ⟨13#64, 24#5, false⟩ = .ok s4 ∧ s4.pushS n0 = some v :=
  ⟨_, _, ready_bare rfl rfl, ready_bare rfl rfl, ⟨by decide, by decide, by decide, by decide⟩, rfl, rfl, rfl, rfl⟩

/-- The forms of one shape are all ready there. -/
theorem witness_uniform_ready : ∀ i ∈ [Instr.sub n0 3#5 1#5 2#5, .and n0 3#5 1#5 2#5, .mulhu n0 3#5 1#5 2#5, .clz n0 3#5 1#5,
    .addi n0 3#5 1#5 1#13, .srai n0 3#5 1#5 1#6, .lih n0 3#5 1#18, .addpc n0 3#5 1#18, .div n0 3#5 1#5 2#5, .pset n0 .lt 1#2 1#5 2#5,
    .beq n0 1#5 2#5 4#13, .bp n0 1#2 4#13, .bany n0 1#3 4#13, .btsb n0 1#5 24#5 4#13, .j n0 4#23, .jal n0 4#23, .jalr n0 3#5 1#5 0#13,
    .cMv 3#5 1#5, .cAdd 1#5 2#5, .cLi 3#5 1#5, .cNop, .cBeqz 1#5 2#5, .cJ 2#10, .cJr 1#5, .cJalr 1#5,
    .fadd n0 0#3 3#5 1#5 2#5, .fsqrt n0 5#3 3#5 1#5, .fma n0 3#5 1#5 2#5 4#5, .feq n0 3#5 1#5 2#5, .fclass n0 3#5 1#5,
    .fcvt n0 0#3 0#3 3#3 3#5 1#5, .mand n0 1#3 2#3 3#3, .mtox n0 3#5 1#3, .xtom n0 1#3 1#5], Ready i n0 p0x p0x := by
  intro i hi; fin_cases hi <;> exact ready_bare rfl rfl

/-- The boundary case of a division, where p3 becomes 1 (R136). -/
theorem witness_division : ∃ s4 v, Ready (.div n0 3#5 1#5 0#5) n0 p0x p0x ∧ Parties p0x [1#5, 0#5] [3#5] [] [] ∧
    p0x.readU 1#5 = .got ⟨6#64, 24#5, false⟩ p0x ∧ p0x.readU 0#5 = .got ⟨0#64, 24#5, false⟩ p0x ∧
    ((p0x.note false 1).modHart (fun h => h.setP 3#2 true)).putU 3#5 ⟨0#64, 24#5, false⟩ = .ok s4 ∧ s4.pushS n0 = some v :=
  ⟨_, _, ready_bare rfl rfl, ⟨by decide, by decide, by decide, by decide⟩, rfl, rfl, rfl, rfl⟩

/-- Both outcomes of a compare-and-branch, and of a branch on a tag at its boundary. -/
theorem witness_branches : p0x.readU 1#5 = .got ⟨6#64, 24#5, false⟩ p0x ∧ p0x.readU 2#5 = .got ⟨7#64, 24#5, false⟩ p0x ∧
    p0x.pushS n0 = some p0x ∧ (6#64).toInt < (7#64).toInt ∧ ¬ (7#64).toInt < (6#64).toInt ∧ ¬ (min 24 24 < 24) ∧ min 23 24 < 24 ∧
    p0x.hart.pval 1#2 = false ∧ (p0x.modHart (fun h => h.setP 1#2 true)).hart.pval 1#2 = true ∧ p0x.badSrcU 1#5 = false := by
  refine ⟨rfl, rfl, rfl, ?_⟩; decide

/-- A jump and its link: xd may be xa. -/
theorem witness_jumps : ∃ s2 s3, p0x.putU 1#5 ⟨p0x.hart.pc + 4#64, 24#5, false⟩ = .ok s2 ∧ s2.pushS n0 = some s2 ∧
    (p0x.note false 1).putU 1#5 ⟨p0x.hart.pc + 4#64, 24#5, false⟩ = .ok s3 ∧ s3.pushS n0 = some s3 :=
  ⟨_, _, rfl, rfl, rfl, rfl⟩

/-- Compute hart 0 with x1 = 1.0 and x2 = 2^-10 - 1 with tags 8, and SIGTHR armed at 8. -/
def p0f : State := bench 0 (fun h =>
  { (h.setX 1#5 ⟨0x3F800000#64, 8#5, false⟩).setX 2#5 ⟨0xBF7FC000#64, 8#5, false⟩ with sigEn := true, sigThr := 8#5 })

/-- An armed threshold: a sum that holds it and one that fails it (R188). -/
theorem witness_float : Ready (.fadd n0 0#3 3#5 1#5 2#5) n0 p0f p0f ∧ Parties p0f [1#5, 2#5] [3#5] [] [] ∧
    p0f.readU 1#5 = .got ⟨0x3F800000#64, 8#5, false⟩ p0f ∧ p0f.readU 2#5 = .got ⟨0xBF7FC000#64, 8#5, false⟩ p0f ∧
    (fElem .add .fp32 (p0f.hart.mode 0#3) p0f.hart.thr ⟨0x3F800000, 8⟩ ⟨0x3F800000, 8⟩ ⟨0x3F800000, 8⟩).fails = false ∧
    (fElem .add .fp32 (p0f.hart.mode 0#3) p0f.hart.thr ⟨0x3F800000, 8⟩ ⟨0xBF7FC000, 8⟩ ⟨0xBF7FC000, 8⟩).fails = true := by
  refine ⟨ready_bare rfl rfl, ⟨by decide, by decide, by decide, by decide⟩, rfl, rfl, ?_⟩; decide

/-! Single steps, results by hand from the rules. -/

/-- R135, R132: 6 + 7 = 13 and the pc moves by 4. -/
theorem test_add : (match exec (.add n0 3#5 1#5 2#5) p0x with
    | .next t => decide ((t.hart.xval 3#5).val = 13#64 ∧ t.hart.pc = 0x1004#64 ∧ t.hart.instret = 1#64)
    | _ => false) = true := by decide
/-- R46: a write to x0 is discarded. -/
theorem test_x0 : (match exec (.add n0 0#5 1#5 2#5) p0x with
    | .next t => decide (t.hart.xval 0#5 = ⟨0#64, 24#5, false⟩)
    | _ => false) = true := by decide
/-- R136: a division by 0 gives 0 and sets p3. -/
theorem test_div_by_zero : (match exec (.div n0 3#5 1#5 0#5) p0x with
    | .next t => decide ((t.hart.xval 3#5).val = 0#64 ∧ t.hart.pval 3#2 = true)
    | _ => false) = true := by decide
/-- R163, R91: 1.0 + (2^-10 - 1) = 2^-10, exactly. -/
theorem test_fadd : (match exec (.fadd n0 0#3 3#5 1#5 2#5) { p0f with harts := [(0, { p0f.hart with sigEn := false })] } with
    | .next t => decide ((t.hart.xval 3#5).val = 0x3A800000#64)
    | _ => false) = true := by decide
/-- R140: a branch not taken goes on behind it. -/
theorem test_beq : (match exec (.beq n0 1#5 2#5 8#13) p0x with
    | .next t => decide (t.hart.pc = 0x1004#64)
    | _ => false) = true := by decide
/-- R141: jal links in x1 and goes to pc + 2 · imm. -/
theorem test_jal : (match exec (.jal n0 8#23) p0x with
    | .next t => decide (t.hart.pc = 0x1010#64 ∧ (t.hart.xval 1#5).val = 0x1004#64)
    | _ => false) = true := by decide
/-- R28: a compute hart that reads an empty load queue waits; without a queue map it is QUEUE_MAP, and without a handler its
task ends (R27, R222). -/
theorem test_queue_map : (match exec (.add n0 3#5 24#5 2#5) p0x with
    | .next t => decide (t.hart.task = none)
    | _ => false) = true := by decide

/-! Witnesses: vector instructions. -/

/-- A vector of one value. -/
def splat (w : Word32) : VVal := VVal.ofFn (fun _ => ⟨w, 0x18#8⟩) (fun _ => false)

/-- Compute hart 0 with v1 = 1.0, v2 = 2.0 in every lane, x1 = 2, m1 = lanes 0 and 1, m2 empty, and the traps of lanes that
differ on. -/
def p0v : State := bench 0 (fun h =>
  { ((((h.setX 1#5 ⟨2#64, 24#5, false⟩).setV 1#5 (splat 0x3F800000#32)).setV 2#5 (splat 0x40000000#32)).setM 1#3 3#64) with nut := true })

theorem witness_vector_ready : ∀ i ∈ [Instr.vadd n0 .i32 1#3 3#5 1#5 2#5, .vand n0 .i8 0#3 3#5 1#5 2#5, .vcmp n0 .i16 .lt 0#3 3#3 1#5 2#5,
    .vsel n0 .i32 1#3 3#5 1#5 2#5, .vclip n0 0#1 0#3 3#5 1#5 2#5 1#5, .vperm n0 0#3 3#5 1#5 2#5, .vslideUp n0 0#3 3#5 1#5 1#5,
    .vslideDn n0 0#3 3#5 1#5 1#5, .vredAdd n0 .i32 2#3 3#5 1#5, .vscanAdd n0 .i32 0#3 3#5 1#5, .vdot4 n0 0#3 3#5 1#5 2#5,
    .xtov n0 0#3 3#5 1#5, .vtox n0 2#3 3#5 1#5, .vtoxa n0 0#3 3#5 1#5, .vfadd n0 .f32 0#3 3#5 1#5 2#5, .vfma n0 .f32 0#3 3#5 1#5 2#5 1#5,
    .vfsqrt n0 .f32 0#3 3#5 1#5, .vfcmp n0 .f32 .lt 0#3 3#3 1#5 2#5, .vcvt n0 .f32 0#3 3#5 1#5 0#2 3#3, .vcvtI n0 .i32 0#3 3#5 1#5 0#2 0#3,
    .vredFadd n0 .f32 2#3 3#5 1#5, .vscanFadd n0 .f32 0#3 3#5 1#5, .vexp2 n0 0#3 3#5 1#5, .vtsb n0 .f32 0#3 3#5 1#5,
    .vtsblt n0 .f32 0#3 3#3 1#5 1#5, .vsettsb n0 .f32 0#3 3#5 1#5 1#5], Ready i n0 p0v p0v := by
  intro i hi; fin_cases hi <;> exact ready_bare rfl rfl

/-- The operands of the shapes of vector instructions: sources, destinations in each file, a mask with two lanes and an empty one. -/
theorem witness_vector_operands (f : VVal → Bool → VVal) (v : UVal) : ∃ s4 s5,
    Parties p0v [1#5] [] [1#5, 2#5, 3#5] [3#5] ∧ Parties p0v [1#5] [3#5] [1#5] [] ∧
    p0v.readV 1#5 = .got (splat 0x3F800000#32) p0v ∧ p0v.readV 2#5 = .got (splat 0x40000000#32) p0v ∧
    p0v.readV 3#5 = .got VVal.zero18 p0v ∧ p0v.readU 1#5 = .got ⟨2#64, 24#5, false⟩ p0v ∧
    p0v.putV 3#5 f = .ok s4 ∧ s4.pushS n0 = some s4 ∧ p0v.putU 3#5 v = .ok s5 ∧ s5.pushS n0 = some s5 ∧
    p0v.hart.mval 1#3 = 3#64 ∧ p0v.hart.mval 2#3 = 0#64 :=
  ⟨_, _, ⟨by decide, by decide, by decide, by decide⟩, ⟨by decide, by decide, by decide, by decide⟩, rfl, rfl, rfl, rfl, rfl, rfl, rfl,
    rfl, rfl, rfl⟩

/-- The lowest active lane of m1 is lane 0; lanes that differ, and lanes that do not (R154, R155). -/
theorem witness_lanes : (3#64).getLsbD 0 = true ∧ (∀ i, i < 0 → (3#64).getLsbD i = false) ∧
    (∀ i, i < 64 → ¬ ((3#64).getLsbD i = true ∧ ((splat 1#32).lane i).bits ≠ ((splat 1#32).lane 0).bits)) ∧
    (∃ i, i < 64 ∧ (3#64).getLsbD i = true ∧
      ((VVal.ofFn (fun k => ⟨BitVec.ofNat 32 k, 0x18#8⟩) (fun _ => false)).lane i).bits ≠
        ((VVal.ofFn (fun k => ⟨BitVec.ofNat 32 k, 0x18#8⟩) (fun _ => false)).lane 0).bits) ∧
    (∃ i, i < 64 ∧ (3#64).getLsbD i = true ∧ ((splat 1#32).lane i).tag.toNat % 32 = 24) ∧
    (∀ i, i < 64 → (3#64).getLsbD i = true → 24 ≤ ((splat 1#32).lane i).tag.toNat % 32) := by
  refine ⟨by decide, by decide, ?_, ⟨1, by decide⟩, ⟨0, by decide⟩, ?_⟩
  · intro i hi; revert i; decide
  · intro i hi; revert i; decide

/-- R171: an element-wise sum: every lane that the mask has holds it, the others keep what they held (R126). -/
theorem test_vadd : (match exec (.vadd n0 .i32 1#3 2#5 1#5 1#5) p0v with
    | .next t => decide (((t.hart.vval 2#5).lane 1).bits = 0x7F000000#32 ∧ ((t.hart.vval 2#5).lane 2).bits = 0x40000000#32)
    | _ => false) = true := by decide
/-- R149, R158: a reduction over an empty mask gives 0 and sets p3. -/
theorem test_vred_empty : (match exec (.vredAdd n0 .i32 2#3 3#5 1#5) p0v with
    | .next t => decide ((t.hart.xval 3#5).val = 0#64 ∧ t.hart.pval 3#2 = true)
    | _ => false) = true := by decide

/-! Witnesses: ports and queues. -/

/-- A data flit that stands at a port register. -/
def dataItem : PortItem := ⟨⟨0#3, 0#5, 5#256⟩, 0, [], false, none⟩

/-- Compute hart 0 with eight data flits at hn, room for eight flits on its way out, a queue map that binds iq0 and oq0 to it, and an
entry in iq0. -/
def p0q : State :=
  { p0v with cells := insertAt 0 { Cell.reset with
      ports := [(0, List.replicate 8 dataItem)]
      grown := [(64, 8)]
      queues := [(0, { Queue.fresh with items := [.entry (.uniform ⟨9#64, 24#5, true⟩) 4] })]
      cfg := { CellCfg.none with queueMap := [⟨0, 8, 0, [4]⟩, ⟨4, 8, 4, [0]⟩] } } p0v.cells }

/-- A control flit stands at hn. -/
def p0t : State :=
  { p0v with cells := insertAt 0 { Cell.reset with ports := [(0, [{ dataItem with flit := ⟨6#3, 0#5, 1#256⟩ }])] } p0v.cells }

theorem witness_port_read (f : VVal → Bool → VVal) : Ready (.vportr n0 0#3 3#5 0#2) n0 p0q p0q ∧ Parties p0q [] [] [] [3#5] ∧
    p0q.portItems (p0q.hart.portOf 0) = dataItem :: List.replicate 7 dataItem ∧ dataItem.flit.isData = true ∧
    (∀ i ∈ List.replicate 8 dataItem, p0q.itemBlock i = p0q.itemBlock dataItem) ∧
    64 / p0q.itemBlock dataItem ≤ (List.replicate 8 dataItem).length ∧
    ∃ s2, ((p0q.dropPort (p0q.hart.portOf 0) 8).note false 0).putV 3#5 f = .ok s2 ∧ s2.pushS n0 = some s2 :=
  ⟨ready_bare rfl rfl, ⟨by decide, by decide, by decide, by decide⟩, rfl, rfl, by decide, by decide, _, rfl, rfl⟩

theorem witness_port_token : Ready (.vportr n0 0#3 3#5 0#2) n0 p0t p0t ∧ ∃ i, p0t.portItems (p0t.hart.portOf 0) = [i] ∧
    i.flit.isData = false := ⟨ready_bare rfl rfl, _, rfl, rfl⟩

theorem witness_port_write : Ready (.vportw n0 0#3 0#2 1#5) n0 p0q p0q ∧ p0q.hart.portKey = 0 ∧ Parties p0q [] [] [1#5] [] ∧
    p0q.readV 1#5 = .got (splat 0x3F800000#32) p0q ∧ p0q.bufRoom 0 (p0q.hart.outKey 0 0) 1 = true ∧
    (((p0q.hold p0q).modHart (fun h => { h with portKey := 65, portOut := List.replicate 8 ⟨0#3, 0#5, 0#256⟩ })).note
      false 3).pushOut.hart.portOut = [] :=
  ⟨ready_bare rfl rfl, rfl, ⟨by decide, by decide, by decide, by decide⟩, rfl, by decide, rfl⟩

/-- A vportw that has issued, with flits left that its channel takes, and one whose channel is full. -/
theorem witness_port_write_goes_on :
    (let s := p0q.modHart (fun h => { h with portKey := 65, portOut := [⟨0#3, 0#5, 0#256⟩] });
      Ready (.vportw n0 0#3 0#2 1#5) n0 s s ∧ s.hart.portKey ≠ 0 ∧ s.pushOut.hart.portOut = []) ∧
    (let s := p0q.modHart (fun h => { h with portKey := 65, portOut := List.replicate 20 ⟨0#3, 0#5, 0#256⟩ });
      Ready (.vportw n0 0#3 0#2 1#5) n0 s s ∧ s.hart.portKey ≠ 0 ∧ s.pushOut.hart.portOut ≠ []) := by
  refine ⟨⟨ready_bare rfl rfl, by decide, by decide⟩, ready_bare rfl rfl, by decide, by decide⟩

theorem witness_queue_tests : Ready (.qtest n0 1#2 0#3) n0 p0q p0q ∧ p0q.badSrcU 24#5 = false ∧ p0q.headKind 0#3 = some 0 ∧
    ∃ s2, Ready (.qtok n0 3#5 0#3) n0 p0q p0q ∧ p0q.putU 3#5 ⟨0#64, 24#5, false⟩ = .ok s2 ∧ s2.pushS n0 = some s2 :=
  ⟨ready_bare rfl rfl, rfl, rfl, _, ready_bare rfl rfl, rfl, rfl⟩

/-- A queue register read and written, with a poisoned entry, an empty queue and a full one (R28, R48, R211). -/
theorem witness_queues : p0q.hart.held = [] ∧ (p0q.cell.queue 0).ext = none ∧ p0q.draining = false ∧
    readCode (p0q.cell.mapFor 0) 0 = 0 ∧ (p0q.cell.queue 0).items = [.entry (.uniform ⟨9#64, 24#5, true⟩) 4] ∧
    writeCode (p0q.cell.mapFor 0) 0 = 4 ∧ (p0q.cell.queue 4).count < (p0q.cell.queue 4).depth ∧ (p0q.cell.queue 4).lock = none ∧
    (p0q.cell.queue 4).ended = [] ∧ (p0q.cell.queue 4).eosDue = none ∧ (p0v.cell.queue 0).items = [] ∧
    (⟨8, List.replicate 8 (.entry (.uniform (UVal.plain 0#64)) 0), none, none, [], none, 0⟩ : Queue).count = 8 := by
  refine ⟨rfl, rfl, rfl, rfl, rfl, rfl, ?_⟩; decide

/-! Witnesses: loads, stores, atomics. -/

/-- Compute hart 0 with x1 = 0x100, x2 = 7, x4 = 0x100 poisoned, x5 = 0x101, x6 = 2^52. -/
def p0m : State := bench 0 (fun h => ((((h.setX 1#5 ⟨0x100#64, 24#5, false⟩).setX 2#5 ⟨7#64, 24#5, false⟩).setX 4#5
  ⟨0x100#64, 24#5, true⟩).setX 5#5 ⟨0x101#64, 24#5, false⟩).setX 6#5 ⟨0x10000000000000#64, 24#5, false⟩)

/-- The streamer IN likewise. -/
def s4m : State := bench 4 (fun h => (h.setX 1#5 ⟨0x100#64, 24#5, false⟩).setX 2#5 ⟨7#64, 24#5, false⟩)

/-- The bench has the address translated. -/
def benchLeaf : TlbEntry := ⟨1, 0, 8192, 0, true, true, true, false⟩

theorem witness_scalar_load : Ready (.ldW n0 3#5 1#5 0#13) n0 p0m p0m ∧ Ready (.cLdw 3#5 0#5) bare p0m p0m ∧
    Parties p0m [] [3#5] [] [] ∧ p0m.readU 1#5 = .got ⟨0x100#64, 24#5, false⟩ p0m ∧
    p0m.readU 4#5 = .got ⟨0x100#64, 24#5, true⟩ p0m ∧ p0m.readU 5#5 = .got ⟨0x101#64, 24#5, false⟩ p0m ∧ (0x101#64).toNat % 4 ≠ 0 ∧
    p0m.hart.xBusy 3#5 = false ∧ p0m.place false [⟨0, 0x100, 4⟩] = .ok [⟨0, 0x100, 4, none⟩] ∧
    p0m.hart.storeOverlap [(0x100, 4)] = false ∧ p0m.hart.loadOverlap [(0x100, 4)] = false ∧
    ∃ t, Begins p0m (p0m.loadDst 3#5) (.scalar 4 true) [⟨0, 0x100, 4, none⟩] 0#64 [(0x100, 4)] t ∧ t.pushS n0 = some t :=
  ⟨ready_bare rfl rfl, ready_bare rfl rfl, ⟨by decide, by decide, by decide, by decide⟩, rfl, rfl, rfl, by decide, by decide, rfl,
    by decide, by decide, _, rfl, rfl⟩

theorem witness_vector_load : Ready (.vld n0 3#5 1#5 0#13) n0 p0m p0m ∧ Ready (.vldx n0 1#3 3#5 1#5 2#5) n0 p0m p0m ∧
    Parties p0m [] [] [] [3#5] ∧ p0m.hart.vBusy 3#5 = false ∧ p0m.readV 2#5 = .got VVal.zero18 p0m ∧
    (∃ ps, p0m.place true ((List.range 64).map (fun k => (⟨k, 0x100 + 4 * k, 4⟩ : Access))) = .ok ps) ∧
    p0m.hart.storeOverlap [(0x100, 4)] = false ∧ p0m.hart.loadOverlap [(0x100, 4)] = false :=
  ⟨ready_bare rfl rfl, ready_bare rfl rfl, ⟨by decide, by decide, by decide, by decide⟩, by decide, rfl, ⟨_, rfl⟩, by decide, by decide⟩

/-- A load with its one line there. -/
def readyLoad : Load := ⟨0, .xreg 3#5, .scalar 4 true, [⟨0, 0x100, 4, none⟩], 0#64, [⟨0x100, some (List.replicate 64 0xFF#8, [])⟩], []⟩

theorem witness_load_return : ∃ s : State, (s.hartAt 0).loads[0]? = some readyLoad ∧ readyLoad.ready = true ∧
    readyLoad.kind = .scalar 4 true ∧ readyLoad.pieces = [⟨0, 0x100, 4, none⟩] ∧ readyLoad.dst = .xreg 3#5 :=
  ⟨p0m.modHart (fun h => { h with loads := [readyLoad] }), rfl, rfl, rfl, rfl, rfl⟩

/-- R199: four bytes 0xFF sign-extended. -/
theorem test_load_return : (match exec (.loadDataReturn 0 0) (p0m.modHart (fun h => { h with loads := [readyLoad] })) with
    | .next t => decide ((t.hart.xval 3#5).val = 0xFFFFFFFFFFFFFFFF#64 ∧ t.hart.loads = [])
    | _ => false) = true := by decide

theorem witness_stores : Ready (.stW n0 2#5 1#5 0#13) n0 p0m p0m ∧ Ready (.vst n0 2#5 1#5 0#13) n0 p0m p0m ∧
    Ready (.vstx n0 1#3 3#5 1#5 2#5) n0 p0m p0m ∧ Parties p0m [2#5] [] [2#5, 3#5] [] ∧ isStreamer p0m.cur = false ∧
    p0m.hart.stores.length < 8 ∧ p0m.readU 2#5 = .got ⟨7#64, 24#5, false⟩ p0m ∧
    Ready (.stW n0 2#5 1#5 0#13) n0 s4m s4m ∧ isStreamer s4m.cur = true ∧
    s4m.placePart ⟨0, 0x100, [7#8, 0#8, 0#8, 0#8], false, none⟩ = .ok [(0x100, [7#8, 0#8, 0#8, 0#8])] ∧
    s4m.commitRoom 0 1 4 = true :=
  ⟨ready_bare rfl rfl, ready_bare rfl rfl, ready_bare rfl rfl, ⟨by decide, by decide, by decide, by decide⟩, by decide, by decide, rfl,
    ready_bare rfl rfl, by decide, rfl, by decide⟩

/-- A store of hart 0 that has retired. -/
def p0s : State := p0m.modHart (fun h => { h with stores := [⟨2, [⟨0, 0x100, [1#8, 2#8, 3#8, 4#8], false, none⟩], 1#64⟩] })

theorem witness_store_translation : (p0s.hartAt 0).stores = [⟨2, [⟨0, 0x100, [1#8, 2#8, 3#8, 4#8], false, none⟩], 1#64⟩] ∧
    [(⟨0, 0x100, [1#8, 2#8, 3#8, 4#8], false, none⟩ : StorePart)].map (fun p => (p0s.as 0).placePart p) =
      [[(0x100, [1#8, 2#8, 3#8, 4#8])]].map PartRes.ok ∧ p0s.mem.wf ∧ p0s.unentered 0 = false ∧ p0s.commitRoom 0 1 4 = true ∧
    (p0m.hart.loads = [] ∧ p0m.unentered 0 = false) := ⟨rfl, rfl, Mem.empty_wf, rfl, by decide, rfl, rfl⟩

/-- A store of hart 0 that waits for room in its commit buffer. -/
def parkedStore : Parked := ⟨0, 0, 1, 1, [(false, (0x100, [1#8, 2#8, 3#8, 4#8]))]⟩

/-- The bench with that store; and with these entries in its commit buffer. -/
def pparked (commit : List CWrite) : State :=
  (p0s.modCell 0 (fun c => { c with parked := [parkedStore] })).modRegion 0 (fun g => { g with commit := commit })
def p0p : State := pparked []

theorem witness_parked : p0p.unentered 0 = true ∧ (p0p.cellAt 0).parked = [parkedStore] ∧
    p0p.commitRoom parkedStore.region parkedStore.unit parkedStore.size = true ∧
    Ready (.fence n0 3#2 4#3) n0 (p0p.modHart (fun h => { h with stores := [] })) (p0p.modHart (fun h => { h with stores := [] })) :=
  ⟨rfl, rfl, by decide, ready_bare rfl rfl⟩

theorem pparked_full (bs : List (Option Byte)) (n : bs.length = 524288) :
    (pparked [⟨1, 1, 0, bs, []⟩]).commitRoom parkedStore.region parkedStore.unit parkedStore.size = false ∧
    ((pparked [⟨1, 1, 0, bs, []⟩]).cellAt 0).parked = [parkedStore] ∧ (pparked [⟨1, 1, 0, bs, []⟩]).unentered 0 = true := by
  refine ⟨?_, rfl, rfl⟩
  have h : (pparked [⟨1, 1, 0, bs, []⟩]).region? 0 = some { benchRegion with commit := [⟨1, 1, 0, bs, []⟩] } := rfl
  have used : Region.commitUsed { benchRegion with commit := [⟨1, 1, 0, bs, []⟩] } 1 = bs.length := by simp [Region.commitUsed]
  have cap : Region.commitCap { benchRegion with commit := [⟨1, 1, 0, bs, []⟩] } 1 = 524288 := rfl
  change (pparked [⟨1, 1, 0, bs, []⟩]).commitRoom 0 1 4 = false
  simp only [State.commitRoom, h, used, cap, n]
  rfl

/-- A commit buffer that holds 512 KB has no room for the store. -/
theorem witness_parked_full : ∃ bs : List (Option Byte), bs.length = 524288 ∧
    (pparked [⟨1, 1, 0, bs, []⟩]).commitRoom parkedStore.region parkedStore.unit parkedStore.size = false ∧
    ((pparked [⟨1, 1, 0, bs, []⟩]).cellAt 0).parked = [parkedStore] ∧ (pparked [⟨1, 1, 0, bs, []⟩]).unentered 0 = true :=
  ⟨_, List.length_replicate, pparked_full (List.replicate 524288 none) List.length_replicate⟩

/-- R433: a waiting store is seen by a load of its cell and not by its region, until it enters. -/
theorem test_parked : decide ((p0p.heldLine 0x100).map (fun d => d.1.take 2) = some [1#8, 2#8] ∧ p0p.viewByte 0 0x100 = 0#8 ∧
    (p0p.enterParked 0).viewByte 0 0x100 = 1#8) = true := by decide

/-- The bench with a line in the L1 of cell 0 that is older than what the region sees. -/
def p0l : State := { p0m.modCell 0 (fun c => { c with l1 := [⟨0x100, List.replicate 64 9#8, List.replicate 8 false⟩] }) with agenda := [.evict 0 0x100] }

/-- R376: a plain load may return the older bytes of a line; after an acquire of a scope beyond the cell none may (R372). -/
theorem test_stale_line : (match exec (.ldB n0 3#5 1#5 0#13) p0l, exec (.ldAcq n0 0#3 3#5 1#5 3#3) p0l with
    | .next t, .next u => decide ((t.hart.xval 3#5).val = 9#64 ∧ (u.hart.xval 3#5).val = 0#64 ∧ (u.cellAt 0).l1 = [])
    | _, _ => false) = true := by decide

theorem test_evict : (match step p0l with
    | .next t => decide ((t.cellAt 0).l1 = [] ∧ t.agenda = [])
    | _ => false) = true := by decide

/-- R225, R37: the bytes of a translated store are seen by its region, little end first. -/
theorem test_store_translation : (match exec (.storeTranslationDone 0 0) p0s with
    | .next t => decide (t.viewByte 0 0x100 = 1#8 ∧ t.viewByte 0 0x103 = 4#8 ∧ t.viewByte 0 0x104 = 0#8 ∧ t.hart.stores = [])
    | _ => false) = true := by decide

theorem witness_acquire_release : Ready (.ldAcq n0 4#3 3#5 1#5 2#3) n0 p0m p0m ∧ Ready (.stRel n0 2#2 2#5 1#5 4#3) n0 p0m p0m ∧
    Parties p0m [2#5] [3#5] [] [] ∧ p0m.hart.stores = [] ∧ p0m.hart.loads = [] ∧ p0m.hart.sfrq = [] ∧
    p0m.access 0x100 true false = .hit 0x100 benchLeaf ∧
    p0m.unentered p0m.cur = false ∧ p0m.cell.parked = [] ∧ (∃ s3, (p0m.note false 0).putU 3#5 ⟨0#64, 24#5, false⟩ = .ok s3) ∧
    p0m.placePart ⟨0, 0x100, [7#8, 0#8, 0#8, 0#8], false, none⟩ = .ok [(0x100, [7#8, 0#8, 0#8, 0#8])] ∧ p0m.commitRoom 0 1 4 = true :=
  ⟨ready_bare rfl rfl, ready_bare rfl rfl, ⟨by decide, by decide, by decide, by decide⟩, rfl, rfl, rfl, rfl, rfl, rfl, ⟨_, rfl⟩, rfl, by decide⟩

theorem witness_atomics : (∀ i ∈ [Instr.amoadd n0 0#3 0#1 3#5 1#5 2#5, .amoand n0 4#3 1#1 3#5 1#5 2#5, .amocas n0 5#3 0#1 3#5 1#5 2#5],
    Ready i n0 p0m p0m) ∧ p0m.readU 3#5 = .got ⟨0#64, 24#5, false⟩ p0m ∧ p0m.access 0x100 true true = .hit 0x100 benchLeaf ∧
    p0m.draining = false ∧ p0m.commitRoom 0 1 4 = true ∧ p0m.mem.wf ∧ ∃ s5, p0m.putU 3#5 ⟨0#64, 24#5, false⟩ = .ok s5 := by
  refine ⟨?_, rfl, rfl, rfl, by decide, Mem.empty_wf, _, rfl⟩
  intro i hi; fin_cases hi <;> exact ready_bare rfl rfl

/-- R207: an addition within the region returns the old value; the region sees the new one. -/
theorem test_amoadd : (match exec (.amoadd n0 0#3 0#1 3#5 1#5 2#5) p0m with
    | .next t => decide ((t.hart.xval 3#5).val = 0#64 ∧ t.viewByte 0 0x100 = 7#8 ∧ t.mem = Mem.empty)
    | _ => false) = true := by decide
/-- R208, R434: at device scope it goes to memory. -/
theorem test_amoadd_device : (match exec (.amoadd n0 4#3 0#1 3#5 1#5 2#5) p0m with
    | .next t => decide (t.mem.byte 0x100 = 7#8)
    | _ => false) = true := by decide

theorem witness_fences : (∀ i ∈ [Instr.fence n0 3#2 4#3, .sdrain n0, .chkerr n0 3#5, .chkerrClr n0 3#5], Ready i n0 p0m p0m) ∧
    p0m.hart.loads = [] ∧ p0m.hart.stores = [] ∧ p0m.hart.sfrq = [] ∧ p0m.unentered p0m.cur = false ∧ Ready (.sdrain n0) n0 p0s p0s ∧
    p0s.hart.stores ≠ [] := by
  refine ⟨?_, rfl, rfl, rfl, rfl, ready_bare rfl rfl, by decide⟩
  intro i hi; fin_cases hi <;> exact ready_bare rfl rfl

/-! Witnesses: CSRs and traps. -/

/-- Compute hart 0 in a handler at 0x2000, with x1 = 3 and SSTAT = 3. -/
def p0h : State := bench 0 (fun h =>
  { h.setX 1#5 ⟨3#64, 24#5, false⟩ with hnd := true, tvec := 0x2000#64, tepc := 0x1234#64, sstat := 3#64 })

theorem witness_csr : Ready (.csrr n0 3#5 0x002#11) n0 p0h p0h ∧ Ready (.csrw n0 1#5 0x001#11) n0 p0h p0h ∧
    Ready (.csrs n0 3#5 1#5 0x001#11) n0 p0h p0h ∧ handlerCsr 0x001 = true ∧ p0h.hart.hnd = true ∧
    (∃ u v, p0h.csrWrite 0x001 3#64 3#64 = .ok u ∧ u.putU 3#5 ⟨3#64, 24#5, false⟩ = .ok v) ∧
    Ready (.csrw n0 1#5 0x001#11) n0 p0m p0m ∧ p0m.hart.hnd = false :=
  ⟨ready_bare rfl rfl, ready_bare rfl rfl, ready_bare rfl rfl, by decide, rfl, ⟨_, _, rfl, rfl⟩, ready_bare rfl rfl, rfl⟩

theorem witness_csr_fields : ∀ n ∈ [0x001, 0x002, 0x003, 0x004, 0x005, 0x010, 0x011, 0x021, 0x022],
    (match p0h.csrWrite n 0xFF#64 0xFF#64 with
      | .ok _ => true
      | .error _ => false) = true := by decide

/-- Compute hart 0 outside a handler, with one set, and traps of lanes and SIGTHR armed. -/
def p0e : State := bench 0 (fun h => { h with tvec := 0x2000#64, nut := true, sigEn := true })

theorem witness_trap_entry : p0e.hart.stores = [] ∧ p0e.hart.sfrq = [] ∧ p0e.hart.hnd = false ∧ p0e.hart.tvec ≠ 0#64 ∧
    p0m.hart.tvec = 0#64 ∧ p0m.hart.task = some ⟨1, 0, 0, 0#256, none⟩ ∧ p0m.region? 0 = some benchRegion ∧ p0h.hart.hnd = true :=
  ⟨rfl, rfl, rfl, by decide, rfl, rfl, rfl, rfl⟩

theorem witness_traps : Ready (.ecall n0) n0 p0e p0e ∧ Ready (.ebreak n0) n0 p0e p0e ∧ Ready .cEbreak bare p0e p0e ∧
    Ready (.tret n0) n0 p0h p0h ∧ p0h.hart.sstat.toNat < 4 ∧ isStreamer p0h.cur = false ∧ Ready (.tret n0) n0 p0e p0e ∧
    Ready (.tret n0) n0 { s4m with harts := [(4, { s4m.hart with hnd := true })] } { s4m with harts := [(4, { s4m.hart with hnd := true })] } ∧
    Ready (.tret n0) n0 (p0h.modHart (fun h => { h with sstat := 4#64 })) (p0h.modHart (fun h => { h with sstat := 4#64 })) :=
  ⟨ready_bare rfl rfl, ready_bare rfl rfl, ready_bare rfl rfl, ready_bare rfl rfl, by decide, by decide, ready_bare rfl rfl,
    ready_bare rfl rfl, ready_bare rfl rfl⟩

theorem witness_failed_fetch : p0e.dueTrap = none ∧ isStreamer p0e.cur = false ∧ s4m.dueTrap = none ∧ isStreamer s4m.cur = true :=
  ⟨rfl, by decide, rfl, by decide⟩

/-- R222, R224: ecall enters the handler with its cause, and the interrupted pc. -/
theorem test_ecall : (match exec (.ecall n0) p0e with
    | .next t => decide (t.hart.pc = 0x2000#64 ∧ t.hart.tcause = 7#64 ∧ t.hart.tepc = 0x1000#64 ∧ t.hart.sstat = 3#64 ∧ t.hart.hnd = true)
    | _ => false) = true := by decide
/-- R223: tret goes back to TEPC and restores what SSTAT holds. -/
theorem test_tret : (match exec (.tret n0) p0h with
    | .next t => decide (t.hart.pc = 0x1234#64 ∧ t.hart.nut = true ∧ t.hart.sigEn = true ∧ t.hart.hnd = false)
    | _ => false) = true := by decide

/-! Witnesses: groups, events, tasks, messages, reconfiguration. -/

/-- The bench with the group 5 in its region and the hart's GID. -/
def groupBench (g : Option Group) (gid : Word) (f : Hart → Hart) : State :=
  { bench 0 (fun h => f ({ h with gid := gid }.setX 1#5 ⟨5#64, 24#5, false⟩ |>.setX 2#5 ⟨2#64, 24#5, false⟩)) with
    regions := [(0, { benchRegion with groups := match g with
      | some k => [(5, k)]
      | none => [] })] }

/-- A JOIN of two harts: the first waits, the second completes the group, the first then retires; a size 0 and a group ID 64 are
refused, and so are a second membership and a group of another size (R190). -/
theorem witness_join :
    (let s := groupBench none 0#64 id;
      Ready (.join n0 1#5 2#5) n0 s s ∧ s.readU 1#5 = .got ⟨5#64, 24#5, false⟩ s ∧ s.readU 2#5 = .got ⟨2#64, 24#5, false⟩ s ∧
        s.draining = false ∧ s.hart.stage ≠ .arrived ∧ s.hart.gid.getLsbD 31 = false ∧ s.group 5 = none) ∧
    (let s := groupBench (some ⟨2, [1], false, [], [], [], false, []⟩) 0#64 id;
      Ready (.join n0 1#5 2#5) n0 s s ∧ s.group 5 = some ⟨2, [1], false, [], [], [], false, []⟩ ∧ (insertNat 0 [1]).length = 2) ∧
    (let s := groupBench (some ⟨2, [0, 1], true, [], [], [(0, (0, []))], false, []⟩) 0#64 (fun h => { h with stage := .arrived });
      Ready (.join n0 1#5 2#5) n0 s s ∧ s.hart.stage = .arrived ∧ ∃ t, s.takeVerdict 5 = some ((0, []), t)) ∧
    (groupBench none 0x80000105#64 id).hart.gid.getLsbD 31 = true := by
  refine ⟨⟨ready_bare rfl rfl, rfl, rfl, rfl, ?_⟩, ⟨ready_bare rfl rfl, rfl, ?_⟩, ⟨ready_bare rfl rfl, rfl, _, rfl⟩, ?_⟩ <;> decide

/-- R190: the member that waited gets its GID with the JOIN that makes the group complete, and retires. -/
theorem test_join : (match exec (.join n0 1#5 2#5) (groupBench (some ⟨2, [1], false, [], [], [], false, []⟩) 0#64 id) with
    | .next t => decide (t.hart.gid = 0x80000105#64 ∧ (t.hartAt 1).gid = 0x80010105#64 ∧ (t.hartAt 1).pc = 4#64)
    | _ => false) = true := by decide

/-- Members of group 5 at its barrier. -/
theorem witness_leave_and_barrier :
    (let s := groupBench (some ⟨2, [0, 1], true, [1], [], [], false, []⟩) 0x80000105#64 id;
      Ready (.leave n0 1#5) n0 s s ∧ Ready (.gbar n0 1#5) n0 s s ∧ s.hart.gid.getLsbD 31 = true ∧ (5#64).toNat = s.hart.gid.toNat % 64 ∧
        s.hart.stores = [] ∧ s.hart.loads = [] ∧ s.hart.sfrq = [] ∧ s.hart.stage ≠ .arrived ∧ s.draining = false ∧ s.unentered s.cur = false) ∧
    (let k : Group := ⟨2, [0, 1], true, [1], [], [], false, [(1, 1)]⟩;
      (groupBench (some k) 0x80000105#64 id).group 5 = some k ∧ (∀ v ∈ k.verdicts, v.1 ≠ 0) ∧ k.barCount 0 + 1 ≤ k.barCount 1 ∧
        ¬ (k.barCount 0 + 2 ≤ k.barCount 1)) ∧
    (let s := groupBench (some ⟨2, [0, 1], true, [], [], [(0, (1, []))], false, []⟩) 0x80000105#64 (fun h => { h with stage := .arrived });
      Ready (.gbar n0 1#5) n0 s s ∧ s.hart.stage = .arrived ∧ ∃ t, s.takeVerdict 5 = some ((1, []), t)) ∧
    (groupBench none 0#64 id).hart.gid.getLsbD 31 = false := by
  refine ⟨⟨ready_bare rfl rfl, ready_bare rfl rfl, ?_⟩, ⟨rfl, ?_⟩, ⟨ready_bare rfl rfl, rfl, _, rfl⟩, ?_⟩ <;> decide

/-- R192: the member whose k-th GBAR is the last of the k-th retires, and the one that waits is told. -/
theorem test_barrier : (match exec (.gbar n0 1#5) (groupBench (some ⟨2, [0, 1], true, [1], [], [], false, [(1, 1)]⟩) 0x80000105#64 id) with
    | .next t => decide (t.hart.pval 3#2 = false ∧ t.hart.instret = 1#64 ∧
      (t.group 5).map (fun k => (k.verdicts.map Prod.fst, k.atBar)) = some ([1], []))
    | _ => false) = true := by decide

/-- The last of two members reaches an exchange of chunks of two lanes. -/
theorem witness_exchange (f : VVal → Bool → VVal) :
    let k : Group := ⟨2, [0, 1], true, [], [(1, (2, splat 3#32))], [], false, []⟩;
    let s := groupBench (some k) 0x80000105#64 id;
    Ready (.vexch n0 3#5 1#5 2#5) n0 s s ∧ Parties s [] [] [1#5] [3#5] ∧ s.readV 1#5 = .got VVal.zero18 s ∧
      s.readU 2#5 = .got ⟨2#64, 24#5, false⟩ s ∧ s.draining = false ∧ s.hart.stage ≠ .arrived ∧ s.hart.gid.getLsbD 31 = true ∧
      s.group (s.hart.gid.toNat % 64) = some k ∧ k.left = false ∧ (2#64).toNat ∈ [1, 2, 4, 8, 16, 32, 64] ∧ k.size * 2 ≤ 64 ∧
      k.verdicts = [] ∧ (∀ m ∈ k.members, ∃ p ∈ k.atExch ++ [(s.cur, (2, VVal.zero18))], p.1 = m) ∧ (∀ p ∈ k.atExch, p.1 ≠ s.cur) ∧
      ∃ s4, ((s.setGroup 5 { k with atExch := [], verdicts := [] }).modHart (fun h => h.setP 3#2 false)).putV 3#5 f = .ok s4 := by
  refine ⟨ready_bare rfl rfl, ⟨by decide, by decide, by decide, by decide⟩, rfl, rfl, rfl, by decide, by decide, rfl, rfl, by decide,
    by decide, rfl, by decide, by decide, _, rfl⟩

/-- gkill in a handler: of a group that does not exist, of one of others, of the hart's own (R230, R231). -/
theorem witness_kill_group :
    (let s := groupBench none 0#64 (fun h => { h with hnd := true });
      Ready (.gkill n0 1#5) n0 s s ∧ s.hart.hnd = true ∧ s.hart.stores = [] ∧ s.hart.sfrq = [] ∧ s.group 5 = none) ∧
    (let s := groupBench (some ⟨1, [1], true, [], [], [], false, []⟩) 0#64 (fun h => { h with hnd := true });
      Ready (.gkill n0 1#5) n0 s s ∧ s.group 5 = some ⟨1, [1], true, [], [], [], false, []⟩ ∧ s.cur ∉ [1]) ∧
    (let s := groupBench (some ⟨1, [0], true, [], [], [], false, []⟩) 0x80000005#64 (fun h => { h with hnd := true });
      Ready (.gkill n0 1#5) n0 s s ∧ s.group 5 = some ⟨1, [0], true, [], [], [], false, []⟩ ∧ s.cur ∈ [0]) ∧
    (groupBench none 0#64 id).hart.hnd = false ∧
    ((groupBench none 0#64 id).modRegion 0 (fun g => { g with killedNow := [5] })).myRegion.killedNow.contains 5 = true := by
  refine ⟨⟨ready_bare rfl rfl, rfl, rfl, rfl, rfl⟩, ⟨ready_bare rfl rfl, rfl, by decide⟩, ⟨ready_bare rfl rfl, rfl, by decide⟩, rfl, rfl⟩

theorem witness_events : (∀ i ∈ [Instr.evset n0 5#8, .evclr n0 5#8, .wfe n0 5#8], Ready i n0 p0m p0m) ∧ p0m.hart.stores = [] ∧
    p0m.hart.loads = [] ∧ p0m.hart.sfrq = [] ∧ p0m.draining = false ∧ (p0m.bayAt p0m.myBay).events.getLsbD 5 = false ∧
    ((p0m.modBay 0 (fun b => { b with events := 0x20#256 })).bayAt 0).events.getLsbD 5 = true := by
  refine ⟨?_, rfl, rfl, rfl, rfl, rfl, rfl⟩
  intro i hi; fin_cases hi <;> exact ready_bare rfl rfl

/-- R384: a bit that is set and cleared in one clk is set. -/
theorem test_event_clock : ((⟨0#256, 0#256, 0x20#256, 0x20#256, [], Vector.replicate 4 [], [], none, 0, 0⟩ : Bay).clock).events =
    0x20#256 := by decide

theorem witness_task_exit : p0m.hart.task = some ⟨1, 0, 0, 0#256, none⟩ ∧ p0m.hart.gid.getLsbD 31 = false ∧
    Ready (.texit n0) n0 p0m p0m ∧ Ready .cTexit bare p0m p0m ∧ p0m.pushS n0 = some p0m ∧ isStreamer s4m.cur = true ∧
    (∀ k, k < 8 → (s4m.hart.slot k).state ≠ .active) :=
  ⟨rfl, rfl, ready_bare rfl rfl, ready_bare rfl rfl, rfl, by decide, by decide⟩

/-- Compute hart 0 with x1 = 0x100, x2 = bay 0 and x3 = 256 (its own bay), x5 = 512; a task record stands at 0x100: short form, for the cell's P class. -/
def p0r : State :=
  { bench 0 (fun h => (((h.setX 1#5 ⟨0x100#64, 24#5, false⟩).setX 2#5 ⟨0#64, 24#5, false⟩).setX 3#5 ⟨256#64, 24#5, false⟩).setX 5#5
      ⟨512#64, 24#5, false⟩) with
    mem := Mem.empty.setBytes 0x100 (leBytes 64 (0x2000 + 2 ^ 64 * (2 ^ 4 + 2 ^ 32 + 2 ^ 40 * 0xFFFF))) }

theorem witness_spawn : Ready (.tspawn n0 1#5 2#5) n0 p0r p0r ∧ p0r.draining = false ∧ p0r.hart.stores = [] ∧ p0r.hart.loads = [] ∧
    p0r.hart.sfrq = [] ∧ p0r.readU 1#5 = .got ⟨0x100#64, 24#5, false⟩ p0r ∧ p0r.readU 2#5 = .got ⟨0#64, 24#5, false⟩ p0r ∧
    p0r.myRegion.hasBay 0 = true ∧ p0r.myBay = 0 ∧ (∃ d, p0r.readDword 0x108 = .ok (d, false)) ∧ p0r.unentered p0r.cur = false ∧
    p0r.hart.record = none ∧ (p0r.modHart (fun h => { h with record := some ([], []) })).hart.record = some ([], []) ∧
    (∃ bs ps, p0r.readNow 0x100 64 = .ok (bs, ps) ∧ recordBad 0 bs = none) ∧ (p0r.bayAt 0).hasRoom = true := by
  refine ⟨ready_bare rfl rfl, rfl, rfl, rfl, rfl, rfl, rfl, by decide, rfl, ⟨_, rfl⟩, rfl, rfl, rfl, ⟨_, _, rfl, by decide +kernel⟩, by decide⟩

/-- R388, R397: a record for the hart's own bay enters its store. -/
theorem test_spawn : (match exec (.tspawn n0 1#5 2#5) p0r with
    | .next t => decide ((t.bayAt 0).store.length = 1 ∧ t.hart.pc = 0x1004#64)
    | _ => false) = true := by decide +kernel

/-- Compute hart 0 with x1 = 0x100, where a message of zeros but for a FILL stands, and x2 a bad target. -/
theorem witness_send_bad : Ready (.send n0 1#5 2#5) n0 p0m p0m ∧ ¬ (isM 7 = false ∧ isM 1 = false) ∧ isM 1 = true ∧
    p0m.myRegion.hasCell 1 = true ∧
    (∃ bs ps, p0m.readNow 0x100 64 = .ok (bs, ps) ∧ (∀ p ∈ ps, p = false) ∧ copyBad (dwordOf bs) = some 0) ∧
    p0m.inboxLoad 0 1 < p0m.inboxCap 0 1 := by
  refine ⟨ready_bare rfl rfl, by decide, by decide, by decide, ⟨_, _, rfl, by decide, by decide⟩, by decide⟩

/-- A FILL of 8 bytes at 0x200 stands at 0x100, well-formed, its completion object none. -/
def p0send : State := { p0m with mem := Mem.empty.setBytes 0x100 (leBytes 8 0x0300000000000000 ++ leBytes 16 (2 ^ 67) ++ leBytes 8 5 ++ leBytes 8 0x200) }

theorem witness_send_good : Ready (.send n0 1#5 2#5) n0 p0send p0send ∧ p0send.draining = false ∧ p0send.hart.stores = [] ∧
    p0send.unentered p0send.cur = false ∧ (∃ bs ps, p0send.readNow 0x100 64 = .ok (bs, ps) ∧ (∀ p ∈ ps, p = false) ∧
      copyBad (dwordOf bs) = none ∧ dwordOf bs 1 = 0) := by
  refine ⟨ready_bare rfl rfl, rfl, rfl, rfl, _, _, rfl, by decide +kernel, by decide +kernel, by decide +kernel⟩

theorem witness_waitc : Ready (.waitc n0 1#5) n0 p0m p0m ∧ p0m.hart.storeOverlap [(0x100, 8)] = false ∧
    (∃ v p, p0m.readDword 0x100 = .ok (v, p) ∧ v.toInt ≤ 0) ∧ Ready (.waitc n0 1#5) n0 p0r p0r ∧
    ∃ v p, p0r.readDword 0x100 = .ok (v, p) ∧ 0 < v.toInt :=
  ⟨ready_bare rfl rfl, by decide, ⟨_, _, rfl, by decide⟩, ready_bare rfl rfl, _, _, rfl, by decide⟩

/-- The bench with image 5 installed for its place, and configuration 4 active; x1 = 5. -/
def p0c (scfg : Nat) : State :=
  { bench 0 (fun h => h.setX 1#5 ⟨5#64, 24#5, false⟩) with
    regions := [(0, { benchRegion with acfg := 4, scfg := scfg })]
    ctxs := [(1, { Context.reset with images := [(5, ⟨0, 4096, false, rparmReset, [0, 0, 1, 1], [], [], []⟩)] })] }

theorem witness_reconfiguration : Ready (.shadow n0 1#5) n0 (p0c 0) (p0c 0) ∧ (p0c 0).draining = false ∧
    (p0c 0).myRegion.acfg ≠ 5 ∧ (∃ im, (p0c 0).myImage 5 = some im ∧ im.place = [0, 0, 1, 1]) ∧ (p0c 0).myRegion.sws ≠ 3 ∧
    Ready (.recfg n0 1#5) n0 (p0c 5) (p0c 5) ∧ (p0c 5).myRegion.scfg = 5 ∧ Ready (.recfg n0 1#5) n0 (p0c 0) (p0c 0) ∧
    (p0c 0).myRegion.scfg = 0 :=
  ⟨ready_bare rfl rfl, rfl, by decide, ⟨_, rfl, rfl⟩, by decide, ready_bare rfl rfl, rfl, ready_bare rfl rfl, rfl⟩

/-! Witnesses: the matrix engine. -/

/-- Compute hart 0 of a cell whose tiles are all 1 by 1 of INT8 (R332, R333), with x1 = 0x100, x5 = 0x101 and x7 = 5; `f` changes the
matrix engine. -/
def p0g (f : Mxe → Mxe) : State :=
  { bench 0 (fun h => ((h.setX 1#5 ⟨0x100#64, 24#5, false⟩).setX 5#5 ⟨0x101#64, 24#5, false⟩).setX 7#5 ⟨5#64, 24#5, false⟩) with
    cells := [(0, { Cell.reset with mxe := f { Mxe.reset with tshp := Vector.replicate 8 0xE0000#64 } }),
      (1, { Cell.reset with tlb := [⟨1, 0, 8192, 0, true, true, true, false⟩] })]
    mem := Mem.empty.setBytes 0x100 [5#8] }

theorem witness_tile_load : Ready (.tld n0 1#3 1#5 0#5) n0 (p0g id) (p0g id) ∧ (p0g id).readU 1#5 = .got ⟨0x100#64, 24#5, false⟩ (p0g id) ∧
    (p0g id).readU 0#5 = .got ⟨0#64, 24#5, false⟩ (p0g id) ∧ (p0g id).tileFree 0 1 = true ∧ shpLegal ((p0g id).mxe.nextShape 1) = true ∧
    shpLegal (p0m.mxe.nextShape 1) = false ∧ (p0g id).mxBusy 0 (.tld 1 [] [] [] none none none) = false ∧
    (p0g (fun m => { m with work := [⟨0, .tzero 1⟩] })).mxBusy 0 (.tld 1 [] [] [] none none none) = true ∧ (0x100#64).toNat % 32 = 0 ∧ (0x101#64).toNat % 32 ≠ 0 ∧
    (p0g id).hart.storeOverlap [(0x100, 1)] = false ∧ (∃ ps, (p0g id).rangePas 2 0x100 1 = .ok ps) ∧ Barrier (p0g id) 0#64 none ∧
    Barrier (p0g id) 0x100#64 (some 0x100) :=
  ⟨ready_bare rfl rfl, rfl, rfl, by decide, by decide, by decide, by decide, by decide, by decide, by decide, by decide, ⟨_, rfl⟩, .inl ⟨rfl, rfl⟩,
    .inr ⟨by decide, by decide, 0x100, _, rfl, rfl⟩⟩

/-- The hart of cell 0 with a partition of the pool of its unit and a slot of it in a state, of one INT8 element. -/
def p0pool (st : PoolState) (count : Nat) : State :=
  let s := (p0g id).modHart (fun h => h.setX 8#5 ⟨0x380000001#64, 24#5, false⟩)
  let d : Word := 0x7002#64
  { s with cells := insertAt 1 { Cell.reset with
      tlb := [⟨1, 0, 8192, 0, true, true, true, false⟩]
      pool := ⟨8, [], [⟨0, 1, 0, st, d, 0, count, 0, 0, [], none, [(0, 4096)]⟩], [(0, ⟨1, 0, 4, 8, 1, []⟩)], []⟩ } s.cells }

theorem witness_pool_tile_load : Ready (.tldH n0 1#3 0#5 0#5) n0 (p0pool .sealed 2) (p0pool .sealed 2) ∧
    Ready (.tldHk n0 1#3 0#5 0#5) n0 (p0pool .sealed 2) (p0pool .sealed 2) ∧ shpBlock ((p0pool .sealed 2).mxe.nextShape 1) = 0 ∧
    (∃ c t, (p0pool .sealed 2).resolveRef 0#64 = .ok (c, t) ∧ c = 1 ∧ t.state = .sealed) ∧
    (p0pool (.retired 0) 2).resolveRef 0#64 = .error 0x20 ∧ ∃ w, (p0pool .sealed 2).admitRead 1 0 1 0 true = .admitted w :=
  ⟨ready_bare rfl rfl, ready_bare rfl rfl, by decide, ⟨_, _, rfl, rfl, rfl⟩, rfl, _, rfl⟩

/-- A tile load under way in cell 0. -/
def benchPending : PendingTld := ⟨1, 0, 32, some 0x200, none, false⟩

theorem witness_tile_delivery : ∃ s : State,
    findNth (fun q => decide (q.tile = (1#3 : TReg).toNat)) (s.cellAt 0).mxe.pending 0 = some (0, benchPending) ∧ 1 ≤ benchPending.left ∧
    s.cellMoves 0 = true ∧ benchPending.pool = none ∧ s.commitRoom (s.cellRegion 0) (unitOf 0) 8 = true ∧
    (s.cellAt 0).parkedAt 0x200 8 = false :=
  ⟨p0g (fun m => { m with pending := [benchPending] }), rfl, by decide, by decide, rfl, by decide, by decide⟩

theorem witness_tile_registers : (∀ i ∈ [Instr.tzero n0 1#3, .tcsum n0 1#3, .tcchk n0 1#2 1#3, .tst n0 1#3 1#5], Ready i n0 (p0g id) (p0g id)) ∧
    (p0g id).tileAtRest 0 1 = true ∧ (p0g id).hart.stores = [] ∧ ((p0g id).mxe.tile 1).stale = true ∧
    (∃ ws : List (List (Nat × List Byte)), (storeParts 0x100 1 ++ storeParts 0x101 0).map
      (fun p => (p0g id).placePart p) = ws.map PartRes.ok) ∧ (p0g id).commitRoom 0 1 1 = true ∧
    ((p0g id).cellAt 0).mxe.shape 1 ≠ 0xFFFFFFFF#64 &&& 0xFE3FFF#64 := by
  refine ⟨?_, by decide, rfl, rfl, ⟨[[(0x100, [0#8])]], rfl⟩, by decide, by decide⟩
  intro i hi; fin_cases hi <;> exact ready_bare rfl rfl

/-- R332: only the bits of the fields are kept. -/
theorem test_tshp_write : (match exec (.tshpWrite 0 1#3 0xFFFFFFFFFF#64) (p0g id) with
    | .next t => decide ((t.cellAt 0).mxe.shape 1 = 0xFE3FFF#64)
    | _ => false) = true := by decide

/-- The products 1 by 1 with checks and without: without, stale sidecars do not matter (R348). -/
theorem witness_products : Ready (.mma n0 1#2 1#3 2#3) n0 (p0g id) (p0g id) ∧ Ready (.mmaNc n0 1#2 1#3 2#3) n0 (p0g id) (p0g id) ∧
    (p0g id).expected.mulBad 1 1 2 false = none ∧ (p0g id).expected.mulBad 1 1 2 true = some (8 + 1, 0) ∧
    p0m.expected.mulBad 1 1 2 false = some (1, 1) ∧ (p0g id).mulBad 1 1 2 false = none ∧ (p0g id).mxe.work = [] ∧
    (∀ k, k < 8 → (p0g id).tileFree (cellOf (p0g id).cur) k = true) ∧
    (p0g id).mxBusy 0 (.mul false 1 1 2) = false ∧ (p0g (fun m => { m with work := [⟨0, .tzero 1⟩] })).mxBusy 0 (.mul false 1 1 2) = true ∧
    (p0g id).mxe.flips = [] ∧ ∃ t, (p0g id).multiply 1 1 2 (List.range (shpRows ((p0g id).mxe.shape 1))) false = some t :=
  ⟨ready_bare rfl rfl, ready_bare rfl rfl, by decide, by decide, by decide, by decide, rfl, by decide, by decide, by decide, rfl, _, rfl⟩

/-- R337: a product that names a tile with work before it waits inside the engine, and retires; else it is done. -/
theorem test_product_waits : (match exec (.mmaNc n0 1#2 1#3 2#3) (p0g (fun m => { m with work := [⟨0, .tzero 1⟩] })),
      exec (.mmaNc n0 1#2 1#3 2#3) (p0g id) with
    | .next t, .next u => decide (t.mxe.work.length = 2 ∧ t.hart.instret = 1#64 ∧ (t.mxe.acc 1).kind = .empty ∧ u.mxe.work = [] ∧
        u.hart.instret = 1#64 ∧ (u.mxe.acc 1).kind = .int32)
    | _, _ => false) = true := by decide

/-- A tile whose sidecar is right, and one whose sidecar is not. -/
def sumTile (b : Byte) : Tile := { ((p0g id).tzeroWork 1).mxe.tile 1 with data := Mem.empty.setBytes 0 [b] }

theorem witness_tile_work : shpLegal ((p0g id).mxe.shape 1) = true ∧ ((p0g id).mxe.tile 1).stale = true ∧
    (([(0x100, 1)] : List (Nat × Nat)).map Prod.snd).sum = shpBytes ((p0g id).mxe.shape 1) + shpScales ((p0g id).mxe.shape 1) ∧
    (sumTile 0#8).stale = false ∧ (sumTile 0#8).sums 0xE0000#64 = (sumTile 0#8).trueSums 0xE0000#64 ∧
    (sumTile 1#8).sums 0xE0000#64 ≠ (sumTile 1#8).trueSums 0xE0000#64 := by decide

/-- The hart with a group table of one group of one row at 0x100, for tile register 2. -/
def p0gt : State := { p0g id with mem := Mem.empty.setBytes 0x100 [1#8, 0#8, 0#8, 0#8, 0#8, 0#8, 0#8, 0#8, 1#8, 2#8] }

theorem witness_group_product : Ready (.mmag n0 1#2 1#3 1#5) n0 p0gt p0gt ∧ Ready (.mmagNc n0 1#2 1#3 1#5) n0 p0gt p0gt ∧
    p0gt.readU 1#5 = .got ⟨0x100#64, 24#5, false⟩ p0gt ∧ p0gt.hart.storeOverlap [(0x100, 136)] = false ∧
    p0gt.expected.mulBad 1 1 2 false = none ∧ p0gt.mxBusy 0 (.groups false 1 1 [(2, 1)]) = false ∧ p0gt.readTable 1 0x100 = .ok [(1#64, false)] ∧ p0gt.readTable 1 0x108 = .ok [(0x201#64, false)] ∧ (0x201 / 256 % 8, 0x201 % 128) = (2, 1) ∧
    groupRows 0 [(2, 1)] = [(2, [0])] :=
  ⟨ready_bare rfl rfl, ready_bare rfl rfl, rfl, by decide, by decide, by decide, rfl, rfl, rfl, rfl⟩

theorem witness_accumulators : Ready (.acz n0 1#2) n0 (p0g id) (p0g id) ∧ (p0g id).nodeHolds 1 = false ∧
    ((p0g id).modCell 0 (fun c => { c with cfg := { c.cfg with node := 0x8200000000000000#64 } })).nodeHolds 1 = true ∧
    Ready (.acnv n0 7#4 2#3 1#2) n0 (p0g id) (p0g id) ∧ shpFmt ((p0g id).mxe.shape 2) = (7#4 : BitVec 4).toNat ∧
    ((p0g id).mxe.acc 1).poison = [] :=
  ⟨ready_bare rfl rfl, by decide, by decide, ready_bare rfl rfl, by decide, rfl⟩

/-- A flit at the matrix node's input. -/
def nodeItem (f : Flit) : PortItem := ⟨f, 0, [], false, none⟩

/-- The cell with its node enabled and flits at its input. -/
def p0n (n : Node → Node) (is : List PortItem) : State :=
  (p0g (fun m => { m with node := n m.node })).modCell 0 (fun c =>
    { c with cfg := { c.cfg with node := 0x8000000000000000#64, cft := [(0, 7)] }, ports := [(56, is)] })

theorem witness_node : Ready (.tbound n0 7#5) n0 (p0n id []) (p0n id []) ∧ (p0n id []).cell.nodeOn = true ∧
    (p0n id []).mxe.node.latched = none ∧ (p0g id).cell.nodeOn = false ∧ (p0n id []).nodeRuns 0 = true ∧
    (p0n id [nodeItem ⟨6#3, 0#5, 1#256⟩]).nodeHead 0 = some (nodeItem ⟨6#3, 0#5, 1#256⟩) ∧
    (∃ t v, ((p0n (fun n => { n with latched := some (Tile.reset, 0xE0000#64) }) [nodeItem ⟨0#3, 0#5, 1#256⟩]).cellAt 0).mxe.node.latched =
      some (t, v)) ∧ mulClass (7 % 16) = mulClass (shpFmt 0xE0000#64) ∧
    ((p0n id []).cellAt 0).cftEntry 0 0 = 7 ∧ ((p0n (fun n => { n with output := [⟨0#3, 0#5, 1#256⟩] }) []).cellAt 0).mxe.node.output ≠ [] ∧
    (p0n id []).bufRoom 0 120 1 = true :=
  ⟨ready_bare rfl rfl, by decide, rfl, by decide, by decide, rfl, ⟨_, _, rfl⟩, by decide, by decide, by decide, by decide⟩

/-! Witnesses: the pool. -/

/-- The streamer IN of cell 0 with x7 = 5 and that slot, which is its own. -/
def s4pool (st : PoolState) (count : Nat) : State :=
  let s := { p0pool st count with
    cur := 4, harts := [(4, { Hart.reset.setX 7#5 ⟨5#64, 24#5, false⟩ with pc := 0x1000#64, task := some ⟨1, 0, 0, 0#256, none⟩ })] }
  s.modPool 1 4 (fun p => { p with slots := p.slots.map (fun t => { t with owner := 4 }) })

/-- Partition 0 belongs to the context and a hart of it asks for one granule; granule 0 is taken. -/
theorem witness_alloc : Ready (.alloc n0 3#5 7#5 0#2) n0 (s4pool .filling 2) (s4pool .filling 2) ∧ (s4pool .filling 2).draining = false ∧
    (5#64).toNat % 4096 ≠ 0 ∧ descFits 0x70000005#64 4096 = true ∧ descFits 5#64 4096 = true ∧
    ((s4pool .filling 2).cellAt 1).pool.partOf 1 = some (0, ⟨1, 0, 4, 8, 1, []⟩) ∧ (s4pool .filling 2).hart.reply = none ∧
    (s4pool .filling 2).hart.stage ≠ .arrived ∧
    ∃ t, ((s4pool .filling 2).modHart (fun h => { h with reply := some 1#64 })).putU 3#5 ⟨1#64, 24#5, false⟩ = .ok t :=
  ⟨ready_bare rfl rfl, rfl, by decide, by decide, by decide, rfl, rfl, by decide, _, rfl⟩

theorem witness_seal_and_drop : Ready (.sealTile n0 0#5) n0 (s4pool .filling 2) (s4pool .filling 2) ∧
    (∃ c t, (s4pool .filling 2).resolveRef 0#64 = .ok (c, t) ∧ t.state = .filling ∧ t.owner = 4 ∧
      (s4pool .filling 2).namesSlot 4 c t.first = false ∧ coverAll t.written (descBytes t.desc (4096 * t.n)) = true ∧ t.arrived = none) ∧
    Ready (.tpdrop n0 0#5 7#5) n0 (s4pool .sealed 2) (s4pool .sealed 2) ∧ (∃ c t, (s4pool .sealed 5).resolveRef 0#64 = .ok (c, t) ∧
      5 ≤ t.count - t.claims) ∧ ∃ c t, (s4pool .sealed 2).resolveRef 0#64 = .ok (c, t) ∧ t.count - t.claims < 5 :=
  ⟨ready_bare rfl rfl, ⟨_, _, rfl, rfl, rfl, by decide, by decide, rfl⟩, ready_bare rfl rfl, ⟨_, _, rfl, by decide⟩, _, _, rfl, by decide⟩

/-- A seal that a tile copy into the slot holds up, and slots whose sidecar came before it, right and wrong. -/
def p0seal (arrived : Option (List Word32)) (copy : List Message) : State :=
  ((s4pool .filling 2).modPool 1 4 (fun p => { p with slots := p.slots.map (fun t => { t with arrived := arrived }) })).modCell 1
    (fun c => { c with inbox := copy })

theorem witness_seal_cases : Ready (.sealTile n0 0#5) n0 (p0seal none []) (p0seal none []) ∧
    (p0seal none [⟨[0x0400000000000000#64, 0#64, 2#64], 4, 1, 0⟩]).namesSlot 4 1 0 = true ∧
    (match (p0seal (some [7#32]) []).resolveRef 0#64, (p0seal (some [0#32, 0#32]) []).resolveRef 0#64 with
      | .ok (c, t), .ok (d, u) => decide (t.arrived = some [7#32] ∧ (p0seal (some [7#32]) []).slotSums c t ≠ [7#32] ∧
          u.arrived = some [0#32, 0#32] ∧ (p0seal (some [0#32, 0#32]) []).slotSums d u = [0#32, 0#32])
      | _, _ => false) = true :=
  ⟨ready_bare rfl rfl, by decide, by decide +kernel⟩

/-- A streamer of the pool's own cell, with a stream of its slot 1 active. -/
def s12 (m : StreamCmd) (st : PoolState) : State :=
  let info : TaskInfo := ⟨1, 0, 0, 0#256, none⟩
  let k : Slot := { Slot.reset with
    state := .active, cmd := some m, segPhase := 1
    image := [0x5E36000000000304#64, 0#64, 0x30000000008#64, 0#64, 0#64, 0#64, 0#64, 0#64] }
  { p0pool st 2 with
    cur := 12
    harts := [(12, { Hart.reset with pc := 0x1000#64, task := some info, slots := Hart.reset.slots.setIfInBounds 1 k })] }

/-- A pool read with OP. -/
def poolCmd (op : Nat) : StreamCmd := ⟨1, 0, op, 4, 0, false, 0, 2, 0, 0⟩

theorem witness_pool_steps : (p0pool .sealed 2).cellMoves 1 = true ∧ lookup 0 ((p0pool .sealed 2).cellAt 1).pool.parts = some ⟨1, 0, 4, 8, 1, []⟩ ∧
    ((p0pool .sealed 2).cellAt 1).pool.choose ⟨1, 0, 4, 8, 1, []⟩ 1 = some 1 ∧
    (∀ op, op = 1 ∨ op = 3 → (((s12 (poolCmd op) .sealed).hartAt 12).slot 1).cmd = some (poolCmd op)) ∧
    (s12 (poolCmd 3) .sealed).cellMoves (cellOf 12) = true ∧
    (∃ t, ((s12 (poolCmd 3) .sealed).cellAt (unitOf (cellOf 12))).pool.resolve 1 0 = some t ∧ t.state = .sealed ∧ t.claims < t.count) ∧
    (∃ t, ((s12 (poolCmd 1) .filling).cellAt (unitOf (cellOf 12))).pool.resolve 1 0 = some t ∧ t.state = .filling) ∧
    ((s12 (poolCmd 1) (.retired 0)).cellAt (unitOf (cellOf 12))).pool.resolve 1 0 = none := by
  refine ⟨by decide, rfl, by decide, ?_, by decide, ⟨_, rfl, rfl, Nat.two_pos⟩, ⟨_, rfl, rfl⟩, by decide⟩
  rintro op (rfl | rfl) <;> rfl

/-! Witnesses: streams. -/

/-- The image of four elements of 8 bytes, a step of 8; its digest by hand from R240: ((3·8 + 1)·31 + 3)·31 + 0 = 0x5E36. -/
def benchImage : List Word := [0x5E36000000000304#64, 0#64, 0x30000000008#64, 0#64, 0#64, 0#64, 0#64, 0#64]

/-- R240: the digest of that image; the image is legal. -/
theorem test_digest : digestOf benchImage = 0x5E36 ∧ imgDigest benchImage = 0x5E36 ∧ imageBad benchImage = none := by decide

/-- The streamer IN of cell 0 with slot 1 in a state under a command, x1 = 64 and the command LOAD to EP0 from SPACE 1 for slot 1 in x3. -/
def s4s (st : SlotState) (m : Option StreamCmd) (phase : Nat) : State :=
  bench 4 (fun h =>
    { ((h.setX 1#5 ⟨64#64, 24#5, false⟩).setX 3#5 ⟨0x1200008000000000#64, 24#5, false⟩) with
      slots := h.slots.setIfInBounds 1 { Slot.reset with state := st, image := benchImage, cmd := m, segPhase := phase } })

/-- A map that binds iq0 to compute hart 0 with the streamer IN as producer. -/
def benchMaps (s : State) : State :=
  s.modCell 0 (fun c => { c with
    cfg := { CellCfg.none with queueMap := [⟨0, 8, 0, [4]⟩] }
    sram := Mem.empty.setBytes 64 (leBytes 8 0x5E36000000000304 ++ leBytes 8 0 ++ leBytes 8 0x30000000008) })

/-- LOAD from SPACE 1 into EP0. -/
def loadCmd : StreamCmd := ⟨1, 0, 1, 0, 0, false, 0, 1, 0, 0⟩

theorem witness_spbset : Ready (.spbset n0 0#3 1#5) n0 (benchMaps (s4s .idle none 1)) (benchMaps (s4s .idle none 1)) ∧
    ((benchMaps (s4s .idle none 1)).hart.slot 0).state = .empty ∧ ((benchMaps (s4s .idle none 1)).hart.slot 1).state = .idle ∧
    (64#64).toNat % 64 = 0 ∧ 64 + 64 ≤ (benchMaps (s4s .idle none 1)).generalEnd 0 ∧
    (List.range 8).map (fun k => BitVec.ofNat 64 (dwordAt (((benchMaps (s4s .idle none 1)).cellAt 0).sram.read 64 64) (8 * k))) = benchImage ∧
    (imageBad benchImage = none ∧ imgDigest benchImage = digestOf benchImage) ∧ imageBad (List.replicate 8 0#64) = some 0 ∧
    (imageBad [0x304#64, 0#64, 8#64, 0#64, 0#64, 0#64, 0#64, 0#64] = none ∧
      imgDigest [0x304#64, 0#64, 8#64, 0#64, 0#64, 0#64, 0#64, 0#64] ≠ digestOf [0x304#64, 0#64, 8#64, 0#64, 0#64, 0#64, 0#64, 0#64]) := by
  refine ⟨ready_bare rfl rfl, rfl, rfl, ?_⟩; decide

theorem witness_strm (st : SlotState) (h : st = .idle ∨ st = .active ∨ st = .empty) :
    let s := benchMaps (s4s st (some loadCmd) 1);
    Ready (.strm n0 1#5 3#5) n0 s s ∧ s.readU 1#5 = .got ⟨64#64, 24#5, false⟩ s ∧ s.readU 3#5 = .got ⟨0x1200008000000000#64, 24#5, false⟩ s ∧
      s.draining = false ∧ commandBad (!isC (cellOf s.cur)) (commandOf 1 0 0x1200008000000000#64 64#64) 0x1200008000000000#64 64#64 = false ∧
      produces (s.cell.mapFor (slotOf s.cur)) (slotOf s.cur) 0 = true ∧ s.myRegion.hasCell 0 = true ∧ (s.hart.slot 1).state = st ∧
      s.cannotServe s.cur benchImage (commandOf 1 0 0x1200008000000000#64 64#64) = false ∧
      (commandOf 1 0 0x1200008000000000#64 64#64).base % min (imgE benchImage) 8 = 0 := by
  rcases h with rfl | rfl | rfl <;>
    exact ⟨ready_bare rfl rfl, rfl, rfl, rfl, by decide, by decide, by decide, rfl, by decide, by decide⟩

theorem witness_stream_control : Ready (.swait n0 1#3) n0 (s4s .idle none 1) (s4s .idle none 1) ∧
    Ready (.swait n0 1#3) n0 (s4s .active (some loadCmd) 1) (s4s .active (some loadCmd) 1) ∧
    Ready (.spillq n0 0#3 1#5) n0 (benchMaps (s4s .idle none 1)) (benchMaps (s4s .idle none 1)) ∧
    produces ((benchMaps (s4s .idle none 1)).cell.mapFor 4) 4 (spillCode ((benchMaps (s4s .idle none 1)).cell.mapFor 4) 0) = true ∧
    produces ((s4s .idle none 1).cell.mapFor 4) 4 (spillCode ((s4s .idle none 1).cell.mapFor 4) 0) = false ∧
    (∃ pa e, (benchMaps (s4s .idle none 1)).access 0 true true = .hit pa e) ∧
    Ready (.kerf n0) n0 (s4s .idle none 1) (s4s .idle none 1) ∧ (s4s .idle none 1).draining = false ∧
    (s4s .idle none 1).myRegion.inFlight = false ∧
    { (s4s .idle none 1) with regions := [(0, { benchRegion with inFlight := true })] }.myRegion.inFlight = true :=
  ⟨ready_bare rfl rfl, ready_bare rfl rfl, ready_bare rfl rfl, by decide, by decide, ⟨_, _, rfl⟩, ready_bare rfl rfl, rfl, rfl, rfl⟩

/-- A store-fault record of a word at 0x100. -/
def benchFault : SfRecord := ⟨9, 0x100#64, 2, 0, [⟨0, 0x100, [1#8, 2#8, 3#8, 4#8], false, none⟩]⟩

theorem witness_fault_records : (p0h.hartAt 0).hnd = true ∧ (p0m.hartAt 0).hnd = false ∧
    ((p0h.modHart (fun h => { h with sfrq := [benchFault] })).hartAt 0).sfrq = [benchFault] ∧ benchFault.swid < 6 ∧
    benchFault.parts.map ((p0h.modHart (fun h => { h with sfrq := [benchFault] })).as 0).placePart =
      [[(0x100, [1#8, 2#8, 3#8, 4#8])]].map PartRes.ok ∧
    (((s4s (.faulted 0x25 0#64) (some loadCmd) 1).modHart (fun h => { h with hnd := true })).hartAt 4).hnd = true ∧
    ((s4s (.faulted 0x25 0#64) (some loadCmd) 1).hart.slot 1).state = .faulted 0x25 0#64 :=
  ⟨rfl, rfl, rfl, by decide, rfl, rfl, rfl⟩

/-- A replay behind an older store of the handler to the same bytes, which is not translated (R227). -/
theorem witness_replay_waits :
    let s := p0h.modHart (fun h => { h with
      sfrq := [benchFault], stores := [⟨2, [⟨0, 0x100, [9#8], false, none⟩], 1#64⟩] });
    (s.hartAt 0).hnd = true ∧ (s.hartAt 0).sfrq = [benchFault] ∧ benchFault.swid < 6 ∧
      (s.hartAt 0).storeOverlap (benchFault.parts.flatMap (StorePart.ranges (s.hartAt 0).tagbase)) = true := by decide

/-- A stream that moves, one that waits for room, and one whose element lies outside what its cell lets it read. -/
theorem witness_stream_moves :
    (∃ t, (benchMaps (s4s .active (some loadCmd) 1)).streamMove 4 1 ((benchMaps (s4s .active (some loadCmd) 1)).hart.slot 1) loadCmd =
      .go t) ∧
    (∃ t, ((benchMaps (s4s .active (some loadCmd) 1)).modCell 0 (fun c => c.setQueue 0 ⟨0, [], none, none, [], none, 0⟩)).streamMove 4 1
      ((benchMaps (s4s .active (some loadCmd) 1)).hart.slot 1) loadCmd = .wait t) ∧
    ∃ t c v, (benchMaps (s4s .active (some { loadCmd with base := 2 ^ 22 }) 1)).streamMove 4 1
      ((benchMaps (s4s .active (some { loadCmd with base := 2 ^ 22 }) 1)).hart.slot 1) { loadCmd with base := 2 ^ 22 } = .fault t c v :=
  ⟨⟨_, rfl⟩, ⟨_, rfl⟩, _, _, _, rfl⟩

theorem witness_stream_element :
    let s := benchMaps (s4s .active (some loadCmd) 1);
    ((s.hartAt 4).slot 1).cmd = some loadCmd ∧ s.streamRuns 4 ((s.hartAt 4).slot 1) loadCmd = true ∧ loadCmd.op = 1 ∧ loadCmd.ep < 4 ∧
      loadCmd.space = 1 ∧ imgMode benchImage = 0 ∧ ((s.hartAt 4).slot 1).segPhase = 1 ∧ imgE benchImage ≤ 8 ∧
      0 ≤ elemAddr benchImage 0 0 (loopIndex benchImage 0 0) ∧ elemAddr benchImage 0 0 (loopIndex benchImage 0 0) + 8 ≤ s.generalEnd 0 ∧
      ((s.cellAt 0).queue 0).accepts 4 = true ∧ ((s.cellAt 0).queue 0).ext = none ∧ cellOf 4 = loadCmd.cell ∧
      (benchMaps (s4s .idle none 1)).streamRuns 4 (((benchMaps (s4s .idle none 1)).hartAt 4).slot 1) loadCmd = false := by
  refine ⟨rfl, ?_⟩; decide

/-- A stream in its end, with a token for FIFO 2, and a ring whose producers have ended. -/
theorem witness_stream_completion :
    let m : StreamCmd := { loadCmd with tkp := true, tkf := 2 };
    let s := benchMaps (s4s .active (some m) 3);
    ((s.hartAt 4).slot 1).cmd = some m ∧ ((s.hartAt 4).slot 1).state = .active ∧ ((s.hartAt 4).slot 1).segPhase = 3 ∧
      s.cellMoves (cellOf 4) = true ∧ m.space ≠ 2 ∧ m.ep < 16 ∧ tokenCount ((s.cellAt 0).fifo 2) < 16 ∧
      16 ≤ tokenCount (List.replicate 16 (.token 4)) ∧
      ((s.modCell 0 (fun c => c.setQueue 33 ⟨4, [], none, none, [0], some 0, 0⟩)).cellAt 0).queue (32 + 1) = ⟨4, [], none, none, [0], some 0, 0⟩ := by
  refine ⟨rfl, rfl, rfl, ?_⟩; decide

/-! Witnesses: switches, the compressor, the converter. -/

/-- The switch of cell 0 before a word, with flits at its inputs and its progress. -/
def pswitch (w : List Word) (bufs : List (Nat × Fifo)) (left : List Nat) : State :=
  { bench 7 id with
    cells := [(0, { Cell.reset with bufs := bufs, sw := { Switch.reset with left := left }, cfg := { CellCfg.none with program := w } })] }

/-- A data flit and a control flit. -/
def dataFlit : Flit := ⟨0#3, 0#5, 5#256⟩
def tokenFlit (sb : Nat) : Flit := ⟨6#3, 0#5, BitVec.ofNat 256 (sb * 2 ^ 32)⟩

/-- A route from input 0 to output 2, with a flit there, without one, and with no room behind it; also 0 to both 2 and 3. -/
theorem witness_route :
    (let s := pswitch [] [(0, [dataFlit])] [1];
      ((s.begin 0 1 1).cellAt 0).sw.left = [1] ∧ (s.begin 0 1 1).headFlit 0 (inKey 0 0 2) = some (dataFlit, []) ∧
        outTie 0 0 2 = some (.buf 1 6) ∧ (s.begin 0 1 1).tieRoom (.buf 1 6) = true ∧ outTie 0 0 3 = some (.buf 1 7) ∧
        (s.begin 0 1 1).tieRoom (.buf 1 7) = true ∧ inKey 0 0 3 = inKey 0 0 2) ∧
    (pswitch [] [] [1]).headFlit 0 (inKey 0 0 2) = none ∧
    (((pswitch [] [(0, [dataFlit])] [1, 1]).begin 0 2 1).cellAt 0).sw.left = [1, 1] ∧
    ((pswitch [] [(0, [dataFlit])] [1]).modCell 1 (fun c => c.setBuf 6 [dataFlit, dataFlit])).tieRoom (.buf 1 6) = false := by decide

/-- R277, R280: the last flit of a route moves to the neighbour, and the word ends. -/
theorem test_route : (match exec (.route 0#2 0x002#10 0#10 0#10 0#10 0#12) (pswitch [] [(0, [dataFlit])] []) with
    | .next t => decide ((t.cellAt 1).buf 6 = [dataFlit] ∧ (t.cellAt 0).buf 0 = [] ∧ (t.cellAt 0).sw.pc = 1)
    | _ => false) = true := by decide

/-- A table entry of an untagged INT32 channel without blocks: a flit enters a port register. -/
theorem witness_deliver : ((pswitch [] [] []).cellAt 0).cftEntry 0 dataFlit.vc.toNat / 2 ^ 10 % 4 ≠ 1 ∧
    blkSize (((pswitch [] [] []).cellAt 0).cftEntry 0 dataFlit.vc.toNat / 2 ^ 8 % 4) = 0 ∧ dataFlit.isData = true := by decide

/-- A steer and a merge whose decisions stand at input 1, and the flits at inputs 0 and 2; control flits at both inputs of a merge. -/
theorem witness_choices :
    (let s := pswitch [] [(0, [dataFlit]), (1, [dataFlit]), (2, [dataFlit])] [1];
      ((s.begin 0 1 1).cellAt 0).sw.left = [1] ∧ (s.begin 0 1 1).headFlit 0 0 = some (dataFlit, []) ∧ dataFlit.decision = some true ∧
        (s.begin 0 1 1).headFlit 0 1 = some (dataFlit, []) ∧ outTie 0 0 2 = some (.buf 1 6) ∧ outTie 0 0 3 = some (.buf 1 7) ∧
        (s.begin 0 1 1).tieRoom (.buf 1 6) = true ∧ (s.begin 0 1 1).tieRoom (.buf 1 7) = true) ∧
    (let s := pswitch [] [(0, [tokenFlit 1]), (1, [tokenFlit 1]), (2, [tokenFlit 2])] [1];
      (s.begin 0 1 1).headFlit 0 0 = some (tokenFlit 1, []) ∧ (s.begin 0 1 1).headFlit 0 1 = some (tokenFlit 1, []) ∧
        (s.begin 0 1 1).headFlit 0 2 = some (tokenFlit 2, []) ∧ (tokenFlit 1).isData = false ∧ (tokenFlit 1).sub ≠ (tokenFlit 2).sub ∧
        (tokenFlit 1).decision = none ∧ (tokenFlit 5).decision = some false ∧ (s.begin 0 1 1).bufRoom 1 6 2 = true) := by decide

/-- EMIT of a value and of a TENON whose entry this cell's harts own; WAITTOK that finds its flit, and another. -/
theorem witness_switch_control : outTie 0 31 2 = some (.buf 1 6) ∧ (pswitch [] [] []).tieRoom (.buf 1 6) = true ∧
    (pswitch [] [] []).releaseOwner 0 5 = none ∧ (pswitch [] [(0, [tokenFlit 3])] []).headFlit 0 0 = some (tokenFlit 3, []) ∧
    (tokenFlit 3).kind = 6#3 ∧ (tokenFlit 3).sub = 3 ∧ ((pswitch [] [] []).cellAt 0).sw.c[(2#2).toNat]? = some 0#24 := by decide

/-- R286: a counter that becomes 0 ends the loop. -/
theorem test_bnz : (match exec (.bnz 0#2 0#12) ((pswitch [] [] []).modCell 0 (fun c =>
      { c with sw := { c.sw with pc := 4, c := Vector.replicate 4 1#24 } })) with
    | .next t => decide ((t.cellAt 0).sw.pc = 5)
    | _ => false) = true := by decide

/-- R72: the worked encoding of route west0>east0, lp0>south0, 64. -/
theorem test_word_route : decodeTableWord 64 0x0A184820000001F8 = some (.route 1#2 0x0C2#10 0x104#10 0#10 0#10 63#12) := by decide

/-- The word of a running switch, a route from 0 to 2 for one flit, written out from R72; and seams with what stands at them. -/
theorem witness_switch_events : ((pswitch [0x0800400000000000#64] [] []).as 7).cellMoves 0 = true ∧
    ((pswitch [0x0800400000000000#64] [] []).as 7).fetchSwitch 0 = .ok (some (.route 0#2 0x002#10 0#10 0#10 0#10 0#12)) ∧
    isSeam 0 0 = false ∧ isSeam 23 2 = true ∧
    (((pswitch [] [] []).modCell 23 (fun c => c.setBuf 2 [dataFlit])).cellAt 23).buf 2 = [] ++ [dataFlit] ∧
    (((pswitch [] [] []).modCell 23 (fun c => c.setBuf 2 [tokenFlit 1])).cellAt 23).buf 2 = [] ++ [tokenFlit 1] ∧
    (tokenFlit 1).isMarker = false := by decide

/-- An M-cell with a compressor entry for tiles of 8 by 8 FP32, a converter entry to FP16, and flits at the inputs of both. -/
def pconv (cmpt : Nat) (comp : List CompState) (conv : List ConvState) : State :=
  { bench 0 id with
    cells := [(1, { Cell.reset with
      comp := comp
      conv := conv
      ports := [(48, [⟨dataFlit, 0, [], false, none⟩]), (50, [⟨dataFlit, 0, [], false, none⟩])]
      cfg := { CellCfg.none with cmpt := [(0, cmpt)], convt := [(0, 2)], cft := [(0, 1)] } })] }

theorem witness_converters : isM 1 = true ∧ hasConverter 1 = true ∧ (pconv 1 [] []).cellMoves 1 = true ∧
    (∀ e ∈ [1, 1 + 2 ^ 30], 1 ≤ e % 16 ∧ e % 16 ≤ 10) ∧ (1 / 2 ^ 30 % 2 = 0 ∧ (1 + 2 ^ 30) / 2 ^ 30 % 2 = 1) ∧
    lookupD 0 0 ((pconv 1 [] []).cellAt 1).cfg.cmpt = 1 ∧ (((pconv 1 [⟨0, [], [dataFlit]⟩] []).cellAt 1).compAt 0).out = [dataFlit] ∧
    (pconv 1 [] []).bufRoom 1 88 1 = true ∧ (pconv 1 [] []).bufRoom 1 80 1 = true ∧ (((pconv 1 [] []).cellAt 1).compAt 0).out = [] ∧
    (pconv 1 [] []).engineHead 1 50 = some (⟨dataFlit, 0, [], false, none⟩, []) ∧
    (pconv 1 [] []).engineHead 1 48 = some (⟨dataFlit, 0, [], false, none⟩, []) ∧ dataFlit.kind ≠ 4#3 ∧ dataFlit.vc = BitVec.ofNat 5 0 ∧
    (((pconv 1 [] []).cellAt 1).convSpec 0).fmt = 2 ∧ (((pconv 1 [] []).cellAt 1).convAt 0).out = [] ∧
    ((pconv 1 [] []).cellAt 1).cftEntry 0 0 % 16 ≠ 0 ∧ recordsOf [dataFlit] = none ∧
    recordsOf [⟨0#3, 0#5, BitVec.ofNat 256 (2 ^ 63)⟩] = some [2 ^ 63] := by decide

/-! Witnesses: packets. -/

/-- The bench with one packet of a type on its way, a request it answers, and room for what it does. -/
def pnet (p : Packet) (r : List Request) : State := { p0pool .sealed 2 with net := [p], requests := r }

/-- A packet of a type to cell 1 of the bench's context, with address 0x100 and a payload. -/
def benchPacket (type : Nat) (bs : List Byte) : Packet := ⟨type, 3 ≤ type ∧ type ≠ 5 ∧ type ≠ 6 ∧ type ≠ 8 ∧ type ≠ 10, 0, 1, 0, 1, 7, 0x100, bs, [false]⟩

theorem witness_packet_order : (pnet (benchPacket 0 []) []).net[0]? = some (benchPacket 0 []) ∧ (pnet (benchPacket 0 []) []).net[1]? = none ∧
    (benchPacket 0 []).type ≠ 1 ∧ (∃ s : State, s.net[1]? = some (benchPacket 0 []) ∧
      ∃ q ∈ s.net.take 1, q.reply = (benchPacket 0 []).reply ∧ q.src = (benchPacket 0 []).src ∧ q.dst = (benchPacket 0 []).dst) :=
  ⟨rfl, rfl, by decide, { pnet (benchPacket 0 []) [] with net := [benchPacket 0 [], benchPacket 0 []] }, rfl, benchPacket 0 [],
    by decide, rfl, rfl, rfl⟩

/-- Every type arrives there. -/
theorem witness_arrives : ∀ t ∈ List.range 15, Arrives (pnet (benchPacket t []) []) 0 t (benchPacket t []) := by
  intro t ht; simp only [List.mem_range] at ht; interval_cases t <;> exact ⟨rfl, rfl, by simp [pnet], by decide⟩

/-- The requests that replies answer; no function of the host sent the task record; the context has a region at the bay. -/
theorem witness_packets :
    (∀ w ∈ [ReqFor.line 0 3 0x100, .walk 1 1 0x2000, .pool 0, .peer 0],
      (pnet (benchPacket 3 []) [⟨7, 0, 0, w⟩]).requests.find? (fun q => q.xid = (benchPacket 3 []).xid) = some ⟨7, 0, 0, w⟩) ∧
    memNode (benchPacket 1 []).addr = 1 ∧ True ∧ (1, 1) ∉ (pnet (benchPacket 1 []) []).pkg.purged ∧
    packetOp (dwordAt (List.replicate 32 0#8) 0) = some .add ∧ (benchPacket 5 []).spawnOf = none ∧
    (∃ g, (without (pnet (benchPacket 5 []) []) 0).regionFor 1 (bayOf 1) = some (0, g) ∧ g.state = .active ∧ g.shut = false) ∧
    ((without (pnet (benchPacket 5 []) []) 0).bayAt (bayOf 1)).hasRoom = true ∧ (pnet (benchPacket 6 []) []).regionOfBay (bayOf 1) = some 0 ∧
    ((pnet (benchPacket 8 []) []).cellAt 1).pool.partOf 1 = some (0, ⟨1, 0, 4, 8, 1, []⟩) ∧
    (without (pnet (benchPacket 10 []) []) 0).walk 1 0x100 = (none, false) ∧ (pnet (benchPacket 14 []) []).ctx? 1 = some Context.reset := by
  refine ⟨by decide, by decide, by decide, by decide, by decide, by decide, ⟨_, rfl, rfl, rfl⟩, by decide, by decide, by decide, by decide, rfl⟩

/-- A write for this device's memory, one for a cell's window, and one for a peer whose operation stands or is gone. -/
theorem witness_writes : (benchPacket 1 []).dev = 0 ∧ (benchPacket 1 []).dst = memNode (benchPacket 1 []).addr ∧
    ({ benchPacket 1 [] with dst := 2 } : Packet).dst ≠ memNode (benchPacket 1 []).addr ∧ ({ benchPacket 1 [] with dev := 1 } : Packet).dev ≠ 0 ∧
    (pnet (benchPacket 1 []) []).requests.find? (fun q => q.xid = 7) = none ∧
    (pnet (benchPacket 1 []) [⟨7, 0, 0, .peer 0⟩]).requests.find? (fun q => q.xid = 7) = some ⟨7, 0, 0, .peer 0⟩ := by decide

/-- A miss at the walker of a bay, whose walk ends at no leaf, and one that reads a poisoned entry; the order of misses (R362, R365). -/
theorem witness_walkers :
    (let s : State := { pnet (benchPacket 0 []) [] with walkers := [(0, [(0, { benchPacket 10 [] with src := 1 })])] };
      ((lookupD [] 0 s.walkers).take 4)[0]? = some (0, { benchPacket 10 [] with src := 1 }) ∧ (s.walk 1 0x100).2 = false ∧
        ({ s with mem := ⟨[], [Context.reset.root / 8]⟩ }.walk 1 0x100).2 = true ∧ s.regionOfCell 1 = some 0) ∧
    queueMiss 5 { benchPacket 10 [] with src := 2 } [(4, benchPacket 10 []), (5, { benchPacket 10 [] with src := 3 })] =
      [(4, benchPacket 10 []), (5, { benchPacket 10 [] with src := 2 }), (5, { benchPacket 10 [] with src := 3 })] := by
  refine ⟨⟨rfl, ?_⟩, ?_⟩ <;> decide

theorem witness_line_reply : let s : State := { pnet (benchPacket 3 []) [⟨7, 0, 0, .line 0 3 0x100⟩] with
      harts := [(0, { Hart.reset with loads := [{ readyLoad with id := 3 }] })] };
    Arrives s 0 3 (benchPacket 3 []) ∧ isCompute 0 = true ∧ (∃ l ∈ (s.hartAt 0).loads, l.id = 3) ∧ ((s.cellAt 0).l1.map L1Line.pa).Nodup ∧
      s.requests.find? (fun q => q.xid = (benchPacket 3 []).xid) = some ⟨7, 0, 0, .line 0 3 0x100⟩ :=
  ⟨⟨rfl, rfl, by simp [pnet], by decide⟩, by decide, ⟨_, List.mem_singleton.2 rfl, rfl⟩, by decide, rfl⟩

/-! Witnesses: engines. -/

/-- A message of compute hart 0 with its first dwords. -/
def benchMessage (ds : List Word) : Message := ⟨ds ++ List.replicate (8 - ds.length) 0#64, 0, 1, 0⟩

/-- COPY, COPY with overlap, FILL, REDUCE of two INT32 sources at 0, BCAST to none, COPY to peer 1. -/
def copyMsg : Message := benchMessage [0x0100000000000000#64, 0#64, 8#64, 0x100#64, 0x200#64]
def overlapMsg : Message := benchMessage [0x0100000000000000#64, 0#64, 8#64, 0x100#64, 0x104#64]
def fillMsg : Message := benchMessage [0x0300000000000000#64, 0#64, 8#64, 0x1122334455667788#64, 0x200#64]
def reduceMsg : Message := benchMessage [0x1000A00200000000#64, 0#64, 1#64, 0x300#64, 0x200#64]
def peerMsg : Message := benchMessage [0x0110000000000000#64, 0#64, 8#64, 0x100#64, 0x200#64]

/-- The bench with a message at the head of an engine's inbox and an operation that it has begun. -/
def pengine (kind : Nat) (m : Message) (run : Option EngineRun) : State :=
  if kind = 0 then (p0pool .sealed 2).modCell 1 (fun c => { c with inbox := [m], run := run })
  else (p0pool .sealed 2).modBay 0 (fun b => { b with inbox := [m], run := run })

theorem witness_engine_begins : (pengine 0 copyMsg none).messageHead 0 1 = some copyMsg ∧ copyMsg.op = 1 ∧
    (pengine 0 copyMsg none).cellMoves 1 = true ∧ (pengine 0 copyMsg none).engineRun 0 1 = none ∧
    (∀ a ∈ copyMsg.reads [], ∀ b ∈ copyMsg.writes [], overlaps a b = false) ∧ copyMsg.ddev = 0 ∧
    (∃ a ∈ overlapMsg.reads [], ∃ b ∈ overlapMsg.writes [], overlaps a b = true) ∧
    (pengine 1 reduceMsg none).messageHead 1 0 = some reduceMsg ∧ reduceMsg.op = 0x10 ∧ reduceMsg.fmt = 10 ∧
    (pengine 1 reduceMsg none).readList 1 reduceMsg = .ok [0, 0] ∧ (∀ a ∈ reduceMsg.operands [0, 0], a % collectiveWidth reduceMsg.fmt = 0) ∧
    (reduceMsg.operands [0, 2] = [0] ++ 2 :: [0x200]) ∧ peerMsg.ddev = 1 ∧
    (((pengine 0 peerMsg none).peer 1 1).bind (pengine 0 peerMsg none).pickLink) = none := by
  refine ⟨rfl, by decide, by decide, rfl, by decide, by decide, by decide, rfl, by decide, by decide, rfl, by decide, by decide, by decide,
    rfl⟩

/-- An operation that goes on, and one that has its last byte before it. -/
theorem witness_engine_moves : (pengine 0 fillMsg (some ⟨9, 0, false, [], 0⟩)).engineRun 0 1 = some ⟨9, 0, false, [], 0⟩ ∧
    fillMsg.rowBytes = 8 ∧ fillMsg.rows = 1 ∧
    (∃ bs, (pengine 0 fillMsg (some ⟨9, 0, false, [], 0⟩)).pieceBytes 1 fillMsg ⟨9, 0, false, [], 0⟩ 0 0 8 = .ok bs ∧
      ∃ t, (pengine 0 fillMsg (some ⟨9, 0, false, [], 0⟩)).writePiece 1 fillMsg ⟨9, 0, false, [], 0⟩ 0x200 bs = .ok (some t)) ∧
    (pengine 0 fillMsg none).region? fillMsg.region = some benchRegion :=
  ⟨rfl, by decide, by decide, ⟨_, rfl, _, rfl⟩, rfl⟩

/-- R416: a FILL of 8 bytes is seen by the region, from its first byte on, and not yet in memory. -/
theorem test_fill : (match exec (.fill 1) (pengine 0 fillMsg (some ⟨9, 0, false, [], 0⟩)) with
    | .next t => decide (t.viewByte 0 0x200 = 0x88#8 ∧ t.viewByte 0 0x207 = 0x11#8 ∧ t.mem.byte 0x200 = 0#8 ∧ (t.cellAt 1).inbox = [])
    | _ => false) = true := by decide

theorem witness_bulk_values : copyMsg.op = 1 ∧ (benchMessage [0x0200000000000000#64]).op = 2 ∧ fillMsg.op = 3 ∧ reduceMsg.op = 0x10 ∧
    (benchMessage [0x1100000000000000#64]).op = 0x11 ∧ reduceMsg.rop = 0 ∧
    ∃ xs, (pengine 1 reduceMsg none).engineReads 1 reduceMsg 0 4 [0, 0] = .ok xs ∧ xs ≠ [] := by
  refine ⟨by decide, by decide, by decide, by decide, by decide, by decide, _, rfl, by simp⟩

/-- Tile copies out of slot 0 and into it; one from a reference that does not resolve. -/
def tileOut : Message := benchMessage [0x0400000000000000#64, 0#64, 1#64, 0#64, 0x200#64]
def tileIn : Message := benchMessage [0x0400000000000000#64, 0#64, 2#64, 0x100#64, 0#64, 0x7000#64]

theorem witness_tile_copy : (pengine 0 tileOut none).messageHead 0 1 = some tileOut ∧ tileOut.op = 4 ∧ (tileOut.d 2).testBit 0 = true ∧
    (tileIn.d 2).testBit 0 = false ∧ (tileIn.d 2).testBit 1 = true ∧ (∃ k, (pengine 0 tileOut none).engineRef tileOut (tileOut.d 3) = some (1, k)) ∧
    (∃ t, (pengine 0 tileOut none).admitRead 1 0 1 0 false = .admitted t) ∧
    ({ pengine 0 tileOut none with cells := [] } : State).engineRef tileOut (tileOut.d 3) = none ∧
    (∃ k, ((p0pool .filling 2).modCell 1 (fun c => { c with inbox := [tileIn] })).engineRef tileIn (tileIn.d 4) = some (1, k) ∧
      k.state = .filling ∧ k.owner = tileIn.sender ∧ k.desc.toNat / 4096 = tileIn.d 5 / 4096) :=
  ⟨rfl, by decide, by decide, by decide, by decide, ⟨_, rfl⟩, ⟨_, rfl⟩, rfl, _, rfl, rfl, rfl, by decide⟩

/-- A source whose bytes have another sum than its sidecar, and one whose sums are right (R113). -/
theorem witness_tile_copy_check : (match (pengine 0 tileOut none).admitRead 1 0 1 0 false with
      | .admitted t => (t.engineRef tileOut (tileOut.d 3)).any (fun q => decide (descFmt q.2.desc ≠ 11 ∧
          (pengine 0 tileOut none).slotSums q.1 q.2 ≠ q.2.sidecar))
      | _ => false) = true ∧
    (let k : PoolSlot := ⟨0, 1, 0, .sealed, 0x7002#64, 0, 2, 0, 0, [0#32, 0#32], none, []⟩;
      (p0pool .sealed 2).slotSums 1 k = k.sidecar) := by decide +kernel

/-- A bay with one ready record for the P class of its cells, in a configured cell. -/
def ptask (configured : Bool) : State :=
  let r : Record := ⟨5, 1, 0, 0x2000#64, 0, 1#16, 0x0F#8, false, 0, 0#256, 0#256, [1#64, 2#64, 3#64, 4#64], [], none, 0⟩
  let s := if configured then (p0pool .sealed 2).modCell 0 (fun c => { c with cfgid := 4 }) else p0pool .sealed 2
  s.modBay 0 (fun b => { b with store := [r] })

theorem witness_dispatch : (((p0pool .sealed 2).modBay 0 (fun b => b.promote.refresh)).bayAt 0).order = [] := by decide

theorem witness_dispatch_one : ∃ r : Record, (((ptask true).modBay 0 (fun b => b.promote.refresh)).bayAt 0).order = [r] ∧
    0#256 &&& ~~~0#256 &&& r.waits = r.waits ∧ (∃ post, matching 0 r.cells r.classes = [0] ++ 1 :: post) ∧
    ((ptask true).modBay 0 (fun b => b.promote.refresh)).eligible r 0 = false ∧
    ((ptask true).modBay 0 (fun b => b.promote.refresh)).eligible r 1 = true ∧
    (∀ h ∈ matching 0 r.cells r.classes, ((ptask false).modBay 0 (fun b => b.promote.refresh)).eligible r h = false) := by
  refine ⟨_, rfl, by decide, ⟨_, rfl⟩, by decide, by decide, by decide⟩

/-- R394: the record starts on the first eligible hart, with its pc and its arguments. -/
theorem test_dispatch : (match exec (.dispatch 0) (ptask true) with
    | .next t => decide ((t.hartAt 1).pc = 0x2000#64 ∧ ((t.hartAt 1).xval 20#5).val = 1#64 ∧ ((t.hartAt 1).xval 23#5).val = 4#64 ∧
      (t.bayAt 0).store = [])
    | _ => false) = true := by decide

/-! Witnesses: regions. -/

/-- The bench without a task, its region changed by `f`. -/
def preg (f : Region → Region) : State := { bench 0 id with harts := [], regions := [(0, f benchRegion)] }

/-- A snapshot of nothing. -/
def emptySnap : Snapshot := ⟨0, [], [], [], [], [], [], [], [], [], [], [], [], [], [], []⟩

theorem witness_waves :
    (preg (fun g => { g with wanted := true })).region? 0 = some { benchRegion with wanted := true } ∧
    ({ benchRegion with wanted := true } : Region).cuts = true ∧ benchRegion.cuts = true ∧ benchRegion.inFlight = false ∧
    benchRegion.rparm.toNat / 2 ^ 32 ≤ ({ benchRegion with moved := 65536 } : Region).moved ∧ benchRegion.moved < benchRegion.rparm.toNat / 2 ^ 32 ∧
    (∃ w ∈ ({ benchRegion with releases := [(0, 16384)] } : Region).releases, 2 ^ (benchRegion.rparm.toNat / 2 ^ 19 % 32) ≤ w.2) ∧
    (let s := preg (fun g => { g with inFlight := true });
      65536 ∈ s.parties { benchRegion with inFlight := true } ∧ 65536 ∉ ({ benchRegion with inFlight := true } : Region).parted ∧
        s.partDue { benchRegion with inFlight := true } 65536 = true) ∧
    (let g := { benchRegion with inFlight := true, parted := [65536] };
      (∀ p ∈ (preg (fun _ => g)).parties g, p ∈ g.parted) ∧ (∀ t ∈ (preg (fun _ => g)).ties g, (preg (fun _ => g)).kerfDone g t = true)) := by
  refine ⟨rfl, ?_⟩; decide

theorem witness_drain : ∃ g : Region, (preg (fun _ => g)).region? 0 = some g ∧ g.commit ≠ [] ∧ (preg (fun _ => g)).mem.wf ∧
    (∀ w ∈ g.commit, (w.units.map Prod.fst).Nodup) :=
  ⟨{ benchRegion with commit := [⟨1, 1, 0x100, [some 1#8], [(32, true)]⟩] }, rfl, by decide, Mem.empty_wf, by decide⟩

theorem witness_rollback : benchRegion.state = .active ∧ benchRegion.exposed = none ∧ benchRegion.rollbacks < 7 ∧ benchRegion.snap = none ∧
    ({ benchRegion with snap := some emptySnap } : Region).snap ≠ none ∧
    (∃ w, ({ benchRegion with exposed := some 3 } : Region).exposed = some w ∧ benchRegion.wave < w) ∧
    (let g := { benchRegion with state := .rollback, drainClk := 65536, snap := some emptySnap };
      (preg (fun _ => g)).region? 0 = some g ∧ 2 ^ 16 ≤ g.drainClk ∧ (preg (fun _ => g)).running 0 = [] ∧ g.resumeCmd = none) ∧
    (let g := { benchRegion with state := .draining, pdl := 2 ^ 20 };
      (preg (fun _ => g)).drained? 0 g = true ∧ 2 ^ (g.rparm.toNat / 2 ^ 4 % 32) ≤ g.pdl ∧ g.finalWave = false) := by
  refine ⟨rfl, rfl, by decide, rfl, by decide, ⟨3, rfl, by decide⟩, ⟨rfl, by decide, rfl, rfl⟩, ?_⟩; decide

/-- Causes that wait: of a region whose action of this clk is taken, of one that loads, of one whose snapshot is gone (R435). -/
theorem witness_causes : ({ benchRegion with codeAt := some 0, code := 0x48 } : Region).codeAt = some (preg id).clk ∧
    ({ benchRegion with state := .frozen, actedAt := some 0 } : Region).actedAt = some (preg id).clk ∧
    ({ benchRegion with state := .loading } : Region).actedAt ≠ some (preg id).clk ∧
    ({ benchRegion with state := .rollback, actedAt := some 0 } : Region).state = .rollback := by decide

/-- An image without sections, and one whose one section its context does not map. -/
def benchImg (ds : List Section) : Image := ⟨0x4000, 4096, false, rparmReset, [0, 0, 1, 1], ds, [], []⟩

/-- The bench with image 5, every cell of it fetched or cell 1 fetching, its region changed by `f`. -/
def pcfg (ds : List Section) (sh : Fetch) (f : Region → Region) : State :=
  let s := { preg f with ctxs := [(1, { Context.reset with images := [(5, benchImg ds), (4, benchImg ds)] })] }
  (f benchRegion).cells.foldl (fun s c => s.modCell c (fun x => { x with shadow := sh })) s

theorem witness_config_load :
    (let g := { benchRegion with state := .loading, loadCmd := some (0, (1, 5)) };
      ((pcfg [] (.ready 5 none) (fun _ => g)).image? 1 5).isSome = true ∧ (pcfg [] (.ready 5 none) (fun _ => g)).allFetched g 5 = true ∧
        (pcfg [] (.pending 5 0 false) (fun _ => g)).allFetched g 5 = false ∧
        (preg (fun _ => { g with holds := false })).baysFree 0 { g with holds := false } = true) := by decide

theorem witness_shadow : ((pcfg [] (.pending 5 0 false) id).cellAt 1).shadow = .pending 5 0 false ∧
    (pcfg [] (.pending 5 0 false) id).regionOfCell 1 = some 0 ∧ (pcfg [] (.pending 5 0 false) id).image? 1 5 = some (benchImg []) ∧
    (pcfg [] (.pending 5 0 false) id).fetchCell 0 1 1 (benchImg []) = .none ∧
    (∃ va, (pcfg [⟨1, 0, 1, 0x10000, 8, []⟩] (.pending 5 0 false) id).fetchCell 0 1 1 (benchImg [⟨1, 0, 1, 0x10000, 8, []⟩]) = .fault va) :=
  ⟨rfl, rfl, rfl, rfl, _, rfl⟩

theorem witness_swap :
    (let g := { benchRegion with acfg := 4, scfg := 5, requested := some 0, sws := 3 };
      (pcfg [] (.ready 5 none) (fun _ => g)).swapDue 0 g 1 = true ∧ (pcfg [] (.ready 5 none) (fun _ => g)).oldOutputs g 1 = [] ∧
        (∃ c ∈ g.cells, c ≠ 1 ∧ c ∉ g.swapped) ∧ ((pcfg [] (.ready 5 none) (fun _ => g)).image? 1 4).isSome = true ∧
        (pcfg [] .idle (fun _ => g)).swapDue 0 g 1 = false) := by decide

/-- Hart 0 blocked on its full queue iq0, and an old request. -/
def pstall : State :=
  let s := preg (fun g => { g with swd := 2 ^ 14, hng := 2 ^ 22 })
  { s with clk := 2 ^ 25, requests := [⟨7, 0, 0, .line 0 3 0x100⟩] }

theorem witness_watchdogs : pstall.region? 0 = some { benchRegion with swd := 2 ^ 14, hng := 2 ^ 22 } ∧
    2 ^ (benchRegion.rparm.toNat / 2 ^ 19 % 32) ≤ 2 ^ 14 ∧ 2 ^ (benchRegion.rparm.toNat / 2 ^ 14 % 32) ≤ 2 ^ 22 ∧
    pstall.smallestFull 0 { benchRegion with swd := 2 ^ 14, hng := 2 ^ 22 } = none ∧
    pstall.awaitsReply ⟨7, 0, 0, .line 0 3 0x100⟩ = true ∧ 0 + 2 ^ (benchRegion.rparm.toNat / 2 ^ 9 % 32) < pstall.clk := by
  refine ⟨rfl, ?_⟩; decide

/-! Witnesses: the host. -/

/-- A command entry of function 0 with operands, accepted. -/
def jent (op : Nat) (ops : List Word) : JEntry := ⟨op, 1, 1, 0#64, ops, 0#64, 0, 0, 0, [], []⟩

/-- The bench's context with one entry, of function 0, its region changed by `f`. -/
def phost (e : JEntry) (f : Region → Region) : State :=
  { preg f with fns := [(0, { Fn.reset with journal := [(1, e)], jacc := 1 })] }

/-- Every command may start there. -/
theorem witness_starts : ∀ op ∈ [0x01, 0x02, 0x03, 0x04, 0x05, 0x06, 0x07, 0x08, 0x09, 0x0A, 0x0B, 0x0C],
    Starts (phost (jent op []) id) 0 1 op (jent op []) := by
  intro op h; simp only [List.mem_cons, List.not_mem_nil, or_false] at h
  rcases h with rfl | rfl | rfl | rfl | rfl | rfl | rfl | rfl | rfl | rfl | rfl | rfl <;> exact ⟨rfl, rfl, rfl, by decide⟩

/-- A record of 64 zero bytes: its opcode is none, so it is refused (R455); a KILL of context 1 is accepted. -/
theorem witness_records : State.reset.pkg.bootstat % 2 = 1 ∧ State.reset.pkg.bootstat / 16 % 2 = 1 ∧
    (List.replicate 64 0#8).length = 64 ∧ State.reset.recordReason 0 (List.replicate 64 0#8) ≠ 0 ∧
    (preg id).recordReason 0 (leBytes 8 (0x09 * 2 ^ 56 + 2 ^ 44) ++ List.replicate 56 0#8) = 0 ∧
    recOp (leBytes 8 (0x09 * 2 ^ 56 + 2 ^ 44) ++ List.replicate 56 0#8) = 0x09 ∧ State.reset.entry? 0 1 = none ∧
    (State.reset.fnAt 0).jacc + 1 = 1 := by decide

/-- R453: a whole record enters the inbox. -/
theorem test_inbox : (match exec (.inboxWrite 0 0 (List.replicate 64 0#8)) State.reset with
    | .next t => decide (t.pkg.inbox.length = 1)
    | _ => false) = true := by decide

/-- R451, R453: a part of a record, a write beyond the inbox window, a full inbox. -/
theorem witness_inbox_forms : ([1#8] : List Byte) ≠ [] ∧ (0 % 64 + ([1#8] : List Byte).length ≤ 64) ∧ (4096 : Nat) ≤ 4096 ∧
    256 ≤ ({ State.reset.pkg with inbox := List.replicate 256 (0, []) } : Pkg).inbox.length := by decide

/-- A LOADCFG that waits for its region's state; the reads of an image and of a record that fail without a lost entry. -/
theorem witness_command_waits : ({ benchRegion with state := .draining } : Region).state ≠ .idle ∧
    (started (phost (jent 0x04 []) id) 0 1).lostImage 1 0 = false ∧ (started (phost (jent 0x05 [1#64]) id) 0 1).lostWalk 1 1 64 = false ∧
    (started (phost (jent 0x05 [1#64]) id) 0 1).lostWalk 1 1 128 = false := by decide

theorem witness_region_commands :
    (started (phost (jent 0x07 []) id) 0 1).ownRegion 1 0 = some benchRegion ∧ benchRegion.preemptCmd = none ∧
    (started (phost (jent 0x07 [9#64]) id) 0 1).ownRegion 1 9 = none ∧
    (started (phost (jent 0x06 []) id) 0 1).regionFor 1 0 = some (0, benchRegion) ∧ benchRegion.takesSignals = true ∧
    ({ benchRegion with state := .rollback } : Region).takesSignals = false ∧
    (started (phost (jent 0x08 []) (fun g => { g with state := .preempted, holds := false })) 0 1).ownRegion 1 0 =
      some { benchRegion with state := .preempted, holds := false } ∧
    (started (phost (jent 0x05 []) id) 0 1).regionFor 1 0 ≠ none ∧
    (started (phost (jent 0x05 [1#64]) id) 0 1).spawnRecord 1 0 1 = .error 0x05 ∧
    (started (phost (jent 0x04 []) id) 0 1).readImage 1 0 = none ∧
    lowest 0 192 (fun r => ((started (phost (jent 0x01 []) id) 0 1).region? r).isNone) = some 1 ∧
    (∃ t, (started (phost (jent 0x01 []) id) 0 1).openCtx 0 (jent 0x01 []) = some (1, t)) ∧
    (started (phost (jent 0x01 []) id) 0 1).placeOk 0 (openedRegion 1 (jent 0x01 [])) = false :=
  ⟨rfl, rfl, rfl, rfl, rfl, rfl, rfl, by decide, rfl, rfl, by decide, ⟨_, rfl⟩, by decide⟩

theorem witness_memory_commands :
    (started (phost (jent 0x02 []) id) 0 1).firstMapped 1 1 0 0 = none ∧ maskTargets 1 = [0] ∧ maskTargets 0 = [] ∧
    (∃ t, (started (phost (jent 0x02 []) id) 0 1).mapPages 1 0 [0] 0 0 0 = some t) ∧
    (started (phost (jent 0x03 []) id) 0 1).wholeLeaves 1 0 0 2 0 = .ok [] ∧
    (started (phost (jent 0x03 []) (fun g => { g with holds := false })) 0 1).commitWaits 1 = [] ∧
    (started (phost (jent 0x03 []) id) 0 1).wholeLeaves 1 0 8192 2 0 = .error 0x08 ∧
    (∃ bs ps, (started (phost (jent 0x0A []) id) 0 1).committed 1 0 0 = .ok (bs, ps)) :=
  ⟨rfl, by decide, by decide, ⟨_, rfl⟩, rfl, rfl, rfl, _, _, rfl⟩

theorem witness_package : (∃ c ∈ ([(1, { Context.reset with fn := 3 })] : List (Nat × Context)), c.2.fn = 3) ∧
    (∀ c ∈ State.reset.ctxs, c.2.fn ≠ 3) ∧ 5 ∉ State.reset.pkg.linksDown ∧
    ({ State.reset with net := [⟨1, false, 2, 1, 0, 1, 7, 0, [], []⟩] } : State).net[0]? = some ⟨1, false, 2, 1, 0, 1, 7, 0, [], []⟩ := by
  refine ⟨⟨_, List.mem_singleton_self _, rfl⟩, by decide, by decide, rfl⟩

/-- R472: a power limit out of range is ignored, one in range is taken. -/
theorem test_plimit : (match exec (.plimitWrite 999#64) State.reset, exec (.plimitWrite 1000#64) State.reset with
    | .next t, .next u => decide (t.pkg.plimit = 2800 ∧ u.pkg.plimit = 1000)
    | _, _ => false) = true := by decide

/-! Witnesses: words, steps, frames. -/

/-- An instruction with every field, a parcel and a switch word: well-formed, encoded, decoded. -/
theorem witness_encoding : ∀ i ∈ [Instr.amoadd n0 4#3 0#1 5#5 7#5 6#5, .cAdd 3#5 4#5, .jmp 5#12], i.wf = true ∧
    ∃ e, encode i = some e ∧ decode e = some i := by
  intro i h; simp only [List.mem_cons, List.not_mem_nil, or_false] at h
  rcases h with rfl | rfl | rfl <;> exact ⟨by decide, _, rfl, by decide⟩

/-- Hart 0's turn, with add x3, x1, x2 at its pc; with an illegal word; with the parcel c.add x3, x4. -/
def pturn (w : Nat) : State :=
  { p0x with agenda := [.hart 0], mem := Mem.empty.setBytes 0x1000 (leBytes 4 w) }

theorem witness_turn : (pturn 0x040A4183).agenda = [.hart 0] ∧ (pturn 0x040A4183).hart.task.isSome = true ∧
    (pturn 0x040A4183).cellMoves (cellOf 0) = true ∧ (pturn 0x040A4183).hart.pc.toNat + 2 < 2 ^ 52 ∧
    (pturn 0x040A4183).translate (unitOf (cellOf 0)) 1 0x1000 false false true = .hit 0x1000 benchLeaf ∧
    (pturn 0x040A4183).translate (unitOf (cellOf 0)) 1 0x1002 false false true = .hit 0x1002 benchLeaf ∧
    ((pturn 0x040A4183).viewByte 0 0x1000).getLsbD 0 = true ∧ ((pturn 0x10C8).viewByte 0 0x1000).getLsbD 0 = false ∧
    (∃ m, decodeHartBytes ((pturn 0x040A4183).view 0 0x1000 2 ++ (pturn 0x040A4183).view 0 0x1002 2) = .ok (.mul n0 3#5 4#5 5#5, m)) ∧
    (∃ m, decodeHartBytes ((pturn 0x10C8).view 0 0x1000 2) = .ok (.cAdd 3#5 4#5, m)) ∧
    (∃ w, decodeHartBytes ((pturn 0x7F).view 0 0x1000 2 ++ (pturn 0x7F).view 0 0x1002 2) = .error (.illegal w)) ∧
    isEvent .coldReset = true :=
  ⟨rfl, rfl, by decide, by decide, rfl, rfl, by decide, by decide, ⟨_, rfl⟩, ⟨_, rfl⟩, ⟨_, rfl⟩, rfl⟩

/-- R42, R43: a step of hart 0 runs the instruction at its pc. -/
theorem test_step : (match step (pturn 0x040A4183) with
    | .next t => decide (t.hart.pc = 0x1004#64 ∧ t.agenda = [])
    | _ => false) = true := by decide

/-- R276: a step of a switch runs the word at its pc, jmp 5. -/
theorem test_switch_step : (match step { pswitch [0x4800000000000005#64] [] [] with agenda := [.switch 0] } with
    | .next t => decide ((t.cellAt 0).sw.pc = 5)
    | _ => false) = true := by decide

/-- What withFetchWord places runs in the next step: of a hart, and of a switch. -/
theorem test_fetch_word : (match step (State.reset.withFetchWord 32 0x040A4183) with
    | .next t => decide (t.hart.instret = 1#64)
    | _ => false) = true := by decide +kernel
theorem test_fetch_switch_word : (match step (State.reset.withFetchWord 64 0x4800000000000005) with
    | .next t => decide ((t.cellAt (cellOf t.cur)).sw.pc = 5)
    | _ => false) = true := by decide +kernel

/-- R319, R29: a turn that the order of the clk has passed, an instruction that has issued, and a clk that ends. -/
theorem witness_turn_order : ({ pturn 0x040A4183 with phase := orderKey 5 0 0 } : State).tooLate (.hart 0) = true ∧
    (pturn 0x040A4183).tooLate (.hart 0) = false ∧ (pturn 0x040A4183).hart.fetchFrom ≤ (pturn 0x040A4183).clk ∧
    ((pturn 0x040A4183).modHart (fun h => { h with issued := some (.vportw n0 0#3 0#2 1#5) })).hart.issued = some (.vportw n0 0#3 0#2 1#5) ∧
    ({ pturn 0x040A4183 with agenda := [] } : State).agenda = [] := by decide

theorem witness_canonical : (pturn 0x040A4183).mem.wf ∧ (match step (pturn 0x040A4183) with
    | .next _ => true
    | _ => false) = true := by
  refine ⟨?_, ?_⟩ <;> decide

theorem witness_operands : p0x.hart.xBusy 1#5 = false ∧ p0x.hart.vBusy 1#5 = false ∧ (0 : Nat) < (1#5).toNat ∧
    ({ p0x.hart with loads := [{ readyLoad with dst := .xreg 3#5 }] } : Hart).xBusy 3#5 = true := by decide

theorem witness_register_frame : (∃ f, footprint (.add n0 3#5 1#5 2#5) = some f ∧ (∀ r ∈ f.us, r.toNat < 24) ∧ (∀ r ∈ f.vs, r.toNat < 28) ∧
    Ready (.add n0 3#5 1#5 2#5) f.tok p0x p0x ∧ ∃ t, exec (.add n0 3#5 1#5 2#5) p0x = .next t) ∧
    (∃ f, footprint (.vadd n0 .i32 0#3 3#5 1#5 2#5) = some f ∧ f.us = [] ∧ (∀ r ∈ f.vs, r.toNat < 28) ∧
    Ready (.vadd n0 .i32 0#3 3#5 1#5 2#5) f.tok p0x p0x ∧ ∃ t, exec (.vadd n0 .i32 0#3 3#5 1#5 2#5) p0x = .next t) :=
  ⟨⟨_, rfl, by decide, by decide, ready_bare rfl rfl, _, rfl⟩, ⟨_, rfl, rfl, by decide, ready_bare rfl rfl, _, rfl⟩⟩

theorem witness_memory_frame : (∃ f, loadFootprint (.ldW n0 3#5 1#5 0#13) = some f ∧ (∀ r ∈ f.us, r.toNat < 24) ∧ f.vs = [] ∧
    Ready (.ldW n0 3#5 1#5 0#13) f.tok p0m p0m ∧ ∃ t, exec (.ldW n0 3#5 1#5 0#13) p0m = .next t) ∧
    (∃ f, storeFootprint (.stW n0 2#5 1#5 0#13) = some f ∧ (∀ r ∈ f.us, r.toNat < 24) ∧ f.vs = [] ∧ isStreamer p0m.cur = false ∧
    Ready (.stW n0 2#5 1#5 0#13) f.tok p0m p0m ∧ ∃ t, exec (.stW n0 2#5 1#5 0#13) p0m = .next t) ∧
    (∃ rs : List (StorePart × PartRes), rs ≠ [] ∧ ∀ p ∈ rs, ∀ w ∈ PartRes.writes p.2, 0x200 < w.1 ∨ w.1 + w.2.length ≤ 0x200) ∧
    (Ready (.amoadd n0 0#3 0#1 3#5 1#5 2#5) n0 p0m p0m ∧ p0m.mem.wf ∧ p0m.readU 1#5 = .got ⟨0x100#64, 24#5, false⟩ p0m ∧
      ∃ t, exec (.amoadd n0 0#3 0#1 3#5 1#5 2#5) p0m = .next t) :=
  ⟨⟨_, rfl, by decide, rfl, ready_bare rfl rfl, _, rfl⟩, ⟨_, rfl, by decide, rfl, rfl, ready_bare rfl rfl, _, rfl⟩,
    ⟨[(⟨0, 0x100, [1#8], false, none⟩, .ok [(0x100, [1#8])])], by simp, by decide⟩, ready_bare rfl rfl, Mem.empty_wf, rfl, _, rfl⟩

/-! Witnesses: rounding. -/

theorem witness_rounding : HasValue (.real false 3 (-1) false) (3 / 2) ∧ HasValue (decodeF .fp32 0x3F800000) 1 ∧
    HasValue (decodeF .fp32 0xC0000000) (-2) ∧ HasValue (decodeF .fp32 0x80000000) 0 ∧ decodeF .fp32 0x7F800000 = .inf false ∧
    (decodeF .fp32 0x7FC00000).isNan = true :=
  ⟨⟨false, 3, -1, rfl, by norm_num⟩, ⟨false, 8388608, -23, by decide, by norm_num⟩, ⟨true, 8388608, -22, by decide, by norm_num⟩,
    ⟨true, 0, -149, by decide, by norm_num⟩, by decide, by decide⟩

/-- R89: the worked examples of E2M1 under RNE: 2.5, 5, 0.25, 1.75, 7, 6.5. -/
theorem test_round_e2m1 : roundX .e2m1 .rne (.real false 5 (-1) false) = (4, .inexact) ∧ (roundX .e2m1 .rne (.real false 5 0 false)).1 = 6 ∧
    (roundX .e2m1 .rne (.real false 1 (-2) false)).1 = 0 ∧ (roundX .e2m1 .rne (.real false 7 (-2) false)).1 = 4 ∧
    roundX .e2m1 .rne (.real false 7 0 false) = (7, .overflow) ∧ roundX .e2m1 .rne (.real false 13 (-1) false) = (7, .inexact) := by decide

/-! What the assembler makes of the spec's own examples (R74, R78, and the worked example after R81). -/

theorem test_assembler : ((Pseudo.nop.expand 0#64).map (fun l => l.map encode)) = some [some (.word 0x00000005#32)] ∧
    targetField 13 12 = some 6#13 ∧ targetField 13 (-6) = some 0x1FFD#13 ∧ targetField 13 3 = none ∧
    relocate 2 0x00004E1D#32 (-6) = some 0x3FC04E9D#32 ∧ Expr.value 0#64 [] (.bin .div (.lit 7#64) (.lit 0#64)) = none := by decide

end Sys2Proof.Tests
end

/-! SUPPORT. Rounding (R82-R91): the finite values of a format in the order of their codes, ROUND as the choice between two
neighbours, and the float operations as exact real results rounded once. -/

namespace Sys2Proof.Rounding

open Sys2Proof Sys2Proof.Machine Sys2Proof.Spec

/-! The finite magnitudes of a format, in the order of their codes (R83, R85). -/

/-- The significand of the magnitude with code c. -/
def sigOf (f : FFmt) (c : Nat) : Nat := if c / 2 ^ f.fbits = 0 then c % 2 ^ f.fbits else 2 ^ f.fbits + c % 2 ^ f.fbits

/-- The magnitude with code c in units of MINSUB; the codes beyond the largest finite one go on as with an unbounded exponent. -/
def units (f : FFmt) (c : Nat) : Nat := sigOf f c * 2 ^ (c / 2 ^ f.fbits - 1)

/-- The magnitude with code c. -/
noncomputable def mag (f : FFmt) (c : Nat) : ℝ := units f c * (2 : ℝ) ^ f.minSubExp

/-- The next magnitude is one unit of the last place larger, also where the exponent changes. -/
theorem units_succ (f : FFmt) (c : Nat) : units f (c + 1) = units f c + 2 ^ (c / 2 ^ f.fbits - 1) := by
  have hb : 0 < 2 ^ f.fbits := by positivity
  unfold units sigOf
  generalize 2 ^ f.fbits = b at hb
  have hc := Nat.mod_add_div c b
  have hmod := Nat.mod_lt c hb
  generalize c / b = q at hc
  generalize c % b = r at hc hmod
  by_cases hcarry : r + 1 = b
  · obtain ⟨hdiv, hrem⟩ := (Nat.div_mod_unique hb (a := c + 1) (d := q + 1) (c := 0)).mpr
      ⟨by rw [Nat.mul_succ]; omega, hb⟩
    rw [hdiv, hrem]
    cases q with
    | zero => simpa using hcarry.symm
    | succ n => simp [← hcarry]; ring
  · obtain ⟨hdiv, hrem⟩ := (Nat.div_mod_unique hb (a := c + 1) (d := q) (c := r + 1)).mpr ⟨by omega, by omega⟩
    rw [hdiv, hrem]
    cases q with
    | zero => simp
    | succ n => simp; ring

theorem units_strictMono (f : FFmt) : StrictMono (units f) :=
  strictMono_nat_of_lt_succ fun c => by rw [units_succ]; exact Nat.lt_add_of_pos_right (by positivity)

theorem mag_strictMono (f : FFmt) : StrictMono (mag f) := fun a b h =>
  mul_lt_mul_of_pos_right (by exact_mod_cast units_strictMono f h) (by positivity)

theorem mag_nonneg (f : FFmt) (c : Nat) : 0 ≤ mag f c := by unfold mag; positivity

/-- The weight of the last bit of the magnitude with code c. -/
noncomputable def ulp (f : FFmt) (c : Nat) : ℝ := (2 : ℝ) ^ (f.minSubExp + ((c / 2 ^ f.fbits - 1 : Nat) : ℤ))

theorem mag_eq_sig (f : FFmt) (c : Nat) : mag f c = sigOf f c * ulp f c := by
  unfold mag units ulp
  rw [zpow_add₀ two_ne_zero, zpow_natCast]
  push_cast
  ring

theorem mag_succ (f : FFmt) (c : Nat) : mag f (c + 1) = mag f c + ulp f c := by
  unfold mag ulp
  rw [units_succ, zpow_add₀ two_ne_zero, zpow_natCast]
  push_cast
  ring

theorem ulp_pred_maxCode (f : FFmt) : ulp f (f.maxCode - 1) = ulp f f.maxCode := by
  have h : (f.maxCode - 1) / 2 ^ f.fbits = f.maxCode / 2 ^ f.fbits := by cases f <;> decide
  unfold ulp; rw [h]

theorem maxCode_pos (f : FFmt) : 0 < f.maxCode := by cases f <;> decide

theorem maxCode_lt (f : FFmt) : f.maxCode < 2 ^ (f.ebits + f.fbits) := by cases f <;> decide

theorem minNorm_le_maxCode (f : FFmt) : 2 ^ f.fbits ≤ f.maxCode := by cases f <;> decide

/-! Decoding (R83). -/

/-- A code whose magnitude part is no larger than the largest finite one decodes to that magnitude. -/
theorem decodeF_finite (f : FFmt) (code : Nat) (h : code % 2 ^ (f.ebits + f.fbits) ≤ f.maxCode) :
    decodeF f code = .real (decide ((code / 2 ^ (f.fbits + f.ebits)) % 2 = 1)) (sigOf f (code % 2 ^ (f.ebits + f.fbits)))
      (f.minSubExp + ((code % 2 ^ (f.ebits + f.fbits) / 2 ^ f.fbits - 1 : Nat) : ℤ)) false := by
  have hfrac : code % 2 ^ (f.ebits + f.fbits) % 2 ^ f.fbits = code % 2 ^ f.fbits :=
    Nat.mod_mod_of_dvd _ (Nat.pow_dvd_pow 2 (by omega))
  have hexp : code % 2 ^ (f.ebits + f.fbits) / 2 ^ f.fbits = code / 2 ^ f.fbits % 2 ^ f.ebits := by
    rw [Nat.add_comm, Nat.pow_add, Nat.mod_mul_right_div_self]
  have hinf : ¬ (code / 2 ^ f.fbits % 2 ^ f.ebits = 2 ^ f.ebits - 1 ∧ f.hasInf = true) := by
    cases f <;> simp [FFmt.hasInf, FFmt.fbits, FFmt.ebits, FFmt.maxCode] at h ⊢ <;> omega
  have hnan : ¬ (f = .e4m3 ∧ code / 2 ^ f.fbits % 2 ^ f.ebits = 15 ∧ code % 2 ^ f.fbits = 7) := by
    rintro ⟨rfl, he, hf⟩
    simp only [FFmt.fbits, FFmt.ebits, FFmt.maxCode] at h he hf
    omega
  unfold decodeF sigOf
  simp only [hfrac, hexp, if_neg hinf, if_neg hnan]
  split
  · next h0 => simp [h0]
  · next h0 => congr 1; unfold FFmt.minSubExp FFmt.emin; omega

/-- A code with a larger magnitude part decodes to no real number. -/
theorem decodeF_not_finite (f : FFmt) (code : Nat) (h : f.maxCode < code % 2 ^ (f.ebits + f.fbits)) (v : ℝ) :
    ¬ HasValue (decodeF f code) v := by
  rintro ⟨n, m, e, hx, -⟩
  have hcase : (code / 2 ^ f.fbits % 2 ^ f.ebits = 2 ^ f.ebits - 1 ∧ f.hasInf = true) ∨
      (f = .e4m3 ∧ code / 2 ^ f.fbits % 2 ^ f.ebits = 15 ∧ code % 2 ^ f.fbits = 7) := by
    cases f <;> simp [FFmt.hasInf, FFmt.fbits, FFmt.ebits, FFmt.maxCode] at h ⊢ <;> omega
  unfold decodeF at hx
  rcases hcase with hc | ⟨rfl, he, hf⟩
  · simp only [if_pos hc] at hx
    split at hx <;> cases hx
  · simp only [FFmt.hasInf, he, hf] at hx
    cases hx

theorem withSign_mod (f : FFmt) (neg : Bool) {c : Nat} (h : c < 2 ^ (f.ebits + f.fbits)) :
    f.withSign neg c % 2 ^ (f.ebits + f.fbits) = c := by
  cases neg <;> simp [FFmt.withSign, Nat.mod_eq_of_lt h]

theorem withSign_sign (f : FFmt) (neg : Bool) {c : Nat} (h : c < 2 ^ (f.ebits + f.fbits)) :
    decide ((f.withSign neg c / 2 ^ (f.fbits + f.ebits)) % 2 = 1) = neg := by
  rw [Nat.add_comm f.fbits]
  cases neg <;> simp [FFmt.withSign, Nat.div_eq_of_lt h, Nat.add_div_right]

theorem withSign_lt_width (f : FFmt) (neg : Bool) {c : Nat} (h : c < 2 ^ (f.ebits + f.fbits)) :
    f.withSign neg c < 2 ^ f.width := by
  have hw : 2 ^ f.width = 2 * 2 ^ (f.ebits + f.fbits) := by unfold FFmt.width; rw [Nat.add_assoc, Nat.pow_add]
  cases neg <;> simp only [FFmt.withSign, hw] <;> simp <;> omega

/-- The sign bit does not change whether a code is even. -/
theorem withSign_mod_two (f : FFmt) (neg : Bool) (c : Nat) : f.withSign neg c % 2 = c % 2 := by
  have h : 2 ^ (f.ebits + f.fbits) % 2 = 0 := by cases f <;> rfl
  cases neg
  · rfl
  · simp only [FFmt.withSign, if_true]; omega

theorem decodeF_withSign (f : FFmt) (neg : Bool) {c : Nat} (h : c ≤ f.maxCode) :
    decodeF f (f.withSign neg c) =
      .real neg (sigOf f c) (f.minSubExp + ((c / 2 ^ f.fbits - 1 : Nat) : ℤ)) false := by
  have hc : c < 2 ^ (f.ebits + f.fbits) := h.trans_lt (maxCode_lt f)
  rw [decodeF_finite f _ (by rwa [withSign_mod f neg hc]), withSign_mod f neg hc, withSign_sign f neg hc]

/-- The factor of a sign. -/
def signOf (neg : Bool) : ℝ := if neg then -1 else 1

@[simp] theorem signOf_true : signOf true = -1 := rfl
@[simp] theorem signOf_false : signOf false = 1 := rfl
@[simp] theorem abs_signOf (neg : Bool) : |signOf neg| = 1 := by cases neg <;> simp

theorem hasValue_real_iff {neg : Bool} {m : Nat} {e : ℤ} {v : ℝ} :
    HasValue (.real neg m e false) v ↔ v = signOf neg * m * (2 : ℝ) ^ e := by
  constructor
  · rintro ⟨n, m', e', h, rfl⟩
    cases h; rfl
  · exact fun h => ⟨neg, m, e, rfl, h⟩

theorem hasValue_withSign (f : FFmt) (neg : Bool) {c : Nat} (h : c ≤ f.maxCode) :
    HasValue (decodeF f (f.withSign neg c)) (signOf neg * mag f c) := by
  rw [decodeF_withSign f neg h, hasValue_real_iff, mag_eq_sig, ulp, mul_assoc]

theorem hasValue_code (f : FFmt) {c : Nat} (h : c ≤ f.maxCode) : HasValue (decodeF f c) (mag f c) := by
  simpa [FFmt.withSign] using hasValue_withSign f false h

/-- Every real number of a format is a finite magnitude with a sign. -/
theorem exists_mag_of_hasValue {f : FFmt} {code : Nat} {y : ℝ} (h : HasValue (decodeF f code) y) :
    ∃ neg k, y = signOf neg * mag f k := by
  by_cases hk : code % 2 ^ (f.ebits + f.fbits) ≤ f.maxCode
  · rw [decodeF_finite f code hk, hasValue_real_iff] at h
    exact ⟨_, _, by rw [h, mag_eq_sig, ulp, mul_assoc]⟩
  · exact absurd h (decodeF_not_finite f code (by omega) y)

/-- Between two neighbouring magnitudes stands no value of the format. -/
theorem le_mag_or_mag_succ_le {f : FFmt} {code : Nat} {y : ℝ} (h : HasValue (decodeF f code) y) (neg : Bool) (c : Nat) :
    signOf neg * y ≤ mag f c ∨ mag f (c + 1) ≤ signOf neg * y := by
  obtain ⟨n, k, rfl⟩ := exists_mag_of_hasValue h
  have hsign : signOf neg * (signOf n * mag f k) = mag f k ∨ signOf neg * (signOf n * mag f k) = -mag f k := by
    cases neg <;> cases n <;> simp
  have hk := mag_nonneg f k
  have hc := mag_nonneg f c
  rcases hsign with e | e <;> rw [e]
  · rcases Nat.lt_or_ge c k with hck | hck
    · exact .inr ((mag_strictMono f).monotone hck)
    · exact .inl ((mag_strictMono f).monotone hck)
  · exact .inl (by linarith)

/-! The choice between two neighbours (R88). -/

/-- Whether a mode takes the upper of two neighbours lo and hi for a magnitude a from lo up to below hi; odd says that the last bit of
lo is 1. -/
def TakesUpper (mode : RMode) (neg : Bool) (lo a hi : ℝ) (odd : Prop) : Prop :=
  match mode with
  | .rne => lo + hi < 2 * a ∨ (2 * a = lo + hi ∧ odd)
  | .rmm => lo + hi ≤ 2 * a
  | .rtz => False
  | .rdn => neg = true ∧ a ≠ lo
  | .rup => neg = false ∧ a ≠ lo

/-- No mode moves a magnitude that is itself the lower neighbour. -/
theorem not_takesUpper_self {mode : RMode} {neg : Bool} {lo hi : ℝ} {odd : Prop} (h : lo < hi) :
    ¬ TakesUpper mode neg lo lo hi odd := by
  cases mode <;> simp only [TakesUpper, ne_eq, not_true, and_false, not_false_eq_true] <;> grind

/-- r is the one of the neighbours q, of magnitude lo, and q + 1, of magnitude hi, that the mode takes for the magnitude a. -/
def Chosen (mode : RMode) (neg : Bool) (lo a hi : ℝ) (q r : Nat) : Prop :=
  (r = q ∧ ¬ TakesUpper mode neg lo a hi (q % 2 = 1)) ∨ (r = q + 1 ∧ TakesUpper mode neg lo a hi (q % 2 = 1))

theorem chosen_ite {mode : RMode} {neg : Bool} {lo a hi : ℝ} {q : Nat} {up : Bool}
    (h : up = true ↔ TakesUpper mode neg lo a hi (q % 2 = 1)) : Chosen mode neg lo a hi q (if up then q + 1 else q) := by
  cases up
  · exact .inl ⟨rfl, fun hu => Bool.false_ne_true (h.mpr hu)⟩
  · exact .inr ⟨rfl, h.mp rfl⟩

/-! Magnitudes with a sticky part. -/

/-- The magnitude a is m units of 2^e, or lies strictly above by less than one unit when sticky. -/
def Magnitude (m : Nat) (e : ℤ) (sticky : Bool) (a : ℝ) : Prop :=
  m * (2 : ℝ) ^ e ≤ a ∧ a < (m + 1) * (2 : ℝ) ^ e ∧ (sticky = true ↔ a ≠ m * (2 : ℝ) ^ e)

namespace Magnitude

variable {m : Nat} {e : ℤ} {sticky : Bool} {a : ℝ}

theorem of_units (m : Nat) (e : ℤ) : Magnitude m e false (m * (2 : ℝ) ^ e) :=
  ⟨le_rfl, mul_lt_mul_of_pos_right (lt_add_one _) (by positivity), by simp⟩

theorem le_iff (h : Magnitude m e sticky a) (n : Nat) : n * (2 : ℝ) ^ e ≤ a ↔ n ≤ m := by
  obtain ⟨hlo, hhi, -⟩ := h
  have hu : (0 : ℝ) < 2 ^ e := by positivity
  constructor
  · intro hn
    have : (n : ℝ) < m + 1 := lt_of_mul_lt_mul_right (hn.trans_lt hhi) hu.le
    exact Nat.lt_succ_iff.mp (by exact_mod_cast this)
  · intro hn
    exact (mul_le_mul_of_nonneg_right (by exact_mod_cast hn) hu.le).trans hlo

theorem eq_iff (h : Magnitude m e sticky a) (n : Nat) : a = n * (2 : ℝ) ^ e ↔ n = m ∧ sticky = false := by
  have hu : (0 : ℝ) < 2 ^ e := by positivity
  have hst : sticky = false ↔ a = m * (2 : ℝ) ^ e := by
    rw [← Bool.not_eq_true, h.2.2, not_not]
  rw [hst]
  constructor
  · intro hn
    have hnm : n ≤ m := (h.le_iff n).mp hn.ge
    have hmn : (m : ℝ) ≤ n := le_of_mul_le_mul_right (h.1.trans_eq hn) hu
    obtain rfl : n = m := le_antisymm hnm (by exact_mod_cast hmn)
    exact ⟨rfl, hn⟩
  · rintro ⟨rfl, hn⟩
    exact hn

theorem lt_iff (h : Magnitude m e sticky a) (n : Nat) : n * (2 : ℝ) ^ e < a ↔ n < m ∨ (n = m ∧ sticky = true) := by
  rw [lt_iff_le_and_ne, h.le_iff, ne_comm, Ne, h.eq_iff]
  cases sticky <;> simp <;> omega

/-- The exponent of a magnitude is that of its leading bit (R179). -/
theorem bounds_expOf (h : Magnitude m e sticky a) (hm : 0 < m) :
    (2 : ℝ) ^ expOf m e ≤ a ∧ a < (2 : ℝ) ^ (expOf m e + 1) := by
  have hlog : (2 : ℝ) ^ expOf m e = (2 ^ m.log2 : Nat) * (2 : ℝ) ^ e := by
    rw [expOf, zpow_add₀ two_ne_zero, zpow_natCast]; push_cast; rfl
  constructor
  · rw [hlog, h.le_iff]
    exact Nat.log2_self_le hm.ne'
  · rw [zpow_add_one₀ two_ne_zero, hlog]
    have hlt : m + 1 ≤ 2 ^ m.log2 * 2 := by rw [← Nat.pow_succ]; exact Nat.lt_log2_self
    calc a < (m + 1) * (2 : ℝ) ^ e := h.2.1
      _ ≤ (2 ^ m.log2 * 2 : Nat) * (2 : ℝ) ^ e := mul_le_mul_of_nonneg_right (by exact_mod_cast hlt) (by positivity)
      _ = _ := by push_cast; ring

/-- Powers of two above the unit, among the multiples of the unit. -/
theorem pow_le_iff (h : Magnitude m e sticky a) (k : Nat) : (2 : ℝ) ^ (e + k) ≤ a ↔ 2 ^ k ≤ m := by
  rw [← h.le_iff, zpow_add₀ two_ne_zero, zpow_natCast, mul_comm]
  push_cast
  rfl

/-- The modes compare the bits below the place of rounding with half a unit of that place. -/
theorem takesUpper_iff (h : Magnitude m e sticky a) (mode : RMode) (neg : Bool) (odd : Prop) {lo half : Nat} :
    TakesUpper mode neg (lo * (2 : ℝ) ^ e) a ((lo + 2 * half : Nat) * (2 : ℝ) ^ e) odd ↔
      match mode with
      | .rne => lo + half < m ∨ (lo + half = m ∧ sticky = true) ∨ ((lo + half = m ∧ sticky = false) ∧ odd)
      | .rmm => lo + half ≤ m
      | .rtz => False
      | .rdn => neg = true ∧ ¬ (lo = m ∧ sticky = false)
      | .rup => neg = false ∧ ¬ (lo = m ∧ sticky = false) := by
  have hmid : lo * (2 : ℝ) ^ e + (lo + 2 * half : Nat) * (2 : ℝ) ^ e = 2 * ((lo + half : Nat) * (2 : ℝ) ^ e) := by
    push_cast; ring
  cases mode <;> simp only [TakesUpper, hmid, Ne, h.eq_iff]
  · rw [mul_lt_mul_iff_right₀ two_pos, mul_right_inj' two_ne_zero, h.lt_iff, h.eq_iff, or_assoc]
  · rw [mul_le_mul_iff_right₀ two_pos, h.le_iff]

end Magnitude

/-- R88: the multiple of 2^w that `roundMag` gives is the neighbour that the mode takes. -/
theorem roundMag_chosen (mode : RMode) (neg : Bool) {m : Nat} {e : ℤ} {sticky : Bool} {a : ℝ} (h : Magnitude m e sticky a) (w : ℤ)
    (hst : sticky = true → e < w) :
    ∃ q : Nat, Magnitude q w (roundMag mode neg m e sticky w).2 a ∧
      Chosen mode neg (q * (2 : ℝ) ^ w) a ((q + 1) * (2 : ℝ) ^ w) q (roundMag mode neg m e sticky w).1 := by
  by_cases hd : w - e ≤ 0
  · have hs : sticky = false := by
      rw [← Bool.not_eq_true]; intro hs; have := hst hs; omega
    have he : (2 : ℝ) ^ e = 2 ^ (w - e).natAbs * 2 ^ w := by
      rw [← zpow_natCast, ← zpow_add₀ two_ne_zero]; congr 1; omega
    have ha : a = (m <<< (w - e).natAbs : Nat) * (2 : ℝ) ^ w := by
      rw [(h.eq_iff m).mpr ⟨rfl, hs⟩, he, Nat.shiftLeft_eq]; push_cast; ring
    have hlt : a < ((m <<< (w - e).natAbs : Nat) + 1) * (2 : ℝ) ^ w := by
      rw [ha]; exact mul_lt_mul_of_pos_right (lt_add_one _) (by positivity)
    refine ⟨m <<< (w - e).natAbs, ⟨ha.ge, hlt, ?_⟩, ?_⟩ <;> simp only [roundMag, if_pos hd]
    · simp [hs, ha]
    · rw [← ha]
      exact .inl ⟨rfl, not_takesUpper_self hlt⟩
  · obtain ⟨k, hk⟩ : ∃ k : Nat, (w - e).natAbs = k + 1 := ⟨(w - e).natAbs - 1, by omega⟩
    have hw : (2 : ℝ) ^ w = (2 ^ (k + 1) : Nat) * 2 ^ e := by
      push_cast; rw [← zpow_natCast, ← zpow_add₀ two_ne_zero]; congr 1; omega
    have hm := Nat.div_add_mod m (2 ^ (k + 1))
    have hrest := Nat.mod_lt m (show 0 < 2 ^ (k + 1) by positivity)
    have hlo : (m / 2 ^ (k + 1) : Nat) * (2 : ℝ) ^ w = (2 ^ (k + 1) * (m / 2 ^ (k + 1)) : Nat) * 2 ^ e := by
      rw [hw]; push_cast; ring
    have hhi : ((m / 2 ^ (k + 1) : Nat) + 1) * (2 : ℝ) ^ w = (2 ^ (k + 1) * (m / 2 ^ (k + 1)) + 2 * 2 ^ k : Nat) * 2 ^ e := by
      rw [hw]; push_cast; ring
    refine ⟨m / 2 ^ (k + 1), ⟨?_, ?_, ?_⟩, ?_⟩
    · rw [hlo, h.le_iff]; omega
    · rw [hhi, ← not_le, h.le_iff]; omega
    · rw [hlo]
      refine Iff.trans ?_ (not_congr (h.eq_iff _)).symm
      simp only [roundMag, if_neg hd, hk]
      cases sticky <;> simp; omega
    · rw [hlo, hhi]
      simp only [roundMag, if_neg hd, hk, Nat.shiftRight_eq_div_pow, Nat.add_sub_cancel]
      refine chosen_ite ?_
      rw [h.takesUpper_iff]
      cases mode <;> simp <;> grind

/-! ROUND on a real, in terms of the codes between which the real lies (R89). -/

theorem emin_eq (f : FFmt) : f.emin = f.minSubExp + f.fbits := by unfold FFmt.minSubExp; omega

/-- The code of the normal magnitude with exponent lead and significand q; a significand that carried out goes on to the next exponent. -/
def normalCode (f : FFmt) (lead : ℤ) (q : Nat) : Nat := (lead + f.bias).toNat * 2 ^ f.fbits + (q - 2 ^ f.fbits)

theorem normalCode_carry {f : FFmt} {lead : ℤ} (hlead : f.emin ≤ lead) :
    normalCode f (lead + 1) (2 ^ f.fbits) = normalCode f lead (2 ^ f.prec) := by
  have hE : (lead + 1 + f.bias).toNat = (lead + f.bias).toNat + 1 := by unfold FFmt.emin at hlead; omega
  unfold normalCode FFmt.prec
  rw [hE, Nat.pow_succ, Nat.add_mul]
  omega

theorem normalCode_succ {f : FFmt} (lead : ℤ) {q : Nat} (hq : 2 ^ f.fbits ≤ q) :
    normalCode f lead (q + 1) = normalCode f lead q + 1 := by
  unfold normalCode; omega

theorem normalCode_mod_two {f : FFmt} (lead : ℤ) {q : Nat} (hq : 2 ^ f.fbits ≤ q) : normalCode f lead q % 2 = q % 2 := by
  obtain ⟨b, hb⟩ : ∃ b, 2 ^ f.fbits = 2 * b := ⟨2 ^ (f.fbits - 1), by cases f <;> rfl⟩
  unfold normalCode
  rw [hb] at hq ⊢
  rw [Nat.mul_left_comm]
  omega

theorem normalCode_div_mod {f : FFmt} (lead : ℤ) {q : Nat} (hlo : 2 ^ f.fbits ≤ q) (hhi : q < 2 ^ f.prec) :
    normalCode f lead q / 2 ^ f.fbits = (lead + f.bias).toNat ∧ normalCode f lead q % 2 ^ f.fbits = q - 2 ^ f.fbits := by
  have hlt : q - 2 ^ f.fbits < 2 ^ f.fbits := by rw [FFmt.prec, Nat.pow_succ] at hhi; omega
  refine (Nat.div_mod_unique (by positivity)).mpr ⟨?_, hlt⟩
  unfold normalCode
  ring

/-- The magnitudes of a normal code and of the next one. -/
theorem mag_normalCode {f : FFmt} {lead : ℤ} (hlead : f.emin ≤ lead) {q : Nat} (hlo : 2 ^ f.fbits ≤ q) (hhi : q < 2 ^ f.prec) :
    mag f (normalCode f lead q) = q * (2 : ℝ) ^ (lead - f.fbits) ∧
      mag f (normalCode f lead q + 1) = (q + 1) * (2 : ℝ) ^ (lead - f.fbits) := by
  obtain ⟨hdiv, hmod⟩ := normalCode_div_mod lead hlo hhi
  have hE : (lead + f.bias).toNat ≠ 0 := by unfold FFmt.emin at hlead; omega
  have hulp : ulp f (normalCode f lead q) = (2 : ℝ) ^ (lead - f.fbits) := by
    rw [ulp, hdiv]
    congr 1
    unfold FFmt.minSubExp
    unfold FFmt.emin at hlead ⊢
    omega
  have hq : mag f (normalCode f lead q) = q * (2 : ℝ) ^ (lead - f.fbits) := by
    rw [mag_eq_sig, hulp, sigOf, hdiv, hmod, if_neg hE, Nat.add_sub_of_le hlo]
  exact ⟨hq, by rw [mag_succ, hq, hulp]; ring⟩

/-- The magnitude of a code below the smallest normal one. -/
theorem mag_subnormal {f : FFmt} {q : Nat} (h : q < 2 ^ f.fbits) :
    mag f q = q * (2 : ℝ) ^ f.minSubExp ∧ mag f (q + 1) = (q + 1) * (2 : ℝ) ^ f.minSubExp := by
  have hq : mag f q = q * (2 : ℝ) ^ f.minSubExp := by simp [mag, units, sigOf, Nat.div_eq_of_lt h, Nat.mod_eq_of_lt h]
  have hu : ulp f q = (2 : ℝ) ^ f.minSubExp := by simp [ulp, Nat.div_eq_of_lt h]
  exact ⟨hq, by rw [mag_succ, hq, hu]; ring⟩

/-- What stands for a result beyond the largest finite value, without its sign: that value, or infinity. -/
def overflowCode (f : FFmt) (mode : RMode) (neg : Bool) : Nat :=
  if f = .e4m3 ∨ f = .e2m1 ∨ mode = .rtz ∨ (mode = .rdn ∧ neg = false) ∨ (mode = .rup ∧ neg = true) then f.maxCode else f.infCode

/-- R89 where the real is no smaller than the smallest normal value: it is rounded to the precision of the format, and the result may lie
beyond the largest finite value. -/
theorem roundReal_normal (f : FFmt) (mode : RMode) (neg : Bool) {m : Nat} {e : ℤ} {sticky : Bool} (hm : 0 < m)
    (hlead : f.emin ≤ expOf m e) {y : Nat} {inexact : Bool}
    (hy : roundMag mode neg m e sticky (expOf m e - f.fbits) = (y, inexact)) :
    roundReal f mode neg m e sticky =
      if f.maxCode < normalCode f (expOf m e) y then
        (f.withSign neg (overflowCode f mode neg), .overflow)
      else (f.withSign neg (normalCode f (expOf m e) y), if inexact then .inexact else .none) := by
  have hw : expOf m e - (f.prec : ℤ) + 1 = expOf m e - f.fbits := by unfold FFmt.prec; push_cast; ring
  have hm' : ¬ (m = 0 ∧ sticky = false) := by omega
  obtain ⟨ys, yl, hpair, hyl, hcode⟩ : ∃ ys yl,
      (if y = 2 ^ f.prec then (2 ^ (f.prec - 1), expOf m e + 1) else (y, expOf m e)) = (ys, yl) ∧
      f.emin ≤ yl ∧ normalCode f yl ys = normalCode f (expOf m e) y := by
    split
    · next hc => exact ⟨_, _, rfl, by omega, by rw [hc]; exact normalCode_carry hlead⟩
    · exact ⟨_, _, rfl, hlead, rfl⟩
  rw [← hcode]
  unfold roundReal
  simp only [if_neg hm', hw, hy, hpair, hyl, not_lt.mpr hlead, decide_true, Bool.true_and, decide_eq_true_eq, if_false]
  change (if f.maxCode < normalCode f yl ys then _ else _) = _
  split
  · cases f <;> cases mode <;> cases neg <;> rfl
  · rfl

/-- R89 where the real is smaller: it is rounded at the weight of MINSUB and does not overflow. -/
theorem roundReal_tiny (f : FFmt) (mode : RMode) (neg : Bool) {m : Nat} {e : ℤ} {sticky : Bool} (hm : 0 < m)
    (hlead : expOf m e < f.emin) :
    roundReal f mode neg m e sticky = (f.withSign neg (roundMag mode neg m e sticky f.minSubExp).1,
      if (roundMag mode neg m e sticky f.minSubExp).2 then .underflow else .none) := by
  have hm' : ¬ (m = 0 ∧ sticky = false) := by omega
  rcases hy : roundMag mode neg m e sticky (expOf m e - (f.prec : ℤ) + 1) with ⟨y, inexact⟩
  obtain ⟨ys, yl, hpair, hover⟩ : ∃ ys yl,
      (if y = 2 ^ f.prec then (2 ^ (f.prec - 1), expOf m e + 1) else (y, expOf m e)) = (ys, yl) ∧
      ¬ (f.emin ≤ yl ∧ f.maxCode < normalCode f yl ys) := by
    split
    · refine ⟨_, _, rfl, fun ⟨hle, hlt⟩ => ?_⟩
      have hcode : normalCode f (expOf m e + 1) (2 ^ (f.prec - 1)) = 2 ^ f.fbits := by
        have hE : (expOf m e + 1 + f.bias).toNat = 1 := by unfold FFmt.emin at hlead hle; omega
        simp [normalCode, hE, FFmt.prec]
      have := minNorm_le_maxCode f
      omega
    · exact ⟨_, _, rfl, fun h => by omega⟩
  unfold roundReal
  simp only [if_neg hm', hy, hpair, ← Bool.decide_and, if_pos hlead]
  exact if_neg (by simpa [normalCode] using hover)

/-- What ROUND gives for a magnitude a between the codes c and c + 1, of which the mode takes r (R88, R89). -/
structure RoundsBetween (f : FFmt) (mode : RMode) (neg : Bool) (a : ℝ) (c r : Nat) (res : Nat × FFlags) : Prop where
  lo : mag f c ≤ a
  hi : a < mag f (c + 1)
  chosen : Chosen mode neg (mag f c) a (mag f (c + 1)) c r
  overflow : f.maxCode < r → res = (f.withSign neg (overflowCode f mode neg), .overflow)
  within : r ≤ f.maxCode → res.1 = f.withSign neg r ∧ res.2.nv = false ∧ res.2.dz = false ∧ res.2.of = false ∧
    (res.2.nx = true ↔ a ≠ mag f c) ∧ (res.2.uf = true ↔ a ≠ mag f c ∧ a < (2 : ℝ) ^ f.emin)

theorem Chosen.map {mode : RMode} {neg : Bool} {lo a hi : ℝ} {q r : Nat} (h : Chosen mode neg lo a hi q r) (g : Nat → Nat)
    (hg : g (q + 1) = g q + 1) (hodd : g q % 2 = q % 2) : Chosen mode neg lo a hi (g q) (g r) := by
  rcases h with ⟨rfl, h⟩ | ⟨rfl, h⟩
  · exact .inl ⟨rfl, by rwa [hodd]⟩
  · exact .inr ⟨hg, by rwa [hodd]⟩

/-- R88, R89: ROUND takes one of the two codes between which a real lies. A magnitude with a sticky part has more bits than the
format. -/
theorem roundReal_between (f : FFmt) (mode : RMode) (neg : Bool) {m : Nat} {e : ℤ} {sticky : Bool} {a : ℝ}
    (h : Magnitude m e sticky a) (hm : 0 < m) (hst : sticky = true → 2 ^ (f.prec + 1) ≤ m) :
    ∃ c r, RoundsBetween f mode neg a c r (roundReal f mode neg m e sticky) := by
  obtain ⟨hlead, hlead'⟩ := h.bounds_expOf hm
  have hbits : sticky = true → e < expOf m e - f.fbits := fun hs => by
    have := (Nat.le_log2 hm.ne').mpr (hst hs)
    unfold expOf; unfold FFmt.prec at this; omega
  by_cases hn : f.emin ≤ expOf m e
  · rcases hy : roundMag mode neg m e sticky (expOf m e - f.fbits) with ⟨y, inexact⟩
    obtain ⟨q, hmag, hch⟩ := roundMag_chosen mode neg h _ hbits
    rw [hy] at hch hmag
    have hq : 2 ^ f.fbits ≤ q := (hmag.pow_le_iff _).mp (by rwa [sub_add_cancel])
    have hq' : q < 2 ^ f.prec := not_le.mp fun hle => absurd ((hmag.pow_le_iff _).mpr hle)
      (not_le.mpr (hlead'.trans_eq (by unfold FFmt.prec; congr 1; push_cast; ring)))
    obtain ⟨hqlo, hqhi, hix⟩ := hmag
    obtain ⟨hc, hc'⟩ := mag_normalCode hn hq hq'
    rw [← hc, ← hc'] at hch
    have hres := roundReal_normal f mode neg hm hn hy
    refine ⟨normalCode f (expOf m e) q, normalCode f (expOf m e) y, hc.trans_le hqlo, hqhi.trans_eq hc'.symm,
      hch.map _ (normalCode_succ _ hq) (normalCode_mod_two _ hq), fun ho => by rw [hres, if_pos ho], fun ho => ?_⟩
    rw [hres, if_neg (not_lt.mpr ho), hc, ← hix]
    have ha : ¬ a < (2 : ℝ) ^ f.emin := not_lt.mpr ((zpow_le_zpow_right₀ one_le_two hn).trans hlead)
    cases inexact <;> simp [ha, FFlags.none, FFlags.inexact]
  · have hn' : expOf m e < f.emin := not_le.mp hn
    obtain ⟨q, hmag, hch⟩ := roundMag_chosen mode neg h f.minSubExp
      (fun hs => by have := hbits hs; rw [emin_eq] at hn'; omega)
    have ha : a < (2 : ℝ) ^ f.emin := hlead'.trans_le (zpow_le_zpow_right₀ one_le_two (by omega))
    have hq : q < 2 ^ f.fbits := not_le.mp fun hle => absurd ((hmag.pow_le_iff _).mpr hle)
      (not_le.mpr (ha.trans_eq (by rw [emin_eq])))
    obtain ⟨hqlo, hqhi, hix⟩ := hmag
    obtain ⟨hc, hc'⟩ := mag_subnormal hq
    rw [← hc, ← hc'] at hch
    have hr : (roundMag mode neg m e sticky f.minSubExp).1 ≤ f.maxCode := by
      have := minNorm_le_maxCode f
      rcases hch with ⟨hr, -⟩ | ⟨hr, -⟩ <;> omega
    refine ⟨q, _, hc.trans_le hqlo, hqhi.trans_eq hc'.symm, hch, fun ho => absurd hr (not_le.mpr ho), fun _ => ?_⟩
    rw [roundReal_tiny f mode neg hm hn', hc, ← hix]
    cases (roundMag mode neg m e sticky f.minSubExp).2 <;> simp [ha, FFlags.none, FFlags.underflow]

/-! The choice of a mode among all values of a format (R88). Of two neighbours lo and hi of a magnitude a the mode takes w; p is any value
that does not lie between them. -/

section Choice

variable {neg : Bool} {lo a hi w p : ℝ} {q r : Nat}

/-- RNE: the nearest value, of two the one that is even. -/
theorem Chosen.nearest_even (h : Chosen .rne neg lo a hi q r) (hlo : lo ≤ a) (hhi : a < hi)
    (hw : w = if r = q then lo else hi) (hp : p ≤ lo ∨ hi ≤ p) :
    |w - a| ≤ |p - a| ∧ (|w - a| = |p - a| → p ≠ w → r % 2 = 0) := by
  rcases h with ⟨rfl, hn⟩ | ⟨rfl, hu⟩
  · simp only [TakesUpper, not_or, not_and, not_lt] at hn
    obtain ⟨hmid, htie⟩ := hn
    obtain rfl : w = lo := by simpa using hw
    rw [abs_of_nonpos (sub_nonpos.mpr hlo)]
    rcases hp with hp | hp
    · rw [abs_of_nonpos (by linarith)]
      exact ⟨by linarith, fun he hpw => absurd (show p = w by linarith) hpw⟩
    · rw [abs_of_nonneg (by linarith)]
      refine ⟨by linarith, fun he _ => ?_⟩
      have := htie (by linarith)
      omega
  · obtain rfl : w = hi := by simpa using hw
    rw [abs_of_nonneg (sub_nonneg.mpr hhi.le)]
    rcases hp with hp | hp
    · rw [abs_of_nonpos (by linarith)]
      rcases hu with hu | ⟨hmid, hodd⟩
      · exact ⟨by linarith, fun he => by linarith⟩
      · exact ⟨by linarith, fun _ _ => by omega⟩
    · rw [abs_of_nonneg (by linarith)]
      exact ⟨by linarith, fun he hpw => absurd (show p = w by linarith) hpw⟩

/-- RMM: the nearest value, of two the larger. -/
theorem Chosen.nearest_larger (h : Chosen .rmm neg lo a hi q r) (h0 : 0 ≤ lo) (hlo : lo ≤ a) (hhi : a < hi)
    (hw : w = if r = q then lo else hi) (hp : p ≤ lo ∨ hi ≤ p) : |w - a| ≤ |p - a| ∧ (|w - a| = |p - a| → |p| ≤ |w|) := by
  rcases h with ⟨rfl, hn⟩ | ⟨rfl, hu⟩
  · simp only [TakesUpper, not_le] at hn
    obtain rfl : w = lo := by simpa using hw
    rw [abs_of_nonpos (sub_nonpos.mpr hlo)]
    rcases hp with hp | hp
    · rw [abs_of_nonpos (by linarith)]
      exact ⟨by linarith, fun he => by rw [show p = w by linarith]⟩
    · rw [abs_of_nonneg (by linarith)]
      exact ⟨by linarith, fun he => by linarith⟩
  · simp only [TakesUpper] at hu
    obtain rfl : w = hi := by simpa using hw
    rw [abs_of_nonneg (sub_nonneg.mpr hhi.le)]
    rcases hp with hp | hp
    · rw [abs_of_nonpos (by linarith)]
      exact ⟨by linarith, fun he => by rw [show p = lo by linarith, abs_of_nonneg h0, abs_of_nonneg] <;> linarith⟩
    · rw [abs_of_nonneg (by linarith)]
      exact ⟨by linarith, fun he => by rw [show p = w by linarith]⟩

/-- RTZ, and RDN and RUP where zero lies on their side: the last value that is no larger. -/
theorem Chosen.toward_zero {mode : RMode} (h : Chosen mode neg lo a hi q r)
    (hmode : mode = .rtz ∨ (mode = .rdn ∧ neg = false) ∨ (mode = .rup ∧ neg = true)) (hlo : lo ≤ a) (hhi : a < hi)
    (hw : w = if r = q then lo else hi) (hp : p ≤ lo ∨ hi ≤ p) : w ≤ a ∧ (p ≤ a → p ≤ w) := by
  have hT : ¬ TakesUpper mode neg lo a hi (q % 2 = 1) := by
    rcases hmode with rfl | ⟨rfl, rfl⟩ | ⟨rfl, rfl⟩ <;> simp [TakesUpper]
  obtain ⟨rfl, -⟩ := h.resolve_right fun hu => hT hu.2
  rw [hw, if_pos rfl]
  exact ⟨hlo, fun hpa => hp.resolve_right (by linarith)⟩

/-- RDN and RUP where zero lies on the other side: the first value that is no smaller. -/
theorem Chosen.away_from_zero {mode : RMode} (h : Chosen mode neg lo a hi q r)
    (hmode : (mode = .rdn ∧ neg = true) ∨ (mode = .rup ∧ neg = false)) (hlo : lo ≤ a) (hhi : a < hi)
    (hw : w = if r = q then lo else hi) (hp : p ≤ lo ∨ hi ≤ p) : a ≤ w ∧ (a ≤ p → w ≤ p) := by
  have hT : TakesUpper mode neg lo a hi (q % 2 = 1) ↔ a ≠ lo := by
    rcases hmode with ⟨rfl, rfl⟩ | ⟨rfl, rfl⟩ <;> simp [TakesUpper]
  rcases h with ⟨rfl, hn⟩ | ⟨rfl, hu⟩
  · have ha : a = lo := not_not.mp fun hne => hn (hT.mpr hne)
    simp [hw, ha]
  · have ha : lo < a := lt_of_le_of_ne hlo (hT.mp hu).symm
    rw [hw, if_neg (by omega)]
    exact ⟨hhi.le, fun hap => hp.resolve_left (by linarith)⟩

end Choice

theorem signOf_mul_self (neg : Bool) : signOf neg * signOf neg = 1 := by cases neg <;> simp

theorem abs_sub_signOf_mul (neg : Bool) (y a : ℝ) : |y - signOf neg * a| = |signOf neg * y - a| := by
  cases neg
  · simp
  · rw [signOf_true, neg_one_mul, neg_one_mul, sub_neg_eq_add, ← neg_add', abs_neg]

/-- The condition of overflow: what `Rounds` calls beyond. -/
def Beyond (mode : RMode) (neg : Bool) (odd : Prop) (big step a : ℝ) : Prop :=
  match mode with
  | .rne => big + step / 2 < a ∨ (a = big + step / 2 ∧ odd)
  | .rmm => big + step / 2 ≤ a
  | .rtz => big + step ≤ a
  | .rdn => if neg then big < a else big + step ≤ a
  | .rup => if neg then big + step ≤ a else big < a

namespace RoundsBetween

variable {f : FFmt} {mode : RMode} {neg : Bool} {a : ℝ} {c r : Nat} {res : Nat × FFlags}

theorem mag_eq (h : RoundsBetween f mode neg a c r res) : mag f r = if r = c then mag f c else mag f (c + 1) := by
  rcases h.chosen with ⟨rfl, -⟩ | ⟨rfl, -⟩ <;> simp

/-- The result differs from the real exactly where the real is no value of the format. -/
theorem mag_ne_iff (h : RoundsBetween f mode neg a c r res) : mag f r ≠ a ↔ a ≠ mag f c := by
  have hlt := mag_strictMono f (Nat.lt_succ_self c)
  rcases h.chosen with ⟨rfl, -⟩ | ⟨rfl, hu⟩
  · exact ne_comm
  · exact ⟨fun _ ha => not_takesUpper_self hlt (ha ▸ hu), fun _ => h.hi.ne'⟩

/-- The result lies beyond the largest finite code exactly where the real does, or where the mode takes the upper neighbour there. -/
theorem maxCode_lt_iff (h : RoundsBetween f mode neg a c r res) :
    f.maxCode < r ↔ mag f (f.maxCode + 1) ≤ a ∨ (mag f f.maxCode ≤ a ∧ a < mag f (f.maxCode + 1) ∧
      TakesUpper mode neg (mag f f.maxCode) a (mag f (f.maxCode + 1)) (f.maxCode % 2 = 1)) := by
  have hr : r = c ∨ r = c + 1 := h.chosen.imp And.left And.left
  rcases lt_trichotomy c f.maxCode with hc | rfl | hc
  · have : a < mag f f.maxCode := h.hi.trans_le ((mag_strictMono f).monotone hc)
    have := mag_strictMono f (Nat.lt_succ_self f.maxCode)
    constructor
    · omega
    · rintro (h1 | ⟨h1, -⟩) <;> linarith
  · have hlo := h.lo
    have hhi := h.hi
    rcases h.chosen with ⟨rfl, hn⟩ | ⟨rfl, hu⟩
    · simp [hn, hhi]
    · simp [hu, hlo, hhi]
  · have : mag f (f.maxCode + 1) ≤ a := ((mag_strictMono f).monotone hc).trans h.lo
    simp only [this, true_or, iff_true]
    omega

/-- What lies beyond by `Rounds` is what the mode takes beyond the largest finite code. -/
theorem beyond_iff (h : RoundsBetween f mode neg a c r res) :
    Beyond mode neg (f.maxCode % 2 = 1) (mag f f.maxCode) (mag f f.maxCode - mag f (f.maxCode - 1)) a ↔ f.maxCode < r := by
  have hpred := mag_succ f (f.maxCode - 1)
  rw [Nat.sub_add_cancel (maxCode_pos f), ulp_pred_maxCode] at hpred
  have hsucc := mag_succ f f.maxCode
  have hlt := mag_strictMono f (Nat.lt_succ_self f.maxCode)
  rw [h.maxCode_lt_iff]
  generalize mag f f.maxCode = big at *
  generalize mag f (f.maxCode + 1) = hi at *
  generalize mag f (f.maxCode - 1) = below at *
  obtain rfl : hi = big + (big - below) := by linarith
  cases mode <;> simp only [Beyond, TakesUpper]
  case rne => grind
  case rmm => grind
  case rtz => simp
  case rdn => cases neg <;> grind
  case rup => cases neg <;> grind

/-- R88, R89: what lies between two codes in this way is rounded. -/
theorem rounds (h : RoundsBetween f mode neg a c r res) (ha : 0 ≤ a) {v : ℝ} (hv : v = signOf neg * a) :
    Rounds f mode v neg res.1 res.2 := by
  have habs : |v| = a := by rw [hv, abs_mul, abs_signOf, one_mul, abs_of_nonneg ha]
  refine ⟨_, _, hasValue_code f le_rfl, hasValue_code f (Nat.sub_le _ 1), ?_⟩
  rw [habs]
  intro step beyond
  have hb : beyond ↔ f.maxCode < r := h.beyond_iff
  rw [hb]
  rcases Nat.lt_or_ge f.maxCode r with ho | ho
  · rw [h.overflow ho]
    simp [ho, FFlags.overflow, overflowCode]
  · obtain ⟨hcode, hnv, hdz, hof, hnx, huf⟩ := h.within ho
    have hne : signOf neg * mag f r ≠ v ↔ a ≠ mag f c := by
      rw [hv, ← h.mag_ne_iff]; cases neg <;> simp
    refine ⟨hnv, hdz, by simp [hof, ho], fun hlt => absurd hlt (not_lt.mpr ho), fun _ => ?_⟩
    rw [hcode]
    refine ⟨_, _, _, decodeF_withSign f neg ho, withSign_lt_width f neg (ho.trans_lt (maxCode_lt f)), hasValue_withSign f neg ho,
      hnx.trans hne.symm, huf.trans (and_congr_left' hne.symm), fun code y hy => ?_⟩
    have hw := h.mag_eq
    have hp := le_mag_or_mag_succ_le hy neg c
    have hdist : |signOf neg * mag f r - v| = |mag f r - a| := by
      rw [hv, abs_sub_signOf_mul, ← mul_assoc, signOf_mul_self, one_mul]
    have hdist' : |y - v| = |signOf neg * y - a| := by rw [hv, abs_sub_signOf_mul]
    have hr := mag_nonneg f r
    cases mode with
    | rne =>
      rw [hdist, hdist']
      refine (h.chosen.nearest_even h.lo h.hi hw hp).imp_right fun heven he hy => ?_
      rw [withSign_mod_two]
      exact heven he fun e => hy (by rw [← e, ← mul_assoc, signOf_mul_self, one_mul])
    | rmm =>
      simpa only [hdist, hdist', abs_mul, abs_signOf, one_mul] using
        h.chosen.nearest_larger (mag_nonneg f c) h.lo h.hi hw hp
    | rtz =>
      have hpos : |y| ≤ mag f c ∨ mag f (c + 1) ≤ |y| := by
        rcases abs_choice y with e | e
        · simpa [e] using le_mag_or_mag_succ_le hy false c
        · simpa [e] using le_mag_or_mag_succ_le hy true c
      simpa only [habs, abs_mul, abs_signOf, one_mul, abs_of_nonneg hr] using
        h.chosen.toward_zero (.inl rfl) h.lo h.hi hw hpos
    | rdn =>
      cases neg
      · simpa [hv] using h.chosen.toward_zero (by simp) h.lo h.hi hw hp
      · simpa [hv, le_neg] using h.chosen.away_from_zero (by simp) h.lo h.hi hw hp
    | rup =>
      cases neg
      · simpa [hv] using h.chosen.away_from_zero (by simp) h.lo h.hi hw hp
      · simpa [hv, neg_le] using h.chosen.toward_zero (by simp) h.lo h.hi hw hp

end RoundsBetween

/-! ROUND on every value (R89). -/

/-- ROUND on a real, exact or with a sticky part below more bits than the format has, rounds it. -/
theorem roundX_rounds (f : FFmt) (mode : RMode) (neg : Bool) {m : Nat} {e : ℤ} {sticky : Bool} {v : ℝ}
    (h : Magnitude m e sticky |v|) (hm : 0 < m) (hst : sticky = true → 2 ^ (f.prec + 1) ≤ m) (hv : v = signOf neg * |v|) :
    Rounds f mode v neg (roundX f mode (.real neg m e sticky)).1 (roundX f mode (.real neg m e sticky)).2 := by
  obtain ⟨c, r, hcr⟩ := roundReal_between f mode neg h hm hst
  exact hcr.rounds (abs_nonneg v) hv

theorem abs_signOf_mul (neg : Bool) (x : ℝ) : |signOf neg * x| = |x| := by rw [abs_mul, abs_signOf, one_mul]

theorem magnitude_of_hasValue {neg : Bool} {m : Nat} {e : ℤ} {v : ℝ} (h : HasValue (.real neg m e false) v) :
    Magnitude m e false |v| ∧ v = signOf neg * |v| := by
  have habs : |v| = m * (2 : ℝ) ^ e := by
    rw [hasValue_real_iff.mp h, mul_assoc, abs_signOf_mul, abs_of_nonneg (by positivity)]
  exact ⟨habs ▸ Magnitude.of_units m e, by rw [habs, ← mul_assoc]; exact hasValue_real_iff.mp h⟩

/-- The first part of O60: ROUND on NaN, infinities, reals and zeros. -/
theorem roundFunction : RoundFunction := by
  refine ⟨fun _ _ _ => rfl, fun f _ _ => by cases f <;> rfl, fun f mode neg m e v hm hv => ?_, fun f mode neg e => rfl⟩
  obtain ⟨hmag, hsign⟩ := magnitude_of_hasValue hv
  exact roundX_rounds f mode neg hmag hm (by simp) hsign

/-! Exact results, before their rounding. -/

/-- x is the real v, exact or with a sticky part below more bits than the format has; where v is 0 its sign is zero. -/
def ExactlyIs (f : FFmt) (x : XR) (v : ℝ) (zero : Bool) : Prop :=
  ∃ neg m e sticky, x = .real neg m e sticky ∧ Magnitude m e sticky |v| ∧ v = signOf neg * |v| ∧
    (sticky = true → 2 ^ (f.prec + 1) ≤ m) ∧ (v = 0 → neg = zero)

theorem exactlyIs_of_hasValue {x : XR} {v : ℝ} (h : HasValue x v) (f : FFmt) {zero : Bool} (hz : v = 0 → x.neg = zero) :
    ExactlyIs f x v zero := by
  obtain ⟨n, m, e, rfl, -⟩ := id h
  obtain ⟨hmag, hsign⟩ := magnitude_of_hasValue h
  exact ⟨n, m, e, false, rfl, hmag, hsign, by simp, hz⟩

namespace ExactlyIs

variable {f : FFmt} {x : XR} {v : ℝ} {zero : Bool}

/-- An exact result that is not 0 is rounded with its own sign. -/
theorem rounds (h : ExactlyIs f x v zero) (mode : RMode) (hv : v ≠ 0) :
    Rounds f mode v (decide (v < 0)) (roundX f mode x).1 (roundX f mode x).2 := by
  obtain ⟨neg, m, e, sticky, rfl, hmag, hsign, hst, -⟩ := h
  have hpos : 0 < |v| := abs_pos.mpr hv
  have hneg : decide (v < 0) = neg := by
    cases neg
    · simp only [signOf_false, one_mul] at hsign
      simpa using hsign ▸ hpos.le
    · simp only [signOf_true, neg_one_mul] at hsign
      simp; linarith
  have hm : 0 < m := by
    refine Nat.pos_of_ne_zero fun hm => ?_
    subst hm
    cases sticky
    · exact hpos.ne' (by simpa using (hmag.eq_iff 0).mpr ⟨rfl, rfl⟩)
    · exact absurd (hst rfl) (by simp)
  rw [hneg]
  exact roundX_rounds f mode neg hmag hm hst hsign

/-- An exact result 0 gives the zero of its sign, and no flag. -/
theorem rounds_zero (h : ExactlyIs f x v zero) (mode : RMode) (hv : v = 0) : roundX f mode x = (f.withSign zero 0, .none) := by
  obtain ⟨neg, m, e, sticky, rfl, hmag, -, -, hz⟩ := h
  obtain ⟨rfl, rfl⟩ := (hmag.eq_iff 0).mp (by simp [hv])
  rw [← hz hv]
  rfl

end ExactlyIs

/-! Exact arithmetic (R90, R91). -/

theorem signedAt_mul (neg : Bool) (m : Nat) {e e0 : ℤ} (h : e0 ≤ e) :
    (signedAt neg m e e0 : ℝ) * (2 : ℝ) ^ e0 = signOf neg * m * (2 : ℝ) ^ e := by
  have he : (2 : ℝ) ^ e = 2 ^ (e - e0).natAbs * 2 ^ e0 := by
    rw [← zpow_natCast, ← zpow_add₀ two_ne_zero]; congr 1; omega
  rw [he]
  cases neg <;> simp [signedAt, Nat.shiftLeft_eq] <;> ring

/-- R91: the sum of two reals is exact; a sum 0 has the sign of both, or else is -0 in RDN only. -/
theorem xadd_exact {xa xb : XR} {x y : ℝ} (ha : HasValue xa x) (hb : HasValue xb y) (mode : RMode) :
    (xadd mode xa xb).2 = .none ∧ HasValue (xadd mode xa xb).1 (x + y) ∧
      (x + y = 0 → (xadd mode xa xb).1.neg = if xa.neg = xb.neg then xa.neg else decide (mode = .rdn)) := by
  obtain ⟨n1, m1, e1, rfl, -⟩ := id ha
  obtain ⟨n2, m2, e2, rfl, -⟩ := id hb
  rw [hasValue_real_iff] at ha hb
  have hs : x + y = ((signedAt n1 m1 e1 (min e1 e2) + signedAt n2 m2 e2 (min e1 e2) : ℤ) : ℝ) * (2 : ℝ) ^ min e1 e2 := by
    rw [ha, hb]
    push_cast
    rw [add_mul, signedAt_mul _ _ (min_le_left _ _), signedAt_mul _ _ (min_le_right _ _)]
  refine ⟨rfl, ?_⟩
  simp only [xadd, addReal]
  generalize signedAt n1 m1 e1 (min e1 e2) + signedAt n2 m2 e2 (min e1 e2) = s at hs
  by_cases h0 : s = 0
  · rw [if_pos h0]
    subst h0
    exact ⟨by rw [hasValue_real_iff, hs]; simp, fun _ => rfl⟩
  · rw [if_neg h0]
    refine ⟨?_, fun hxy => absurd (hs.symm.trans hxy) ?_⟩
    · rw [hasValue_real_iff, hs, Nat.cast_natAbs]
      congr 1
      rcases lt_or_gt_of_ne h0 with hneg | hpos
      · simp [hneg, abs_of_neg hneg]
      · simp [hpos.not_gt, abs_of_pos hpos]
    · have : (s : ℝ) ≠ 0 := by exact_mod_cast h0
      positivity

/-- R91: the product of two reals is exact, and its sign is the XOR of theirs. -/
theorem xmul_exact {xa xb : XR} {x y : ℝ} (ha : HasValue xa x) (hb : HasValue xb y) :
    (xmul xa xb).2 = .none ∧ HasValue (xmul xa xb).1 (x * y) ∧ (xmul xa xb).1.neg = (xa.neg != xb.neg) := by
  obtain ⟨n1, m1, e1, rfl, rfl⟩ := ha
  obtain ⟨n2, m2, e2, rfl, rfl⟩ := hb
  refine ⟨rfl, ?_, rfl⟩
  rw [xmul, hasValue_real_iff, zpow_add₀ two_ne_zero]
  push_cast
  cases n1 <;> cases n2 <;> simp <;> ring

theorem hasValue_negate {x : XR} {v : ℝ} (h : HasValue x v) : HasValue x.negate (-v) ∧ x.negate.neg = !x.neg := by
  obtain ⟨n, m, e, rfl, rfl⟩ := h
  refine ⟨?_, rfl⟩
  rw [XR.negate, hasValue_real_iff]
  cases n <;> simp

/-- The quotient with its remainder as sticky part. -/
theorem magnitude_div (k : Nat) {d : Nat} (hd : 0 < d) (e : ℤ) :
    Magnitude (k / d) e (decide (k % d ≠ 0)) ((k : ℝ) / d * (2 : ℝ) ^ e) := by
  have hd' : (0 : ℝ) < d := by exact_mod_cast hd
  have hu : (0 : ℝ) < 2 ^ e := by positivity
  have hk : ((k / d : Nat) : ℝ) * d + (k % d : Nat) = k := by exact_mod_cast Nat.div_add_mod' k d
  have hr : ((k % d : Nat) : ℝ) < d := by exact_mod_cast Nat.mod_lt k hd
  refine ⟨mul_le_mul_of_nonneg_right Nat.cast_div_le hu.le, mul_lt_mul_of_pos_right ?_ hu, ?_⟩
  · rw [div_lt_iff₀ hd']; linarith
  · rw [decide_eq_true_eq, Ne, Ne, mul_left_inj' hu.ne', div_eq_iff hd'.ne', ← hk, add_eq_left, Nat.cast_eq_zero]

theorem cast_shiftLeft (m k : Nat) : ((m <<< k : Nat) : ℝ) = m * (2 : ℝ) ^ (k : ℤ) := by
  rw [Nat.shiftLeft_eq]
  push_cast
  rw [zpow_natCast]

/-- The significands of quotients and roots have at least 64 bits before the operation. -/
theorem le_shiftLeft {m k : Nat} (hm : m ≠ 0) (hk : 64 ≤ k) : 2 ^ 32 * 2 ^ 32 ≤ m <<< k := by
  rw [Nat.shiftLeft_eq, ← Nat.pow_add]
  exact (Nat.pow_le_pow_right two_pos hk).trans (Nat.le_mul_of_pos_left _ (Nat.pos_of_ne_zero hm))

/-- R91: a quotient by a real that is not 0 is exact, and its sign is the XOR of theirs. -/
theorem xdiv_exact {f : FFmt} {xa xb : XR} {x y : ℝ} (ha : HasValue xa x) (hb : HasValue xb y) (hy : y ≠ 0)
    (hf : f.prec + 1 ≤ 32) (hbits : ∀ n m e, xb = .real n m e false → m < 2 ^ f.prec) :
    (xdiv xa xb).2 = .none ∧ ExactlyIs f (xdiv xa xb).1 (x / y) (xa.neg != xb.neg) := by
  obtain ⟨n1, m1, e1, rfl, -⟩ := id ha
  obtain ⟨n2, m2, e2, rfl, -⟩ := id hb
  rw [hasValue_real_iff] at ha hb
  have hm2 : m2 ≠ 0 := by rintro rfl; simp [hb] at hy
  have hlt := hbits _ _ _ rfl
  simp only [xdiv, if_neg hm2]
  by_cases hm1 : m1 = 0
  · rw [if_pos hm1]
    exact ⟨rfl, exactlyIs_of_hasValue (hasValue_real_iff.mpr (by simp [ha, hm1])) f fun _ => rfl⟩
  · rw [if_neg hm1]
    have hlarge := le_shiftLeft hm1 le_rfl
    have hcast : ((m1 <<< 64 : Nat) : ℝ) = m1 * (2 : ℝ) ^ (64 : ℤ) := cast_shiftLeft m1 64
    generalize m1 <<< 64 = k at hlarge hcast
    have hquot : x / y = signOf (n1 != n2) * ((k : ℝ) / m2 * (2 : ℝ) ^ (e1 - e2 - 64)) := by
      rw [ha, hb, hcast, zpow_sub₀ two_ne_zero, zpow_sub₀ two_ne_zero]
      have h64 : (2 : ℝ) ^ (64 : ℤ) ≠ 0 := by positivity
      generalize (2 : ℝ) ^ (64 : ℤ) = u at h64
      cases n1 <;> cases n2 <;> simp <;> field_simp
    have habs : |x / y| = (k : ℝ) / m2 * (2 : ℝ) ^ (e1 - e2 - 64) := by
      rw [hquot, abs_signOf_mul, abs_of_nonneg (by positivity)]
    refine ⟨rfl, _, _, _, _, rfl, ?_, ?_, fun _ => ?_, fun _ => rfl⟩
    · rw [habs]; exact magnitude_div k (Nat.pos_of_ne_zero hm2) _
    · rw [habs]; exact hquot
    · rw [Nat.le_div_iff_mul_le (Nat.pos_of_ne_zero hm2)]
      calc 2 ^ (f.prec + 1) * m2 ≤ 2 ^ 32 * 2 ^ 32 :=
            Nat.mul_le_mul (Nat.pow_le_pow_right two_pos hf) (hlt.le.trans (Nat.pow_le_pow_right two_pos (by omega)))
        _ ≤ k := hlarge

/-- R90: a quotient by zero. -/
theorem xdiv_zero {xa xb : XR} {x : ℝ} (ha : HasValue xa x) (hb : HasValue xb 0) :
    xdiv xa xb = if x = 0 then (.nan false, .invalid) else (.inf (xa.neg != xb.neg), .divZero) := by
  obtain ⟨n1, m1, e1, rfl, rfl⟩ := ha
  obtain ⟨n2, m2, e2, rfl, h0⟩ := hb
  obtain rfl : m2 = 0 := by
    have h2 : (2 : ℝ) ^ e2 ≠ 0 := by positivity
    cases n2 <;> simpa [h2] using h0
  have h1 : (2 : ℝ) ^ e1 ≠ 0 := by positivity
  have hx : (if n1 then -1 else 1) * (m1 : ℝ) * (2 : ℝ) ^ e1 = 0 ↔ m1 = 0 := by cases n1 <;> simp [h1]
  simp only [xdiv, if_true, hx, XR.neg]

/-- A root that is right above bit n is completed bit by bit. -/
theorem isqrtGo_eq_sqrt (n v r : Nat) (hlo : r * r ≤ v) (hhi : v < (r + 2 ^ n) * (r + 2 ^ n)) : isqrtGo n v r = Nat.sqrt v := by
  induction n generalizing r with
  | zero => exact Nat.eq_sqrt.mpr ⟨hlo, hhi⟩
  | succ n ih =>
    simp only [isqrtGo]
    split
    · next h => exact ih _ h (by rw [Nat.pow_succ] at hhi; convert hhi using 2 <;> ring)
    · next h => exact ih _ hlo (not_le.mp h)

/-- The model's square root of integers is the library's. -/
theorem isqrt_eq_sqrt (v : Nat) : isqrt v = Nat.sqrt v := by
  refine isqrtGo_eq_sqrt _ v 0 (Nat.zero_le v) ?_
  calc v < 2 ^ (v.log2 + 1) := Nat.lt_log2_self
    _ ≤ 2 ^ ((v.log2 / 2 + 1) + (v.log2 / 2 + 1)) := Nat.pow_le_pow_right two_pos (by omega)
    _ = _ := by rw [Nat.pow_add, Nat.zero_add]

/-- The integer root with its remainder as sticky part. -/
theorem magnitude_sqrt (k : Nat) (e : ℤ) :
    Magnitude (isqrt k) e (decide (isqrt k * isqrt k ≠ k)) (Real.sqrt k * (2 : ℝ) ^ e) := by
  have hu : (0 : ℝ) < 2 ^ e := by positivity
  rw [isqrt_eq_sqrt]
  refine ⟨mul_le_mul_of_nonneg_right Real.nat_sqrt_le_real_sqrt hu.le,
    mul_lt_mul_of_pos_right Real.real_sqrt_lt_nat_sqrt_succ hu, ?_⟩
  rw [decide_eq_true_eq, Ne, Ne, mul_left_inj' hu.ne', Real.sqrt_eq_iff_mul_self_eq (by positivity) (by positivity), eq_comm (a := (k : ℝ))]
  norm_cast

/-- A scaling that leaves an even exponent. -/
theorem mul_two_zpow_eq (m : Nat) {e : ℤ} {k : Nat} (h : (e - k) % 2 = 0) :
    m * (2 : ℝ) ^ e = (m <<< k : Nat) * ((2 : ℝ) ^ ((e - k) / 2)) ^ 2 := by
  have he : (2 : ℝ) ^ e = 2 ^ k * ((2 : ℝ) ^ ((e - k) / 2)) ^ 2 := by
    rw [← zpow_natCast, ← zpow_natCast, ← zpow_mul, ← zpow_add₀ two_ne_zero]
    congr 1
    push_cast
    omega
  rw [he, cast_shiftLeft, zpow_natCast, mul_assoc]

/-- R91: the square root of a real that is not below 0 is exact; the root of a zero has its sign. -/
theorem xsqrt_exact {f : FFmt} {xa : XR} {x : ℝ} (ha : HasValue xa x) (hx : 0 ≤ x) (hf : f.prec + 1 ≤ 32) :
    (xsqrt xa).2 = .none ∧ ExactlyIs f (xsqrt xa).1 (Real.sqrt x) xa.neg := by
  obtain ⟨n, m, e, rfl, -⟩ := id ha
  rw [hasValue_real_iff] at ha
  by_cases hm : m = 0
  · simp only [xsqrt, if_pos hm]
    exact ⟨trivial, exactlyIs_of_hasValue (hasValue_real_iff.mpr (by simp [ha, hm])) f fun _ => rfl⟩
  · have hpos : (0 : ℝ) < m * 2 ^ e := by have := Nat.pos_of_ne_zero hm; positivity
    obtain rfl : n = false := by
      cases n
      · rfl
      · rw [signOf_true, neg_one_mul, neg_mul] at ha; linarith
    rw [signOf_false, one_mul] at ha
    obtain ⟨k, j, hres, hk, hlarge⟩ : ∃ (k : Nat) (j : ℤ),
        xsqrt (.real false m e false) = (.real false (isqrt k) j (decide (isqrt k * isqrt k ≠ k)), .none) ∧
        x = k * ((2 : ℝ) ^ j) ^ 2 ∧ 2 ^ 32 * 2 ^ 32 ≤ k := by
      simp only [xsqrt, if_neg hm, Bool.false_eq_true, if_false]
      by_cases he : e % 2 = 0 <;> simp only [he, if_true, if_false]
      · exact ⟨m <<< 64, (e - 64) / 2, rfl, by rw [ha, mul_two_zpow_eq m (k := 64) (by omega)]; rfl, le_shiftLeft hm le_rfl⟩
      · exact ⟨m <<< 65, (e - 65) / 2, rfl, by rw [ha, mul_two_zpow_eq m (k := 65) (by omega)]; rfl, le_shiftLeft hm (by omega)⟩
    rw [hres]
    have hsqrt : Real.sqrt x = Real.sqrt k * (2 : ℝ) ^ j := by
      rw [hk, Real.sqrt_mul (Nat.cast_nonneg k), Real.sqrt_sq (by positivity)]
    have habs : |Real.sqrt x| = Real.sqrt k * (2 : ℝ) ^ j := by rw [abs_of_nonneg (Real.sqrt_nonneg x), hsqrt]
    refine ⟨rfl, _, _, _, _, rfl, habs ▸ magnitude_sqrt k j, ?_, fun _ => ?_, fun _ => rfl⟩
    · rw [signOf_false, one_mul, abs_of_nonneg (Real.sqrt_nonneg x)]
    · rw [isqrt_eq_sqrt]
      exact (Nat.pow_le_pow_right two_pos hf).trans (Nat.le_sqrt.mpr hlarge)

/-- R90: the root of a real below 0 is invalid. -/
theorem xsqrt_neg {xa : XR} {x : ℝ} (ha : HasValue xa x) (hx : x < 0) : xsqrt xa = (.nan false, .invalid) := by
  obtain ⟨n, m, e, rfl, rfl⟩ := ha
  have hm : m ≠ 0 := by rintro rfl; simp at hx
  obtain rfl : n = true := by
    cases n
    · exact absurd hx (not_lt.mpr (by simp; positivity))
    · rfl
  simp [xsqrt, hm]

/-! The float operations on elements (R163, R164). -/

/-- An element's code is the exact result rounded, and its flags are those of the operation and of the rounding. -/
def RoundedOnce (f : FFmt) (mode : RMode) (r : ElemRes) (ideal : XR × FFlags) : Prop :=
  r.code = (roundX f mode ideal.1).1 ∧ r.flags = ideal.2.or (roundX f mode ideal.1).2

section Operations

variable (f : FFmt) (mode : RMode) (thr : Option Nat) (a b c : FIn)

theorem fElem_add : RoundedOnce f mode (fElem .add f mode thr a b c) (xadd mode (decodeF f a.code) (decodeF f b.code)) :=
  ⟨rfl, rfl⟩

theorem fElem_sub :
    RoundedOnce f mode (fElem .sub f mode thr a b c) (xadd mode (decodeF f a.code) (decodeF f b.code).negate) := ⟨rfl, rfl⟩

theorem fElem_mul : RoundedOnce f mode (fElem .mul f mode thr a b c) (xmul (decodeF f a.code) (decodeF f b.code)) := ⟨rfl, rfl⟩

theorem fElem_div : RoundedOnce f mode (fElem .div f mode thr a b c) (xdiv (decodeF f a.code) (decodeF f b.code)) := ⟨rfl, rfl⟩

theorem fElem_sqrt : RoundedOnce f mode (fElem .sqrt f mode thr a b c) (xsqrt (decodeF f a.code)) := ⟨rfl, rfl⟩

theorem fElem_fma : RoundedOnce f mode (fElem .fma f mode thr a b c)
    (xfma mode (decodeF f a.code) (decodeF f b.code) (decodeF f c.code)) := ⟨rfl, rfl⟩

theorem fElem_fnma : RoundedOnce f mode (fElem .fnma f mode thr a b c)
    (xfma mode (decodeF f a.code).negate (decodeF f b.code) (decodeF f c.code)) := ⟨rfl, rfl⟩

end Operations

theorem none_or (fl : FFlags) : FFlags.none.or fl = fl := rfl

theorem or_none (fl : FFlags) : fl.or .none = fl := by
  cases fl
  simp [FFlags.or, FFlags.none]

namespace RoundedOnce

variable {f : FFmt} {mode : RMode} {r : ElemRes} {ideal : XR × FFlags}

/-- An element whose exact result is the real v is v rounded once, or the zero of the stated sign without a flag. -/
theorem gives (h : RoundedOnce f mode r ideal) {v : ℝ} {zero : Bool} (hx : ideal.2 = .none ∧ ExactlyIs f ideal.1 v zero) :
    (v ≠ 0 → Rounds f mode v (decide (v < 0)) r.code r.flags) ∧ (v = 0 → r.code = f.withSign zero 0 ∧ r.flags = .none) := by
  obtain ⟨hcode, hflags⟩ := h
  obtain ⟨hnone, hv⟩ := hx
  rw [hcode, hflags, hnone, none_or]
  refine ⟨hv.rounds mode, fun h0 => ?_⟩
  rw [hv.rounds_zero mode h0]
  exact ⟨rfl, rfl⟩

/-- A NaN as exact result gives the canonical NaN with the flags of the operation. -/
theorem nan (h : RoundedOnce f mode r ideal) (hf : f ≠ .e2m1) {s : Bool} {fl : FFlags} (hx : ideal = (.nan s, fl)) :
    r.code = f.nanCode ∧ r.flags = fl := by
  obtain ⟨hcode, hflags⟩ := h
  rw [hcode, hflags, hx, roundX, if_neg hf, or_none]
  exact ⟨rfl, rfl⟩

/-- An infinity as exact result gives infinity with the flags of the operation. -/
theorem inf (h : RoundedOnce f mode r ideal) (hf : f.hasInf = true) {n : Bool} {fl : FFlags} (hx : ideal = (.inf n, fl)) :
    r.code = f.withSign n f.infCode ∧ r.flags = fl := by
  obtain ⟨hcode, hflags⟩ := h
  rw [hcode, hflags, hx, roundX, if_pos hf, or_none]
  exact ⟨rfl, rfl⟩

end RoundedOnce

/-! Operations with NaN operands (R91, R169). -/

/-- The flags of an operation with a NaN operand: NV when one is signalling. -/
def nanFlags (xa xb : XR) : FFlags := if xa.signalling || xb.signalling then .invalid else .none

theorem nanFlags_eq (xa xb : XR) : nanFlags xa xb = if xa.signalling ∨ xb.signalling then .invalid else .none := by
  simp [nanFlags]

section NanOperands

variable {xa xb : XR} (h : xa.isNan = true ∨ xb.isNan = true)
include h

theorem xadd_nan (mode : RMode) : xadd mode xa xb = (.nan false, nanFlags xa xb) := by
  cases xa <;> cases xb <;> simp_all [XR.isNan, XR.signalling, xadd, nanFlags]

theorem xmul_nan : xmul xa xb = (.nan false, nanFlags xa xb) := by
  cases xa <;> cases xb <;> simp_all [XR.isNan, XR.signalling, xmul, nanFlags]

theorem xdiv_nan : xdiv xa xb = (.nan false, nanFlags xa xb) := by
  cases xa <;> cases xb <;> simp_all [XR.isNan, XR.signalling, xdiv, nanFlags]

end NanOperands

theorem negate_isNan (x : XR) : x.negate.isNan = x.isNan := by cases x <;> rfl

theorem nanFlags_negate (xa xb : XR) : nanFlags xa xb.negate = nanFlags xa xb := by cases xb <;> rfl

/-- Significands of decoded values have no more bits than the precision. -/
theorem significand_lt {f : FFmt} {code : Nat} {n : Bool} {m : Nat} {e : ℤ} {s : Bool} (h : decodeF f code = .real n m e s) :
    m < 2 ^ f.prec := by
  have hfrac : code % 2 ^ f.fbits < 2 ^ f.fbits := Nat.mod_lt _ (by positivity)
  have hprec : 2 ^ f.prec = 2 ^ f.fbits + 2 ^ f.fbits := by rw [FFmt.prec, Nat.pow_succ]; ring
  unfold decodeF at h
  simp only at h
  split_ifs at h <;> cases h <;> omega

/-- The formats of the harts have infinities, a NaN, and at most 31 bits of precision. -/
theorem hart_format {f : FFmt} (hf : f ∈ [FFmt.fp32, .bf16, .fp16]) : f ≠ .e2m1 ∧ f.hasInf = true ∧ f.prec + 1 ≤ 32 := by
  cases f <;> simp_all [FFmt.hasInf, FFmt.prec, FFmt.fbits]

/-- A sum of reals, as exact result. -/
theorem xadd_exactlyIs (f : FFmt) (mode : RMode) {xa xb : XR} {x y : ℝ} (ha : HasValue xa x) (hb : HasValue xb y) :
    (xadd mode xa xb).2 = .none ∧
      ExactlyIs f (xadd mode xa xb).1 (x + y) (if xa.neg = xb.neg then xa.neg else decide (mode = .rdn)) := by
  obtain ⟨hfl, hval, hzero⟩ := xadd_exact ha hb mode
  exact ⟨hfl, exactlyIs_of_hasValue hval f hzero⟩

/-- R164: a product is added to a third operand before the one rounding. -/
theorem xfma_exactlyIs (f : FFmt) (mode : RMode) {xa xb xc : XR} {x y z : ℝ} (ha : HasValue xa x) (hb : HasValue xb y)
    (hc : HasValue xc z) : (xfma mode xa xb xc).2 = .none ∧ ExactlyIs f (xfma mode xa xb xc).1 (x * y + z)
      (if (xa.neg != xb.neg) = xc.neg then (xa.neg != xb.neg) else decide (mode = .rdn)) := by
  obtain ⟨hfl, hval, hneg⟩ := xmul_exact ha hb
  obtain ⟨hfl', hx⟩ := xadd_exactlyIs f mode hval hc
  rw [hneg] at hx
  exact ⟨by simp only [xfma, hfl, hfl', none_or], hx⟩

/-- The second part of O60: the float operations, by their exact results. -/
theorem floatElements : FloatElements := by
  intro f hf mode thr a b c res gives bad na nb nc zeroSum
  obtain ⟨hnan, hinf, hbits⟩ := hart_format hf
  have add := fElem_add f mode thr a b c
  have sub := fElem_sub f mode thr a b c
  have mul := fElem_mul f mode thr a b c
  have div := fElem_div f mode thr a b c
  have sqrt := fElem_sqrt f mode thr a b c
  refine ⟨fun x y hx hy => ?_, fun op hop h => ?_, fun n k hn hk => ?_, fun n y hn hy => ?_⟩
  · obtain ⟨hy', hnb⟩ := hasValue_negate hy
    obtain ⟨hx', hna⟩ := hasValue_negate hx
    obtain ⟨hmulf, hmulv, hmuln⟩ := xmul_exact hx hy
    refine ⟨add.gives (xadd_exactlyIs f mode hx hy), ?_, mul.gives ⟨hmulf, exactlyIs_of_hasValue hmulv f fun _ => hmuln⟩,
      fun h0 => div.gives (xdiv_exact hx hy h0 hbits fun n m e h => significand_lt h), ?_, ?_,
      fun h0 => sqrt.gives (xsqrt_exact hx h0 hbits), fun h0 => sqrt.nan hnan (xsqrt_neg hx h0), fun z hz => ⟨?_, ?_⟩⟩
    · have h := sub.gives (xadd_exactlyIs f mode hx hy')
      rwa [hnb, ← sub_eq_add_neg] at h
    · rintro rfl rfl
      exact div.nan hnan (by rw [xdiv_zero hx hy, if_pos rfl])
    · rintro rfl h0
      exact div.inf hinf (by rw [xdiv_zero hx hy, if_neg h0])
    · exact (fElem_fma f mode thr a b c).gives (xfma_exactlyIs f mode hx hy hz)
    · have h := (fElem_fnma f mode thr a b c).gives (xfma_exactlyIs f mode hx' hy hz)
      rw [hna, Bool.not_bne, bne, Bool.not_not, neg_mul, neg_add_eq_sub] at h
      exact h
  · rw [← nanFlags_eq]
    simp only [List.mem_cons, List.not_mem_nil, or_false] at hop
    rcases hop with rfl | rfl | rfl | rfl
    · exact add.nan hnan (xadd_nan h mode)
    · have hsub := sub.nan hnan (xadd_nan (by rwa [negate_isNan]) mode)
      rwa [nanFlags_negate] at hsub
    · exact mul.nan hnan (xmul_nan h)
    · exact div.nan hnan (xdiv_nan h)
  · have hsub : n = k → xadd mode (decodeF f a.code) (decodeF f b.code).negate = (.nan false, .invalid) := by
      rintro rfl
      rw [hn, hk, XR.negate, xadd, if_neg (by simp)]
    exact ⟨fun hne => add.nan hnan (by rw [hn, hk, xadd, if_neg hne]), fun heq => sub.nan hnan (hsub heq),
      div.nan hnan (by rw [hn, hk, xdiv]), (mul.inf hinf (by rw [hn, hk, xmul])).1,
      fun heq => (add.inf hinf (by rw [hn, hk, xadd, if_pos heq])).1⟩
  · obtain ⟨n', m, e, hb, hval⟩ := hy
    have hm : y = 0 ↔ m = 0 := by
      have hu : (2 : ℝ) ^ e ≠ 0 := by positivity
      rw [hval]
      cases n' <;> simp [hu]
    refine ⟨fun h0 => mul.nan hnan (by rw [hn, hb, xmul, if_pos (hm.mp h0)]), fun h0 => ?_⟩
    exact mul.inf hinf (by simp only [nb, hn, hb, xmul, if_neg (hm.not.mp h0), XR.neg])

/-- Settles O60: ROUND on all values, and each float operation as its exact real result rounded once. -/
theorem floatRounding : Obligations.FloatRounding := ⟨roundFunction, floatElements⟩

end Sys2Proof.Rounding

/-! SUPPORT. Integer instructions and control flow of a hart (R65, R134-R142, R183), and the element-wise vector instructions (R146):
an instruction whose body is done with its operands completes, and what the bodies compute is what the spec says of exact results. -/

namespace Sys2Proof.Integer

open Sys2Proof Sys2Proof.Machine Sys2Proof.Spec

/-! How a body completes. -/

/-- The instruction has n bytes, and its meaning is to run a body. -/
def Runs (i : Instr) (tk : Tok) (n : Nat) (body : State → Act) : Prop :=
  instrLen i = n ∧ ∀ s, exec i s = runHart i tk s body

section Completion

variable {i : Instr} {tk : Tok} {n : Nat} {s s1 s2 s3 s4 u : State} {body : State → Act} {d a b : Reg} {x y : UVal}

theorem Runs.completes_done (hr : Runs i tk n body) (h : Ready i tk s s1) (hb : body s1 = .done u) :
    Completes i tk s u (s.hart.pc + BitVec.ofNat 64 n) := by
  obtain ⟨rfl, hexec⟩ := hr
  intro v hv
  rw [hexec, runHart_done h hb hv]

theorem Runs.completes_jump {pc : Word} (hr : Runs i tk n body) (h : Ready i tk s s1) (hb : body s1 = .jump u pc) :
    Completes i tk s u pc := by
  obtain ⟨-, hexec⟩ := hr
  intro v hv
  rw [hexec, runHart_jump h hb hv]

/-- Popping the W token leaves the pc. -/
theorem ready_pc (h : Ready i tk s s1) : s1.hart.pc = s.hart.pc := by
  obtain ⟨-, -, -, hpop⟩ := h
  exact popW_pc hpop

theorem uniform2_done {f : UVal → UVal → State → State × UVal} (hp : Parties s [a, b] [d] [] []) (ha : s.readU a = .got x s2)
    (hb : s2.readU b = .got y s3) (hd : (f x y s3).1.putU d (f x y s3).2 = .ok s4) : uniform2 s d a b f = .done s4 := by
  obtain ⟨hsrc, hdst, -, -⟩ := hp
  simp only [uniform2]
  rw [guardMap_ok (by simp [hsrc, hdst]), srcU_got ha, srcU_got hb, dstU_ok hd]

theorem uniform1_done {f : UVal → State → State × UVal} (hp : Parties s [a] [d] [] []) (ha : s.readU a = .got x s2)
    (hd : (f x s2).1.putU d (f x s2).2 = .ok s3) : uniform1 s d a f = .done s3 := by
  obtain ⟨hsrc, hdst, -, -⟩ := hp
  simp only [uniform1]
  rw [guardMap_ok (by simp [hsrc, hdst]), srcU_got ha, dstU_ok hd]

theorem intConst_done {v : Word} (hp : Parties s [] [d] [] []) (hd : s.putU d ⟨v, 24#5, false⟩ = .ok s2) :
    intConst d v s = .done s2 := by
  obtain ⟨-, hdst, -, -⟩ := hp
  rw [intConst, guardMap_ok (by simp [hdst]), intResult, dstU_ok hd]

theorem vector2_done {f : VVal → VVal → VVal → Bool → VVal} {x y : VVal} (hp : Parties s [] [] [a, b] [d])
    (ha : s.readV a = .got x s2) (hb : s2.readV b = .got y s3) (hd : s3.putV d (f x y) = .ok s4) :
    vector2 s d a b f = .done s4 := by
  obtain ⟨-, -, hsrc, hdst⟩ := hp
  rw [vector2, guardMap_ok (by simp [hsrc, hdst]), srcV_got ha, srcV_got hb, dstV_ok hd]

/-- x0 is always there, reads 0 with tag 24 (R46, R116), and names no queue. -/
theorem readU_zero (s : State) : s.readU 0#5 = .got (UVal.plain 0#64) s := by
  simp [State.readU, Hart.xBusy, Hart.xval]

theorem badSrcU_zero (s : State) : s.badSrcU 0#5 = false := by simp [State.badSrcU]

/-- A note leaves the pc. -/
theorem note_pc (s : State) (p : Bool) (k : Nat) : (s.note p k).hart.pc = s.hart.pc := by
  unfold State.note
  split
  · rw [State.hart_modHart]
  · rfl

end Completion

/-! What reading a uniform source leaves of the hart. -/

theorem report_hart (s : State) (r code : Nat) : (s.report r code).hart = s.hart := State.hart_modRegion s r _

theorem noteWalk_hart (s : State) (r unit ctx va n : Nat) : (s.noteWalk r unit ctx va n).hart = s.hart := by
  unfold State.noteWalk State.causeLater
  split
  · rw [State.hart_modRegion, report_hart]
  · rfl

theorem noteSpilled_hart (s : State) (c : Nat) (x : SpillExt) (n : Nat) (is : List QItem) :
    (s.noteSpilled c x n is).hart = s.hart := by
  unfold State.noteSpilled
  generalize (is.filter fun i => !i.isKerf).take n = js
  induction js generalizing s with
  | nil => rfl
  | cons j js ih =>
    rw [List.foldl_cons, ih]
    cases j <;> simp [noteWalk_hart]

theorem dropHead_hart (s : State) (c code : Nat) (rest : List QItem) : (s.dropHead c code rest).hart = s.hart := by
  simp only [State.dropHead, State.hart_modCell]
  split
  · exact noteSpilled_hart ..
  · rfl

theorem dropPort_pc (s : State) (p n : Nat) : (s.dropPort p n).hart.pc = s.hart.pc := by
  simp only [State.dropPort]
  split <;> simp

theorem popQueue_pc {s t : State} {n : Nat} {e : Entry} (h : s.popQueue n = some (e, t)) : t.hart.pc = s.hart.pc := by
  simp only [State.popQueue] at h
  split at h
  · cases h
    rw [State.hart_modHart]
  · split at h <;> cases h
    rw [dropHead_hart]

/-- Reading a uniform source leaves the pc. -/
theorem readU_pc {s t : State} {r : Reg} {x : UVal} (h : s.readU r = .got x t) : t.hart.pc = s.hart.pc := by
  unfold State.readU at h
  split at h
  · -- a register
    split at h <;> cases h
    rfl
  · split at h
    · -- a queue
      split at h
      · split at h <;> cases h
        rfl
      · next hpop => cases h; rw [State.popNote, note_pc, popQueue_pc hpop]
      · next hpop => cases h; exact popQueue_pc hpop
      · cases h
    · -- a port
      simp only at h
      split at h
      · split at h <;> cases h
        rfl
      · split at h <;> cases h
        · rw [State.popNote, note_pc, dropPort_pc]
        · exact dropPort_pc ..

/-! The shapes of the integer instructions. A shape asks for the function in the spec's terms; the model's is g. -/

section Shapes

variable {n : Nat}

theorem Runs.completes_intOp {i : Instr} {tk : Tok} {d a b : Reg} {g : Word → Word → Word} {s s1 s2 s3 s4 : State} {x y : UVal}
    (hr : Runs i tk n (intOp d a b g)) (h : Ready i tk s s1) (hp : Parties s1 [a, b] [d] [] []) (ha : s1.readU a = .got x s2)
    (hb : s2.readU b = .got y s3) (hd : s3.putU d ⟨g x.val y.val, 24#5, x.poison || y.poison⟩ = .ok s4) :
    Completes i tk s s4 (s.hart.pc + BitVec.ofNat 64 n) :=
  hr.completes_done h (uniform2_done hp ha hb hd)

theorem Runs.completes_intImm {i : Instr} {tk : Tok} {d a : Reg} {g : Word → Word} {s s1 s2 s3 : State} {x : UVal}
    (hr : Runs i tk n (intImm d a g)) (h : Ready i tk s s1) (hp : Parties s1 [a] [d] [] []) (ha : s1.readU a = .got x s2)
    (hd : s2.putU d ⟨g x.val, 24#5, x.poison⟩ = .ok s3) : Completes i tk s s3 (s.hart.pc + BitVec.ofNat 64 n) :=
  hr.completes_done h (uniform1_done hp ha hd)

theorem uniformBinary_of {mk : Tok → Reg → Reg → Reg → Instr} {f g : Word → Word → Word} (hg : ∀ x y, g x y = f x y)
    (hr : ∀ tk d a b, Runs (mk tk d a b) tk 4 (intOp d a b g)) : UniformBinary mk f := by
  obtain rfl : g = f := funext₂ hg
  intro tk d a b s s1 s2 s3 s4 x y h hp ha hb hd
  exact (hr tk d a b).completes_intOp h hp ha hb hd

theorem uniformUnary_of {mk : Tok → Reg → Reg → Instr} {f g : Word → Word} (hg : ∀ x, g x = f x)
    (hr : ∀ tk d a, Runs (mk tk d a) tk 4 (intImm d a g)) : UniformUnary mk f := by
  obtain rfl : g = f := funext hg
  intro tk d a s s1 s2 s3 x h hp ha hd
  exact (hr tk d a).completes_intImm h hp ha hd

theorem uniformDivide_of {mk : Tok → Reg → Reg → Reg → Instr} {f : Word → Word → Word} {p3 : Word → Word → Bool}
    {g : Word → Word → Word × Bool} (hg : ∀ x y, g x y = (f x y, p3 x y))
    (hr : ∀ tk d a b, Runs (mk tk d a b) tk 4 (divOp d a b g)) : UniformDivide mk f p3 := by
  intro tk d a b s s1 s2 s3 s4 x y h hp ha hb hd
  refine (hr tk d a b).completes_done h (uniform2_done hp ha hb ?_)
  simp only [hg]
  exact hd

theorem parcelBinary_of {mk : Reg → Reg → Instr} {f g : Word → Word → Word} (hg : ∀ x y, g x y = f x y)
    (hr : ∀ d b, Runs (mk d b) bare 2 (intOp d d b g)) : ParcelBinary mk f := by
  obtain rfl : g = f := funext₂ hg
  intro d b s s1 s2 s3 s4 x y h hp ha hb hd
  exact (hr d b).completes_intOp h hp ha hb hd

theorem parcelUnary_of {i : Instr} {d a : Reg} {f g : Word → Word} (hg : ∀ x, g x = f x)
    (hr : Runs i bare 2 (intImm d a g)) : ParcelUnary i d a f := by
  obtain rfl : g = f := funext hg
  intro s s1 s2 s3 x h hp ha hd
  exact hr.completes_intImm h hp ha hd

end Shapes

/-! Words as integers (R135, R136): each operation of the model is the exact result kept to 64 bits. -/

section Words

variable (x y : Word)

theorem add_eq_ofInt : x + y = BitVec.ofInt 64 (x.toInt + y.toInt) := by
  rw [BitVec.ofInt_add, BitVec.ofInt_toInt, BitVec.ofInt_toInt]

theorem sub_eq_ofInt : x - y = BitVec.ofInt 64 (x.toInt - y.toInt) := by
  rw [sub_eq_add_neg x.toInt, BitVec.ofInt_add, BitVec.ofInt_neg, BitVec.ofInt_toInt, BitVec.ofInt_toInt, BitVec.sub_eq_add_neg]

theorem mul_eq_ofInt : x * y = BitVec.ofInt 64 (x.toInt * y.toInt) := by
  rw [BitVec.ofInt_mul, BitVec.ofInt_toInt, BitVec.ofInt_toInt]

theorem shiftLeft_eq_ofNat (k : Nat) : x <<< k = BitVec.ofNat 64 (x.toNat * 2 ^ k) :=
  BitVec.eq_of_toNat_eq (by rw [BitVec.toNat_shiftLeft, BitVec.toNat_ofNat, Nat.shiftLeft_eq])

theorem ushiftRight_eq_ofNat (k : Nat) : x >>> k = BitVec.ofNat 64 (x.toNat / 2 ^ k) := by
  rw [← Nat.shiftRight_eq_div_pow, ← BitVec.toNat_ushiftRight, BitVec.ofNat_toNat, BitVec.setWidth_eq]

theorem sshiftRight_eq_ofInt (k : Nat) : x.sshiftRight k = BitVec.ofInt 64 (x.toInt / 2 ^ k) := by
  rw [BitVec.sshiftRight, Int.shiftRight_eq_div_pow]
  norm_cast

theorem add_shiftLeft_eq_ofNat (k : Nat) : x + y <<< k = BitVec.ofNat 64 (x.toNat + y.toNat * 2 ^ k) := by
  rw [shiftLeft_eq_ofNat, BitVec.ofNat_add, BitVec.ofNat_toNat, BitVec.setWidth_eq]

theorem sext64_shiftLeft {n : Nat} (v : BitVec n) (k : Nat) : sext64 v <<< k = BitVec.ofInt 64 (v.toInt * 2 ^ k) := by
  rw [BitVec.shiftLeft_eq_mul_twoPow, BitVec.ofInt_mul]
  congr 1
  exact BitVec.eq_of_toNat_eq (by simp; norm_cast)

theorem toInt_sext64 {n : Nat} (h : n ≤ 64) (v : BitVec n) : (sext64 v).toInt = v.toInt := BitVec.toInt_signExtend_of_le h

theorem slt_eq_decide : x.slt y = decide (x.toInt < y.toInt) := rfl

theorem ult_eq_decide : x.ult y = decide (x.toNat < y.toNat) := rfl

theorem b2w_slt : b2w (x.slt y) = if x.toInt < y.toInt then 1#64 else 0#64 := by simp [b2w, slt_eq_decide]

theorem b2w_ult : b2w (x.ult y) = if x.toNat < y.toNat then 1#64 else 0#64 := by simp [b2w, ult_eq_decide]

/-- A choice by "y is below x", as the choice by "x is at most y". -/
theorem ite_slt_eq (u v : Word) : (if y.slt x then u else v) = if x.toInt ≤ y.toInt then v else u := by
  rw [slt_eq_decide, ← ite_not]
  simp

theorem ite_ult_eq (u v : Word) : (if y.ult x then u else v) = if x.toNat ≤ y.toNat then v else u := by
  rw [ult_eq_decide, ← ite_not]
  simp

theorem ite_slt_max : (if x.slt y then y else x) = if x.toInt ≤ y.toInt then y else x := by
  rw [slt_eq_decide]
  rcases lt_trichotomy x.toInt y.toInt with h | h | h
  · simp [h, h.le]
  · simp [BitVec.eq_of_toInt_eq h]
  · simp [not_lt.mpr h.le, not_le.mpr h]

theorem ite_ult_max : (if x.ult y then y else x) = if x.toNat ≤ y.toNat then y else x := by
  rw [ult_eq_decide]
  rcases lt_trichotomy x.toNat y.toNat with h | h | h
  · simp [h, h.le]
  · simp [BitVec.eq_of_toNat_eq h]
  · simp [not_lt.mpr h.le, not_le.mpr h]

theorem divOverflows_eq : divOverflows x y = decide (x.toInt = -2 ^ 63 ∧ y.toInt = -1) := by
  have hx : x = BitVec.intMin 64 ↔ x.toInt = -2 ^ 63 := by rw [← BitVec.toInt_inj]; rfl
  have hy : y = BitVec.allOnes 64 ↔ y.toInt = -1 := by rw [← BitVec.toInt_inj]; rfl
  simp only [divOverflows, hx, hy, Bool.decide_and]

/-- The quotient of the boundary cases, and p3 (R136). -/
theorem divS_eq : divS x y =
    (if y = 0#64 then 0#64 else if x.toInt = -2 ^ 63 ∧ y.toInt = -1 then BitVec.ofInt 64 (2 ^ 63 - 1)
      else BitVec.ofInt 64 (x.toInt.tdiv y.toInt), decide (y = 0#64 ∨ (x.toInt = -2 ^ 63 ∧ y.toInt = -1))) := by
  unfold divS
  rw [divOverflows_eq]
  by_cases h0 : y = 0#64
  · simp [h0]
  by_cases ho : x.toInt = -2 ^ 63 ∧ y.toInt = -1
  · simp only [h0, ho, and_self, decide_true, if_true, if_false, or_true]
    rfl
  · simp only [h0, ho, decide_false, if_false, Bool.false_eq_true, or_self]

theorem divU_eq : divU x y = (BitVec.ofNat 64 (x.toNat / y.toNat), decide (y = 0#64)) := by
  unfold divU
  split
  · next h => simp [h]
  · next h => simp [h]

/-- The remainder has the sign of the dividend; in the boundary case it is 0, as a - b · q is (R136). -/
theorem remS_eq : remS x y =
    (if y = 0#64 then x else BitVec.ofInt 64 (x.toInt - y.toInt * x.toInt.tdiv y.toInt),
      decide (y = 0#64 ∨ (x.toInt = -2 ^ 63 ∧ y.toInt = -1))) := by
  have hmod : x.toInt.tmod y.toInt = x.toInt - y.toInt * x.toInt.tdiv y.toInt := Int.tmod_def ..
  unfold remS
  rw [divOverflows_eq]
  by_cases h0 : y = 0#64
  · simp [h0]
  by_cases ho : x.toInt = -2 ^ 63 ∧ y.toInt = -1
  · rw [← hmod, ho.1, ho.2]
    simp [h0]
  · simp only [h0, ho, hmod, decide_false, if_false, Bool.false_eq_true, or_self]

theorem remU_eq : remU x y = (BitVec.ofNat 64 (x.toNat % y.toNat), decide (y = 0#64)) := by
  unfold remU
  split
  · next h => simp [h]
  · next h => simp [h]

end Words

/-! Counts of bits (R135). -/

/-- The leading zeros of a word are the zeros above its highest one. -/
theorem leadingZeros_spec (a : Word) : (leadingZeros a).toNat ≤ 64 ∧
    (∀ i, i < 64 → 64 - (leadingZeros a).toNat ≤ i → a.getLsbD i = false) ∧
    ((leadingZeros a).toNat < 64 → a.getLsbD (63 - (leadingZeros a).toNat) = true) := by
  by_cases ha : a = 0#64
  · simp [ha, leadingZeros]
  · have h0 : a.toNat ≠ 0 := by simpa [← BitVec.toNat_inj] using ha
    have hlog : Nat.log2 a.toNat < 64 := (Nat.log2_lt h0).mpr a.isLt
    have hcount : (leadingZeros a).toNat = 63 - Nat.log2 a.toNat := by
      rw [leadingZeros, if_neg ha, BitVec.toNat_ofNat, Nat.mod_eq_of_lt (by omega)]
    rw [hcount]
    refine ⟨by omega, fun i _ hi => Nat.testBit_lt_two_pow ((Nat.log2_lt h0).mp (by omega)), fun _ => ?_⟩
    rw [show 63 - (63 - Nat.log2 a.toNat) = Nat.log2 a.toNat by omega]
    exact Nat.testBit_log2 h0

/-- Below the lowest one of the n low bits there are zeros. -/
theorem lowestOne_spec (n v : Nat) : lowestOne n v ≤ n ∧ (∀ i, i < lowestOne n v → v.testBit i = false) ∧
    (lowestOne n v < n → v.testBit (lowestOne n v) = true) := by
  induction n generalizing v with
  | zero => simp [lowestOne]
  | succ n ih =>
    obtain ⟨hle, hbelow, hat⟩ := ih (v / 2)
    unfold lowestOne
    split
    · next hodd => simp [hodd]
    · next heven =>
      refine ⟨by omega, fun i hi => ?_, fun h => ?_⟩
      · cases i with
        | zero => simpa using heven
        | succ i => rw [Nat.testBit_succ]; exact hbelow i (by omega)
      · rw [Nat.add_comm, Nat.testBit_succ]
        exact hat (by omega)

theorem trailingZeros_spec (a : Word) : (trailingZeros a).toNat ≤ 64 ∧
    (∀ i, i < (trailingZeros a).toNat → a.getLsbD i = false) ∧
    ((trailingZeros a).toNat < 64 → a.getLsbD (trailingZeros a).toNat = true) := by
  have h := lowestOne_spec 64 a.toNat
  rwa [← show (trailingZeros a).toNat = lowestOne 64 a.toNat from Nat.mod_eq_of_lt (by omega)] at h

/-- The ones among the n low bits. -/
theorem popCount_eq_length (n v : Nat) : popCount n v = ((List.range n).filter v.testBit).length := by
  induction n generalizing v with
  | zero => rfl
  | succ n ih =>
    rw [popCount, ih, List.range_succ_eq_map, List.filter_cons, List.filter_map, Nat.testBit_zero]
    have htail : v.testBit ∘ Nat.succ = (v / 2).testBit := funext (Nat.testBit_succ v)
    rw [htail]
    rcases Nat.mod_two_eq_zero_or_one v with h | h <;> simp [h, Nat.add_comm]

/-! The uniform integer instructions. -/

/-- The first part of O33: the register forms. -/
theorem uniformInteger : UniformInteger :=
  ⟨uniformBinary_of add_eq_ofInt fun _ _ _ _ => ⟨rfl, fun _ => rfl⟩,
   uniformBinary_of sub_eq_ofInt fun _ _ _ _ => ⟨rfl, fun _ => rfl⟩,
   uniformBinary_of (fun _ _ => rfl) fun _ _ _ _ => ⟨rfl, fun _ => rfl⟩,
   uniformBinary_of (fun _ _ => rfl) fun _ _ _ _ => ⟨rfl, fun _ => rfl⟩,
   uniformBinary_of (fun _ _ => rfl) fun _ _ _ _ => ⟨rfl, fun _ => rfl⟩,
   uniformBinary_of (fun x y => shiftLeft_eq_ofNat x (shiftAmount y)) fun _ _ _ _ => ⟨rfl, fun _ => rfl⟩,
   uniformBinary_of (fun x y => ushiftRight_eq_ofNat x (shiftAmount y)) fun _ _ _ _ => ⟨rfl, fun _ => rfl⟩,
   uniformBinary_of (fun x y => sshiftRight_eq_ofInt x (shiftAmount y)) fun _ _ _ _ => ⟨rfl, fun _ => rfl⟩,
   uniformBinary_of b2w_slt fun _ _ _ _ => ⟨rfl, fun _ => rfl⟩,
   uniformBinary_of b2w_ult fun _ _ _ _ => ⟨rfl, fun _ => rfl⟩,
   uniformBinary_of (fun x y => ite_slt_eq x y y x) fun _ _ _ _ => ⟨rfl, fun _ => rfl⟩,
   uniformBinary_of ite_slt_max fun _ _ _ _ => ⟨rfl, fun _ => rfl⟩,
   uniformBinary_of (fun x y => ite_ult_eq x y y x) fun _ _ _ _ => ⟨rfl, fun _ => rfl⟩,
   uniformBinary_of ite_ult_max fun _ _ _ _ => ⟨rfl, fun _ => rfl⟩,
   uniformBinary_of mul_eq_ofInt fun _ _ _ _ => ⟨rfl, fun _ => rfl⟩,
   uniformBinary_of (fun _ _ => rfl) fun _ _ _ _ => ⟨rfl, fun _ => rfl⟩,
   uniformBinary_of (fun _ _ => rfl) fun _ _ _ _ => ⟨rfl, fun _ => rfl⟩,
   fun sh => uniformBinary_of (fun x y => add_shiftLeft_eq_ofNat x y sh.toNat) fun _ _ _ _ => ⟨rfl, fun _ => rfl⟩⟩

/-- The second part of O33: the divisions. -/
theorem uniformDivision : UniformDivision :=
  ⟨uniformDivide_of divS_eq fun _ _ _ _ => ⟨rfl, fun _ => rfl⟩,
   uniformDivide_of divU_eq fun _ _ _ _ => ⟨rfl, fun _ => rfl⟩,
   uniformDivide_of remS_eq fun _ _ _ _ => ⟨rfl, fun _ => rfl⟩,
   uniformDivide_of remU_eq fun _ _ _ _ => ⟨rfl, fun _ => rfl⟩⟩

/-- The third part of O33: the counts. -/
theorem uniformCounts : UniformCounts :=
  ⟨⟨leadingZeros, uniformUnary_of (fun _ => rfl) fun _ _ _ => ⟨rfl, fun _ => rfl⟩, leadingZeros_spec⟩,
   ⟨trailingZeros, uniformUnary_of (fun _ => rfl) fun _ _ _ => ⟨rfl, fun _ => rfl⟩, trailingZeros_spec⟩,
   uniformUnary_of (g := onesOf) (fun a => congrArg (BitVec.ofNat 64) (popCount_eq_length 64 a.toNat))
     fun _ _ _ => ⟨rfl, fun _ => rfl⟩⟩

/-- The fourth part of O33: the immediate forms, and the constants of lih and addpc. -/
theorem uniformImmediate : UniformImmediate := by
  refine ⟨fun imm => ⟨?_, ?_, ?_, ?_, ?_⟩, fun sh => ⟨?_, ?_, ?_⟩, ?_, ?_⟩
  · exact uniformUnary_of (fun _ => rfl) fun _ _ _ => ⟨rfl, fun _ => rfl⟩
  · refine uniformUnary_of (g := fun x => b2w (x.slt (sext64 imm))) (fun x => ?_) fun _ _ _ => ⟨rfl, fun _ => rfl⟩
    rw [b2w_slt, toInt_sext64 (by decide)]
  · exact uniformUnary_of (fun _ => rfl) fun _ _ _ => ⟨rfl, fun _ => rfl⟩
  · exact uniformUnary_of (fun _ => rfl) fun _ _ _ => ⟨rfl, fun _ => rfl⟩
  · exact uniformUnary_of (fun _ => rfl) fun _ _ _ => ⟨rfl, fun _ => rfl⟩
  · exact uniformUnary_of (fun x => shiftLeft_eq_ofNat x sh.toNat) fun _ _ _ => ⟨rfl, fun _ => rfl⟩
  · exact uniformUnary_of (fun x => ushiftRight_eq_ofNat x sh.toNat) fun _ _ _ => ⟨rfl, fun _ => rfl⟩
  · exact uniformUnary_of (fun x => sshiftRight_eq_ofInt x sh.toNat) fun _ _ _ => ⟨rfl, fun _ => rfl⟩
  · intro tk d imm s s1 s2 h hp hd
    have hr : Runs (.lih tk d imm) tk 4 (intConst d (sext64 imm <<< 13)) := ⟨rfl, fun _ => rfl⟩
    exact hr.completes_done h (intConst_done hp (by rwa [sext64_shiftLeft]))
  · intro tk d imm s s1 s2 h hp hd
    have hr : Runs (.addpc tk d imm) tk 4 (fun s => intConst d (s.hart.pc + sext64 imm <<< 13) s) := ⟨rfl, fun _ => rfl⟩
    exact hr.completes_done h (intConst_done hp (by rwa [sext64_shiftLeft, ready_pc h]))

/-- A move is the sum with x0 (R65). -/
theorem parcelUnary_cMv (d b : Reg) : ParcelUnary (.cMv d b) d b (fun b => b) := by
  intro s s1 s2 s3 x h hp hb hd
  obtain ⟨hsrc, hdst, -, -⟩ := hp
  have hr : Runs (.cMv d b) bare 2 (intOp d 0#5 b (fun a b => a + b)) := ⟨rfl, fun _ => rfl⟩
  refine hr.completes_intOp h ⟨?_, hdst, nofun, nofun⟩ (readU_zero s1) hb ?_
  · simpa [badSrcU_zero] using hsrc
  · rw [UVal.plain, BitVec.zero_add, Bool.false_or]
    exact hd

/-- A constant is the sum of x0 and the immediate (R65). -/
theorem completes_cLi (d : Reg) (i : BitVec 5) {s s1 s2 : State} (h : Ready (.cLi d i) bare s s1) (hp : Parties s1 [] [d] [] [])
    (hd : s1.putU d ⟨BitVec.ofInt 64 i.toInt, 24#5, false⟩ = .ok s2) : Completes (.cLi d i) bare s s2 (after2 s) := by
  obtain ⟨-, hdst, -, -⟩ := hp
  have hr : Runs (.cLi d i) bare 2 (intImm d 0#5 (fun a => a + sext64 i)) := ⟨rfl, fun _ => rfl⟩
  refine hr.completes_intImm h ⟨?_, hdst, nofun, nofun⟩ (readU_zero s1) ?_
  · simp [badSrcU_zero]
  · rw [UVal.plain, BitVec.zero_add]
    exact hd

/-- The fifth part of O33: the integer parcels. -/
theorem compressedInteger : CompressedInteger := by
  refine ⟨parcelUnary_cMv,
    parcelBinary_of (fun _ _ => rfl) fun _ _ => ⟨rfl, fun _ => rfl⟩,
    parcelBinary_of (fun _ _ => rfl) fun _ _ => ⟨rfl, fun _ => rfl⟩,
    parcelBinary_of (fun _ _ => rfl) fun _ _ => ⟨rfl, fun _ => rfl⟩,
    parcelBinary_of (fun _ _ => rfl) fun _ _ => ⟨rfl, fun _ => rfl⟩,
    parcelBinary_of (fun _ _ => rfl) fun _ _ => ⟨rfl, fun _ => rfl⟩,
    parcelBinary_of b2w_slt fun _ _ => ⟨rfl, fun _ => rfl⟩,
    parcelBinary_of b2w_ult fun _ _ => ⟨rfl, fun _ => rfl⟩,
    parcelBinary_of mul_eq_ofInt fun _ _ => ⟨rfl, fun _ => rfl⟩,
    fun d i => ⟨?_, ?_, ?_, ?_, ?_, fun s s1 s2 h hp hd => completes_cLi d i h hp hd⟩, fun s s1 h => ?_⟩
  · exact parcelUnary_of (fun _ => rfl) ⟨rfl, fun _ => rfl⟩
  · exact parcelUnary_of (fun x => shiftLeft_eq_ofNat x i.toNat) ⟨rfl, fun _ => rfl⟩
  · exact parcelUnary_of (fun x => ushiftRight_eq_ofNat x i.toNat) ⟨rfl, fun _ => rfl⟩
  · exact parcelUnary_of (fun x => sshiftRight_eq_ofInt x i.toNat) ⟨rfl, fun _ => rfl⟩
  · exact parcelUnary_of (fun _ => rfl) ⟨rfl, fun _ => rfl⟩
  · have hr : Runs .cNop bare 2 .done := ⟨rfl, fun _ => rfl⟩
    exact hr.completes_done h rfl

/-- Settles O33: each body completes with what the model computes, which is the exact result kept to 64 bits. -/
theorem uniformIntegerInstructions : Obligations.UniformIntegerInstructions :=
  ⟨uniformInteger, uniformDivision, uniformCounts, uniformImmediate, compressedInteger⟩

/-! Conditions (R139, R140). -/

section Conditions

variable (x y : Word)

theorem wordCond_eq : wordCond .eq x y = decide (x = y) := rfl

theorem wordCond_ne : wordCond .ne x y = decide (x ≠ y) := rfl

theorem wordCond_lt : wordCond .lt x y = decide (x.toInt < y.toInt) := rfl

theorem wordCond_ge : wordCond .ge x y = decide (y.toInt ≤ x.toInt) := by
  rw [wordCond, slt_eq_decide, ← decide_not]
  simp only [not_lt]

theorem wordCond_ltu : wordCond .ltu x y = decide (x.toNat < y.toNat) := rfl

theorem wordCond_geu : wordCond .geu x y = decide (y.toNat ≤ x.toNat) := by
  rw [wordCond, ult_eq_decide, ← decide_not]
  simp only [not_lt]

end Conditions

/-- The first part of O34: pset. -/
theorem predicateSet : PredicateSet := by
  intro tk cc p a b s s1 s2 s3 x y h hp ha hb holds
  have hcond : wordCond cc x.val y.val = holds := by
    cases cc
    case eq => simp only [wordCond_eq, holds, BitVec.toNat_inj]
    case ne => simp only [wordCond_ne, holds, ne_eq, BitVec.toNat_inj]
    case lt => exact wordCond_lt ..
    case ge => exact wordCond_ge ..
    case ltu => exact wordCond_ltu ..
    case geu => exact wordCond_geu ..
  obtain ⟨hsrc, -, -, -⟩ := hp
  have hr : Runs (.pset tk cc p a b) tk 4 (psetOp cc p a b) := ⟨rfl, fun _ => rfl⟩
  refine hr.completes_done h ?_
  rw [psetOp, guardMap_ok (by simp [hsrc]), srcU_got ha, srcU_got hb, hcond, State.control]

/-! Branches and jumps (R140-R142, R183). -/

section Branches

variable {i : Instr} {tk : Tok} {n w : Nat} {imm : BitVec w} {body : State → Act} {s s1 s2 s3 u : State}

/-- The target of a branch or jump is as far from the pc as the offset says, in units of 2 bytes. -/
theorem target_eq (h : Ready i tk s s1) (imm : BitVec w) : s1.target imm = s.hart.pc + BitVec.ofInt 64 (imm.toInt * 2) := by
  rw [State.target, sext64_shiftLeft, ready_pc h, pow_one]

/-- A branch goes to its target where it is taken, and past itself where not. -/
theorem Runs.completes_branch (hr : Runs i tk n body) (h : Ready i tk s s1) {taken p : Bool}
    (hb : body s1 = branchTo taken p (s1.target imm) u) :
    (taken = true → Completes i tk s (u.note p 1) (s.hart.pc + BitVec.ofInt 64 (imm.toInt * 2))) ∧
    (taken = false → Completes i tk s (u.note p 1) (s.hart.pc + BitVec.ofNat 64 n)) := by
  constructor <;> rintro rfl
  · exact hr.completes_jump h (by rw [hb, branchTo, if_pos rfl, target_eq h, State.control])
  · exact hr.completes_done h (by rw [hb, branchTo, if_neg Bool.false_ne_true, State.control])

theorem branchOp_eq {cc : IntCC} {a b : Reg} {target : Word} {x y : UVal} (hp : Parties s [a, b] [] [] [])
    (ha : s.readU a = .got x s2) (hb : s2.readU b = .got y s3) :
    branchOp cc a b target s = branchTo (wordCond cc x.val y.val) (x.poison || y.poison) target s3 := by
  obtain ⟨hsrc, -, -, -⟩ := hp
  rw [branchOp, guardMap_ok (by simp [hsrc]), srcU_got ha, srcU_got hb]

theorem compareBranch_of {a b : Reg} {cc : IntCC} {cond : Word → Word → Prop} {_ : ∀ x y, Decidable (cond x y)}
    (hcond : ∀ x y, wordCond cc x y = decide (cond x y)) (hr : Runs i tk 4 fun s => branchOp cc a b (s.target imm) s) :
    CompareBranch i tk a b cond (BitVec.ofInt 64 (imm.toInt * 2)) after4 := by
  intro s s1 s2 s3 x y h hp ha hb
  have hbranch := hr.completes_branch h (branchOp_eq hp ha hb)
  rwa [hcond, decide_eq_true_eq, decide_eq_false_iff_not] at hbranch

theorem stateBranch_of {cond : Hart → Prop} {test : Hart → Bool} (hcond : ∀ h, test h = true ↔ cond h)
    (hr : Runs i tk 4 fun s => branchTo (test s.hart) false (s.target imm) s) :
    StateBranch i tk cond (BitVec.ofInt 64 (imm.toInt * 2)) := by
  intro s s1 h
  have hbranch := hr.completes_branch h rfl
  rwa [← Bool.not_eq_true, hcond] at hbranch

/-- A mask that is 0 has no bit. -/
theorem mask_eq_zero_iff (m : Word) : m = 0#64 ↔ ∀ k, k < 64 → m.getLsbD k = false :=
  ⟨by rintro rfl k -; exact BitVec.getLsbD_zero, fun h => BitVec.eq_of_getLsbD_eq fun k hk => by rw [h k hk, BitVec.getLsbD_zero]⟩

theorem mask_ne_zero_iff (m : Word) : m ≠ 0#64 ↔ ∃ k, k < 64 ∧ m.getLsbD k = true := by
  rw [Ne, mask_eq_zero_iff]
  push Not
  simp only [Bool.not_eq_false]

/-- A full mask has every bit. -/
theorem mask_eq_all_iff (m : Word) : m = maskAll ↔ ∀ k, k < 64 → m.getLsbD k = true :=
  ⟨by rintro rfl k hk; rw [maskAll, BitVec.getLsbD_allOnes, decide_eq_true hk],
    fun h => BitVec.eq_of_getLsbD_eq fun k hk => by rw [h k hk, maskAll, BitVec.getLsbD_allOnes, decide_eq_true hk]⟩

end Branches

/-- The second part of O34: the branches. -/
theorem conditionalBranches : ConditionalBranches := by
  refine ⟨fun tk a b imm => ⟨?_, ?_, ?_, ?_, ?_, ?_⟩, fun tk p imm => ?_, fun tk m imm => ⟨?_, ?_, ?_⟩, ?_, ?_⟩
  · exact compareBranch_of wordCond_eq ⟨rfl, fun _ => rfl⟩
  · exact compareBranch_of wordCond_ne ⟨rfl, fun _ => rfl⟩
  · exact compareBranch_of wordCond_lt ⟨rfl, fun _ => rfl⟩
  · exact compareBranch_of wordCond_ge ⟨rfl, fun _ => rfl⟩
  · exact compareBranch_of wordCond_ltu ⟨rfl, fun _ => rfl⟩
  · exact compareBranch_of wordCond_geu ⟨rfl, fun _ => rfl⟩
  · exact stateBranch_of (test := fun h => h.pval p) (fun _ => Iff.rfl) ⟨rfl, fun _ => rfl⟩
  · exact stateBranch_of (test := fun h => decide (h.mval m ≠ 0#64)) (fun h => decide_eq_true_iff.trans (mask_ne_zero_iff _))
      ⟨rfl, fun _ => rfl⟩
  · exact stateBranch_of (test := fun h => decide (h.mval m = maskAll)) (fun h => decide_eq_true_iff.trans (mask_eq_all_iff _))
      ⟨rfl, fun _ => rfl⟩
  · exact stateBranch_of (test := fun h => decide (h.mval m = 0#64)) (fun h => decide_eq_true_iff.trans (mask_eq_zero_iff _))
      ⟨rfl, fun _ => rfl⟩
  · intro tk a thr imm s s1 s2 x h ha
    have hr : Runs (.btsb tk a thr imm) tk 4 fun s => srcU s a fun x t =>
        branchTo (decide (Nat.min x.tag.toNat 24 < thr.toNat)) x.poison (s.target imm) t := ⟨rfl, fun _ => rfl⟩
    have hbranch := hr.completes_branch h (srcU_got ha)
    rwa [decide_eq_true_eq, decide_eq_false_iff_not, not_lt] at hbranch
  · intro a i s s1 s2 x hsrc ha off
    have hp : Parties s1 [a, 0#5] [] [] [] := ⟨by simp [hsrc, badSrcU_zero], nofun, nofun, nofun⟩
    refine ⟨fun h => ?_, fun h => ?_⟩
    · have hr : Runs (.cBeqz a i) bare 2 fun s => branchOp .eq a 0#5 (s.target i) s := ⟨rfl, fun _ => rfl⟩
      have hbranch := hr.completes_branch h (branchOp_eq hp ha (readU_zero s2))
      rwa [wordCond_eq, decide_eq_true_eq, decide_eq_false_iff_not, UVal.plain, Bool.or_false] at hbranch
    · have hr : Runs (.cBnez a i) bare 2 fun s => branchOp .ne a 0#5 (s.target i) s := ⟨rfl, fun _ => rfl⟩
      have hbranch := hr.completes_branch h (branchOp_eq hp ha (readU_zero s2))
      rwa [wordCond_ne, decide_eq_true_eq, decide_eq_false_iff_not, not_not, UVal.plain, Bool.or_false] at hbranch

/-- A jump through a register goes where the register pointed before the link was written (R141). -/
theorem Runs.completes_jumpLink {i : Instr} {tk : Tok} {n len : Nat} {d a : Reg} {off : Word} {s s1 s2 s3 : State} {x : UVal}
    (hr : Runs i tk n (jumpLink d a off len)) (h : Ready i tk s s1) (ha : s1.readU a = .got x s2)
    (hd : (s2.note x.poison 1).putU d ⟨s.hart.pc + BitVec.ofNat 64 len, 24#5, false⟩ = .ok s3) :
    Completes i tk s s3 ((x.val + off) &&& ~~~1#64) := by
  refine hr.completes_jump h ?_
  have hlink : dstU (s2.control x.poison) d (intResult (s2.hart.pc + BitVec.ofNat 64 len) false) = .done s3 :=
    dstU_ok (by rw [readU_pc ha, ready_pc h]; exact hd)
  rw [jumpLink, srcU_got ha, hlink, Act.andThen]

/-- The third part of O34: the jumps. -/
theorem jumps : Jumps := by
  refine ⟨fun tk imm s s1 h => ?_, fun tk imm s s1 s2 h hd => ?_, fun tk d a imm s s1 s2 s3 x h ha hd => ?_,
    fun i s s1 h => ?_, fun a s s1 s2 s3 x h ha hd => ?_, fun a s s1 s2 s3 x h ha hd => ?_⟩
  · have hr : Runs (.j tk imm) tk 4 fun s => .jump s (s.target imm) := ⟨rfl, fun _ => rfl⟩
    exact hr.completes_jump h (by rw [target_eq h])
  · have hr : Runs (.jal tk imm) tk 4 fun s =>
        (dstU s 1#5 (intResult (s.hart.pc + 4#64) false)).andThen fun t => .jump t (s.target imm) := ⟨rfl, fun _ => rfl⟩
    refine hr.completes_jump h ?_
    rw [ready_pc h, intResult, dstU_ok hd, Act.andThen, target_eq h]
  · have hr : Runs (.jalr tk d a imm) tk 4 (jumpLink d a (sext64 imm) 4) := ⟨rfl, fun _ => rfl⟩
    exact hr.completes_jumpLink h ha hd
  · have hr : Runs (.cJ i) bare 2 fun s => .jump s (s.target i) := ⟨rfl, fun _ => rfl⟩
    exact hr.completes_jump h (by rw [target_eq h])
  · have hr : Runs (.cJr a) bare 2 (jumpLink 0#5 a 0#64 2) := ⟨rfl, fun _ => rfl⟩
    simpa only [BitVec.add_zero] using hr.completes_jumpLink h ha hd
  · have hr : Runs (.cJalr a) bare 2 (jumpLink 1#5 a 0#64 2) := ⟨rfl, fun _ => rfl⟩
    simpa only [BitVec.add_zero] using hr.completes_jumpLink h ha hd

/-- Settles O34: pset by the conditions as comparisons of integers, the branches by whether they are taken, the jumps by the pc that
reading a source leaves. -/
theorem branchesAndJumps : Obligations.BranchesAndJumps := ⟨predicateSet, conditionalBranches, jumps⟩

/-! Elements of lanes (R84, R146). -/

section Elements

variable {w a b : Nat}

theorem elemU_lt (x : Word32) (w j : Nat) : elemU x w j < 2 ^ w := Nat.mod_lt _ (by positivity)

/-- A pattern is its signed reading, kept to its width. -/
theorem wrapTo_signedOf (ha : a < 2 ^ w) : wrapTo w (signedOf w a) = a := by
  have hnat : ((a : Int) % (2 ^ w : Nat)).toNat = a := by rw [← Int.natCast_mod, Int.toNat_natCast, Nat.mod_eq_of_lt ha]
  unfold wrapTo signedOf
  split
  · exact hnat
  · rwa [Int.sub_emod_right]

/-- A signed reading and its pattern agree modulo the width. -/
theorem signedOf_emod (w a : Nat) : signedOf w a % (2 ^ w : Nat) = (a : Int) % (2 ^ w : Nat) := by
  unfold signedOf
  split
  · rfl
  · rw [Int.sub_emod_right]

/-- A shift amount: an element modulo its width (R146). -/
def shiftOf (e : IntW) (b : Int) : Nat := (b % (e.bits : Nat)).toNat

/-- The width divides the number of patterns, so a shift amount is the same whether the element is read signed or unsigned. -/
theorem shiftOf_signedOf (e : IntW) (b : Nat) : shiftOf e (signedOf e.bits b) = b % e.bits := by
  have hdvd : e.bits ∣ 2 ^ e.bits := by cases e <;> decide
  have hcast : ((e.bits : Nat) : Int) ∣ ((2 ^ e.bits : Nat) : Int) := Int.natCast_dvd_natCast.mpr hdvd
  rw [shiftOf, ← Int.emod_emod_of_dvd _ hcast, signedOf_emod, Int.emod_emod_of_dvd _ hcast, ← Int.natCast_mod, Int.toNat_natCast]

theorem viElem_min (ha : a < 2 ^ w) (hb : b < 2 ^ w) : viElem .min w a b = wrapTo w (min (signedOf w a) (signedOf w b)) := by
  simp only [viElem, min_def]
  split
  · exact (wrapTo_signedOf ha).symm
  · exact (wrapTo_signedOf hb).symm

theorem viElem_max (ha : a < 2 ^ w) (hb : b < 2 ^ w) : viElem .max w a b = wrapTo w (max (signedOf w a) (signedOf w b)) := by
  simp only [viElem, max_def]
  split
  · exact (wrapTo_signedOf hb).symm
  · exact (wrapTo_signedOf ha).symm

theorem viElem_sll (e : IntW) (a b : Nat) : viElem .sll e.bits a b =
    wrapTo e.bits (signedOf e.bits a * (2 ^ shiftOf e (signedOf e.bits b) : Nat)) := by
  rw [shiftOf_signedOf, wrapTo, Int.mul_emod, signedOf_emod, ← Int.mul_emod]
  simp only [viElem, Nat.shiftLeft_eq]
  norm_cast

theorem viElem_srl (e : IntW) (ha : a < 2 ^ e.bits) (b : Nat) : viElem .srl e.bits a b =
    wrapTo e.bits (signedOf e.bits a % (2 ^ e.bits : Nat) / (2 ^ shiftOf e (signedOf e.bits b) : Nat)) := by
  rw [shiftOf_signedOf, wrapTo, signedOf_emod, ← Int.natCast_mod, Nat.mod_eq_of_lt ha]
  simp only [viElem, Nat.shiftRight_eq_div_pow]
  norm_cast
  rw [Nat.mod_eq_of_lt ((Nat.div_le_self ..).trans_lt ha)]

theorem viElem_sra (e : IntW) (a b : Nat) : viElem .sra e.bits a b =
    wrapTo e.bits (signedOf e.bits a / (2 ^ shiftOf e (signedOf e.bits b) : Nat)) := by
  rw [shiftOf_signedOf]
  rfl

/-- Bits of packed elements: bit i is bit i mod w of element i / w. -/
theorem getLsbD_packElems (hw : 0 < w) (es : List Nat) (i : Nat) :
    (packElems w es).getLsbD i = (decide (i < 32) && (es.getD (i / w) 0).testBit (i % w)) := by
  rw [packElems, BitVec.getLsbD_ofNat]
  congr 1
  induction es generalizing i with
  | nil => simp
  | cons e es ih =>
    rw [List.foldr_cons, Nat.add_comm, Nat.testBit_two_pow_mul_add _ (Nat.mod_lt _ (by positivity))]
    split
    · next h => simp [Nat.div_eq_of_lt h, Nat.mod_eq_of_lt h, h]
    · next h =>
      have hi : i = i - w + w := by omega
      rw [ih, hi, Nat.add_div_right _ hw, Nat.add_mod_right, List.getD_cons_succ, Nat.add_sub_cancel]

/-- A bit of an element is a bit of its lane. -/
theorem testBit_elemU (x : Word32) (j : Nat) {k : Nat} (hk : k < w) : (elemU x w j).testBit k = x.getLsbD (w * j + k) := by
  simp [elemU, hk, BitVec.getLsbD]

/-- An operation that acts bit by bit does so on the whole lane (R146). -/
theorem getLsbD_viLane {op : VIOp} {g : Bool → Bool → Bool} (e : IntW) (x y : Word32)
    (hop : ∀ a b k, (viElem op e.bits a b).testBit k = g (a.testBit k) (b.testBit k)) {i : Nat} (hi : i < 32) :
    (viLane op e.bits x y).getLsbD i = g (x.getLsbD i) (y.getLsbD i) := by
  have hw : 0 < e.bits := by cases e <;> decide
  have hdvd : e.bits * (32 / e.bits) = 32 := by cases e <;> decide
  have hj : i / e.bits < 32 / e.bits := Nat.div_lt_of_lt_mul (by omega)
  have hk : i % e.bits < e.bits := Nat.mod_lt _ hw
  rw [viLane, getLsbD_packElems hw, decide_eq_true hi, Bool.true_and, List.getD_eq_getElem _ _ (by simpa using hj),
    List.getElem_map, List.getElem_range, hop, testBit_elemU x _ hk, testBit_elemU y _ hk, Nat.div_add_mod]

theorem viLane_and (e : IntW) (x y : Word32) : viLane .and e.bits x y = x &&& y :=
  BitVec.eq_of_getLsbD_eq fun i hi => by
    rw [getLsbD_viLane (op := .and) (g := and) e x y (fun a b k => Nat.testBit_and a b k) hi, BitVec.getLsbD_and]

theorem viLane_or (e : IntW) (x y : Word32) : viLane .or e.bits x y = x ||| y :=
  BitVec.eq_of_getLsbD_eq fun i hi => by
    rw [getLsbD_viLane (op := .or) (g := or) e x y (fun a b k => Nat.testBit_or a b k) hi, BitVec.getLsbD_or]

theorem viLane_xor (e : IntW) (x y : Word32) : viLane .xor e.bits x y = x ^^^ y :=
  BitVec.eq_of_getLsbD_eq fun i hi => by
    rw [getLsbD_viLane (op := .xor) (g := xor) e x y (fun a b k => Nat.testBit_xor a b k) hi, BitVec.getLsbD_xor]

end Elements

/-! The element-wise vector instructions (R146). -/

/-- Each active lane from the lanes of two sources, with the integer tag field (R117). -/
def mapLanes (e : IntW) (f : Word32 → Word32 → Word32) (m : Word) (x y old : VVal) (keep : Bool) : VVal :=
  updateLanes old keep (fun k => if m.getLsbD k then
    some ⟨f (x.lane k).bits (y.lane k).bits, if e = .i16 then 0xBB#8 else 0x18#8, x.poisonOf k || y.poisonOf k⟩ else none)

/-- A lane whose elements are an exact result on signed integers, kept to the width. -/
def exactLane (e : IntW) (f : Int → Int → Int) (x y : Word32) : Word32 :=
  packElems e.bits ((List.range (32 / e.bits)).map (fun j => wrapTo e.bits (f (elemS x e.bits j) (elemS y e.bits j))))

theorem intTagField_eq (e : IntW) : intTagField e = if e = .i16 then 0xBB#8 else 0x18#8 := by cases e <;> rfl

theorem viLane_eq_exactLane {op : VIOp} {e : IntW} {f : Int → Int → Int}
    (hop : ∀ a b, a < 2 ^ e.bits → b < 2 ^ e.bits → viElem op e.bits a b = wrapTo e.bits (f (signedOf e.bits a) (signedOf e.bits b)))
    (x y : Word32) : viLane op e.bits x y = exactLane e f x y := by
  simp only [viLane, exactLane, elemS, hop _ _ (elemU_lt ..) (elemU_lt ..)]

theorem vectorBinary_of {mk : Tok → MReg → Reg → Reg → Reg → Instr} {op : VIOp} {e : IntW} {f : Word32 → Word32 → Word32}
    (hop : ∀ x y, viLane op e.bits x y = f x y) (hr : ∀ tk k d a b, Runs (mk tk k d a b) tk 4 (vecInt op e k d a b)) :
    VectorBinary mk (mapLanes e f) := by
  obtain rfl : viLane op e.bits = f := funext₂ hop
  intro tk k d a b s s1 s2 s3 s4 x y h hp ha hb hd
  refine (hr tk k d a b).completes_done h (vector2_done hp ha hb ?_)
  unfold viMap
  rwa [intTagField_eq]

theorem vectorBinary_exact {mk : Tok → MReg → Reg → Reg → Reg → Instr} {op : VIOp} {e : IntW} {f : Int → Int → Int}
    (hop : ∀ a b, a < 2 ^ e.bits → b < 2 ^ e.bits → viElem op e.bits a b = wrapTo e.bits (f (signedOf e.bits a) (signedOf e.bits b)))
    (hr : ∀ tk k d a b, Runs (mk tk k d a b) tk 4 (vecInt op e k d a b)) : VectorBinary mk (mapLanes e (exactLane e f)) :=
  vectorBinary_of (viLane_eq_exactLane hop) hr

/-- The first part of O36: the operations on integers. -/
theorem vectorInteger : VectorInteger := by
  intro e
  refine ⟨?_, ?_, ?_, ?_, ?_, ?_, ?_, ?_, ?_⟩
  · exact vectorBinary_exact (f := fun a b => a + b) (fun _ _ _ _ => rfl) fun _ _ _ _ _ => ⟨rfl, fun _ => rfl⟩
  · exact vectorBinary_exact (f := fun a b => a - b) (fun _ _ _ _ => rfl) fun _ _ _ _ _ => ⟨rfl, fun _ => rfl⟩
  · exact vectorBinary_exact (f := fun a b => a * b) (fun _ _ _ _ => rfl) fun _ _ _ _ _ => ⟨rfl, fun _ => rfl⟩
  · exact vectorBinary_exact (f := fun a b => a * b / (2 ^ e.bits : Nat)) (fun _ _ _ _ => rfl) fun _ _ _ _ _ => ⟨rfl, fun _ => rfl⟩
  · exact vectorBinary_exact (f := fun a b => min a b) (fun _ _ ha hb => viElem_min ha hb) fun _ _ _ _ _ => ⟨rfl, fun _ => rfl⟩
  · exact vectorBinary_exact (f := fun a b => max a b) (fun _ _ ha hb => viElem_max ha hb) fun _ _ _ _ _ => ⟨rfl, fun _ => rfl⟩
  · exact vectorBinary_exact (f := fun a b => a * (2 ^ shiftOf e b : Nat))
      (fun a b _ _ => viElem_sll e a b) fun _ _ _ _ _ => ⟨rfl, fun _ => rfl⟩
  · exact vectorBinary_exact (f := fun a b => a % (2 ^ e.bits : Nat) / (2 ^ shiftOf e b : Nat))
      (fun _ b ha _ => viElem_srl e ha b) fun _ _ _ _ _ => ⟨rfl, fun _ => rfl⟩
  · exact vectorBinary_exact (f := fun a b => a / (2 ^ shiftOf e b : Nat))
      (fun a b _ _ => viElem_sra e a b) fun _ _ _ _ _ => ⟨rfl, fun _ => rfl⟩

/-- The second part of O36: the bitwise operations. -/
theorem vectorBitwise : VectorBitwise := by
  intro e
  refine ⟨?_, ?_, ?_⟩
  · exact vectorBinary_of (viLane_and e) fun _ _ _ _ _ => ⟨rfl, fun _ => rfl⟩
  · exact vectorBinary_of (viLane_or e) fun _ _ _ _ _ => ⟨rfl, fun _ => rfl⟩
  · exact vectorBinary_of (viLane_xor e) fun _ _ _ _ _ => ⟨rfl, fun _ => rfl⟩

/-- Settles O36: an element of the model is the exact result on signed integers kept to its width, and bits of packed elements are bits
of the lane. -/
theorem vectorIntegerInstructions : Obligations.VectorIntegerInstructions := ⟨vectorInteger, vectorBitwise⟩

end Sys2Proof.Integer

/-! SUPPORT. Selection, permutation and the moves between the register files (R148, R151, R153-R156, R177, R178): what each instruction
gives to a lane, and what the lowest active lane says of a mask. -/

namespace Sys2Proof.Moves

open Sys2Proof Sys2Proof.Machine Sys2Proof.Spec Sys2Proof.Integer

/-! How a body with vector operands completes. -/

section Completion

variable {d a b c : Reg} {s s2 s3 s4 s5 : State}

theorem vectorBinary_vector2 {mk : Tok → MReg → Reg → Reg → Reg → Instr} {f g : Word → VVal → VVal → VVal → Bool → VVal}
    (hg : ∀ m x y old keep, g m x y old keep = f m x y old keep)
    (hr : ∀ tk k d a b, Runs (mk tk k d a b) tk 4 fun s => vector2 s d a b (g (s.hart.mval k))) : VectorBinary mk f := by
  obtain rfl : g = f := by funext m x y old keep; exact hg m x y old keep
  intro tk k d a b s s1 s2 s3 s4 x y h hp ha hb hd
  exact (hr tk k d a b).completes_done h (vector2_done hp ha hb hd)

theorem slideOp_done {up : Bool} {k : MReg} {x : VVal} {y : UVal} (hp : Parties s [b] [] [a] [d]) (ha : s.readV a = .got x s2)
    (hb : s2.readU b = .got y s3) (hd : s3.putV d (vslide up (s3.hart.mval k) x y.val.toNat y.poison) = .ok s4) :
    slideOp up k d a b s = .done s4 := by
  obtain ⟨husrc, -, hvsrc, hvdst⟩ := hp
  rw [slideOp, guardMap_ok (by simp [husrc, hvsrc, hvdst]), srcV_got ha, srcU_got hb, dstV_ok hd]

/-- The body of vclip. -/
def vclipBody (e : IntW) (k : MReg) (d a b c : Reg) (s : State) : Act :=
  guardMap [(s.badSrcV a, a), (s.badSrcV b, b), (s.badSrcV c, c), (s.badDstV d, d)]
    (srcV s a fun x s => srcV s b fun y s => srcV s c fun z s => dstV s d (viClip e (s.hart.mval k) x y z))

theorem vclipBody_done {e : IntW} {k : MReg} {x y z : VVal} (hp : Parties s [] [] [a, b, c] [d]) (ha : s.readV a = .got x s2)
    (hb : s2.readV b = .got y s3) (hc : s3.readV c = .got z s4) (hd : s4.putV d (viClip e (s4.hart.mval k) x y z) = .ok s5) :
    vclipBody e k d a b c s = .done s5 := by
  obtain ⟨-, -, hsrc, hdst⟩ := hp
  rw [vclipBody, guardMap_ok (by simp [hsrc, hdst]), srcV_got ha, srcV_got hb, srcV_got hc, dstV_ok hd]

/-- The body of vtox. -/
def vtoxBody (k : MReg) (d a : Reg) (s : State) : Act :=
  guardMap [(s.badSrcV a, a), (s.badDstU d, d)]
    (srcV s a fun x s => dstU (s.status (vlowest (s.hart.mval k) x).2) d (vlowest (s.hart.mval k) x).1)

theorem vtoxBody_done {k : MReg} {x : VVal} (hp : Parties s [] [d] [a] []) (ha : s.readV a = .got x s2)
    (hd : (s2.status (vlowest (s2.hart.mval k) x).2).putU d (vlowest (s2.hart.mval k) x).1 = .ok s3) :
    vtoxBody k d a s = .done s3 := by
  obtain ⟨-, hdst, hsrc, -⟩ := hp
  rw [vtoxBody, guardMap_ok (by simp [hsrc, hdst]), srcV_got ha, dstU_ok hd]

/-- vtoxa without a trap. -/
theorem uniformLanes_done {k : MReg} {x : VVal} (hp : Parties s [] [d] [a] []) (ha : s.readV a = .got x s2)
    (hquiet : differing (s.hart.mval k) x = 0#64 ∨ s2.hart.nut = false)
    (hd : ((s2.control (anyPoison (s.hart.mval k) x)).status (vuniform (s.hart.mval k) x).2).putU d (vuniform (s.hart.mval k) x).1
      = .ok s3) : uniformLanes k d a s = .done s3 := by
  obtain ⟨-, hdst, hsrc, -⟩ := hp
  have hno : (decide (differing (s.hart.mval k) x ≠ 0#64) && s2.hart.nut) = false := by
    rcases hquiet with h | h <;> simp [h]
  simp only [uniformLanes]
  rw [guardMap_ok (by simp [hsrc, hdst]), srcV_got ha, hno, if_neg Bool.false_ne_true, dstU_ok hd]

/-- vtoxa with lanes that differ where HSTAT.NUT is 1. -/
theorem uniformLanes_trap {k : MReg} {x : VVal} (hp : Parties s [] [d] [a] []) (ha : s.readV a = .got x s2)
    (hdiff : differing (s.hart.mval k) x ≠ 0#64) (hnut : s2.hart.nut = true) :
    uniformLanes k d a s = .trap 0x0E (differing (s.hart.mval k) x) := by
  obtain ⟨-, hdst, hsrc, -⟩ := hp
  simp only [uniformLanes]
  rw [guardMap_ok (by simp [hsrc, hdst]), srcV_got ha, hnut, decide_eq_true hdiff, Bool.and_self, if_pos rfl]

end Completion

/-! Lanes of selection and permutation (R148, R151, R177, R178). -/

/-- Where every lane is written, no old contents are left (R126). -/
theorem updateLanes_some (old : VVal) (keep : Bool) (f : Nat → LaneOut) : updateLanes old keep (fun i => some (f i)) =
    VVal.ofFn (fun i => ⟨(f i).bits, (f i).tag⟩) (fun j => (f (2 * j)).poison || (f (2 * j + 1)).poison) := rfl

/-- Every lane of vsel comes from one of its sources, with its tag field (R148). -/
theorem vselect_eq (m : Word) (x y : VVal) : vselect m x y =
    VVal.ofFn (fun i => if m.getLsbD i then x.lane i else y.lane i)
      (fun j => (if m.getLsbD (2 * j) then x.poisonOf (2 * j) else y.poisonOf (2 * j)) ||
        (if m.getLsbD (2 * j + 1) then x.poisonOf (2 * j + 1) else y.poisonOf (2 * j + 1))) := by
  simp only [vselect, ← apply_ite some, updateLanes_some]
  refine congrArg₂ VVal.ofFn (funext fun i => ?_) (funext fun j => ?_)
  · cases m.getLsbD i <;> rfl
  · cases m.getLsbD (2 * j) <;> cases m.getLsbD (2 * j + 1) <;> rfl

section Clip

variable {w a b c : Nat}

theorem signedOf_clipElem (w a b c : Nat) :
    signedOf w (clipElem w a b c) = min (max (signedOf w a) (signedOf w b)) (signedOf w c) := by
  simp only [clipElem, apply_ite (signedOf w), ← max_def_lt, ← min_def_lt, min_comm]

theorem clipElem_lt (ha : a < 2 ^ w) (hb : b < 2 ^ w) (hc : c < 2 ^ w) : clipElem w a b c < 2 ^ w := by
  simp only [clipElem]
  split_ifs <;> assumption

/-- An element of vclip is the clipped integer, kept to its width (R151). -/
theorem clipElem_eq (ha : a < 2 ^ w) (hb : b < 2 ^ w) (hc : c < 2 ^ w) :
    clipElem w a b c = wrapTo w (min (max (signedOf w a) (signedOf w b)) (signedOf w c)) := by
  rw [← signedOf_clipElem, wrapTo_signedOf (clipElem_lt ha hb hc)]

theorem viClip_eq (e : IntW) (m : Word) (x y z : VVal) : viClip e m x y z = fun old keep =>
    updateLanes old keep (fun i => if m.getLsbD i then
      some ⟨packElems e.bits ((List.range (32 / e.bits)).map (fun j => wrapTo e.bits
          (min (max (elemS (x.lane i).bits e.bits j) (elemS (y.lane i).bits e.bits j)) (elemS (z.lane i).bits e.bits j)))),
        intTagField e, x.poisonOf i || y.poisonOf i || z.poisonOf i⟩ else none) := by
  funext old keep
  simp only [viClip, clipElem_eq (elemU_lt ..) (elemU_lt ..) (elemU_lt ..), elemS]

end Clip

/-- The lanes of a slide: lane i takes the lane that src gives it, and is 0 with tag field 0x18 where there is none (R178). -/
def slideLanes (src : Nat → Option Nat) (m : Word) (x : VVal) (p : Bool) (old : VVal) (keep : Bool) : VVal :=
  updateLanes old keep (fun i => if m.getLsbD i then
    match src i with
    | some l => some ⟨(x.lane l).bits, (x.lane l).tag, x.poisonOf l || p⟩
    | none => some ⟨0#32, 0x18#8, p⟩
  else none)

theorem vslide_up_eq (m : Word) (x : VVal) (n : Nat) (p : Bool) :
    vslide true m x n p = slideLanes (fun i => if n ≤ i then some (i - n) else none) m x p := by
  funext old keep
  refine congrArg (updateLanes old keep) (funext fun i => ?_)
  by_cases h : n ≤ i <;> simp [h]

theorem vslide_down_eq (m : Word) (x : VVal) (n : Nat) (p : Bool) :
    vslide false m x n p = slideLanes (fun i => if i + n ≤ 63 then some (i + n) else none) m x p := by
  funext old keep
  refine congrArg (updateLanes old keep) (funext fun i => ?_)
  by_cases h : i + n ≤ 63 <;> simp [h]

/-- The first part of O38: selection and permutation. -/
theorem vectorSelectAndMove : VectorSelectAndMove := by
  refine ⟨fun e => ?vsel, ?vclip, ?vperm, ?vslide⟩
  case vsel =>
    exact vectorBinary_vector2 (g := fun m x y _ _ => vselect m x y) (fun m x y _ _ => vselect_eq m x y) fun _ _ _ _ _ =>
      ⟨rfl, fun _ => rfl⟩
  case vclip =>
    intro tk e k d a b c s s1 s2 s3 s4 s5 x y z h hp ha hb hc w hd
    have hr : Runs (.vclip tk e k d a b c) tk 4 (vclipBody (if e = 0#1 then .i32 else .i16) k d a b c) := ⟨rfl, fun _ => rfl⟩
    refine hr.completes_done h (vclipBody_done hp ha hb hc ?_)
    rw [viClip_eq]
    rcases BitVec.eq_zero_or_eq_one e with rfl | rfl <;> exact hd
  case vperm => exact vectorBinary_vector2 (g := vpermute) (fun _ _ _ _ _ => rfl) fun _ _ _ _ _ => ⟨rfl, fun _ => rfl⟩
  case vslide =>
    intro tk k d a b s s1 s2 s3 s4 x y ha hb hp slide
    refine ⟨fun h hd => ?_, fun h hd => ?_⟩
    · have hr : Runs (.vslideUp tk k d a b) tk 4 (slideOp true k d a b) := ⟨rfl, fun _ => rfl⟩
      exact hr.completes_done h (slideOp_done hp ha hb (by rw [vslide_up_eq]; exact hd))
    · have hr : Runs (.vslideDn tk k d a b) tk 4 (slideOp false k d a b) := ⟨rfl, fun _ => rfl⟩
      exact hr.completes_done h (slideOp_done hp ha hb (by rw [vslide_down_eq]; exact hd))

/-! The active lanes of a mask (R118). -/

theorem getLsbD_maskOf (f : Nat → Bool) {i : Nat} (hi : i < 64) : (maskOf f).getLsbD i = f i := by
  rw [maskOf, BitVec.getLsbD_ofFnLE, dif_pos hi]

theorem mem_activeLanes {m : Word} {i : Nat} : i ∈ activeLanes m ↔ i < 64 ∧ m.getLsbD i = true := by
  simp [activeLanes]

theorem activeLanes_zero : activeLanes 0#64 = [] := by
  simp [activeLanes]

/-- Lane l is the lowest active lane of a mask. -/
def LowestActive (m : Word) (l : Nat) : Prop := l < 64 ∧ m.getLsbD l = true ∧ ∀ i, i < l → m.getLsbD i = false

theorem LowestActive.activeLanes_eq {m : Word} {l : Nat} (h : LowestActive m l) : ∃ ls, activeLanes m = l :: ls := by
  obtain ⟨hl, hm, hlow⟩ := h
  apply List.head?_eq_some_iff.mp
  rw [activeLanes, List.head?_filter, List.find?_range_eq_some]
  simpa [hl, hm] using hlow

section Lowest

variable {m : Word} {l : Nat} {x : VVal}

theorem vlowest_zero (x : VVal) : vlowest 0#64 x = (UVal.plain 0#64, true) := by
  rw [vlowest, activeLanes_zero]

theorem LowestActive.vlowest_eq (h : LowestActive m l) (x : VVal) :
    vlowest m x = (⟨(x.lane l).bits.signExtend 64, (x.lane l).tag.setWidth 5, x.poisonOf l⟩, false) := by
  obtain ⟨ls, hls⟩ := h.activeLanes_eq
  rw [vlowest, hls]
  rfl

/-! Lanes that differ from the lowest active lane (R155). -/

/-- An active lane does not hold what lane l holds. -/
def Differs (m : Word) (x : VVal) (l i : Nat) : Prop := m.getLsbD i = true ∧ (x.lane i).bits ≠ (x.lane l).bits

theorem LowestActive.getLsbD_differing (h : LowestActive m l) (x : VVal) {i : Nat} (hi : i < 64) :
    (differing m x).getLsbD i = true ↔ Differs m x l i := by
  obtain ⟨ls, hls⟩ := h.activeLanes_eq
  rw [differing, hls]
  simp only [getLsbD_maskOf _ hi, Bool.and_eq_true, decide_eq_true_eq, Differs]

theorem LowestActive.differing_ne_zero_iff (h : LowestActive m l) (x : VVal) :
    differing m x ≠ 0#64 ↔ ∃ i, i < 64 ∧ Differs m x l i := by
  rw [mask_ne_zero_iff]
  exact exists_congr fun i => and_congr_right fun hi => h.getLsbD_differing x hi

theorem differing_zero (x : VVal) : differing 0#64 x = 0#64 := by
  rw [differing, activeLanes_zero]

theorem vuniform_zero (x : VVal) : vuniform 0#64 x = (UVal.plain 0#64, true) := by
  rw [vuniform, activeLanes_zero]

/-- Where the active lanes differ, vtoxa reads the lowest of them. -/
theorem LowestActive.vuniform_of_differing (h : LowestActive m l) (hne : differing m x ≠ 0#64) :
    vuniform m x = (⟨(x.lane l).bits.signExtend 64, (x.lane l).tag.setWidth 5, x.poisonOf l⟩, true) := by
  obtain ⟨ls, hls⟩ := h.activeLanes_eq
  simp only [vuniform, hls, if_neg hne]
  rfl

/-- A running minimum from the head of a list is its least element. -/
theorem foldl_min_eq {g : Nat → Nat} {ls : List Nat} {t : Nat} (hex : ∃ i ∈ l :: ls, g i = t) (hle : ∀ i ∈ l :: ls, t ≤ g i) :
    ls.foldl (fun t i => min t (g i)) (g l) = t := by
  have hmin : ((l :: ls).map g).min? = some t :=
    List.min?_eq_some_iff.mpr ⟨List.mem_map.mpr hex, List.forall_mem_map.mpr hle⟩
  rwa [List.map_cons, List.min?_cons', Option.some_inj, List.foldl_map] at hmin

/-- Where the active lanes are equal, vtoxa reads their value with the least of their tags. -/
theorem LowestActive.vuniform_of_equal (h : LowestActive m l) (heq : differing m x = 0#64) {t : Nat}
    (hex : ∃ i ∈ activeLanes m, (x.lane i).tag.toNat % 32 = t) (hle : ∀ i ∈ activeLanes m, t ≤ (x.lane i).tag.toNat % 32) :
    vuniform m x = (⟨(x.lane l).bits.signExtend 64, BitVec.ofNat 5 t, anyPoison m x⟩, false) := by
  obtain ⟨ls, hls⟩ := h.activeLanes_eq
  rw [hls] at hex hle
  simp only [vuniform, hls, if_pos heq, foldl_min_eq hex hle]
  rfl

end Lowest

/-! The moves between the register files (R153-R156). -/

/-- The second part of O38: single moves. -/
theorem fileMoves : FileMoves := by
  refine ⟨?xtov, ?vtox, ?mtox, ?xtom⟩
  case xtov =>
    intro tk k d a s s1 s2 s3 x h hp ha hd
    obtain ⟨hsrc, -, -, hdst⟩ := hp
    have hr : Runs (.xtov tk k d a) tk 4 fun s => guardMap [(s.badSrcU a, a), (s.badDstV d, d)]
        (srcU s a fun x s => dstV s d (vbroadcast (s.hart.mval k) x)) := ⟨rfl, fun _ => rfl⟩
    exact hr.completes_done h (by rw [guardMap_ok (by simp [hsrc, hdst]), srcU_got ha]; exact dstV_ok hd)
  case vtox =>
    intro tk k d a s s1 s2 x h hp ha m
    have hr : Runs (.vtox tk k d a) tk 4 (vtoxBody k d a) := ⟨rfl, fun _ => rfl⟩
    refine ⟨fun hm s3 hd => ?_, fun l hl hml hlow s3 hd => ?_⟩
    · refine hr.completes_done h (vtoxBody_done hp ha ?_)
      have hzero : s2.hart.mval k = 0#64 := hm
      rwa [hzero, vlowest_zero]
    · have hlowest : LowestActive (s2.hart.mval k) l := ⟨hl, hml, hlow⟩
      refine hr.completes_done h (vtoxBody_done hp ha ?_)
      rwa [hlowest.vlowest_eq]
  case mtox =>
    intro tk d a s s1 s2 h hp hd
    have hr : Runs (.mtox tk d a) tk 4 (maskToX d a fun m => m) := ⟨rfl, fun _ => rfl⟩
    exact hr.completes_done h (intConst_done hp hd)
  case xtom =>
    intro tk d a s s1 s2 x h hp ha
    obtain ⟨hsrc, -, -, -⟩ := hp
    have hr : Runs (.xtom tk d a) tk 4 fun s => guardMap [(s.badSrcU a, a)] (srcU s a fun x s => maskDone s d x.val x.poison) :=
      ⟨rfl, fun _ => rfl⟩
    exact hr.completes_done h (by rw [guardMap_ok (by simp [hsrc]), srcU_got ha, maskDone, State.control])

/-- The third part of O38: vtoxa. -/
theorem vtoxa_uniformLanes : UniformLanes := by
  intro tk k d a s s1 s2 x h hp ha m out
  have hr : Runs (.vtoxa tk k d a) tk 4 (uniformLanes k d a) := ⟨rfl, fun _ => rfl⟩
  -- What vtoxa reads where it does not trap.
  have hout {p3 : Bool} {v : UVal} (hval : vuniform m x = (v, p3)) (hquiet : differing m x = 0#64 ∨ s2.hart.nut = false) :
      out p3 v := fun s3 hd => hr.completes_done h (uniformLanes_done hp ha hquiet (by rw [hval]; exact hd))
  refine ⟨fun hm => ?_, fun l hl hml hlow => ?_⟩
  · exact hout (by rw [hm, vuniform_zero]; rfl) (.inl (by rw [hm, differing_zero]))
  have hlowest : LowestActive m l := ⟨hl, hml, hlow⟩
  have hdiff := hlowest.differing_ne_zero_iff x
  refine ⟨fun hsame t ⟨i, hi, hmi, ht⟩ hle => ?_, fun hdiffer => ⟨fun hnut => ?_, fun hnut => ?_⟩⟩
  · have hequal : differing m x = 0#64 := not_not.mp fun hne => have ⟨i, hi, hd⟩ := hdiff.mp hne; hsame i hi hd
    exact hout (hlowest.vuniform_of_equal hequal ⟨i, mem_activeLanes.mpr ⟨hi, hmi⟩, ht⟩
      fun i hi => (mem_activeLanes.mp hi).elim (hle i)) (.inl hequal)
  · exact ⟨differing m x, fun i hi => hlowest.getLsbD_differing x hi,
      runHart_trap h (uniformLanes_trap hp ha (hdiff.mpr hdiffer) hnut)⟩
  · exact hout (hlowest.vuniform_of_differing (hdiff.mpr hdiffer)) (.inr hnut)

/-- Settles O38: each lane of a selection, permutation or move as the model's function gives it, a clipped element as an integer kept to
its width, and vtox and vtoxa by the lowest active lane of the mask. -/
theorem vectorMoves : Obligations.VectorMoves := ⟨vectorSelectAndMove, fileMoves, vtoxa_uniformLanes⟩

end Sys2Proof.Moves

section
/-! SUPPORT. Encoding and decoding (R42, R44, R66, R72) are inverse to each other: the law of every constructor, put together. -/

namespace Sys2Proof.Codec

open Sys2Proof Sys2Proof.Laws

section Constructors

open Encoding

/-- Of every instruction the decoder's first candidate is the instruction itself. -/
theorem candidate_of_encoding (i : Instr) : Statement i :=
  Instr.rec (motive := Statement)
    add sub and or xor sll srl sra slt sltu min max minu maxu mul mulh mulhu div divu rem remu clz ctz popc lea pset addi andi
    ori xori slti slli srli srai lih addpc jalr j jal beq bne blt bge bltu bgeu bp bany ball bnone btsb fadd fsub fmul fdiv
    fsqrt fmin fmax feq flt fle fclass fcvt fma fnma vadd vsub vmul vmulh vmin vmax vand vor vxor vsll vsrl vsra vcmp vsel
    vredAdd vredMin vredMax vscanAdd vdot4 vcvtI vfadd vfsub vfmul vfdiv vfmin vfmax vfsqrt vfcmp vcvt vredFadd vredFmin
    vredFmax vscanFadd vexp2 vlog2 vrcp vrsq vsin vcos vtsb vtsblt vsettsb vperm vslideUp vslideDn vexch xtov vtox vtoxa mtox
    xtom mand mor mxor mnot mpop mfirst vportr vportw vfma vfnma vclip ldB ldBu ldH ldHu ldW ldWu ldD stB stH stW stD vld vst
    ldAcq stRel ldt stt vldx vstx amoadd amoand amoor amoxor amomin amomax amoswap amocas csrr csrw csrs csrc fence sdrain
    chkerr chkerrClr ecall ebreak tret qtest qtok recfg shadow join leave gbar gkill tspawn texit evset evclr wfe send waitc tld
    tldH tldHk tst tzero mma mmaNc mmag mmagNc acz tcsum tcchk tbound acnv alloc sealTile tpdrop strm spbset swait spillq kerf
    cMv cAdd cSub cAnd cOr cXor cAddi cLi cSlli cSrli cSrai cAndi cLdd cStd cLdw cStw cJ cBeqz cBnez cJr cJalr cNop cTexit
    cEbreak cSlt cSltu cMul route routec steer merge emit waittok loop bnz jmp halt illegal fetchPage sfdrop sfrpl streamAbort
    streamResume tshpWrite switchFlitPass seamRetryFailure loadDataReturn storeTranslationDone streamElement streamComplete
    ringEos allocServe readAdmission compressTile expandTile convert tldDelivery nodePass nodeRow read write atomic readReply
    writeAcknowledgement taskRecord activeMessage inboxAcknowledgement poolRequest poolReply walkRequest walkReply interrupt
    purge purgeAcknowledgement copy copy2d fill tcopy reduce bcast dispatch ageing waveOpen kiCut releaseCommitTimeout kerfPart
    waveComplete rollbackDrainTimeout rollbackRestore cfgParity configLoadComplete shadowFetchDone cellSwap drainComplete
    preemptTimeout stallWatchdog hang replyTimeout inboxWrite openRegion map unmap loadcfg spawn signal preempt resume kill
    query attest fwupd coldReset pfFunctionLevelReset vfReset thermalTrip throttle plimitWrite vfrectWrite mgmtRegisterWrite
    scarfLinkDown scarfDeliveryFailure debuggerHalt
    i

end Constructors

/-! A word and its fields (R44). -/

theorem unpackFields_packFields (f : Fields) : unpackFields (packFields f) = f := by
  obtain ⟨s, w, f8, rb, ra, rd, maj⟩ := f
  simp only [unpackFields, packFields, Fields.mk.injEq]
  refine ⟨?_, ?_, ?_, ?_, ?_, ?_, ?_⟩
  · simp only [BitVec.getLsbD_append]; simp
  · simp only [BitVec.getLsbD_append]; simp
  all_goals
    ext k hk
    simp only [BitVec.getElem_extractLsb', BitVec.getLsbD_append]
    rw [← BitVec.getLsbD_eq_getElem hk]
    grind

/-- Bit 0 of every 32-bit word is 1 (R42). -/
theorem packFields_odd (f : Fields) : (packFields f).getLsbD 0 = true := by
  simp only [packFields, BitVec.getLsbD_append]; simp

/-- A bit as the bit vector of length 1. -/
theorem ofBool_getLsbD {n : Nat} (x : BitVec n) (k : Nat) : BitVec.ofBool (x.getLsbD k) = x.extractLsb' k 1 := by
  ext i hi
  obtain rfl : i = 0 := by omega
  simp

theorem packFields_unpackFields {x : BitVec 32} (h : x.getLsbD 0 = true) : packFields (unpackFields x) = x := by
  have hbit : (1#1 : BitVec 1) = x.extractLsb' 0 1 := by rw [← ofBool_getLsbD, h]; rfl
  simp only [packFields, unpackFields, ofBool_getLsbD, hbit]
  calc _ = x.extractLsb' 0 32 := by
        simp only [join_bits x 30 1 1, join_bits x 22 2 8, join_bits x 17 10 5, join_bits x 12 15 5, join_bits x 7 20 5,
          join_bits x 1 25 6, join_bits x 0 31 1]
    _ = x := BitVec.extractLsb'_eq_self

/-! The three encodings exclude each other. -/

theorem toFields_of_candidateParcel {p : BitVec 16} {i : Instr} (h : candidateParcel p = some i) : toFields i = none := by
  unfold candidateParcel at h
  split at h <;> cases h <;> rfl

theorem toFields_of_candidateSwitch {x : BitVec 64} {i : Instr} (h : candidateSwitch x = some i) : toFields i = none := by
  unfold candidateSwitch at h
  split at h <;> cases h <;> rfl

theorem toParcel_of_candidateSwitch {x : BitVec 64} {i : Instr} (h : candidateSwitch x = some i) : toParcel i = none := by
  unfold candidateSwitch at h
  split at h <;> cases h <;> rfl

/-! What the encoder answers, and the obligations. -/

theorem encode_of_fields {i : Instr} {f : Fields} (h : toFields i = some f) : encode i = some (.word (packFields f)) := by
  simp only [encode, h]

theorem encode_of_parcel {i : Instr} {p : BitVec 16} (hc : candidateParcel p = some i) (h : toParcel i = some p) :
    encode i = some (.parcel p) := by
  simp only [encode, toFields_of_candidateParcel hc, h]

theorem encode_of_switchWord {i : Instr} {x : BitVec 64} (hc : candidateSwitch x = some i) (h : toSwitchWord i = some x) :
    encode i = some (.switchWord x) := by
  simp only [encode, toFields_of_candidateSwitch hc, toParcel_of_candidateSwitch hc, h]

/-- Every encoding comes from one of the three tables. -/
theorem encode_cases {i : Instr} {e : Code} (h : encode i = some e) :
    (∃ f, toFields i = some f ∧ e = .word (packFields f)) ∨ (∃ p, toParcel i = some p ∧ e = .parcel p) ∨
      ∃ x, toSwitchWord i = some x ∧ e = .switchWord x := by
  unfold encode at h
  split at h
  · next f hf => exact .inl ⟨f, hf, (Option.some.inj h).symm⟩
  split at h
  · next p hp => exact .inr (.inl ⟨p, hp, (Option.some.inj h).symm⟩)
  split at h
  · next x hx => exact .inr (.inr ⟨x, hx, (Option.some.inj h).symm⟩)
  · cases h

/-- Settles O25: the decoder's candidate is the instruction by the law of its constructor, and the check against the encoding passes. -/
theorem decodeOfEncode : Obligations.DecodeOfEncode := by
  intro i e hwf he
  obtain ⟨hword, hparcel, hswitch⟩ := candidate_of_encoding i hwf
  rcases encode_cases he with ⟨f, hf, rfl⟩ | ⟨p, hp, rfl⟩ | ⟨x, hx, rfl⟩
  · simp only [decode, decodeWord, unpackFields_packFields, hword f hf, hf, hwf, packFields_odd, and_self, if_true]
  · simp only [decode, decodeParcel, hparcel p hp, hp, hwf, and_self, if_true]
  · simp only [decode, decodeSwitchWord, hswitch x hx, hx, hwf, and_self, if_true]

/-- Settles O26: each decoder answers only what passed its check against the encoding. -/
theorem encodeOfDecode : Obligations.EncodeOfDecode := by
  intro e i h
  cases e with
  | parcel p =>
    simp only [decode, decodeParcel] at h
    split at h
    · next hcand =>
      split at h
      · next hc => cases h; exact ⟨hc.1, encode_of_parcel hcand hc.2⟩
      · cases h
    · cases h
  | word x =>
    simp only [decode, decodeWord] at h
    split at h
    · split at h
      · next hc =>
        cases h
        obtain ⟨hwf, hf, hodd⟩ := hc
        exact ⟨hwf, by rw [encode_of_fields hf, packFields_unpackFields hodd]⟩
      · cases h
    · cases h
  | switchWord x =>
    simp only [decode, decodeSwitchWord] at h
    split at h
    · next hcand =>
      split at h
      · next hc => cases h; exact ⟨hc.1, encode_of_switchWord hcand hc.2⟩
      · cases h
    · cases h

end Sys2Proof.Codec
end

section
/-! SUPPORT. Commit buffers (R432, R434): what a write holds for an address and for a unit, what its arrival in memory does, and what the
older writes give up to it. -/

namespace Sys2Proof.Commits

open Sys2Proof Sys2Proof.Machine

/-! One write on its way to memory. -/

/-- The bytes that a write still has, from an address up. -/
theorem byte_setSome {m : Mem} (h : m.wf) (a i : Nat) (bs : List (Option Byte)) :
    (m.setSome a bs).byte i = (if a ≤ i then (bs[i - a]?).join else none).getD (m.byte i) := by
  induction bs generalizing m a with
  | nil => simp [Mem.setSome]
  | cons b bs ih =>
    have step (m' : Mem) (h' : m'.wf) (hb : m'.byte i = if i = a then b.getD (m.byte i) else m.byte i) :
        (m'.setSome (a + 1) bs).byte i = (if a ≤ i then ((b :: bs)[i - a]?).join else none).getD (m.byte i) := by
      rw [ih h', hb]
      rcases lt_trichotomy i a with hlt | rfl | hgt
      · simp [hlt.ne, show ¬ a ≤ i by omega, show ¬ a + 1 ≤ i by omega]
      · simp
      · obtain ⟨k, rfl⟩ : ∃ k, i = a + 1 + k := ⟨i - (a + 1), by omega⟩
        simp [show a + 1 + k - a = k + 1 by omega, show a ≤ a + 1 + k by omega, show a + 1 + k ≠ a by omega]
    cases b with
    | none => exact step m h (by simp)
    | some b =>
      refine step _ (Mem.setByte_wf h a b) ?_
      split
      · next e => subst e; simpa using Mem.setByte_byte_self h i b
      · next e => exact Mem.setByte_byte_ne m e b

theorem poison_setSome (m : Mem) (a : Nat) (bs : List (Option Byte)) : (m.setSome a bs).poison = m.poison := by
  induction bs generalizing m a with
  | nil => rfl
  | cons b bs ih => cases b <;> simp only [Mem.setSome, ih, Mem.setByte_poison]

/-- A byte of memory after a write has reached it. -/
theorem byte_apply {m : Mem} (h : m.wf) (w : CWrite) (a : Nat) : (m.apply w).byte a = (w.byteAt a).getD (m.byte a) := by
  rw [Mem.apply, Mem.foldPoison_byte w.units (fun _ u => u.1) (fun _ u => u.2), byte_setSome h]
  rfl

theorem lookup_eq_none {α : Type} {k : Nat} {l : List (Nat × α)} (h : k ∉ l.map Prod.fst) : lookup k l = none := by
  induction l with
  | nil => rfl
  | cons v l ih =>
    obtain ⟨hne, hrest⟩ := not_or.mp (mt List.mem_cons.mpr h)
    simp only [lookup, if_neg (Ne.symm hne), ih hrest]

/-- A poison bit after the bits of distinct units were set. -/
theorem poisoned_foldl {us : List (Nat × Bool)} (h : (us.map Prod.fst).Nodup) (m : Mem) (u : Nat) :
    (us.foldl (fun m u => m.setPoison u.1 u.2) m).poisoned u = (lookup u us).getD (m.poisoned u) := by
  induction us generalizing m with
  | nil => rfl
  | cons v us ih =>
    obtain ⟨j, q⟩ := v
    obtain ⟨hnot, hrest⟩ := List.nodup_cons.mp h
    rw [List.foldl_cons, ih hrest, Mem.setPoison_poisoned]
    by_cases e : u = j
    · subst e
      have : lookup u us = none := lookup_eq_none hnot
      simp [lookup, this]
    · simp [lookup, Ne.symm e, e]

/-- A poison bit of memory after a write with distinct units has reached it. -/
theorem poisoned_apply {w : CWrite} (h : (w.units.map Prod.fst).Nodup) (m : Mem) (u : Nat) :
    (m.apply w).poisoned u = (lookup u w.units).getD (m.poisoned u) := by
  rw [Mem.apply, poisoned_foldl h, Mem.poisoned, poison_setSome]
  rfl

/-! What an older write gives up to a later one. -/

theorem byteAt_yield (w later : CWrite) (a : Nat) :
    (w.yield later).byteAt a = if (later.byteAt a).isSome then none else w.byteAt a := by
  unfold CWrite.byteAt CWrite.yield
  by_cases h : w.pa ≤ a
  · have e : w.pa + (a - w.pa) = a := by omega
    simp only [if_pos h, List.getElem?_map, List.getElem?_zipIdx, Nat.zero_add]
    cases w.bytes[a - w.pa]? <;> simp only [Option.map_none, Option.map_some, Option.join_none, Option.join_some, ite_self, e,
      CWrite.byteAt]
  · simp only [if_neg h, ite_self]

theorem lookup_filter {α : Type} (f : Nat → Bool) (u : Nat) (l : List (Nat × α)) :
    lookup u (l.filter fun v => f v.1) = if f u then lookup u l else none := by
  induction l with
  | nil => simp [lookup]
  | cons v l ih =>
    obtain ⟨j, x⟩ := v
    by_cases hj : j = u
    · subst hj
      cases hf : f j <;> simp [hf, lookup, ih]
    · cases hf : f j <;> simp [hf, lookup, ih, hj]

theorem lookup_units_yield (w later : CWrite) (u : Nat) :
    lookup u (w.yield later).units = if (lookup u later.units).isSome then none else lookup u w.units := by
  rw [CWrite.yield, lookup_filter fun j => (lookup j later.units).isNone]
  cases lookup u later.units <;> rfl

/-! A drain of a list of writes, youngest first. A view of them is the first answer, else that of memory. -/

section Drain

variable (p : CWrite → Bool)

/-- Memory as a drain leaves it: the oldest write first. -/
def drained (ws : List CWrite) (m : Mem) : Mem := ((ws.filter p).reverse).foldl Mem.apply m

theorem drained_cons_of_pos {w : CWrite} (h : p w = true) (ws : List CWrite) (m : Mem) :
    drained p (w :: ws) m = (drained p ws m).apply w := by
  simp [drained, h]

theorem drained_cons_of_neg {w : CWrite} (h : p w = false) (ws : List CWrite) (m : Mem) :
    drained p (w :: ws) m = drained p ws m := by
  simp [drained, h]

theorem drained_wf (ws : List CWrite) {m : Mem} (h : m.wf) : (drained p ws m).wf := Mem.applyAll_wf _ h

/-- What a write answers hides the older ones, which have given it up; where it answers nothing they answer as before. -/
theorem findSome_yield {β : Type} (f : CWrite → Option β) (w : CWrite)
    (hf : ∀ o : CWrite, f (o.yield w) = if (f w).isSome then none else f o) (ws : List CWrite) :
    (ws.map fun o => o.yield w).findSome? f = if (f w).isSome then none else ws.findSome? f := by
  induction ws with
  | nil => simp
  | cons o ws ih =>
    rw [List.map_cons, List.findSome?_cons, hf, ih, List.findSome?_cons]
    cases f w <;> simp

/-- A view through writes of which the drained ones have reached memory is the view before: `f` is what a write answers, `get` what
memory answers. -/
theorem view_drained {β : Type} (f : CWrite → Option β) (get : Mem → β)
    (hf : ∀ w o : CWrite, f (o.yield w) = if (f w).isSome then none else f o) {m : Mem} (hm : m.wf) (ws : List CWrite)
    (happly : ∀ w ∈ ws, ∀ m' : Mem, m'.wf → get (m'.apply w) = (f w).getD (get m')) :
    ((keepWrites p ws).findSome? f).getD (get (drained p ws m)) = (ws.findSome? f).getD (get m) := by
  induction ws with
  | nil => rfl
  | cons w ws ih =>
    have hrest := ih fun o ho => happly o (List.mem_cons_of_mem _ ho)
    cases hp : p w with
    | true =>
      rw [keepWrites, if_pos hp, drained_cons_of_pos p hp, findSome_yield f w (hf w),
        happly w List.mem_cons_self _ (drained_wf p ws hm), List.findSome?_cons]
      cases hw : f w with
      | none => simpa using hrest
      | some b => simp
    | false =>
      rw [keepWrites, if_neg (by simp [hp]), drained_cons_of_neg p hp, List.findSome?_cons, List.findSome?_cons]
      cases f w with
      | none => exact hrest
      | some b => rfl

theorem keepWrites_length (ws : List CWrite) : (keepWrites p ws).length = (ws.filter fun w => !p w).length := by
  induction ws with
  | nil => rfl
  | cons w ws ih => cases hp : p w <;> simp [keepWrites, hp, ih]

theorem keepWrites_interval (ws : List CWrite) :
    (keepWrites p ws).map CWrite.interval = (ws.filter fun w => !p w).map CWrite.interval := by
  induction ws with
  | nil => rfl
  | cons w ws ih =>
    cases hp : p w
    · simp [keepWrites, hp, ih]
    · simp only [keepWrites, hp, if_true, List.map_map, Bool.not_true, Bool.false_eq_true, not_false_eq_true,
        List.filter_cons_of_neg, ← ih]
      rfl

theorem byteAt_eq_none {w : CWrite} {a : Nat} (h : a < w.pa ∨ w.pa + w.bytes.length ≤ a) : w.byteAt a = none := by
  unfold CWrite.byteAt
  split
  · rw [List.getElem?_eq_none (by omega)]; rfl
  · rfl

/-- Memory changes only where a drained write stands. -/
theorem byte_drained_outside {m : Mem} (hm : m.wf) {a : Nat} (ws : List CWrite)
    (h : ∀ w ∈ ws, p w = true → a < w.pa ∨ w.pa + w.bytes.length ≤ a) : (drained p ws m).byte a = m.byte a := by
  induction ws with
  | nil => rfl
  | cons w ws ih =>
    have hrest := ih fun o ho => h o (List.mem_cons_of_mem _ ho)
    cases hp : p w with
    | true =>
      rw [drained_cons_of_pos p hp, byte_apply (drained_wf p ws hm), byteAt_eq_none (h w List.mem_cons_self hp)]
      exact hrest
    | false => rw [drained_cons_of_neg p hp, hrest]

end Drain

theorem drainWrites_eq {s : State} {r : Nat} {g : Region} (h : s.region? r = some g) (p : CWrite → Bool) :
    s.drainWrites r p = { s with
      mem := drained p g.commit s.mem
      regions := insertAt r { g with commit := keepWrites p g.commit, fired := g.fired || g.commit.any p } s.regions } := by
  simp only [State.drainWrites, h, drained]

theorem pending_of_region {s : State} {r : Nat} {g : Region} (h : s.region? r = some g) : s.pending r = g.commit := by
  simp only [State.pending, h, Option.map_some, Option.getD_some]

/-- Settles O16, by induction on the writes of the region: an older write gives up what a drained one has taken to memory. -/
theorem commitDrains : Obligations.CommitDrains := by
  intro s r g p hg hm hunits t
  have ht : t.region? r = some { g with commit := keepWrites p g.commit, fired := g.fired || g.commit.any p } := by
    simp only [t, drainWrites_eq hg, State.region?, lookup_insertAt_self]
  have hmem : t.mem = drained p g.commit s.mem := by simp only [t, drainWrites_eq hg]
  have hbyte (a : Nat) : t.viewByte r a = s.viewByte r a := by
    simp only [State.viewByte, pending_of_region ht, pending_of_region hg, hmem]
    exact view_drained p (fun w => w.byteAt a) (fun m => m.byte a) (fun w o => byteAt_yield o w a) hm _
      fun w _ m' h' => byte_apply h' w a
  refine ⟨hbyte, fun u => ?_, fun a h => ?_, fun h a => ?_, ⟨_, ht, keepWrites_length p _, keepWrites_interval p _, rfl⟩,
    fun q hq => ?_, ?_, ?_, ?_⟩
  · simp only [State.viewPoison, pending_of_region ht, pending_of_region hg, hmem]
    exact view_drained p (fun w => lookup u w.units) (fun m => m.poisoned u) (fun w o => lookup_units_yield o w u) hm _
      fun w hw m' _ => poisoned_apply (hunits w hw) m' u
  · rw [hmem]
    exact byte_drained_outside p hm _ h
  · have hnone : keepWrites p g.commit = [] := by
      rw [← List.length_eq_zero_iff, keepWrites_length, List.length_eq_zero_iff, List.filter_eq_nil_iff]
      simpa using h
    rw [← hbyte, State.viewByte, pending_of_region ht, hnone]
    rfl
  · simp only [t, drainWrites_eq hg, State.region?, lookup_insertAt_ne hq]
  · simp only [t, drainWrites_eq hg]
  · simp only [t, drainWrites_eq hg]
  · rw [hmem]
    exact drained_wf p _ hm

end Sys2Proof.Commits
end

section
/-! SUPPORT. The operand forms (R29, R46, R48, R115-R121, R144, R211): register files read and written in place, queue registers popped at
the head and pushed at the end. -/

namespace Sys2Proof.Operands

open Sys2Proof Sys2Proof.Machine Sys2Proof.Spec

/-! Registers of a hart. -/

@[simp] theorem xBusy_zero (h : Hart) : h.xBusy 0#5 = false := by simp [Hart.xBusy]

@[simp] theorem setX_zero (h : Hart) (v : UVal) : h.setX 0#5 v = h := by simp [Hart.setX]

theorem ne_zero_of_pos {r : Reg} (h : 0 < r.toNat) : r ≠ 0#5 := by rintro rfl; simp at h

theorem xval_eq (h : Hart) {r : Reg} (h0 : 0 < r.toNat) (hr : r.toNat < 24) : h.xval r = h.x[r.toNat] := by
  simp [Hart.xval, ne_zero_of_pos h0, hr]

theorem setX_eq (h : Hart) {r : Reg} (h0 : 0 < r.toNat) (hr : r.toNat < 24) (v : UVal) :
    h.setX r v = { h with x := h.x.set r.toNat v } := by
  simp [Hart.setX, ne_zero_of_pos h0, Vector.setIfInBounds, Vector.set, Array.setIfInBounds, hr]

theorem vval_eq (h : Hart) {r : Reg} (hr : r.toNat < 28) : h.vval r = h.v[r.toNat] := by simp [Hart.vval, hr]

theorem setV_eq (h : Hart) {r : Reg} (hr : r.toNat < 28) (v : VVal) : h.setV r v = { h with v := h.v.set r.toNat v } := by
  simp [Hart.setV, Vector.setIfInBounds, Vector.set, Array.setIfInBounds, hr]

theorem mval_zero (h : Hart) : h.mval 0#3 = BitVec.allOnes 64 := by simp [Hart.mval, maskAll]

theorem setM_zero (h : Hart) (v : Word) : h.setM 0#3 v = h := by simp [Hart.setM]

theorem mval_setM_self (h : Hart) {m : MReg} (hm : m ≠ 0#3) (v : Word) : (h.setM m v).mval m = v := by
  have : m.toNat < 8 := m.isLt
  simp [Hart.setM, Hart.mval, hm, this]

theorem mval_setM_ne (h : Hart) {m n : MReg} (hn : n ≠ m) (v : Word) : (h.setM m v).mval n = h.mval n := by
  have : m.toNat ≠ n.toNat := fun e => hn (BitVec.eq_of_toNat_eq e.symm)
  unfold Hart.setM
  split
  · rfl
  · simp [Hart.mval, Vector.getElem?_setIfInBounds_ne this]

theorem pval_setP_self (h : Hart) (p : PReg) (v : Bool) : (h.setP p v).pval p = v := by
  have : p.toNat < 4 := p.isLt
  simp [Hart.setP, Hart.pval, this]

theorem pval_setP_ne (h : Hart) {p q : PReg} (hq : q ≠ p) (v : Bool) : (h.setP p v).pval q = h.pval q := by
  have : p.toNat ≠ q.toNat := fun e => hq (BitVec.eq_of_toNat_eq e.symm)
  simp [Hart.setP, Hart.pval, Vector.getElem?_setIfInBounds_ne this]

/-! Register operands of the running hart. -/

section Registers

variable {s : State} {r : Reg}

theorem readU_reg (hr : r.toNat < 24) (hb : s.hart.xBusy r = false) : s.readU r = .got (s.hart.xval r) s := by
  simp [State.readU, hr, hb]

theorem readU_busy (hr : r.toNat < 24) (hb : s.hart.xBusy r = true) : s.readU r = .wait .memory := by
  simp [State.readU, hr, hb]

theorem putU_reg (hr : r.toNat < 24) (hb : s.hart.xBusy r = false) (v : UVal) :
    s.putU r v = .ok (s.modHart fun h => h.setX r v) := by
  simp [State.putU, hr, hb]

theorem putU_busy (hr : r.toNat < 24) (hb : s.hart.xBusy r = true) (v : UVal) : s.putU r v = .error .memory := by
  simp [State.putU, hr, hb]

theorem readV_reg (hr : r.toNat < 28) (hb : s.hart.vBusy r = false) : s.readV r = .got (s.hart.vval r) s := by
  simp [State.readV, hr, hb]

theorem putV_reg (hr : r.toNat < 28) (hb : s.hart.vBusy r = false) (f : VVal → Bool → VVal) :
    s.putV r f = .ok (s.modHart fun h => h.setV r (f (h.vval r) true)) := by
  simp [State.putV, hr, hb]

/-- A change of the running hart changes the list of harts alone. -/
theorem modHart_eq (s : State) (f : Hart → Hart) : s.modHart f = { s with harts := (s.modHart f).harts } := rfl

end Registers

/-! The head of a queue. -/

section Pop

variable {c : Cell} {code : Nat} {i : QItem} {rest : List QItem}

theorem takeQueue_nil (h : (c.queue code).items = []) (taken : Bool) : c.takeQueue code taken = none := by
  simp [Cell.takeQueue, Cell.ripe, Queue.take, h]

/-- An entry that came in this clk is not taken (R29). -/
theorem takeQueue_young (h : (c.queue code).items = i :: rest) (hy : rest.length < c.youngOf code) (taken : Bool) :
    c.takeQueue code taken = none := by
  have : rest.length + 1 - c.youngOf code = 0 := by omega
  simp [Cell.takeQueue, Cell.ripe, Queue.take, h, this]

theorem takeQueue_entry {e : Entry} {src : Nat} (h : (c.queue code).items = .entry e src :: rest)
    (hy : c.youngOf code ≤ rest.length) (taken : Bool) : c.takeQueue code taken = some (.entry e src, rest) := by
  obtain ⟨n, hn⟩ : ∃ n, rest.length + 1 - c.youngOf code = n + 1 := ⟨rest.length - c.youngOf code, by omega⟩
  simp [Cell.takeQueue, Cell.ripe, Queue.take, h, hn, QItem.isKerf]

end Pop

section QueueSource

variable {s : State} {n : Nat}

/-- Without a spill area a read moves the head of a ring on and takes the entry off. -/
theorem dropHead_plain {s : State} {c code : Nat} (h : ((s.cellAt c).queue code).ext = none) (rest : List QItem) :
    s.dropHead c code rest = s.modCell c (fun x => x.setQueue code { (s.cellAt c).queue code with
      items := rest
      head := if (s.cellAt c).ringDepth code = 0 then ((s.cellAt c).queue code).head
        else (((s.cellAt c).queue code).head + 1) % (s.cellAt c).ringDepth code }) := by
  simp [State.dropHead, h, State.modCell]

theorem popQueue_none (hheld : s.hart.held = [])
    (ht : ∀ taken, s.cell.takeQueue (readCode (s.cell.mapFor (slotOf s.cur)) n) taken = none) : s.popQueue n = none := by
  simp [State.popQueue, hheld, ht]

theorem popQueue_entry {e : Entry} {src : Nat} {rest : List QItem} (hheld : s.hart.held = [])
    (ht : ∀ taken, s.cell.takeQueue (readCode (s.cell.mapFor (slotOf s.cur)) n) taken = some (.entry e src, rest)) :
    s.popQueue n = some (e, s.dropHead (cellOf s.cur) (readCode (s.cell.mapFor (slotOf s.cur)) n) rest) := by
  simp [State.popQueue, hheld, ht, State.entryOf]

variable {r : Reg}

theorem readU_queue (h1 : 24 ≤ r.toNat) (h2 : r.toNat < 28) : s.readU r =
    match s.popQueue (r.toNat - 24) with
    | none => if s.draining then .got drainedU s else .wait (.empty (readCode (s.cell.mapFor (slotOf s.cur)) (r.toNat - 24)))
    | some (.uniform u, s) => .got u (s.popNote u.poison)
    | some (.token t, s) => .got (UVal.plain t.dword) s
    | some (.vector _, s) => .wrong s := by
  simp only [State.readU, if_neg (show ¬ r.toNat < 24 by omega), if_pos h2] <;> rfl

end QueueSource

/-! The end of a queue. -/

section Push

variable (s : State) (c code slot : Nat) (e : Entry)

@[simp] theorem recordRing_cells (f : Queue → Queue) : (s.recordRing c code slot f).cells = s.cells := by
  simp only [State.recordRing]; split <;> simp
@[simp] theorem recordRing_harts (f : Queue → Queue) : (s.recordRing c code slot f).harts = s.harts := by
  simp only [State.recordRing]; split <;> simp
@[simp] theorem recordRing_mem (f : Queue → Queue) : (s.recordRing c code slot f).mem = s.mem := by
  simp only [State.recordRing]; split <;> simp
@[simp] theorem recordRing_cur (f : Queue → Queue) : (s.recordRing c code slot f).cur = s.cur := by
  simp only [State.recordRing]; split <;> simp [State.modTaking]

@[simp] theorem queue_setQueue_self (x : Cell) (q : Queue) : (x.setQueue code q).queue code = q := by
  simp [Cell.setQueue, Cell.queue]

@[simp] theorem queue_pushed (x : Cell) (tie n k : Nat) : (x.pushed tie n).queue k = x.queue k := rfl

/-- An entry laid into its slot of the SRAM is still the entry of its ring. -/
@[simp] theorem queue_storeRing (x : Cell) (p k : Nat) : (x.storeRing code p e).queue k = x.queue k := by
  unfold Cell.storeRing Cell.queue; dsimp only; split <;> simp only

/-- Whether a wave records the push or not. -/
def recorded (s' : State) : Prop := s'.cells = s.cells ∧ s'.harts = s.harts ∧ s'.mem = s.mem ∧ s'.cur = s.cur

/-- Without a spill area a push appends its entry, and changes, of what no wave records, its cell alone. -/
theorem pushQueue_plain (h : ((s.cellAt c).queue code).ext = none) : ∃ s' : State, recorded s s' ∧
    s.pushQueue c code slot e = s'.modCell c (fun y => ((y.setQueue code { (s.cellAt c).queue code with
      lock := lockAfter code slot e ((s.cellAt c).queue code).lock
      items := ((s.cellAt c).queue code).items ++ [.entry e slot] }).pushed code 1).storeRing code ((s.cellAt c).queue code).count e) := by
  simp only [State.pushQueue, h]
  refine ⟨_, ?_, rfl⟩
  refine ⟨?_, ?_, ?_, ?_⟩ <;> (repeat' split) <;> simp [State.modTaking]

end Push

section QueueDestination

variable {s : State} {code : Nat}

theorem putQueue_room (hd : s.hart.dstHeld = none) (ha : (s.cell.queue code).accepts (slotOf s.cur) = true) (e : Entry) (p : Bool) :
    s.putQueue code e p = .ok ((s.pushQueue (cellOf s.cur) code (slotOf s.cur) e).note p 3) := by
  simp only [State.putQueue, hd, ha, if_true]

theorem putQueue_full (hd : s.hart.dstHeld = none) (ha : (s.cell.queue code).accepts (slotOf s.cur) = false)
    (hr : s.draining = false) (e : Entry) (p : Bool) : s.putQueue code e p = .error (.full code) := by
  simp only [State.putQueue, hd, ha, hr, Bool.false_eq_true, if_false]

/-- A queue without a lock and without ended producers accepts an entry when it has room. -/
theorem accepts_eq {q : Queue} (hl : q.lock = none) (he : q.ended = []) (slot : Nat) :
    q.accepts slot = decide (q.count < q.depth) := by
  simp [Queue.accepts, hl, he]

theorem putU_queue {r : Reg} (h1 : 24 ≤ r.toNat) (h2 : r.toNat < 28) (v : UVal) :
    s.putU r v = s.putQueue (writeCode (s.cell.mapFor (slotOf s.cur)) (r.toNat - 24)) (.uniform v) v.poison := by
  simp only [State.putU, if_neg (show ¬ r.toNat < 24 by omega), if_pos h2]

/-- What a note changes of the running hart. -/
theorem hart_note (s : State) (p : Bool) (b : Nat) :
    (s.note p b).hart = { s.hart with chkiv := s.hart.chkiv ||| (if p then BitVec.ofNat 5 (2 ^ b) else 0#5) } := by
  cases p <;> simp [State.note]

end QueueDestination

/-- Settles O30: the register files, the masks and predicates, and the two ends of a queue. -/
theorem operandForms : Obligations.OperandForms := by
  refine ⟨fun s => readU_reg (by simp) (by simp), fun s v => ⟨_, putU_reg (by simp) (by simp) v, modHart_eq .., fun h => ?_⟩,
    fun s r h0 hr hb => ⟨?_, fun v => ⟨_, putU_reg hr hb v, modHart_eq .., ?_, fun h hh => State.hartAt_modHart_ne _ _ hh⟩⟩,
    fun s r hr hb => ⟨?_, fun f => ⟨_, putV_reg hr hb f, modHart_eq .., ?_, fun h hh => State.hartAt_modHart_ne _ _ hh⟩⟩,
    fun s r _ hr hb => ⟨readU_busy hr hb, putU_busy hr hb⟩, fun h v => ⟨mval_zero h, setM_zero h v⟩,
    fun h m v hm => ⟨mval_setM_self h hm v, fun n hn => mval_setM_ne h hn v⟩,
    fun h p v => ⟨pval_setP_self h p v, fun q hq => pval_setP_ne h hq v⟩, fun s r h1 h2 => ?_, fun s r v h1 h2 => ?_⟩
  · by_cases hh : h = s.cur
    · subst hh
      exact (State.hart_modHart s _).trans (setX_zero ..)
    · exact State.hartAt_modHart_ne _ _ hh
  · rw [readU_reg hr hb, xval_eq _ h0 hr]
  · rw [State.hart_modHart, setX_eq _ h0 hr]
  · rw [readV_reg hr hb, vval_eq _ hr]
  · rw [State.hart_modHart, setV_eq _ hr, vval_eq _ hr]
  · intro code q hheld hext
    have hpop {e : Entry} {src : Nat} {rest : List QItem} (hi : q.items = .entry e src :: rest)
        (hy : s.cell.youngOf code ≤ rest.length) :=
      popQueue_entry (n := r.toNat - 24) hheld fun taken => takeQueue_entry hi hy taken
    refine ⟨fun hi hd => ?_, fun hi hd => ?_, fun i rest hi hy hd => ?_, fun u src rest hi hy => ?_, fun v src rest hi hy => ?_⟩
    · rw [readU_queue h1 h2, popQueue_none hheld (takeQueue_nil hi), hd]; rfl
    · rw [readU_queue h1 h2, popQueue_none hheld (takeQueue_nil hi), hd]; rfl
    · rw [readU_queue h1 h2, popQueue_none hheld (takeQueue_young hi hy), hd]; rfl
    · rw [readU_queue h1 h2, hpop hi hy, dropHead_plain hext]; rfl
    · rw [readU_queue h1 h2, hpop hi hy, dropHead_plain hext]; rfl
  · intro code q hext hlock hended hheld
    have hacc := accepts_eq hlock hended (slotOf s.cur)
    refine ⟨fun hfull hd => ?_, fun hroom => ?_⟩
    · rw [putU_queue h1 h2, putQueue_full hheld (by rw [hacc]; simpa using hfull) hd]
    · obtain ⟨s', ⟨hcells, hharts, hmem, hcur⟩, hpush⟩ := pushQueue_plain s (cellOf s.cur) code (slotOf s.cur) (.uniform v) hext
      have hhart : (s.pushQueue (cellOf s.cur) code (slotOf s.cur) (.uniform v)).hart = s.hart := by
        rw [hpush, State.hart_modCell, State.hart, State.hartAt, hharts, hcur]; rfl
      refine ⟨_, by rw [putU_queue h1 h2, putQueue_room hheld (by rw [hacc]; simpa using hroom)], ?_, ?_, ?_, ?_, ?_⟩
      · rw [State.cell, State.cellAt, State.note_cells, State.note_cur, ← State.cellAt, hpush]
        simp [State.modCell, hcur, q, code, State.cell]
      · rw [State.note_mem, hpush, State.modCell_mem, hmem]
      · rw [hart_note, hhart]
      · rw [hart_note, hhart]
      · rw [hart_note, hhart]; rfl

end Sys2Proof.Operands
end

section
/-! SUPPORT. Frames of hart instructions (R30, R115, R132): how the changes of an instruction compose, and what `runHart` makes of a body
that keeps to its footprint. -/

namespace Sys2Proof.Frames

open Sys2Proof Sys2Proof.Machine Sys2Proof.Spec Sys2Proof.Operands

/-! Frames compose. -/

theorem hartFrame_refl (f : Footprint) (x : Hart) : HartFrame f x x :=
  ⟨fun _ _ => rfl, fun _ _ => rfl, fun _ _ => rfl, fun _ _ => rfl, fun _ => rfl, rfl, BitVec.and_self, BitVec.and_self, rfl⟩

theorem and_trans {n : Nat} {a b c : BitVec n} (hba : b &&& a = a) (hcb : c &&& b = b) : c &&& a = a := by
  rw [← hba, ← BitVec.and_assoc, hcb]

theorem hartFrame_trans {f : Footprint} {x y z : Hart} (h : HartFrame f x y) (h' : HartFrame f y z) : HartFrame f x z := by
  obtain ⟨hx, hv, hm, hp, hf, hrm, hor, hck, heq⟩ := h
  obtain ⟨hx', hv', hm', hp', hf', hrm', hor', hck', heq'⟩ := h'
  exact ⟨fun r hr => (hx' r hr).trans (hx r hr), fun r hr => (hv' r hr).trans (hv r hr), fun r hr => (hm' r hr).trans (hm r hr),
    fun r hr => (hp' r hr).trans (hp r hr), fun h0 => (hf' h0).trans (hf h0), hrm'.trans hrm, and_trans hor hor',
    and_trans hck hck', by rw [heq', heq]⟩

theorem machineFrame_refl (s : State) : MachineFrame s s := ⟨fun _ _ => rfl, fun _ _ => rfl, fun _ _ => rfl, fun _ => rfl, rfl⟩

theorem machineFrame_cur {s t : State} (h : MachineFrame s t) : t.cur = s.cur := by
  obtain ⟨-, -, -, -, heq⟩ := h
  rw [heq]

theorem machineFrame_trans {s t u : State} (h : MachineFrame s t) (h' : MachineFrame t u) : MachineFrame s u := by
  have hcur := machineFrame_cur h
  obtain ⟨hb, hp, hh, hc, heq⟩ := h
  obtain ⟨hb', hp', hh', hc', heq'⟩ := h'
  exact ⟨fun r a => (hb' r a).trans (hb r a), fun r a => (hp' r a).trans (hp r a),
    fun k hk => (hh' k (by rwa [hcur])).trans (hh k hk), fun c => by rw [hc', hc], by rw [heq', heq]⟩

/-- What a frame asks besides: memory is as before, and the loads, the stores and the packets under way where the test says so. -/
structure Kept where
  loads : Bool
  stores : Bool
  net : Bool

/-- What is kept, from a state to another. -/
def Kept.holds (k : Kept) (s t : State) : Prop :=
  (k.loads = true → t.hart.loads = s.hart.loads) ∧ (k.stores = true → t.hart.stores = s.hart.stores) ∧
    (k.net = true → t.net = s.net) ∧ t.mem = s.mem

/-- A change within a footprint. -/
def Within (f : Footprint) (k : Kept) (s t : State) : Prop := HartFrame f s.hart t.hart ∧ MachineFrame s t ∧ k.holds s t

section Compose

variable {f : Footprint} {k : Kept} {s t u : State}

theorem within_refl (f : Footprint) (k : Kept) (s : State) : Within f k s s :=
  ⟨hartFrame_refl f _, machineFrame_refl s, fun _ => rfl, fun _ => rfl, fun _ => rfl, rfl⟩

theorem Within.trans (h : Within f k s t) (h' : Within f k t u) : Within f k s u := by
  obtain ⟨hh, hm, hl, hs, hn, hmem⟩ := h
  obtain ⟨hh', hm', hl', hs', hn', hmem'⟩ := h'
  exact ⟨hartFrame_trans hh hh', machineFrame_trans hm hm', fun e => (hl' e).trans (hl e), fun e => (hs' e).trans (hs e),
    fun e => (hn' e).trans (hn e), hmem'.trans hmem⟩

theorem Within.cur (h : Within f k s t) : t.cur = s.cur := machineFrame_cur h.2.1

/-- A change of the running hart alone. -/
theorem within_modHart {g : Hart → Hart} (h : HartFrame f s.hart (g s.hart)) (hl : (g s.hart).loads = s.hart.loads)
    (hs : (g s.hart).stores = s.hart.stores) : Within f k s (s.modHart g) := by
  refine ⟨by rwa [State.hart_modHart], ⟨fun _ _ => rfl, fun _ _ => rfl, fun h hh => State.hartAt_modHart_ne s g hh, fun _ => rfl, rfl⟩,
    fun _ => ?_, fun _ => ?_, fun _ => rfl, rfl⟩
  · rw [State.hart_modHart, hl]
  · rw [State.hart_modHart, hs]

/-- y differs from x in how far its instruction has come. -/
def Progressed (x y : Hart) : Prop :=
  y = { x with
    pc := y.pc, instret := y.instret, stage := y.stage, wait := y.wait, held := y.held, portOut := y.portOut, portKey := y.portKey,
    issued := y.issued, dstHeld := y.dstHeld, record := y.record, reply := y.reply }

theorem Progressed.hartFrame {x y : Hart} (h : Progressed x y) (f : Footprint) : HartFrame f x y := by
  refine ⟨fun r _ => ?_, fun r _ => ?_, fun m _ => ?_, fun p _ => ?_, fun _ => ?_, ?_, ?_, ?_, ?_⟩
  all_goals rw [h]
  · rfl
  · rfl
  · rfl
  · rfl
  · exact BitVec.and_self
  · exact BitVec.and_self

theorem within_progress {g : Hart → Hart} (h : Progressed s.hart (g s.hart)) : Within f k s (s.modHart g) :=
  within_modHart (h.hartFrame f) (by rw [h]) (by rw [h])

/-- A change of regions that leaves their commit buffers. -/
theorem within_modRegion {g : Region → Region} (r : Nat) (h : ∀ x : Region, (g x).commit = x.commit) :
    Within f k s (s.modRegion r g) := by
  have hp : ∀ q, (s.modRegion r g).pending q = s.pending q := by
    intro q
    by_cases hq : q = r
    · subst hq
      simp only [State.pending, State.region?_modRegion_self, Option.map_map]
      congr 2
      exact funext h
    · simp only [State.pending, State.region?_modRegion_ne s hq]
  refine ⟨by simpa using hartFrame_refl f s.hart, ⟨fun q a => ?_, fun q a => ?_, fun k _ => by simp, fun c => by simp, ?_⟩, ?_⟩
  · simp only [State.viewByte, hp, State.modRegion_mem]
  · simp only [State.viewPoison, hp, State.modRegion_mem]
  · unfold State.modRegion; split <;> rfl
  · exact ⟨fun _ => by simp, fun _ => by simp, fun _ => by simp, by simp⟩

/-- A change of a cell's token FIFOs and of what came to it in this clk. -/
theorem within_modCell {g : Cell → Cell} (c : Nat)
    (h : ∀ x : Cell, g x = { x with fifos := (g x).fifos, young := (g x).young, walks := (g x).walks }) :
    Within f k s (s.modCell c g) := by
  refine ⟨hartFrame_refl f _, ⟨fun _ _ => rfl, fun _ _ => rfl, fun _ _ => rfl, fun d => ?_, rfl⟩, fun _ => rfl, fun _ => rfl,
    fun _ => rfl, rfl⟩
  by_cases hd : d = c
  · subst hd
    simpa using h (s.cellAt d)
  · rw [State.cellAt_modCell_ne s hd]

/-! What every instruction moves on: its tokens, its wait, its retirement. -/

theorem within_popW {tk : Tok} (h : s.popW tk = some t) : Within f k s t := by
  unfold State.popW at h
  split at h
  · split at h
    · cases h
      exact (within_modCell _ fun _ => rfl).trans (within_progress rfl)
    · split at h <;> cases h
      exact within_progress rfl
  · cases h
    exact within_refl f k s

theorem within_modTaking (r : Nat) (g : Snapshot → Snapshot) : Within f k s (s.modTaking r g) := within_modRegion r fun _ => rfl

theorem within_fire (r : Nat) : Within f k s (s.fire r) := within_modRegion r fun _ => rfl

theorem within_pushToken (c n slot : Nat) : Within f k s (s.pushToken c n slot) := by
  simp only [State.pushToken]
  split
  · exact (within_modTaking ..).trans (within_modCell _ fun _ => rfl)
  · exact within_modCell _ fun _ => rfl

theorem within_pushS {tk : Tok} (h : s.pushS tk = some t) : Within f k s t := by
  unfold State.pushS at h
  split at h
  · split at h
    · cases h
      exact within_pushToken ..
    · split at h <;> cases h
      exact within_refl f k s
  · cases h
    exact within_refl f k s

theorem within_waiting (w : Wait) : Within f k s (s.waiting w) := within_progress rfl

theorem within_retire (pc : Word) : Within f k s (s.retire pc) := by
  unfold State.retire
  refine (within_progress ?_).trans (within_fire _)
  rfl

/-- Where the effect has left the ties of the hart's cell, nothing is held while the push of the token waits (R32). -/
theorem hold_of_same (hq : ∀ code, (t.cellAt (cellOf s.cur)).queue code = (s.cellAt (cellOf s.cur)).queue code)
    (hp : (t.cellAt (cellOf s.cur)).ports = (s.cellAt (cellOf s.cur)).ports) : s.hold t = s := by
  have hres : s.reserve t = s := by
    simp only [State.reserve, hq, lt_irrefl, decide_false, List.find?_eq_none.mpr (fun _ _ => Bool.false_ne_true), ite_self]
  simp only [State.hold, hres]
  have hpop (codes : List Nat) : codes.foldl (fun u code =>
      let q := (u.cellAt (cellOf s.cur)).queue code
      let n := q.items.length - ((t.cellAt (cellOf s.cur)).queue code).items.length
      let es := (q.items.filter (fun i => !i.isKerf)).take n
      if n = 0 then u
      else
        (u.modCell (cellOf s.cur) (fun x =>
          let y := x.setQueue code ((t.cellAt (cellOf s.cur)).queue code)
          if q.ext.isSome then y.storePlace code (y.ringDepth code - 1) else y)).modHart (fun h =>
          { h with held := h.held ++ es.map (fun i => (code, u.entryOf (cellOf s.cur) q i)) })) s = s := by
    induction codes with
    | nil => rfl
    | cons code codes ih => simpa only [List.foldl_cons, hq, Nat.sub_self, if_true] using ih
  rw [hpop]
  generalize List.range 8 = ps
  induction ps with
  | nil => rfl
  | cons p ps ih => simpa only [List.foldl_cons, hp, Nat.sub_self, if_true] using ih

theorem Within.hold (h : Within f k s t) : s.hold t = s := by
  obtain ⟨-, ⟨-, -, -, hc, -⟩, -⟩ := h
  exact hold_of_same (fun code => by rw [hc]; rfl) (by rw [hc])

theorem Within.finish (h : Within f k s t) (tk : Tok) (pc : Word) : Within f k s (s.finish t tk pc) := by
  unfold State.finish
  split
  · next u hu => exact (h.trans (within_pushS hu)).trans (within_retire pc)
  · rw [h.hold]
    exact within_waiting _

end Compose

/-! Bodies that keep to a footprint. -/

/-- What a body may come to: a change within the footprint, also while it waits, or one of the footprint's traps. -/
def Allowed (f : Footprint) (k : Kept) (s : State) : Act → Prop
  | .done t => Within f k s t
  | .jump t _ => Within f k s t
  | .wait _ g => Within f k s (g s)
  | .trap c _ => c ∈ f.traps
  | .trapWith _ _ _ => False
  | .ended _ => False
  | .stop _ => True

/-- An instruction whose body keeps to its footprint is framed. -/
theorem framed_of_allowed {i : Instr} {f : Footprint} {k : Kept} {s s1 t : State} {body : State → Act}
    (hexec : exec i s = runHart i f.tok s body) (hr : Ready i f.tok s s1) (hb : Allowed f k s1 (body s1))
    (ht : exec i s = .next t) : Framed f s s1 t (k.holds s t) := by
  obtain ⟨-, -, -, hpop⟩ := id hr
  have hpop : Within f k s s1 := within_popW hpop
  have out {u : State} (h : Within f k s1 u) (e : (.next u : Out) = .next t) : Framed f s s1 t (k.holds s t) := by
    cases e
    exact .inr (hpop.trans h)
  rw [hexec, runHart_ready hr] at ht
  cases hact : body s1 with
  | done u => rw [hact] at hb ht; exact out (hb.finish _ _) ht
  | jump u pc => rw [hact] at hb ht; exact out (hb.finish _ _) ht
  | wait w g => rw [hact] at hb ht; exact out (hb.trans (within_waiting w)) ht
  | trap c v => rw [hact] at hb ht; cases ht; exact .inl ⟨c, v, hb, rfl⟩
  | trapWith g c v => rw [hact] at hb; exact hb.elim
  | ended u => rw [hact] at hb; exact hb.elim
  | stop e => rw [hact] at ht; cases ht

end Sys2Proof.Frames
end

section
/-! SUPPORT. The frame of the instructions that work on registers alone: what each operand form allows with register operands, and the
footprint of every instruction. -/

namespace Sys2Proof.Frames

open Sys2Proof Sys2Proof.Machine Sys2Proof.Spec Sys2Proof.Operands

theorem or_and_left {n : Nat} (a b : BitVec n) : (a ||| b) &&& a = a := by
  ext i hi
  simp only [BitVec.getElem_and, BitVec.getElem_or]
  cases a[i] <;> simp

section Operands

variable {f : Footprint} {k : Kept} {s t : State} {r d a b c : Reg}

/-! Updates within a footprint. -/

theorem hartFrame_setX (h : r ∈ f.xd) (x : Hart) (v : UVal) : HartFrame f x (x.setX r v) := by
  refine ⟨fun q hq => ?_, fun _ _ => ?_, fun _ _ => ?_, fun _ _ => ?_, fun _ => ?_, ?_, ?_, ?_, ?_⟩
  · have hne : r.toNat ≠ q.toNat := fun e => hq (BitVec.eq_of_toNat_eq e ▸ h)
    unfold Hart.setX
    split
    · rfl
    · simp [Hart.xval, Vector.getElem?_setIfInBounds_ne hne]
  all_goals unfold Hart.setX; split
  all_goals first | rfl | exact BitVec.and_self

theorem hartFrame_setV (h : r ∈ f.vd) (x : Hart) (v : VVal) : HartFrame f x (x.setV r v) := by
  refine ⟨fun _ _ => rfl, fun q hq => ?_, fun _ _ => rfl, fun _ _ => rfl, fun _ => rfl, rfl, BitVec.and_self, BitVec.and_self, rfl⟩
  have hne : r.toNat ≠ q.toNat := fun e => hq (BitVec.eq_of_toNat_eq e ▸ h)
  simp [Hart.setV, Hart.vval, Vector.getElem?_setIfInBounds_ne hne]

theorem hartFrame_setM {m : MReg} (h : m ∈ f.md) (x : Hart) (v : Word) : HartFrame f x (x.setM m v) := by
  refine ⟨fun _ _ => ?_, fun _ _ => ?_, fun n hn => mval_setM_ne x (fun e => hn (by rwa [e])) v, fun _ _ => ?_, fun _ => ?_, ?_, ?_, ?_, ?_⟩
  all_goals unfold Hart.setM; split
  all_goals first | rfl | exact BitVec.and_self

theorem hartFrame_setP {p : PReg} (h : p ∈ f.pd) (x : Hart) (v : Bool) : HartFrame f x (x.setP p v) :=
  ⟨fun _ _ => rfl, fun _ _ => rfl, fun _ _ => rfl, fun _ hq => pval_setP_ne x (fun e => hq (by rwa [e])) v, fun _ => rfl, rfl,
    BitVec.and_self, BitVec.and_self, rfl⟩

/-- The flags of FCSR stand in its bits 4:0 (R160). -/
theorem toBits_and (g : FFlags) : BitVec.ofNat 8 g.toBits &&& 0xE0#8 = 0#8 := by
  obtain ⟨nv, dz, of, uf, nx⟩ := g
  cases nv <;> cases dz <;> cases of <;> cases uf <;> cases nx <;> decide

theorem hartFrame_raise (h : f.flags = true) (x : Hart) (g : FFlags) :
    HartFrame f x { x with fcsr := x.fcsr ||| BitVec.ofNat 8 g.toBits } := by
  refine ⟨fun _ _ => rfl, fun _ _ => rfl, fun _ _ => rfl, fun _ _ => rfl, fun e => absurd (h.symm.trans e) (by decide), ?_, ?_, BitVec.and_self, rfl⟩
  · rw [BitVec.and_or_distrib_right, toBits_and, BitVec.or_zero]
  · exact or_and_left _ _

theorem hartFrame_chkiv (x : Hart) (v : BitVec 5) : HartFrame f x { x with chkiv := x.chkiv ||| v } := by
  refine ⟨fun _ _ => rfl, fun _ _ => rfl, fun _ _ => rfl, fun _ _ => rfl, fun _ => rfl, rfl, BitVec.and_self, ?_, rfl⟩
  exact or_and_left _ _

theorem within_note (p : Bool) (n : Nat) : Within f k s (s.note p n) := by
  unfold State.note
  split
  · exact within_modHart (hartFrame_chkiv _ _) rfl rfl
  · exact within_refl f k s

theorem within_raise (h : f.flags = true) (g : FFlags) : Within f k s (s.raise g) := within_modHart (hartFrame_raise h _ g) rfl rfl

theorem within_status (h : 3#2 ∈ f.pd) (v : Bool) : Within f k s (s.status v) := within_modHart (hartFrame_setP h _ v) rfl rfl

/-! Operands that are registers. -/

theorem badSrcU_reg (hr : r.toNat < 24) : s.badSrcU r = false := by simp [State.badSrcU, show ¬ 24 ≤ r.toNat by omega]

theorem badDstU_reg (hr : r.toNat < 24) : s.badDstU r = false := by simp [State.badDstU, show ¬ 24 ≤ r.toNat by omega]

theorem badSrcV_reg (hr : r.toNat < 28) : s.badSrcV r = false := by simp [State.badSrcV, show ¬ 28 ≤ r.toNat by omega]

theorem badDstV_reg (hr : r.toNat < 28) : s.badDstV r = false := by simp [State.badDstV, show ¬ 28 ≤ r.toNat by omega]

/-- A source register is there, with the state as it was, or waits for a load. -/
theorem allowed_srcU {body : UVal → State → Act} (hr : r.toNat < 24) (h : ∀ v, Allowed f k s (body v s)) :
    Allowed f k s (srcU s r body) := by
  unfold srcU
  cases hb : s.hart.xBusy r
  · rw [readU_reg hr hb]; exact h _
  · rw [readU_busy hr hb]; exact within_refl f k s

theorem allowed_srcV {body : VVal → State → Act} (hr : r.toNat < 28) (h : ∀ v, Allowed f k s (body v s)) :
    Allowed f k s (srcV s r body) := by
  unfold srcV State.readV
  rw [if_pos hr]
  split
  · next hw => split at hw <;> cases hw; exact h _
  · exact within_refl f k s
  · next hw => split at hw <;> cases hw

/-- A destination register is written, or waits for a load: then nothing is done (R32). -/
theorem allowed_dstU {v : UVal} (hr : r.toNat < 24) (hd : r ∈ f.xd) (h : Within f k s t) : Allowed f k s (dstU t r v) := by
  unfold dstU
  cases hb : t.hart.xBusy r
  · rw [putU_reg hr hb]; exact h.trans (within_modHart (hartFrame_setX hd _ v) (Hart.setX_loads ..) (Hart.setX_stores ..))
  · rw [putU_busy hr hb]; exact within_refl f k s

theorem allowed_dstV {g : VVal → Bool → VVal} (hr : r.toNat < 28) (hd : r ∈ f.vd) (h : Within f k s t) :
    Allowed f k s (dstV t r g) := by
  unfold dstV State.putV
  rw [if_pos hr]
  split
  · exact within_refl f k s
  · exact h.trans (within_modHart (hartFrame_setV hd _ _) rfl rfl)

theorem allowed_andThen_jump {x : Act} {target : Word} (h : Allowed f k s x) :
    Allowed f k s (x.andThen fun t => .jump t target) := by
  cases x <;> exact h

/-! The shapes of the bodies. -/

theorem allowed_uniform2 {g : UVal → UVal → State → State × UVal} (hd : d.toNat < 24) (ha : a.toNat < 24) (hb : b.toNat < 24)
    (hx : d ∈ f.xd) (h : ∀ x y, Within f k s (g x y s).1) : Allowed f k s (uniform2 s d a b g) := by
  unfold uniform2
  rw [guardMap_ok (by simp [badSrcU_reg, badDstU_reg, hd, ha, hb])]
  exact allowed_srcU ha fun x => allowed_srcU hb fun y => allowed_dstU hd hx (h x y)

theorem allowed_uniform1 {g : UVal → State → State × UVal} (hd : d.toNat < 24) (ha : a.toNat < 24) (hx : d ∈ f.xd)
    (h : ∀ x, Within f k s (g x s).1) : Allowed f k s (uniform1 s d a g) := by
  unfold uniform1
  rw [guardMap_ok (by simp [badSrcU_reg, badDstU_reg, hd, ha])]
  exact allowed_srcU ha fun x => allowed_dstU hd hx (h x)

theorem allowed_intOp {g : Word → Word → Word} (hd : d.toNat < 24) (ha : a.toNat < 24) (hb : b.toNat < 24) (hx : d ∈ f.xd) :
    Allowed f k s (intOp d a b g s) := allowed_uniform2 hd ha hb hx fun _ _ => within_refl f k s

theorem allowed_divOp {g : Word → Word → Word × Bool} (hd : d.toNat < 24) (ha : a.toNat < 24) (hb : b.toNat < 24) (hx : d ∈ f.xd)
    (hp : 3#2 ∈ f.pd) : Allowed f k s (divOp d a b g s) :=
  allowed_uniform2 hd ha hb hx fun _ _ => (within_note _ 1).trans (within_status hp _)

theorem allowed_intImm {g : Word → Word} (hd : d.toNat < 24) (ha : a.toNat < 24) (hx : d ∈ f.xd) :
    Allowed f k s (intImm d a g s) := allowed_uniform1 hd ha hx fun _ => within_refl f k s

theorem allowed_intConst {v : Word} (hd : d.toNat < 24) (hx : d ∈ f.xd) : Allowed f k s (intConst d v s) := by
  unfold intConst
  rw [guardMap_ok (by simp [badDstU_reg, hd])]
  exact allowed_dstU hd hx (within_refl f k s)

theorem allowed_psetOp {cc : IntCC} {p : PReg} (ha : a.toNat < 24) (hb : b.toNat < 24) (hp : p ∈ f.pd) :
    Allowed f k s (psetOp cc p a b s) := by
  unfold psetOp
  rw [guardMap_ok (by simp [badSrcU_reg, ha, hb])]
  exact allowed_srcU ha fun x => allowed_srcU hb fun y =>
    (within_note _ 1).trans (within_modHart (hartFrame_setP hp _ _) rfl rfl)

theorem allowed_branchTo {taken p : Bool} {target : Word} : Allowed f k s (branchTo taken p target s) := by
  unfold branchTo
  split <;> exact within_note _ 1

theorem allowed_branchOp {cc : IntCC} {target : Word} (ha : a.toNat < 24) (hb : b.toNat < 24) :
    Allowed f k s (branchOp cc a b target s) := by
  unfold branchOp
  rw [guardMap_ok (by simp [badSrcU_reg, ha, hb])]
  exact allowed_srcU ha fun x => allowed_srcU hb fun y => allowed_branchTo

theorem allowed_jumpLink {off : Word} {n : Nat} (hd : d.toNat < 24) (ha : a.toNat < 24) (hx : d ∈ f.xd) :
    Allowed f k s (jumpLink d a off n s) :=
  allowed_srcU ha fun _ => allowed_andThen_jump (allowed_dstU hd hx (within_note _ 1))

theorem allowed_maskDone {m : MReg} {v : Word} {p : Bool} (hm : m ∈ f.md) (h : Within f k s t) : Allowed f k s (maskDone t m v p) :=
  (h.trans (within_note p 1)).trans (within_modHart (hartFrame_setM hm _ v) (Hart.setM_loads ..) (Hart.setM_stores ..))

theorem allowed_floatDone {r : ElemRes} {p : Bool} (hd : d.toNat < 24) (hx : d ∈ f.xd) (hf : f.flags = true)
    (ht : 0x0D ∈ f.traps) : Allowed f k s (floatDone s d r p) := by
  unfold floatDone
  split
  · exact ht
  · exact allowed_dstU hd hx (within_raise hf _)

theorem allowed_vecDone {g : VVal → Bool → VecRes} (hd : d.toNat < 28) (hv : d ∈ f.vd) (hf : f.flags = true)
    (ht : 0x0D ∈ f.traps) : Allowed f k s (vecDone s d g) := by
  simp only [vecDone]
  split
  · exact ht
  · exact allowed_dstV hd hv (within_raise hf _)

theorem allowed_floatOp {op : FOp} {rm : BitVec 3} (hd : d.toNat < 24) (ha : a.toNat < 24) (hb : b.toNat < 24) (hx : d ∈ f.xd)
    (hf : f.flags = true) (ht : 0x0D ∈ f.traps) : Allowed f k s (floatOp op rm d a b s) := by
  unfold floatOp
  rw [guardMap_ok (by simp [badSrcU_reg, badDstU_reg, hd, ha, hb])]
  exact allowed_srcU ha fun x => allowed_srcU hb fun y => allowed_floatDone hd hx hf ht

theorem allowed_floatOp3 {op : FOp} (hd : d.toNat < 24) (ha : a.toNat < 24) (hb : b.toNat < 24) (hc : c.toNat < 24) (hx : d ∈ f.xd)
    (hf : f.flags = true) (ht : 0x0D ∈ f.traps) : Allowed f k s (floatOp3 op d a b c s) := by
  unfold floatOp3
  rw [guardMap_ok (by simp [badSrcU_reg, badDstU_reg, hd, ha, hb, hc])]
  exact allowed_srcU ha fun x => allowed_srcU hb fun y => allowed_srcU hc fun z => allowed_floatDone hd hx hf ht

theorem allowed_floatCompare {cc : FltCC} (hd : d.toNat < 24) (ha : a.toNat < 24) (hb : b.toNat < 24) (hx : d ∈ f.xd)
    (hf : f.flags = true) : Allowed f k s (floatCompare cc d a b s) :=
  allowed_uniform2 hd ha hb hx fun _ _ => within_raise hf _

theorem allowed_floatConvert {dt rm st : BitVec 3} (hd : d.toNat < 24) (ha : a.toNat < 24) (hx : d ∈ f.xd) (hf : f.flags = true)
    (ht : 0x0D ∈ f.traps) : Allowed f k s (floatConvert dt rm st d a s) := by
  unfold floatConvert
  rw [guardMap_ok (by simp [badSrcU_reg, badDstU_reg, hd, ha])]
  refine allowed_srcU ha fun x => ?_
  simp only
  split
  · exact ht
  · exact allowed_dstU hd hx (within_raise hf _)

theorem allowed_vector2 {g : VVal → VVal → VVal → Bool → VVal} (hd : d.toNat < 28) (ha : a.toNat < 28) (hb : b.toNat < 28)
    (hv : d ∈ f.vd) : Allowed f k s (vector2 s d a b g) := by
  unfold vector2
  rw [guardMap_ok (by simp [badSrcV_reg, badDstV_reg, hd, ha, hb])]
  exact allowed_srcV ha fun x => allowed_srcV hb fun y => allowed_dstV hd hv (within_refl f k s)

theorem allowed_vector1 {g : VVal → VVal → Bool → VVal} (hd : d.toNat < 28) (ha : a.toNat < 28) (hv : d ∈ f.vd) :
    Allowed f k s (vector1 s d a g) := by
  unfold vector1
  rw [guardMap_ok (by simp [badSrcV_reg, badDstV_reg, hd, ha])]
  exact allowed_srcV ha fun x => allowed_dstV hd hv (within_refl f k s)

theorem allowed_vecFloat {op : FOp} {e : FltW} {m : MReg} (hd : d.toNat < 28) (ha : a.toNat < 28) (hb : b.toNat < 28) (hv : d ∈ f.vd)
    (hf : f.flags = true) (ht : 0x0D ∈ f.traps) : Allowed f k s (vecFloat op e m d a b s) := by
  unfold vecFloat
  rw [guardMap_ok (by simp [badSrcV_reg, badDstV_reg, hd, ha, hb])]
  exact allowed_srcV ha fun x => allowed_srcV hb fun y => allowed_vecDone hd hv hf ht

theorem allowed_vecFloat3 {op : FOp} {e : FltW} {m : MReg} (hd : d.toNat < 28) (ha : a.toNat < 28) (hb : b.toNat < 28)
    (hc : c.toNat < 28) (hv : d ∈ f.vd) (hf : f.flags = true) (ht : 0x0D ∈ f.traps) : Allowed f k s (vecFloat3 op e m d a b c s) := by
  unfold vecFloat3
  rw [guardMap_ok (by simp [badSrcV_reg, badDstV_reg, hd, ha, hb, hc])]
  exact allowed_srcV ha fun x => allowed_srcV hb fun y => allowed_srcV hc fun z => allowed_vecDone hd hv hf ht

/-- One vector source and the end of a vector float instruction. -/
theorem allowed_vecSource {g : VVal → State → VVal → Bool → VecRes} (hd : d.toNat < 28) (ha : a.toNat < 28) (hv : d ∈ f.vd)
    (hf : f.flags = true) (ht : 0x0D ∈ f.traps) :
    Allowed f k s (guardMap [(s.badSrcV a, a), (s.badDstV d, d)] (srcV s a fun x s => vecDone s d (g x s))) := by
  rw [guardMap_ok (by simp [badSrcV_reg, badDstV_reg, hd, ha])]
  exact allowed_srcV ha fun x => allowed_vecDone hd hv hf ht

theorem allowed_vecReduce {op : RedOp} {e : IntW} {m : MReg} (hd : d.toNat < 24) (ha : a.toNat < 28) (hx : d ∈ f.xd)
    (hp : 3#2 ∈ f.pd) : Allowed f k s (vecReduce op e m d a s) := by
  simp only [vecReduce]
  rw [guardMap_ok (by simp [badSrcV_reg, badDstU_reg, hd, ha])]
  exact allowed_srcV ha fun x => allowed_dstU hd hx (within_status hp _)

theorem allowed_vecFloatReduce {op : FRed} {e : FltW} {m : MReg} (hd : d.toNat < 24) (ha : a.toNat < 28) (hx : d ∈ f.xd)
    (hf : f.flags = true) (ht : 0x0D ∈ f.traps) : Allowed f k s (vecFloatReduce op e m d a s) := by
  simp only [vecFloatReduce]
  rw [guardMap_ok (by simp [badSrcV_reg, badDstU_reg, hd, ha])]
  exact allowed_srcV ha fun x => allowed_floatDone hd hx hf ht

theorem allowed_slideOp {up : Bool} {m : MReg} (hd : d.toNat < 28) (ha : a.toNat < 28) (hb : b.toNat < 24) (hv : d ∈ f.vd) :
    Allowed f k s (slideOp up m d a b s) := by
  unfold slideOp
  rw [guardMap_ok (by simp [badSrcV_reg, badSrcU_reg, badDstV_reg, hd, ha, hb])]
  exact allowed_srcV ha fun x => allowed_srcU hb fun y => allowed_dstV hd hv (within_refl f k s)

theorem allowed_dotOp {m : MReg} (hd : d.toNat < 28) (ha : a.toNat < 28) (hb : b.toNat < 28) (hv : d ∈ f.vd) :
    Allowed f k s (dotOp m d a b s) := by
  unfold dotOp
  rw [guardMap_ok (by simp [badSrcV_reg, badDstV_reg, hd, ha, hb])]
  exact allowed_srcV ha fun x => allowed_srcV hb fun y => allowed_srcV hd fun z => allowed_dstV hd hv (within_refl f k s)

theorem allowed_uniformLanes {m : MReg} (hd : d.toNat < 24) (ha : a.toNat < 28) (hx : d ∈ f.xd) (hp : 3#2 ∈ f.pd)
    (ht : 0x0E ∈ f.traps) : Allowed f k s (uniformLanes m d a s) := by
  simp only [uniformLanes]
  rw [guardMap_ok (by simp [badSrcV_reg, badDstU_reg, hd, ha])]
  refine allowed_srcV ha fun x => ?_
  split
  · exact ht
  · exact allowed_dstU hd hx ((within_note _ 1).trans (within_status hp _))

end Operands

end Sys2Proof.Frames
end

section
/-! SUPPORT. The frame of the instructions that work on registers alone, constructor by constructor. -/

namespace Sys2Proof.Frames

open Sys2Proof Sys2Proof.Machine Sys2Proof.Spec Sys2Proof.Operands

/-- An instruction with a footprint runs a body that keeps to it. -/
def KeepsTo (i : Instr) (f : Footprint) : Prop :=
  ∃ body, (∀ s, exec i s = runHart i f.tok s body) ∧ ∀ k s, Allowed f k s (body s)

theorem allowed_fsqrt {f : Footprint} {k : Kept} {s : State} {rm : BitVec 3} {d a : Reg} (hd : d.toNat < 24) (ha : a.toNat < 24)
    (hx : d ∈ f.xd) (hf : f.flags = true) (ht : 0x0D ∈ f.traps) :
    Allowed f k s (guardMap [(s.badSrcU a, a), (s.badDstU d, d)]
      (srcU s a fun x s => floatDone s d (fElem .sqrt .fp32 (s.hart.mode rm) s.hart.thr x.fin x.fin x.fin) x.poison)) := by
  rw [guardMap_ok (by simp [badSrcU_reg, badDstU_reg, hd, ha])]
  exact allowed_srcU ha fun x => allowed_floatDone hd hx hf ht

/-- c.jr links to x0, which changes nothing (R46, R65). -/
theorem allowed_cJr {f : Footprint} {k : Kept} {s : State} {a : Reg} {off : Word} {n : Nat} (ha : a.toNat < 24) :
    Allowed f k s (jumpLink 0#5 a off n s) := by
  refine allowed_srcU ha fun x => allowed_andThen_jump ?_
  unfold dstU
  rw [putU_reg (by decide) (xBusy_zero _)]
  refine (within_note _ 1).trans (within_modHart ?_ ?_ ?_) <;> rw [setX_zero]
  exact hartFrame_refl f _

section Vectors

variable {f : Footprint} {k : Kept} {s : State} {d a b c : Reg} {m n : MReg}

theorem allowed_vfcmp {e : FltW} {o : FltCC} (ha : a.toNat < 28) (hb : b.toNat < 28) (hn : n ∈ f.md) (hf : f.flags = true) :
    Allowed f k s (guardMap [(s.badSrcV a, a), (s.badSrcV b, b)] (srcV s a fun x s => srcV s b fun y s =>
      maskDone (s.raise (vfCompare o e (s.hart.mval m) x y).2) n (vfCompare o e (s.hart.mval m) x y).1
        (anyPoison (s.hart.mval m) x || anyPoison (s.hart.mval m) y))) := by
  rw [guardMap_ok (by simp [badSrcV_reg, ha, hb])]
  exact allowed_srcV ha fun x => allowed_srcV hb fun y => allowed_maskDone hn (within_raise hf _)

theorem allowed_vcmp {e : IntW} {o : IntCC} (ha : a.toNat < 28) (hb : b.toNat < 28) (hn : n ∈ f.md) :
    Allowed f k s (guardMap [(s.badSrcV a, a), (s.badSrcV b, b)] (srcV s a fun x s => srcV s b fun y s =>
      maskDone s n (viCompare o e (s.hart.mval m) x y) (anyPoison (s.hart.mval m) x || anyPoison (s.hart.mval m) y))) := by
  rw [guardMap_ok (by simp [badSrcV_reg, ha, hb])]
  exact allowed_srcV ha fun x => allowed_srcV hb fun y => allowed_maskDone hn (within_refl f k s)

theorem allowed_vtsblt {e : FltW} (ha : a.toNat < 28) (hb : b.toNat < 24) (hn : n ∈ f.md) :
    Allowed f k s (guardMap [(s.badSrcV a, a), (s.badSrcU b, b)] (srcV s a fun x s => srcU s b fun y s =>
      maskDone s n (vTagsBelow e (s.hart.mval m) x y.val.toNat) (anyPoison (s.hart.mval m) x || y.poison))) := by
  rw [guardMap_ok (by simp [badSrcV_reg, badSrcU_reg, ha, hb])]
  exact allowed_srcV ha fun x => allowed_srcU hb fun y => allowed_maskDone hn (within_refl f k s)

theorem allowed_vsettsb {e : FltW} (hd : d.toNat < 28) (ha : a.toNat < 28) (hb : b.toNat < 24) (hv : d ∈ f.vd) :
    Allowed f k s (guardMap [(s.badSrcV a, a), (s.badSrcU b, b), (s.badDstV d, d)] (srcV s a fun x s => srcU s b fun y s =>
      dstV s d (vSetTags e (s.hart.mval m) x y.val.toNat y.poison))) := by
  rw [guardMap_ok (by simp [badSrcV_reg, badSrcU_reg, badDstV_reg, hd, ha, hb])]
  exact allowed_srcV ha fun x => allowed_srcU hb fun y => allowed_dstV hd hv (within_refl f k s)

theorem allowed_vclip {e : IntW} (hd : d.toNat < 28) (ha : a.toNat < 28) (hb : b.toNat < 28) (hc : c.toNat < 28) (hv : d ∈ f.vd) :
    Allowed f k s (Moves.vclipBody e m d a b c s) := by
  unfold Moves.vclipBody
  rw [guardMap_ok (by simp [badSrcV_reg, badDstV_reg, hd, ha, hb, hc])]
  exact allowed_srcV ha fun x => allowed_srcV hb fun y => allowed_srcV hc fun z => allowed_dstV hd hv (within_refl f k s)

theorem allowed_xtov (hd : d.toNat < 28) (ha : a.toNat < 24) (hv : d ∈ f.vd) :
    Allowed f k s (guardMap [(s.badSrcU a, a), (s.badDstV d, d)]
      (srcU s a fun x s => dstV s d (vbroadcast (s.hart.mval m) x))) := by
  rw [guardMap_ok (by simp [badSrcU_reg, badDstV_reg, hd, ha])]
  exact allowed_srcU ha fun x => allowed_dstV hd hv (within_refl f k s)

theorem allowed_vtox (hd : d.toNat < 24) (ha : a.toNat < 28) (hx : d ∈ f.xd) (hp : 3#2 ∈ f.pd) :
    Allowed f k s (Moves.vtoxBody m d a s) := by
  unfold Moves.vtoxBody
  rw [guardMap_ok (by simp [badSrcV_reg, badDstU_reg, hd, ha])]
  exact allowed_srcV ha fun x => allowed_dstU hd hx (within_status hp _)

theorem allowed_xtom (ha : a.toNat < 24) (hn : n ∈ f.md) :
    Allowed f k s (guardMap [(s.badSrcU a, a)] (srcU s a fun x s => maskDone s n x.val x.poison)) := by
  rw [guardMap_ok (by simp [badSrcU_reg, ha])]
  exact allowed_srcU ha fun x => allowed_maskDone hn (within_refl f k s)

end Vectors

/-! What holds of every register of a short list. -/

theorem forall_mem_one {P : Reg → Prop} {a : Reg} (h : ∀ r ∈ [a], P r) : P a := h a List.mem_cons_self

theorem forall_mem_pair {P : Reg → Prop} {a b : Reg} (h : ∀ r ∈ [a, b], P r) : P a ∧ P b :=
  ⟨h a List.mem_cons_self, h b (List.mem_cons_of_mem a List.mem_cons_self)⟩

theorem forall_mem_triple {P : Reg → Prop} {a b c : Reg} (h : ∀ r ∈ [a, b, c], P r) : P a ∧ P b ∧ P c :=
  ⟨h a List.mem_cons_self, forall_mem_pair fun r hr => h r (List.mem_cons_of_mem a hr)⟩

theorem forall_mem_four {P : Reg → Prop} {a b c d : Reg} (h : ∀ r ∈ [a, b, c, d], P r) : P a ∧ P b ∧ P c ∧ P d :=
  ⟨h a List.mem_cons_self, forall_mem_triple fun r hr => h r (List.mem_cons_of_mem a hr)⟩

/-- Every instruction that works on registers alone keeps to its footprint when its operands are registers. -/
theorem keepsTo_of_footprint {i : Instr} {f : Footprint} (hf : footprint i = some f) (hu : ∀ r ∈ f.us, r.toNat < 24)
    (hv : ∀ r ∈ f.vs, r.toNat < 28) : KeepsTo i f := by
  cases i
  case add tk d a b | sub tk d a b | and tk d a b | or tk d a b | xor tk d a b | sll tk d a b | srl tk d a b | sra tk d a b |
    slt tk d a b | sltu tk d a b | min tk d a b | max tk d a b | minu tk d a b | maxu tk d a b | mul tk d a b | mulh tk d a b |
    mulhu tk d a b | lea tk sh d a b =>
    obtain rfl := Option.some.inj hf
    obtain ⟨hd, ha, hb⟩ := forall_mem_triple hu
    exact ⟨_, fun _ => rfl, fun _ _ => allowed_intOp hd ha hb (List.mem_singleton_self _)⟩
  case div tk d a b | divu tk d a b | rem tk d a b | remu tk d a b =>
    obtain rfl := Option.some.inj hf
    obtain ⟨hd, ha, hb⟩ := forall_mem_triple hu
    exact ⟨_, fun _ => rfl, fun _ _ => allowed_divOp hd ha hb (List.mem_singleton_self _) (List.mem_singleton_self _)⟩
  case clz tk d a | ctz tk d a | popc tk d a | fclass tk d a | addi tk d a imm | andi tk d a imm | ori tk d a imm |
    xori tk d a imm | slti tk d a imm | slli tk d a sh | srli tk d a sh | srai tk d a sh =>
    obtain rfl := Option.some.inj hf
    obtain ⟨hd, ha⟩ := forall_mem_pair hu
    exact ⟨_, fun _ => rfl, fun _ _ => allowed_intImm hd ha (List.mem_singleton_self _)⟩
  case jalr tk d a imm =>
    obtain rfl := Option.some.inj hf
    obtain ⟨hd, ha⟩ := forall_mem_pair hu
    exact ⟨_, fun _ => rfl, fun _ _ => allowed_jumpLink hd ha (List.mem_singleton_self _)⟩
  case lih tk d imm | addpc tk d imm =>
    obtain rfl := Option.some.inj hf
    have hd := forall_mem_one hu
    exact ⟨_, fun _ => rfl, fun _ _ => allowed_intConst hd (List.mem_singleton_self _)⟩
  case mtox tk d m | mpop tk d m | mfirst tk d m =>
    obtain rfl := Option.some.inj hf
    have hd := forall_mem_one hu
    exact ⟨_, fun _ => rfl, fun _ _ => allowed_intConst hd (List.mem_singleton_self _)⟩
  case pset tk cc p a b =>
    obtain rfl := Option.some.inj hf
    obtain ⟨ha, hb⟩ := forall_mem_pair hu
    exact ⟨_, fun _ => rfl, fun _ _ => allowed_psetOp ha hb (List.mem_singleton_self _)⟩
  case j tk imm | cJ imm =>
    obtain rfl := Option.some.inj hf
    exact ⟨_, fun _ => rfl, fun _ _ => within_refl _ _ _⟩
  case cNop =>
    obtain rfl := Option.some.inj hf
    exact ⟨_, fun _ => rfl, fun _ _ => within_refl _ _ _⟩
  case bp tk p imm | bany tk m imm | ball tk m imm | bnone tk m imm =>
    obtain rfl := Option.some.inj hf
    exact ⟨_, fun _ => rfl, fun _ _ => allowed_branchTo⟩
  case jal tk imm =>
    obtain rfl := Option.some.inj hf
    exact ⟨_, fun _ => rfl, fun _ _ => allowed_andThen_jump (allowed_dstU (by decide) (List.mem_singleton_self _) (within_refl _ _ _))⟩
  case beq tk a b imm | bne tk a b imm | blt tk a b imm | bge tk a b imm | bltu tk a b imm | bgeu tk a b imm =>
    obtain rfl := Option.some.inj hf
    obtain ⟨ha, hb⟩ := forall_mem_pair hu
    exact ⟨_, fun _ => rfl, fun _ _ => allowed_branchOp ha hb⟩
  case btsb tk a thr imm =>
    obtain rfl := Option.some.inj hf
    have ha := forall_mem_one hu
    exact ⟨_, fun _ => rfl, fun _ _ => allowed_srcU ha fun _ => allowed_branchTo⟩
  case fadd tk rm d a b | fsub tk rm d a b | fmul tk rm d a b | fdiv tk rm d a b | fmin tk d a b | fmax tk d a b =>
    obtain rfl := Option.some.inj hf
    obtain ⟨hd, ha, hb⟩ := forall_mem_triple hu
    exact ⟨_, fun _ => rfl, fun _ _ => allowed_floatOp hd ha hb (List.mem_singleton_self _) rfl (List.mem_singleton_self _)⟩
  case feq tk d a b | flt tk d a b | fle tk d a b =>
    obtain rfl := Option.some.inj hf
    obtain ⟨hd, ha, hb⟩ := forall_mem_triple hu
    exact ⟨_, fun _ => rfl, fun _ _ => allowed_floatCompare hd ha hb (List.mem_singleton_self _) rfl⟩
  case fsqrt tk rm d a =>
    obtain rfl := Option.some.inj hf
    obtain ⟨hd, ha⟩ := forall_mem_pair hu
    exact ⟨_, fun _ => rfl, fun _ _ => allowed_fsqrt hd ha (List.mem_singleton_self _) rfl (List.mem_singleton_self _)⟩
  case fcvt tk dt rm st d a =>
    obtain rfl := Option.some.inj hf
    obtain ⟨hd, ha⟩ := forall_mem_pair hu
    exact ⟨_, fun _ => rfl, fun _ _ => allowed_floatConvert hd ha (List.mem_singleton_self _) rfl (List.mem_singleton_self _)⟩
  case fma tk d a b c | fnma tk d a b c =>
    obtain rfl := Option.some.inj hf
    obtain ⟨hd, ha, hb, hc⟩ := forall_mem_four hu
    exact ⟨_, fun _ => rfl, fun _ _ => allowed_floatOp3 hd ha hb hc (List.mem_singleton_self _) rfl (List.mem_singleton_self _)⟩
  case cMv d b =>
    obtain rfl := Option.some.inj hf
    obtain ⟨hd, hb⟩ := forall_mem_pair hu
    exact ⟨_, fun _ => rfl, fun _ _ => allowed_intOp hd (by decide) hb (List.mem_singleton_self _)⟩
  case cAdd d b | cSub d b | cAnd d b | cOr d b | cXor d b | cSlt d b | cSltu d b | cMul d b =>
    obtain rfl := Option.some.inj hf
    obtain ⟨hd, hb⟩ := forall_mem_pair hu
    exact ⟨_, fun _ => rfl, fun _ _ => allowed_intOp hd hd hb (List.mem_singleton_self _)⟩
  case cAddi d i | cSlli d i | cSrli d i | cSrai d i | cAndi d i =>
    obtain rfl := Option.some.inj hf
    have hd := forall_mem_one hu
    exact ⟨_, fun _ => rfl, fun _ _ => allowed_intImm hd hd (List.mem_singleton_self _)⟩
  case cLi d i =>
    obtain rfl := Option.some.inj hf
    have hd := forall_mem_one hu
    exact ⟨_, fun _ => rfl, fun _ _ => allowed_intImm hd (by decide) (List.mem_singleton_self _)⟩
  case cBeqz a i | cBnez a i =>
    obtain rfl := Option.some.inj hf
    have ha := forall_mem_one hu
    exact ⟨_, fun _ => rfl, fun _ _ => allowed_branchOp ha (by decide)⟩
  case cJr a =>
    obtain rfl := Option.some.inj hf
    have ha := forall_mem_one hu
    exact ⟨_, fun _ => rfl, fun _ _ => allowed_cJr ha⟩
  case cJalr a =>
    obtain rfl := Option.some.inj hf
    have ha := forall_mem_one hu
    exact ⟨_, fun _ => rfl, fun _ _ => allowed_jumpLink (by decide) ha (List.mem_singleton_self _)⟩
  case vadd tk e m d a b | vsub tk e m d a b | vmul tk e m d a b | vmulh tk e m d a b | vmin tk e m d a b | vmax tk e m d a b |
    vand tk e m d a b | vor tk e m d a b | vxor tk e m d a b | vsll tk e m d a b | vsrl tk e m d a b | vsra tk e m d a b |
    vsel tk e m d a b | vperm tk m d a b =>
    obtain rfl := Option.some.inj hf
    obtain ⟨hd, ha, hb⟩ := forall_mem_triple hv
    exact ⟨_, fun _ => rfl, fun _ _ => allowed_vector2 hd ha hb (List.mem_singleton_self _)⟩
  case vdot4 tk m d a b =>
    obtain rfl := Option.some.inj hf
    obtain ⟨hd, ha, hb⟩ := forall_mem_triple hv
    exact ⟨_, fun _ => rfl, fun _ _ => allowed_dotOp hd ha hb (List.mem_singleton_self _)⟩
  case vclip tk e m d a b c =>
    obtain rfl := Option.some.inj hf
    obtain ⟨hd, ha, hb, hc⟩ := forall_mem_four hv
    exact ⟨_, fun _ => rfl, fun _ _ => allowed_vclip hd ha hb hc (List.mem_singleton_self _)⟩
  case vscanAdd tk e m d a | vtsb tk e m d a =>
    obtain rfl := Option.some.inj hf
    obtain ⟨hd, ha⟩ := forall_mem_pair hv
    exact ⟨_, fun _ => rfl, fun _ _ => allowed_vector1 hd ha (List.mem_singleton_self _)⟩
  case vcmp tk e o m n a b =>
    obtain rfl := Option.some.inj hf
    obtain ⟨ha, hb⟩ := forall_mem_pair hv
    exact ⟨_, fun _ => rfl, fun _ _ => allowed_vcmp ha hb (List.mem_singleton_self _)⟩
  case vfcmp tk e o m n a b =>
    obtain rfl := Option.some.inj hf
    obtain ⟨ha, hb⟩ := forall_mem_pair hv
    exact ⟨_, fun _ => rfl, fun _ _ => allowed_vfcmp ha hb (List.mem_singleton_self _) rfl⟩
  case vredAdd tk e m d a | vredMin tk e m d a | vredMax tk e m d a =>
    obtain rfl := Option.some.inj hf
    have hd := forall_mem_one hu
    have ha := forall_mem_one hv
    exact ⟨_, fun _ => rfl, fun _ _ => allowed_vecReduce hd ha (List.mem_singleton_self _) (List.mem_singleton_self _)⟩
  case vfadd tk e m d a b | vfsub tk e m d a b | vfmul tk e m d a b | vfdiv tk e m d a b | vfmin tk e m d a b |
    vfmax tk e m d a b =>
    obtain rfl := Option.some.inj hf
    obtain ⟨hd, ha, hb⟩ := forall_mem_triple hv
    exact ⟨_, fun _ => rfl, fun _ _ => allowed_vecFloat hd ha hb (List.mem_singleton_self _) rfl (List.mem_singleton_self _)⟩
  case vfma tk e m d a b c | vfnma tk e m d a b c =>
    obtain rfl := Option.some.inj hf
    obtain ⟨hd, ha, hb, hc⟩ := forall_mem_four hv
    exact ⟨_, fun _ => rfl, fun _ _ => allowed_vecFloat3 hd ha hb hc (List.mem_singleton_self _) rfl (List.mem_singleton_self _)⟩
  case vfsqrt tk e m d a | vcvt tk e m d a sel st | vcvtI tk e m d a sel st | vscanFadd tk e m d a | vexp2 tk m d a |
    vlog2 tk m d a | vrcp tk m d a | vrsq tk m d a | vsin tk m d a | vcos tk m d a =>
    obtain rfl := Option.some.inj hf
    obtain ⟨hd, ha⟩ := forall_mem_pair hv
    exact ⟨_, fun _ => rfl, fun _ _ => allowed_vecSource hd ha (List.mem_singleton_self _) rfl (List.mem_singleton_self _)⟩
  case vredFadd tk e m d a | vredFmin tk e m d a | vredFmax tk e m d a =>
    obtain rfl := Option.some.inj hf
    have hd := forall_mem_one hu
    have ha := forall_mem_one hv
    exact ⟨_, fun _ => rfl, fun _ _ => allowed_vecFloatReduce hd ha (List.mem_singleton_self _) rfl (List.mem_singleton_self _)⟩
  case vtsblt tk e m n a b =>
    obtain rfl := Option.some.inj hf
    have hb := forall_mem_one hu
    have ha := forall_mem_one hv
    exact ⟨_, fun _ => rfl, fun _ _ => allowed_vtsblt ha hb (List.mem_singleton_self _)⟩
  case vsettsb tk e m d a b =>
    obtain rfl := Option.some.inj hf
    have hb := forall_mem_one hu
    obtain ⟨hd, ha⟩ := forall_mem_pair hv
    exact ⟨_, fun _ => rfl, fun _ _ => allowed_vsettsb hd ha hb (List.mem_singleton_self _)⟩
  case vslideUp tk m d a b | vslideDn tk m d a b =>
    obtain rfl := Option.some.inj hf
    have hb := forall_mem_one hu
    obtain ⟨hd, ha⟩ := forall_mem_pair hv
    exact ⟨_, fun _ => rfl, fun _ _ => allowed_slideOp hd ha hb (List.mem_singleton_self _)⟩
  case xtov tk m d a =>
    obtain rfl := Option.some.inj hf
    have ha := forall_mem_one hu
    have hd := forall_mem_one hv
    exact ⟨_, fun _ => rfl, fun _ _ => allowed_xtov hd ha (List.mem_singleton_self _)⟩
  case vtox tk m d a =>
    obtain rfl := Option.some.inj hf
    have hd := forall_mem_one hu
    have ha := forall_mem_one hv
    exact ⟨_, fun _ => rfl, fun _ _ => allowed_vtox hd ha (List.mem_singleton_self _) (List.mem_singleton_self _)⟩
  case vtoxa tk m d a =>
    obtain rfl := Option.some.inj hf
    have hd := forall_mem_one hu
    have ha := forall_mem_one hv
    exact ⟨_, fun _ => rfl, fun _ _ => allowed_uniformLanes hd ha (List.mem_singleton_self _) (List.mem_singleton_self _) (List.mem_singleton_self _)⟩
  case xtom tk m a =>
    obtain rfl := Option.some.inj hf
    have ha := forall_mem_one hu
    exact ⟨_, fun _ => rfl, fun _ _ => allowed_xtom ha (List.mem_singleton_self _)⟩
  case mand tk m n o | mor tk m n o | mxor tk m n o | mnot tk m n =>
    obtain rfl := Option.some.inj hf
    exact ⟨_, fun _ => rfl, fun _ _ => allowed_maskDone (List.mem_singleton_self _) (within_refl _ _ _)⟩
  all_goals exact (Option.some_ne_none f hf.symm).elim

/-- Settles O31: with register operands each body keeps to its footprint, and so does what `runHart` makes of it. -/
theorem registerInstructionsFrame : Obligations.RegisterInstructionsFrame := by
  intro i f s s1 t hf hu hv hr ht
  obtain ⟨body, hexec, hbody⟩ := keepsTo_of_footprint hf hu hv
  have h := framed_of_allowed (k := ⟨true, true, true⟩) (hexec s) hr (hbody _ s1) ht
  simpa only [Kept.holds, forall_const] using h

end Sys2Proof.Frames
end

section
/-! SUPPORT. The frame of loads and of the stores of compute harts (R195, R199-R203, R225). -/

namespace Sys2Proof.Frames

open Sys2Proof Sys2Proof.Machine Sys2Proof.Spec Sys2Proof.Operands

section Loads

variable {f : Footprint} {k : Kept} {s : State} {r d a b : Reg}

/-! What a load moves on besides: the packets and the requests, the fresh names, the loads under way. -/

theorem within_request (hn : k.net = false) (rg : Nat) (what : ReqFor) (p : Packet) : Within f k s (s.request rg what p) :=
  ⟨hartFrame_refl f _, ⟨fun _ _ => rfl, fun _ _ => rfl, fun _ _ => rfl, fun _ => rfl, rfl⟩, fun _ => rfl, fun _ => rfl,
    fun e => absurd (hn.symm.trans e) (by decide), rfl⟩

theorem within_requests (hn : k.net = false) (rg : Nat) (what : State → Nat → ReqFor) (p : State → Nat → Packet) (pas : List Nat) :
    Within f k s (pas.foldl (fun s pa => s.request rg (what s pa) (p s pa)) s) := by
  induction pas generalizing s with
  | nil => exact within_refl f k s
  | cons pa pas ih => exact (within_request hn ..).trans ih

theorem within_askWalk (hn : k.net = false) (unit ctx va : Nat) : Within f k s (s.askWalk unit ctx va) := by
  simp only [State.askWalk]
  split
  · exact within_refl f k s
  · exact (within_modCell _ fun _ => rfl).trans (within_request hn ..)

theorem within_fresh (n : Nat) : Within f k s { s with fresh := n } :=
  ⟨hartFrame_refl f _, ⟨fun _ _ => rfl, fun _ _ => rfl, fun _ _ => rfl, fun _ => rfl, rfl⟩, fun _ => rfl, fun _ => rfl, fun _ => rfl,
    rfl⟩

theorem within_addLoad (hl : k.loads = false) (l : Load) :
    Within f k s (s.modHart (fun h => { h with loads := h.loads ++ [l] })) := by
  refine ⟨?_, ⟨fun _ _ => rfl, fun _ _ => rfl, fun h hh => State.hartAt_modHart_ne s _ hh, fun _ => rfl, rfl⟩,
    fun e => absurd (hl.symm.trans e) (by decide), fun _ => ?_, fun _ => rfl, rfl⟩
  · rw [State.hart_modHart]
    exact ⟨fun _ _ => rfl, fun _ _ => rfl, fun _ _ => rfl, fun _ _ => rfl, fun _ => rfl, rfl, BitVec.and_self, BitVec.and_self, rfl⟩
  · rw [State.hart_modHart]

theorem within_addStore (hs : k.stores = false) (st : PendingStore) :
    Within f k s (s.modHart (fun h => { h with stores := h.stores ++ [st] })) := by
  refine ⟨?_, ⟨fun _ _ => rfl, fun _ _ => rfl, fun h hh => State.hartAt_modHart_ne s _ hh, fun _ => rfl, rfl⟩, fun _ => ?_,
    fun e => absurd (hs.symm.trans e) (by decide), fun _ => rfl, rfl⟩
  · rw [State.hart_modHart]
    exact ⟨fun _ _ => rfl, fun _ _ => rfl, fun _ _ => rfl, fun _ _ => rfl, fun _ => rfl, rfl, BitVec.and_self, BitVec.and_self, rfl⟩
  · rw [State.hart_modHart]

/-- The destination of a load is a register of the footprint. -/
def InFootprint (f : Footprint) : LoadDst → Prop
  | .xreg d => d ∈ f.xd
  | .vreg d => d ∈ f.vd
  | .queue _ => False

theorem within_deliver {l : Load} (h : InFootprint f l.dst) : Within f k s (s.deliver l) := by
  have hn : Within f k s (s.note l.poisoned 0) := within_note _ 0
  obtain ⟨id, dst, kind, ps, sup, lines, rs⟩ := l
  cases dst with
  | xreg d => exact hn.trans (within_modHart (hartFrame_setX h _ _) (Hart.setX_loads ..) (Hart.setX_stores ..))
  | vreg d =>
    refine hn.trans ?_
    cases kind with
    | vector m => exact within_modHart (hartFrame_setV h _ _) rfl rfl
    | scalar n b => exact within_modHart (hartFrame_refl f _) rfl rfl
    | tagged => exact within_modHart (hartFrame_refl f _) rfl rfl
  | queue q => exact h.elim

theorem within_beginLoad (hl : k.loads = false) (hn : k.net = false) {dst : LoadDst} (h : InFootprint f dst) (kind : LoadKind)
    (ps : List Piece) (sup : Word) (rs : List (Nat × Nat)) : Within f k s (s.beginLoad dst kind ps sup rs) := by
  simp only [State.beginLoad]
  refine (within_fresh (s.fresh + 1)).trans ?_
  split
  · exact within_deliver h
  · exact (within_addLoad hl _).trans (within_requests hn ..)

/-! The bodies of the loads. -/

section Body

variable (hl : k.loads = false) (hn : k.net = false) (ht : ∀ c ∈ [0x05, 0x08, 0x0A], c ∈ f.traps)

include hn ht in
theorem allowed_missed (t : Trans) (va : Nat) : Allowed f k s (missed t va 0x08 0x0A) := by
  cases t with
  | miss => exact within_askWalk hn ..
  | page => exact ht _ (by simp)
  | unbacked pa => trivial
  | hit pa e => exact ht _ (by simp)
  | perm => exact ht _ (by simp)

include hn ht in
theorem allowed_of_placeBy {byLane tagged : Bool} {as : List Access} {x : Act} {t : State}
    (h : t.placeBy byLane tagged as = .error x) :
    Allowed f k s x := by
  unfold State.placeBy at h
  split at h
  · cases h
    exact allowed_missed hn ht _ _
  · cases h

include hl hn ht in
theorem allowed_loadTo {dst : LoadDst} (hd : InFootprint f dst) {kind : LoadKind} {byLane tagged : Bool} {as : List Access} {sup : Word}
    {t : State} (h : Within f k s t) :
    Allowed f k s (loadTo dst kind byLane tagged as sup t) := by
  simp only [loadTo]
  split
  · exact within_refl f k s
  · split
    · next hx => exact allowed_of_placeBy hn ht hx
    · cases dst with
      | xreg d => exact h.trans (within_beginLoad hl hn hd ..)
      | vreg d => exact h.trans (within_beginLoad hl hn hd ..)
      | queue q => exact hd.elim

theorem inFootprint_loadDst (hd : d.toNat < 24) (hx : d ∈ f.xd) (t : State) : InFootprint f (t.loadDst d) := by
  rw [State.loadDst, if_pos hd]
  exact hx

theorem inFootprint_loadDstV (hd : d.toNat < 28) (hv : d ∈ f.vd) (t : State) : InFootprint f (t.loadDstV d) := by
  rw [State.loadDstV, if_pos hd]
  exact hv

include hl hn ht in
theorem allowed_scalarLoad {kind : LoadKind} {n : Nat} {off : Word} (hd : d.toNat < 24) (ha : a.toNat < 24) (hx : d ∈ f.xd) :
    Allowed f k s (scalarLoad kind n d a off s) := by
  simp only [scalarLoad]
  rw [guardMap_ok (by simp [badDstU_reg, hd])]
  refine allowed_srcU ha fun x => ?_
  split
  · exact within_refl f k s
  · split
    · exact allowed_dstU hd hx (within_note _ 2)
    · split
      · exact ht _ (by simp)
      · rw [if_neg (by omega)]
        exact allowed_loadTo hl hn ht (inFootprint_loadDst hd hx s) (within_refl f k s)

include hl hn ht in
theorem allowed_vectorLoad {off : Word} (hd : d.toNat < 28) (ha : a.toNat < 24) (hv : d ∈ f.vd) :
    Allowed f k s (vectorLoad d a off s) := by
  simp only [vectorLoad]
  rw [guardMap_ok (by simp [badDstV_reg, hd])]
  refine allowed_srcU ha fun x => ?_
  split
  · exact within_refl f k s
  · split
    · exact allowed_dstV hd hv (within_note _ 2)
    · split
      · exact ht _ (by simp)
      · exact allowed_loadTo hl hn ht (inFootprint_loadDstV hd hv s) (within_refl f k s)

include hl hn ht in
theorem allowed_gather {m : MReg} (hd : d.toNat < 28) (ha : a.toNat < 24) (hb : b.toNat < 28) (hv : d ∈ f.vd) :
    Allowed f k s (gather m d a b s) := by
  simp only [gather]
  rw [guardMap_ok (by simp [badDstV_reg, hd])]
  refine allowed_srcU ha fun x => allowed_srcV hb fun idx => ?_
  split
  · exact within_refl f k s
  · split
    · exact ht _ (by simp)
    · exact allowed_loadTo hl hn ht (inFootprint_loadDstV hd hv _) (within_note _ 2)

end Body

section Stores

variable (hs : k.stores = false) (ht : 0x05 ∈ f.traps) (hc : isStreamer s.cur = false)

include hs hc in
theorem allowed_storeOut {swid : Nat} {parts : List StorePart} {t : State} (h : Within f k s t) :
    Allowed f k s (storeOut swid parts t) := by
  simp only [storeOut]
  split
  · exact within_refl f k s
  · rw [h.cur, hc, if_neg (by decide)]
    split
    · exact within_refl f k s
    · split
      · exact h.trans (within_note _ 3)
      · exact (h.trans (within_note _ 3)).trans (within_addStore hs _)

include hs ht hc in
theorem allowed_scalarStore {swid n : Nat} {tagged : Bool} {off : Word} (hb : b.toNat < 24) (ha : a.toNat < 24) :
    Allowed f k s (scalarStore swid n tagged b a off s) := by
  simp only [scalarStore]
  rw [guardMap_ok (by simp [badSrcU_reg, hb])]
  refine allowed_srcU ha fun x => allowed_srcU hb fun y => ?_
  split
  · exact within_note _ 2
  · split
    · exact ht
    · exact allowed_storeOut hs hc (within_refl f k s)

include hs ht hc in
theorem allowed_vectorStore {off : Word} (hb : b.toNat < 28) (ha : a.toNat < 24) : Allowed f k s (vectorStore b a off s) := by
  simp only [vectorStore]
  rw [guardMap_ok (by simp [badSrcV_reg, hb])]
  refine allowed_srcU ha fun x => allowed_srcV hb fun y => ?_
  split
  · exact within_note _ 2
  · split
    · exact ht
    · exact allowed_storeOut hs hc (within_refl f k s)

include hs ht hc in
theorem allowed_scatter {m : MReg} (hd : d.toNat < 28) (ha : a.toNat < 24) (hb : b.toNat < 28) :
    Allowed f k s (scatter m d a b s) := by
  simp only [scatter]
  rw [guardMap_ok (by simp [badSrcV_reg, hd])]
  refine allowed_srcU ha fun x => allowed_srcV hb fun idx => allowed_srcV hd fun v => ?_
  split
  · exact ht
  · exact allowed_storeOut hs hc (within_note _ 2)

end Stores

end Loads

/-- What a frame of loads keeps besides. -/
def keptByLoads : Kept := ⟨false, true, false⟩

/-- What a frame of the stores of compute harts keeps besides. -/
def keptByStores : Kept := ⟨true, false, true⟩

theorem loads_framed {i : Instr} {f : Footprint} {s s1 t : State} (hf : loadFootprint i = some f) (hu : ∀ r ∈ f.us, r.toNat < 24)
    (hv : ∀ r ∈ f.vs, r.toNat < 28) (hr : Ready i f.tok s s1) (ht : exec i s = .next t) :
    Framed f s s1 t (keptByLoads.holds s t) := by
  have one {α : Type} (x : α) : x ∈ [x] := List.mem_singleton_self x
  cases i
  case ldB tk d a imm | ldBu tk d a imm | ldH tk d a imm | ldHu tk d a imm | ldW tk d a imm | ldWu tk d a imm | ldD tk d a imm |
      ldt tk d a =>
    obtain rfl := Option.some.inj hf
    obtain ⟨hd, ha⟩ := forall_mem_pair hu
    exact framed_of_allowed rfl hr (allowed_scalarLoad rfl rfl (fun _ h => h) hd ha (one d)) ht
  case cLdd d i | cLdw d i =>
    obtain rfl := Option.some.inj hf
    exact framed_of_allowed rfl hr (allowed_scalarLoad rfl rfl (fun _ h => h) (hu d (one d)) (by decide) (one d)) ht
  case vld tk d a imm =>
    obtain rfl := Option.some.inj hf
    exact framed_of_allowed rfl hr (allowed_vectorLoad rfl rfl (fun _ h => h) (hv d (one d)) (hu a (one a)) (one d)) ht
  case vldx tk m d a b =>
    obtain rfl := Option.some.inj hf
    obtain ⟨hd, hb⟩ := forall_mem_pair hv
    exact framed_of_allowed rfl hr (allowed_gather rfl rfl (fun _ h => h) hd (hu a (one a)) hb (one d)) ht
  all_goals exact (Option.some_ne_none f hf.symm).elim

theorem stores_framed {i : Instr} {f : Footprint} {s s1 t : State} (hf : storeFootprint i = some f) (hc : isStreamer s.cur = false)
    (hu : ∀ r ∈ f.us, r.toNat < 24) (hv : ∀ r ∈ f.vs, r.toNat < 28) (hr : Ready i f.tok s s1) (ht : exec i s = .next t) :
    Framed f s s1 t (keptByStores.holds s t) := by
  have one {α : Type} (x : α) : x ∈ [x] := List.mem_singleton_self x
  obtain ⟨-, -, -, hpop⟩ := id hr
  have hc : isStreamer s1.cur = false := by rwa [(within_popW (f := f) (k := keptByStores) hpop).cur]
  cases i
  case stB tk b a imm | stH tk b a imm | stW tk b a imm | stD tk b a imm | stt tk b a =>
    obtain rfl := Option.some.inj hf
    obtain ⟨ha, hb⟩ := forall_mem_pair hu
    exact framed_of_allowed rfl hr (allowed_scalarStore rfl (one _) hc hb ha) ht
  case cStd d i | cStw d i =>
    obtain rfl := Option.some.inj hf
    exact framed_of_allowed rfl hr (allowed_scalarStore rfl (one _) hc (hu d (one d)) (by decide)) ht
  case vst tk b a imm =>
    obtain rfl := Option.some.inj hf
    exact framed_of_allowed rfl hr (allowed_vectorStore rfl (one _) hc (hv b (one b)) (hu a (one a))) ht
  case vstx tk m d a b =>
    obtain rfl := Option.some.inj hf
    obtain ⟨hd, hb⟩ := forall_mem_pair hv
    exact framed_of_allowed rfl hr (allowed_scatter rfl (one _) hc hd (hu a (one a)) hb) ht
  all_goals exact (Option.some_ne_none f hf.symm).elim

end Sys2Proof.Frames
end

section
/-! SUPPORT. What a store writes as it performs, and what an atomic leaves (R37, R199-R208, R377, R432-R434). -/

namespace Sys2Proof.Frames

open Sys2Proof Sys2Proof.Machine Sys2Proof.Spec Sys2Proof.Operands Sys2Proof.Commits

/-! A write that enters a commit buffer. -/

section Writes

variable (s : State)

theorem viewByte_congr {s t : State} {r : Nat} (hp : t.pending r = s.pending r) (hm : t.mem = s.mem) (q : Nat) :
    t.viewByte r q = s.viewByte r q := by
  simp only [State.viewByte, hp, hm]

theorem writeAs_eq (r unit iv pa : Nat) (bs : List Byte) (us : List (Nat × Bool)) :
    s.writeAs r unit iv pa bs us =
      { s with mem := (s.writeAs r unit iv pa bs us).mem, regions := (s.writeAs r unit iv pa bs us).regions } := by
  unfold State.writeAs
  cases s.region? r <;> rfl

theorem pending_writeAs_self {r : Nat} {g : Region} (hg : s.region? r = some g) (unit iv pa : Nat) (bs : List Byte)
    (us : List (Nat × Bool)) : (s.writeAs r unit iv pa bs us).pending r = ⟨unit, iv, pa, bs.map some, us⟩ :: s.pending r := by
  rw [pending_of_region hg]
  simp only [State.writeAs, hg]
  simp only [State.pending, State.region?, lookup_insertAt_self, Option.map_some, Option.getD_some]

theorem pending_writeAs_ne {r k : Nat} (hk : k ≠ r) (unit iv pa : Nat) (bs : List Byte) (us : List (Nat × Bool)) :
    (s.writeAs r unit iv pa bs us).pending k = s.pending k := by
  unfold State.writeAs
  split
  · rfl
  · simp only [State.pending, State.region?, lookup_insertAt_ne hk]

/-- A region's write goes to its commit buffer, not to memory (R37). -/
theorem mem_writeAs {r : Nat} {g : Region} (hg : s.region? r = some g) (unit iv pa : Nat) (bs : List Byte) (us : List (Nat × Bool)) :
    (s.writeAs r unit iv pa bs us).mem = s.mem := by
  simp only [State.writeAs, hg]

/-- A write is seen nowhere outside its bytes. -/
theorem viewByte_writeAs_outside {pa q : Nat} {bs : List Byte} (h : q < pa ∨ pa + bs.length ≤ q) (r unit iv : Nat)
    (us : List (Nat × Bool)) (k : Nat) : (s.writeAs r unit iv pa bs us).viewByte k q = s.viewByte k q := by
  cases hg : s.region? r with
  | none =>
    simp only [State.writeAs, hg]
    simp only [State.viewByte, State.pending, State.region?, Mem.foldPoison_byte us (fun _ u => u.1) (fun _ u => u.2),
      Mem.setBytes_byte_outside s.mem bs h]
  | some g =>
    have hm := mem_writeAs s hg unit iv pa bs us
    by_cases hk : k = r
    · subst hk
      have hnone : CWrite.byteAt ⟨unit, iv, pa, bs.map some, us⟩ q = none := byteAt_eq_none (by simpa using h)
      simp only [State.viewByte, pending_writeAs_self s hg, hm, List.findSome?_cons, hnone]
    · exact viewByte_congr (pending_writeAs_ne s hk ..) hm q

/-- The writes of a store as they enter the commit buffer. -/
def enteredBy (s : State) (p : Parked) : State :=
  p.writes.foldl (fun t w => t.writeAs p.region p.unit p.interval w.2.1 w.2.2
    ((unitsOf w.2.1 w.2.2.length).map (fun u => (u, unitPoison p.writes (s.viewPoison p.region u) u)))) s

/-- What a run of writes keeps. -/
theorem foldl_writeAs {β : Type} (r unit iv : Nat) (pa : β → Nat) (bs : β → List Byte) (us : β → List (Nat × Bool)) (ws : List β) :
    let t := ws.foldl (fun t w => t.writeAs r unit iv (pa w) (bs w) (us w)) s
    t = { s with mem := t.mem, regions := t.regions } ∧
      ∀ k q, (∀ w ∈ ws, q < pa w ∨ pa w + (bs w).length ≤ q) → t.viewByte k q = s.viewByte k q := by
  induction ws generalizing s with
  | nil => exact ⟨rfl, fun _ _ _ => rfl⟩
  | cons w ws ih =>
    obtain ⟨heq, hview⟩ := ih (s.writeAs r unit iv (pa w) (bs w) (us w))
    refine ⟨?_, fun k q h => ?_⟩
    · rw [List.foldl_cons, heq, writeAs_eq s]
    · rw [List.foldl_cons, hview k q fun o ho => h o (List.mem_cons_of_mem _ ho),
        viewByte_writeAs_outside s (h w List.mem_cons_self)]

theorem entered_eq (p : Parked) : enteredBy s p = { s with mem := (enteredBy s p).mem, regions := (enteredBy s p).regions } :=
  (foldl_writeAs s p.region p.unit p.interval (fun w : Bool × (Nat × List Byte) => w.2.1) (fun w => w.2.2) _ p.writes).1

theorem viewByte_entered_outside (p : Parked) (k q : Nat) (h : ∀ w ∈ p.writes, q < w.2.1 ∨ w.2.1 + w.2.2.length ≤ q) :
    (enteredBy s p).viewByte k q = s.viewByte k q :=
  (foldl_writeAs s p.region p.unit p.interval (fun w : Bool × (Nat × List Byte) => w.2.1) (fun w => w.2.2) _ p.writes).2 k q h

theorem performAs_eq (p : Parked) : s.performAs p =
    (enteredBy s p).refresh (cellOf p.hart) p.region (p.writes.map (fun w => (w.2.1, w.2.2.length))) := rfl

theorem viewByte_modCell (c : Nat) (f : Cell → Cell) (k q : Nat) : (s.modCell c f).viewByte k q = s.viewByte k q := rfl

theorem viewByte_modRegion (r : Nat) (f : Region → Region) (h : ∀ x : Region, (f x).commit = x.commit) (k q : Nat) :
    (s.modRegion r f).viewByte k q = s.viewByte k q := by
  refine viewByte_congr ?_ (State.modRegion_mem ..) q
  by_cases hk : k = r
  · subst hk
    simp only [State.pending, State.region?_modRegion_self, Option.map_map]
    congr 2
    exact funext h
  · simp only [State.pending, State.region?_modRegion_ne s hk]

end Writes

/-! What stores change besides the bytes: the lines of the L1s, and the stores that wait for room. -/

/-- Only memory, the regions, and of the cells the L1 and the waiting stores differ. -/
def Stored (s t : State) : Prop :=
  t = { s with mem := t.mem, regions := t.regions, cells := t.cells } ∧
    ∀ c, t.cellAt c = { s.cellAt c with l1 := (t.cellAt c).l1, parked := (t.cellAt c).parked }

section Stored

variable {s t u : State}

theorem stored_refl (s : State) : Stored s s := ⟨rfl, fun _ => rfl⟩

theorem Stored.trans (h : Stored s t) (h' : Stored t u) : Stored s u := by
  obtain ⟨heq, hc⟩ := h
  obtain ⟨heq', hc'⟩ := h'
  exact ⟨by rw [heq', heq], fun c => by rw [hc', hc]⟩

theorem Stored.harts (h : Stored s t) : t.harts = s.harts := by rw [h.1]

theorem Stored.cur (h : Stored s t) : t.cur = s.cur := by rw [h.1]

theorem Stored.hart (h : Stored s t) : t.hart = s.hart := by
  rw [State.hart, State.hart, h.cur, State.hartAt, State.hartAt, h.harts]

theorem stored_of_regions (h : t = { s with mem := t.mem, regions := t.regions }) : Stored s t := by
  refine ⟨?_, fun c => ?_⟩
  all_goals rw [h]
  rfl

theorem stored_modCell (c : Nat) (f : Cell → Cell) (h : ∀ x : Cell, f x = { x with l1 := (f x).l1, parked := (f x).parked }) :
    Stored s (s.modCell c f) := by
  refine ⟨rfl, fun d => ?_⟩
  by_cases hd : d = c
  · subst hd
    simpa using h (s.cellAt d)
  · rw [State.cellAt_modCell_ne s hd]

theorem stored_modRegion (r : Nat) (f : Region → Region) : Stored s (s.modRegion r f) := by
  refine stored_of_regions ?_
  unfold State.modRegion
  split <;> rfl

theorem stored_drainWrites (r : Nat) (p : CWrite → Bool) : Stored s (s.drainWrites r p) := by
  refine stored_of_regions ?_
  unfold State.drainWrites
  split <;> rfl

theorem stored_refresh (c rg : Nat) (rs : List (Nat × Nat)) : Stored s (s.refresh c rg rs) := by
  unfold State.refresh
  exact stored_modCell _ _ fun _ => rfl

theorem stored_performAs (p : Parked) : Stored s (s.performAs p) := by
  rw [performAs_eq]
  exact (stored_of_regions (entered_eq s p)).trans (stored_refresh ..)

theorem stored_enterStore (p : Parked) : Stored s (s.enterStore p) := by
  unfold State.enterStore
  split
  · exact stored_modCell _ _ fun _ => rfl
  · exact stored_performAs p

theorem stored_acquiredAt (sc : ScopeCode) (pas : List Nat) : Stored s (s.acquiredAt sc pas) := by
  unfold State.acquiredAt
  split
  · unfold State.acquired State.dropLines
    exact stored_modCell _ _ fun _ => rfl
  · exact stored_refresh ..

/-- The run of a cell's waiting stores, with those that found no room. -/
theorem stored_foldl_parked (ps : List Parked) (left : List Parked) :
    Stored s (ps.foldl (fun (a : State × List Parked) p =>
      if !a.2.isEmpty || !a.1.commitRoom p.region p.unit p.size then (a.1, a.2 ++ [p]) else (a.1.performAs p, a.2)) (s, left)).1 := by
  induction ps generalizing s left with
  | nil => exact stored_refl s
  | cons p ps ih =>
    rw [List.foldl_cons]
    split
    · exact ih _
    · exact (stored_performAs p).trans (ih _)

theorem stored_enterParked (c : Nat) : Stored s (s.enterParked c) := by
  unfold State.enterParked
  exact (stored_foldl_parked _ _).trans (stored_modCell _ _ fun _ => rfl)

theorem stored_enterAll (cs : List Nat) : Stored s (cs.foldl State.enterParked s) := by
  induction cs generalizing s with
  | nil => exact stored_refl s
  | cons c cs ih => exact (stored_enterParked c).trans ih

theorem stored_earlyCommit (pa n : Nat) : Stored s (s.earlyCommit pa n) :=
  (((stored_drainWrites _ _).trans (stored_enterAll _)).trans (stored_drainWrites _ _)).trans (stored_modRegion _ _)

end Stored

theorem performParts_eq (s : State) (rs : List (StorePart × PartRes)) :
    let t := s.performParts rs
    t = { s with mem := t.mem, regions := t.regions, cells := t.cells } ∧
      ∀ c, t.cellAt c = { s.cellAt c with l1 := (t.cellAt c).l1 } := by
  refine ⟨(stored_performAs _).1, fun c => ?_⟩
  simp only [State.performParts, performAs_eq, State.refresh]
  by_cases hc : c = cellOf (s.translated rs).hart
  · subst hc
    rw [State.cellAt_modCell_self, entered_eq]
    rfl
  · rw [State.cellAt_modCell_ne _ hc, entered_eq]
    rfl

/-- The parts of a store write within them (R199, R200, R205). -/
theorem viewByte_performParts (s : State) (rs : List (StorePart × PartRes)) (q : Nat)
    (h : ∀ p ∈ rs, ∀ w ∈ PartRes.writes p.2, q < w.1 ∨ w.1 + w.2.length ≤ q) (r : Nat) :
    (s.performParts rs).viewByte r q = s.viewByte r q := by
  refine viewByte_entered_outside s (s.translated rs) r q fun w hw => ?_
  obtain ⟨p, hp, hw⟩ := List.mem_flatMap.mp hw
  obtain ⟨v, hv, rfl⟩ := List.mem_map.mp hw
  exact h p hp v hv

/-! Early commit (R434). -/

theorem viewByte_drainWrites {s : State} (h : s.mem.wf) (r : Nat) (p : CWrite → Bool) (q : Nat) :
    (s.drainWrites r p).viewByte r q = s.viewByte r q := by
  cases hg : s.region? r with
  | none => simp only [State.drainWrites, hg]
  | some g =>
    have hp : (s.drainWrites r p).pending r = keepWrites p g.commit := by
      simp only [State.pending, State.region?, drainWrites_eq hg, lookup_insertAt_self, Option.map_some, Option.getD_some]
    have hm : (s.drainWrites r p).mem = drained p g.commit s.mem := by rw [drainWrites_eq hg]
    simp only [State.viewByte, hp, hm, pending_of_region hg]
    exact view_drained p (fun w => w.byteAt q) (fun m => m.byte q) (fun w o => byteAt_yield o w q) h _ fun w _ m' h' => byte_apply h' w q

theorem drainWrites_mem_wf {s : State} (h : s.mem.wf) (r : Nat) (p : CWrite → Bool) : (s.drainWrites r p).mem.wf := by
  cases hg : s.region? r with
  | none => simpa only [State.drainWrites, hg] using h
  | some g =>
    rw [drainWrites_eq hg]
    exact drained_wf p _ h

theorem enterParked_of_empty {s : State} {c : Nat} (h : (s.cellAt c).parked = []) :
    s.enterParked c = s.modCell c (fun x => { x with parked := [] }) := by
  simp only [State.enterParked, h, List.foldl_nil]

/-- Where no store waits for room, the turns of the cells change nothing that a region sees. -/
theorem enterAll_of_empty (cs : List Nat) {s : State} (h : ∀ c, (s.cellAt c).parked = []) :
    (∀ c, ((cs.foldl State.enterParked s).cellAt c).parked = []) ∧ (cs.foldl State.enterParked s).mem = s.mem ∧
      ∀ r q, (cs.foldl State.enterParked s).viewByte r q = s.viewByte r q := by
  induction cs generalizing s with
  | nil => exact ⟨h, rfl, fun _ _ => rfl⟩
  | cons c cs ih =>
    rw [List.foldl_cons, enterParked_of_empty (h c)]
    refine ih fun d => ?_
    by_cases hd : d = c
    · subst hd; rw [State.cellAt_modCell_self]
    · rw [State.cellAt_modCell_ne s hd]; exact h d

theorem cellAt_drainWrites (s : State) (r : Nat) (p : CWrite → Bool) (c : Nat) : (s.drainWrites r p).cellAt c = s.cellAt c := by
  unfold State.drainWrites
  split <;> rfl

theorem earlyCommit_of_empty {s : State} (hm : s.mem.wf) (h : ∀ c, (s.cellAt c).parked = []) (pa n : Nat) :
    (∀ c, ((s.earlyCommit pa n).cellAt c).parked = []) ∧
      ∀ q, (s.earlyCommit pa n).viewByte s.hart.regionId q = s.viewByte s.hart.regionId q := by
  have h1 : ∀ c, ((s.drainWrites s.hart.regionId (CWrite.early pa n)).cellAt c).parked = [] := fun c => by
    rw [cellAt_drainWrites]; exact h c
  obtain ⟨hpark, hmem, hview⟩ :=
    enterAll_of_empty (((s.region? s.hart.regionId).map Region.cells).getD []) h1
  refine ⟨fun c => ?_, fun q => ?_⟩
  · simpa only [State.earlyCommit, State.cellAt_modRegion, cellAt_drainWrites] using hpark c
  · have hwf := drainWrites_mem_wf hm s.hart.regionId (CWrite.early pa n)
    simp only [State.earlyCommit]
    rw [viewByte_modRegion, viewByte_drainWrites (by rw [hmem]; exact hwf), hview, viewByte_drainWrites hm]
    exact fun _ => rfl

end Sys2Proof.Frames
end

section
/-! SUPPORT. What an atomic leaves as it was (R207, R208, R433, R434), and the settlement of the memory frames. -/

namespace Sys2Proof.Frames

open Sys2Proof Sys2Proof.Machine Sys2Proof.Spec Sys2Proof.Operands Sys2Proof.Commits

/-- What an atomic with destination d leaves: its thread's place, every register but d, the queues and ports of the cells, and the bytes
`Q`, of which a wide one's region sees those of its waiting stores (R434). -/
def Leaves (d : Reg) (wide : Bool) (Q : Nat → Prop) (s t : State) : Prop :=
  t.cur = s.cur ∧ t.hart.regionId = s.hart.regionId ∧
  ((∀ r, r ≠ d → t.hart.xval r = s.hart.xval r) ∧ (∀ r, t.hart.vval r = s.hart.vval r) ∧ (∀ m, t.hart.mval m = s.hart.mval m) ∧
    (∀ p, t.hart.pval p = s.hart.pval p) ∧ t.hart.fcsr = s.hart.fcsr) ∧
  (∀ c, (t.cellAt c).queues = (s.cellAt c).queues ∧ (t.cellAt c).ports = (s.cellAt c).ports) ∧
  (wide = true → (∀ c, (s.cellAt c).parked = []) →
    (∀ c, (t.cellAt c).parked = []) ∧ ∀ q, Q q → t.viewByte s.hart.regionId q = s.viewByte s.hart.regionId q) ∧
  (wide = false → ∀ r q, Q q → t.viewByte r q = s.viewByte r q)

section Leaves

variable {d : Reg} {wide : Bool} {Q : Nat → Prop} {s t u : State}

theorem leaves_trans (h : Leaves d wide Q s t) (h' : Leaves d wide Q t u) : Leaves d wide Q s u := by
  obtain ⟨hc, hr, ⟨hx, hv, hm, hp, hf⟩, hq, hw, hn⟩ := h
  obtain ⟨hc', hr', ⟨hx', hv', hm', hp', hf'⟩, hq', hw', hn'⟩ := h'
  refine ⟨hc'.trans hc, hr'.trans hr, ⟨fun r e => (hx' r e).trans (hx r e), fun r => (hv' r).trans (hv r),
    fun m => (hm' m).trans (hm m), fun p => (hp' p).trans (hp p), hf'.trans hf⟩,
    fun c => ⟨(hq' c).1.trans (hq c).1, (hq' c).2.trans (hq c).2⟩, fun e he => ?_,
    fun e r q hQ => (hn' e r q hQ).trans (hn e r q hQ)⟩
  obtain ⟨hpark, hview⟩ := hw e he
  obtain ⟨hpark', hview'⟩ := hw' e hpark
  exact ⟨hpark', fun q hQ => by rw [← hview q hQ, ← hr]; exact hview' q hQ⟩

/-- A change within the footprint of a destination. -/
theorem leaves_of_within {k : Kept} (h : Within { tok := bare, xd := [d] } k s t) : Leaves d wide Q s t := by
  obtain ⟨⟨hx, hv, hm, hp, hf, -, -, -, heq⟩, ⟨hb, -, -, hcell, hst⟩, -⟩ := h
  refine ⟨by rw [hst], by rw [heq]; rfl, ⟨fun r e => hx r (by simpa using e), fun r => hv r List.not_mem_nil,
    fun m => hm m List.not_mem_nil, fun p => hp p List.not_mem_nil, hf rfl⟩, fun c => by rw [hcell]; exact ⟨rfl, rfl⟩,
    fun _ he => ⟨fun c => by rw [hcell]; exact he c, fun q _ => hb _ q⟩, fun _ r q _ => hb r q⟩

theorem leaves_refl (s : State) : Leaves d wide Q s s := leaves_of_within (within_refl _ ⟨true, true, true⟩ s)

/-- A change of the hart outside its registers. -/
theorem leaves_modHart {g : Hart → Hart} (h : g s.hart = { s.hart with sfrq := (g s.hart).sfrq }) : Leaves d wide Q s (s.modHart g) := by
  refine ⟨rfl, ?_, ?_, fun _ => ⟨rfl, rfl⟩, fun _ he => ⟨he, fun _ _ => rfl⟩, fun _ _ _ _ => rfl⟩
  all_goals rw [State.hart_modHart, h]
  · rfl
  · exact ⟨fun _ _ => rfl, fun _ => rfl, fun _ => rfl, fun _ => rfl, rfl⟩

/-- A change of cells that leaves their queues, their ports and their waiting stores. -/
theorem leaves_modCell {g : Cell → Cell} (c : Nat)
    (h : ∀ x : Cell, g x = { x with l1 := (g x).l1, walkFaults := (g x).walkFaults }) : Leaves d wide Q s (s.modCell c g) := by
  have hcell : ∀ k, (s.modCell c g).cellAt k =
      { s.cellAt k with l1 := ((s.modCell c g).cellAt k).l1, walkFaults := ((s.modCell c g).cellAt k).walkFaults } := by
    intro k
    by_cases hk : k = c
    · subst hk; simpa using h (s.cellAt k)
    · rw [State.cellAt_modCell_ne s hk]
  exact ⟨rfl, rfl, ⟨fun _ _ => rfl, fun _ => rfl, fun _ => rfl, fun _ => rfl, rfl⟩, fun k => by rw [hcell]; exact ⟨rfl, rfl⟩,
    fun _ he => ⟨fun k => by rw [hcell]; exact he k, fun _ _ => rfl⟩, fun _ _ _ _ => rfl⟩

theorem leaves_acquiredAt (sc : ScopeCode) (pas : List Nat) : Leaves d wide Q s (s.acquiredAt sc pas) := by
  unfold State.acquiredAt
  split
  · unfold State.acquired State.dropLines
    exact leaves_modCell _ fun _ => rfl
  · unfold State.refresh
    exact leaves_modCell _ fun _ => rfl

/-- What a change that only stores leaves, given what it does to the bytes. -/
theorem leaves_of_stored (h : Stored s t)
    (hw : wide = true → (∀ c, (s.cellAt c).parked = []) →
      (∀ c, (t.cellAt c).parked = []) ∧ ∀ q, Q q → t.viewByte s.hart.regionId q = s.viewByte s.hart.regionId q)
    (hn : wide = false → ∀ r q, Q q → t.viewByte r q = s.viewByte r q) : Leaves d wide Q s t :=
  ⟨h.cur, by rw [h.hart], by rw [h.hart]; exact ⟨fun _ _ => rfl, fun _ => rfl, fun _ => rfl, fun _ => rfl, rfl⟩,
    fun c => by rw [h.2 c]; exact ⟨rfl, rfl⟩, hw, hn⟩

theorem leaves_earlyCommit (hm : s.mem.wf) (pa n : Nat) : Leaves d true Q s (s.earlyCommit pa n) :=
  leaves_of_stored (stored_earlyCommit pa n)
    (fun _ he => (earlyCommit_of_empty hm he pa n).imp id fun h q _ => h q) fun e => nomatch e

/-- The new value goes to memory, at the bytes of the atomic. -/
theorem leaves_memWrite {pa : Nat} {bs : List Byte} (hQ : ∀ q, Q q → q < pa ∨ pa + bs.length ≤ q) (p : Bool) :
    Leaves d wide Q s { s with mem := s.mem.write pa bs p } := by
  have hview (r q : Nat) (h : Q q) : State.viewByte { s with mem := s.mem.write pa bs p } r q = s.viewByte r q := by
    simp only [State.viewByte, Mem.write_byte_outside s.mem bs p (hQ q h)]
    rfl
  exact leaves_of_stored (stored_of_regions rfl) (fun _ he => ⟨he, fun q h => hview _ q h⟩) fun _ r q h => hview r q h

/-- The new value enters the commit buffer of the cell. -/
theorem leaves_writeAll {pa : Nat} {bs : List Byte} (hQ : ∀ q, Q q → q < pa ∨ pa + bs.length ≤ q) (p : Bool) :
    Leaves d wide Q s (s.writeAll p [(pa, bs)]) := by
  have hview (r q : Nat) (h : Q q) : (s.writeAll p [(pa, bs)]).viewByte r q = s.viewByte r q :=
    viewByte_writeAs_outside s (hQ q h) ..
  have hs : Stored s (s.writeAll p [(pa, bs)]) := stored_of_regions (writeAs_eq s ..)
  refine leaves_of_stored hs (fun _ he => ⟨fun c => ?_, fun q h => hview _ q h⟩) fun _ r q h => hview r q h
  have hcells : (s.writeAll p [(pa, bs)]).cells = s.cells := by
    rw [show s.writeAll p [(pa, bs)] = s.writeAs .. from rfl, writeAs_eq]
  rw [State.cellAt, hcells]
  exact he c

/-- The new value performs in the cell, or waits behind its stores (R433). -/
theorem leaves_performStore {rs : List (StorePart × PartRes)}
    (hQ : ∀ q, Q q → ∀ p ∈ rs, ∀ w ∈ PartRes.writes p.2, q < w.1 ∨ w.1 + w.2.length ≤ q) :
    Leaves d false Q s (s.performStore rs) := by
  refine leaves_of_stored (stored_enterStore _) (fun e => nomatch e) fun _ r q h => ?_
  unfold State.performStore State.enterStore
  split
  · rfl
  · exact viewByte_performParts s rs q (hQ q h) r

theorem leaves_finish {tk : Tok} {pc : Word} (h : Leaves d wide Q s t) : Leaves d wide Q s (s.finish t tk pc) := by
  unfold State.finish
  split
  · next u hu =>
    exact leaves_trans h (leaves_of_within (k := ⟨true, true, true⟩) ((within_pushS hu).trans (within_retire pc)))
  · obtain ⟨-, -, -, hcell, -⟩ := h
    rw [hold_of_same (fun code => by simp only [Cell.queue, (hcell _).1]) (hcell _).2]
    exact leaves_of_within (k := ⟨true, true, true⟩) (within_waiting _)

end Leaves

/-! The body of an atomic. -/

/-- A body that leaves what it should unless it traps. -/
def LeavesAct (d : Reg) (wide : Bool) (Q : Nat → Prop) (s : State) : Act → Prop
  | .done t => Leaves d wide Q s t
  | .wait _ g => Leaves d wide Q s (g s)
  | .trap _ _ => True
  | .stop _ => True
  | _ => False

theorem leaves_of_body {i : Instr} {tk : Tok} {d : Reg} {wide : Bool} {Q : Nat → Prop} {s s1 t : State} {body : State → Act}
    (hexec : exec i s = runHart i tk s body) (hr : Ready i tk s s1) (hb : LeavesAct d wide Q s1 (body s1)) (ht : exec i s = .next t) :
    (∃ c v, t = s1.trapNow c v) ∨ Leaves d wide Q s t := by
  obtain ⟨-, -, -, hpop⟩ := id hr
  have hpop : Leaves d wide Q s s1 := leaves_of_within (k := ⟨true, true, true⟩) (within_popW hpop)
  rw [hexec, runHart_ready hr] at ht
  cases hact : body s1 with
  | done u => rw [hact] at hb ht; cases ht; exact .inr (leaves_trans hpop (leaves_finish hb))
  | wait w g =>
    rw [hact] at hb ht; cases ht
    exact .inr (leaves_trans hpop (leaves_trans hb (leaves_of_within (k := ⟨true, true, true⟩) (within_waiting w))))
  | trap c v => rw [hact] at ht; cases ht; exact .inl ⟨c, v, rfl⟩
  | stop e => rw [hact] at ht; cases ht
  | jump u pc => rw [hact] at hb; exact hb.elim
  | trapWith g c v => rw [hact] at hb; exact hb.elim
  | ended u => rw [hact] at hb; exact hb.elim

section Atomic

variable {d a b r : Reg} {wide : Bool} {Q : Nat → Prop} {s t : State}

theorem leavesAct_id (w : Wait) : LeavesAct d wide Q s (.wait w id) := leaves_refl s

theorem leavesAct_drained {k : State → Act} (h : LeavesAct d wide Q s (k s)) : LeavesAct d wide Q s (drained k s) := by
  unfold Machine.drained
  split
  · split
    · trivial
    · exact h
  · exact leavesAct_id _

theorem leavesAct_released {far : Bool} {k : State → Act} (h : LeavesAct d wide Q s (k s)) :
    LeavesAct d wide Q s (released far k s) := by
  refine leavesAct_drained ?_
  split
  · exact leavesAct_id _
  · exact h

/-- A source register is there, with the state as it was. -/
theorem leavesAct_srcU {body : UVal → State → Act} (hr : r.toNat < 24)
    (h : ∀ v, s.readU r = .got v s → LeavesAct d wide Q s (body v s)) : LeavesAct d wide Q s (srcU s r body) := by
  unfold srcU
  cases hb : s.hart.xBusy r
  · rw [readU_reg hr hb]; exact h _ (readU_reg hr hb)
  · rw [readU_busy hr hb]; exact leaves_refl s

theorem leavesAct_dstU {v : UVal} (hd : d.toNat < 24) (h : Leaves d wide Q s t) : LeavesAct d wide Q s (dstU t d v) := by
  unfold dstU
  cases hb : t.hart.xBusy d
  · rw [putU_reg hd hb]
    exact leaves_trans h (leaves_of_within (k := ⟨true, true, true⟩)
      (within_modHart (hartFrame_setX (List.mem_singleton_self d) _ v) (Hart.setX_loads ..) (Hart.setX_stores ..)))
  · rw [putU_busy hd hb]; exact leaves_refl s

theorem leaves_note (p : Bool) (n : Nat) : Leaves d wide Q s (s.note p n) :=
  leaves_of_within (k := ⟨true, true, true⟩) (within_note p n)

theorem leavesAct_missed (x : Trans) (va page access : Nat) : LeavesAct d wide Q s (missed x va page access) := by
  cases x with
  | miss => exact leaves_of_within (k := ⟨true, true, false⟩) (within_askWalk rfl ..)
  | _ => trivial

theorem natBytes_length (n v : Nat) : (natBytes n v).length = n := by
  induction n generalizing v with
  | zero => rfl
  | succ n ih => simp [natBytes, ih]

/-- The bytes outside those that an atomic of n bytes at a hit may write. -/
def Outside (s : State) (va n q : Nat) : Prop := ∀ pa e, s.access va true true = .hit pa e → q < pa ∨ pa + n ≤ q

theorem leavesAct_atomicOp {op : AmoOp} {sc : ScopeCode} {z : BitVec 1} (ha : a.toNat < 24) (hb : b.toNat < 24) (hd : d.toNat < 24)
    (hm : s.mem.wf) {x : UVal} (hx : s.readU a = .got x s) :
    LeavesAct d (wideScope sc) (Outside s x.val.toNat (if z = 0#1 then 4 else 8)) s (atomicOp op sc z d a b s) := by
  unfold atomicOp
  refine leavesAct_released (leavesAct_srcU ha fun x' hx' => leavesAct_srcU hb fun y _ => leavesAct_srcU hd fun e _ => ?_)
  obtain rfl : x = x' := (Read.got.inj (hx.symm.trans hx')).1
  generalize (if z = 0#1 then 4 else 8) = n
  simp only
  split
  · exact leavesAct_dstU hd (leaves_refl s)
  split
  · exact leavesAct_dstU hd (leaves_note true 2)
  split
  · trivial
  split
  · next pa en hhit =>
    have hQ (q : Nat) (h : Outside s x.val.toNat n q) (v : Nat) : q < pa ∨ pa + (natBytes n v).length ≤ q := by
      rw [natBytes_length]; exact h pa en hhit
    have out {t : State} {p p' : Bool} {v : UVal} (h : Leaves d (wideScope sc) (Outside s x.val.toNat n) s t) :
        LeavesAct d (wideScope sc) (Outside s x.val.toNat n) s
          (dstU (((t.acquiredAt sc [pa / 64 * 64]).note p 0).note p' 3) d v) :=
      leavesAct_dstU hd (leaves_trans (leaves_trans (leaves_trans h (leaves_acquiredAt ..)) (leaves_note ..)) (leaves_note ..))
    split
    · exact leavesAct_id _
    split
    · refine out ?_
      split
      · next hw => rw [hw]; exact leaves_earlyCommit hm ..
      · exact leaves_refl s
    · split
      · next hw =>
        refine out (leaves_trans ?_ (leaves_memWrite (fun q h => hQ q h _) _))
        rw [hw]; exact leaves_earlyCommit hm ..
      · next hw =>
        split
        · split
          · exact out (leaves_writeAll (fun q h => hQ q h _) _)
          · exact leavesAct_id _
        · refine out ?_
          rw [Bool.not_eq_true _ |>.mp hw]
          refine leaves_performStore fun q h p hp w hwr => ?_
          obtain rfl := List.mem_singleton.mp hp
          obtain rfl := List.mem_singleton.mp hwr
          exact hQ q h _
  · split
    · split
      · trivial
      · refine leaves_trans ?_ (leaves_modHart rfl)
        split
        · unfold State.takeWalkFault; exact leaves_modCell _ fun _ => rfl
        · exact leaves_refl s
    · exact leavesAct_missed ..

end Atomic

/-- The atomics run their operation (R207). -/
theorem exec_atomic {mk : Tok → ScopeCode → BitVec 1 → Reg → Reg → Reg → Instr}
    (h : mk ∈ [Instr.amoadd, .amoand, .amoor, .amoxor, .amomin, .amomax, .amoswap, .amocas]) :
    ∃ op, ∀ tk sc z d a b s, exec (mk tk sc z d a b) s = runHart (mk tk sc z d a b) tk s (atomicOp op sc z d a b) := by
  simp only [List.mem_cons, List.not_mem_nil, or_false] at h
  rcases h with rfl | rfl | rfl | rfl | rfl | rfl | rfl | rfl
  · exact ⟨.add, fun _ _ _ _ _ _ _ => rfl⟩
  · exact ⟨.and, fun _ _ _ _ _ _ _ => rfl⟩
  · exact ⟨.or, fun _ _ _ _ _ _ _ => rfl⟩
  · exact ⟨.xor, fun _ _ _ _ _ _ _ => rfl⟩
  · exact ⟨.min, fun _ _ _ _ _ _ _ => rfl⟩
  · exact ⟨.max, fun _ _ _ _ _ _ _ => rfl⟩
  · exact ⟨.swap, fun _ _ _ _ _ _ _ => rfl⟩
  · exact ⟨.cas, fun _ _ _ _ _ _ _ => rfl⟩

/-- Settles O32: loads and stores keep to their footprints, the parts of a store write within them, and an atomic leaves what stands
outside its bytes. -/
theorem memoryInstructionsFrame : Obligations.MemoryInstructionsFrame := by
  refine ⟨fun i f s s1 t hf hu hv hr ht => ?_, fun i f s s1 t hf hc hu hv hr ht => ?_, fun s rs q h => ?_, ?_⟩
  · simpa only [keptByLoads, Kept.holds, Bool.false_eq_true, false_imp_iff, true_and, forall_const] using loads_framed hf hu hv hr ht
  · simpa only [keptByStores, Kept.holds, Bool.false_eq_true, false_imp_iff, true_and, forall_const] using
      stores_framed hf hc hu hv hr ht
  · exact ⟨(performParts_eq s rs).1, (performParts_eq s rs).2, viewByte_performParts s rs q h⟩
  · intro mk hmk tk sc z d a b s s1 t x ha hb hd hr hm hx ht
    obtain ⟨op, hop⟩ := exec_atomic hmk
    obtain ⟨-, -, -, hpop⟩ := id hr
    obtain ⟨-, -, -, -, -, hmem⟩ := within_popW (f := { tok := tk }) (k := ⟨true, true, true⟩) hpop
    refine (leaves_of_body (hop ..) hr (leavesAct_atomicOp ha hb hd (by rw [hmem]; exact hm) hx) ht).imp id fun h => ?_
    obtain ⟨-, -, ⟨hxr, hv, hm, hp, hf⟩, -, hw, hn⟩ := h
    refine ⟨fun q hq => ⟨fun he => ?_, fun h4 h5 r => hn (by simp [wideScope, h4, h5]) r q hq⟩, hxr, hv, hm, hp, hf⟩
    cases hws : wideScope sc
    · exact hn hws _ q hq
    · exact (hw hws he).2 q hq

end Sys2Proof.Frames
end

section
/-! SUPPORT. Uniform float instructions (R162-R168, R188): arithmetic, comparisons, classification, conversion. -/

namespace Sys2Proof.Floats

open Sys2Proof Sys2Proof.Machine Sys2Proof.Spec Sys2Proof.Integer

section Completion

variable {i : Instr} {tk : Tok} {n : Nat} {s s1 s2 s3 s4 s5 u : State} {body : State → Act} {d a b c : Reg} {x y z : UVal}

theorem exec_trap (hr : Runs i tk n body) (h : Ready i tk s s1) {code : Nat} {value : Word} (hb : body s1 = .trap code value) :
    exec i s = .next (s1.trapNow code value) := by
  rw [hr.2, runHart_trap h hb]

/-- A float result: SIG_LOSS where its tag fails, else it is written with its flags raised (R188). -/
theorem floatDone_done {r : ElemRes} {p : Bool} (hf : r.fails = false)
    (hd : (s.raise r.flags).putU d ⟨BitVec.ofNat 64 r.code, BitVec.ofNat 5 r.tag, p⟩ = .ok u) : floatDone s d r p = .done u := by
  rw [floatDone, hf, if_neg (by decide), dstU_ok hd]

theorem floatDone_trap {r : ElemRes} {p : Bool} (hf : r.fails = true) : floatDone s d r p = .trap 0x0D 1#64 := by
  rw [floatDone, hf, if_pos rfl]

theorem floatOp_eq {op : FOp} {rm : BitVec 3} (hp : Parties s [a, b] [d] [] []) (ha : s.readU a = .got x s2)
    (hb : s2.readU b = .got y s3) : floatOp op rm d a b s =
      floatDone s3 d (fElem op .fp32 (s3.hart.mode rm) s3.hart.thr x.fin y.fin y.fin) (x.poison || y.poison) := by
  obtain ⟨hsrc, hdst, -, -⟩ := hp
  rw [floatOp, guardMap_ok (by simp [hsrc, hdst]), srcU_got ha, srcU_got hb]

theorem floatOp3_eq {op : FOp} (hp : Parties s [a, b, c] [d] [] []) (ha : s.readU a = .got x s2)
    (hb : s2.readU b = .got y s3) (hc : s3.readU c = .got z s4) : floatOp3 op d a b c s =
      floatDone s4 d (fElem op .fp32 s4.hart.dynMode s4.hart.thr x.fin y.fin z.fin) (x.poison || y.poison || z.poison) := by
  obtain ⟨hsrc, hdst, -, -⟩ := hp
  rw [floatOp3, guardMap_ok (by simp [hsrc, hdst]), srcU_got ha, srcU_got hb, srcU_got hc]

/-- A body that ends as a float result does completes, or traps SIG_LOSS. -/
theorem Runs.floatDone (hr : Runs i tk 4 body) (h : Ready i tk s s1) {r : ElemRes} {p : Bool}
    (hb : body s1 = floatDone u d r p) :
    (r.fails = false → ∀ t, (u.raise r.flags).putU d ⟨BitVec.ofNat 64 r.code, BitVec.ofNat 5 r.tag, p⟩ = .ok t →
      Completes i tk s t (after4 s)) ∧ (r.fails = true → exec i s = .next (s1.trapNow 0x0D 1#64)) :=
  ⟨fun hf _ hd => hr.completes_done h (hb.trans (floatDone_done hf hd)), fun hf => exec_trap hr h (hb.trans (floatDone_trap hf))⟩

end Completion

theorem floatBinary_of {mk : Tok → Reg → Reg → Reg → Instr} {op : FOp} {rm : BitVec 3}
    (hr : ∀ tk d a b, Runs (mk tk d a b) tk 4 (floatOp op rm d a b)) : FloatBinary mk op rm :=
  fun tk d a b _ _ _ _ _ _ h hp ha hb => Runs.floatDone (hr tk d a b) h (floatOp_eq hp ha hb)

theorem floatTernary_of {mk : Tok → Reg → Reg → Reg → Reg → Instr} {op : FOp}
    (hr : ∀ tk d a b c, Runs (mk tk d a b c) tk 4 (floatOp3 op d a b c)) : FloatTernary mk op :=
  fun tk d a b c _ _ _ _ _ _ _ _ h hp ha hb hc => Runs.floatDone (hr tk d a b c) h (floatOp3_eq hp ha hb hc)

theorem floatTest_of {mk : Tok → Reg → Reg → Reg → Instr} {cc : FltCC}
    (hr : ∀ tk d a b, Runs (mk tk d a b) tk 4 (floatCompare cc d a b)) : FloatTest mk cc :=
  fun tk d a b _ _ _ _ _ _ _ h hp ha hb hd => (hr tk d a b).completes_done h (uniform2_done hp ha hb hd)

/-- R163-R166. -/
theorem uniformFloat : UniformFloat := by
  have run2 (rm : BitVec 3) (tk : Tok) (d a b : Reg) :
      Runs (.fadd tk rm d a b) tk 4 (floatOp .add rm d a b) ∧ Runs (.fsub tk rm d a b) tk 4 (floatOp .sub rm d a b) ∧
      Runs (.fmul tk rm d a b) tk 4 (floatOp .mul rm d a b) ∧ Runs (.fdiv tk rm d a b) tk 4 (floatOp .div rm d a b) :=
    ⟨⟨rfl, fun _ => rfl⟩, ⟨rfl, fun _ => rfl⟩, ⟨rfl, fun _ => rfl⟩, ⟨rfl, fun _ => rfl⟩⟩
  refine ⟨fun rm => ⟨floatBinary_of fun tk d a b => (run2 rm tk d a b).1, floatBinary_of fun tk d a b => (run2 rm tk d a b).2.1,
      floatBinary_of fun tk d a b => (run2 rm tk d a b).2.2.1, floatBinary_of fun tk d a b => (run2 rm tk d a b).2.2.2⟩,
    floatBinary_of fun _ _ _ _ => ⟨rfl, fun _ => rfl⟩, floatBinary_of fun _ _ _ _ => ⟨rfl, fun _ => rfl⟩,
    floatTernary_of fun _ _ _ _ _ => ⟨rfl, fun _ => rfl⟩, floatTernary_of fun _ _ _ _ _ => ⟨rfl, fun _ => rfl⟩,
    floatTest_of fun _ _ _ _ => ⟨rfl, fun _ => rfl⟩, floatTest_of fun _ _ _ _ => ⟨rfl, fun _ => rfl⟩,
    floatTest_of fun _ _ _ _ => ⟨rfl, fun _ => rfl⟩, fun tk rm d a s s1 s2 x h hp ha => ?_⟩
  obtain ⟨hsrc, hdst, -, -⟩ := hp
  refine Runs.floatDone ⟨rfl, fun _ => rfl⟩ h ?_
  rw [guardMap_ok (by simp [hsrc, hdst]), srcU_got ha]

/-! Classification (R167). -/

section Class

variable {code : Nat}

/-- The fields of an FP32 code. -/
theorem decodeF_fp32 (code : Nat) : decodeF .fp32 code =
    if code / 2 ^ 23 % 256 = 255 then
      (if code % 2 ^ 23 = 0 then .inf (decide (code / 2 ^ 31 % 2 = 1)) else .nan (decide (code % 2 ^ 23 < 2 ^ 22)))
    else if code / 2 ^ 23 % 256 = 0 then .real (decide (code / 2 ^ 31 % 2 = 1)) (code % 2 ^ 23) (-149) false
    else .real (decide (code / 2 ^ 31 % 2 = 1)) (2 ^ 23 + code % 2 ^ 23) ((code / 2 ^ 23 % 256 : Nat) - 150 : Int) false := by
  have hexp (n : Nat) : (n : Int) - 127 - 23 = n - 150 := by ring
  simp only [decodeF, FFmt.fbits, FFmt.ebits, FFmt.hasInf, FFmt.bias, FFmt.minSubExp, FFmt.emin, Nat.reduceAdd, Nat.reducePow,
    Nat.reduceSub, and_true, reduceCtorEq, false_and, if_false, Nat.cast_ofNat, hexp, Int.reduceSub]
  rfl

/-- A normal FP32 value below 2^23 is whole when the bits below its unit are 0. -/
theorem isWhole_normal {neg : Bool} {frac ex : Nat} (hf : frac < 2 ^ 23) :
    isWhole (.real neg (2 ^ 23 + frac) ((ex : Nat) - 150 : Int) false) =
      decide (150 ≤ ex ∨ (127 ≤ ex ∧ (2 ^ 23 + frac) % 2 ^ (150 - ex) = 0)) := by
  rw [isWhole]
  by_cases h : 150 ≤ ex
  · rw [if_pos (by omega), decide_eq_true (.inl h)]
  · rw [if_neg (by omega), show ((ex : Int) - 150).natAbs = 150 - ex by omega]
    by_cases hlow : 127 ≤ ex
    · simp only [h, hlow, false_or, true_and]
    · have hbig : 2 ^ 23 + frac < 2 ^ (150 - ex) :=
        lt_of_lt_of_le (by omega) (Nat.pow_le_pow_right (n := 2) (by omega) (show 24 ≤ 150 - ex by omega))
      rw [Nat.mod_eq_of_lt hbig]
      simp only [h, hlow, false_or, false_and, decide_false, decide_eq_false_iff_not]
      omega

theorem isWhole_subnormal {neg : Bool} {frac : Nat} (hf : frac < 2 ^ 23) :
    isWhole (.real neg frac (-149) false) = decide (frac = 0) := by
  have hbig : frac < 2 ^ 149 := lt_of_lt_of_le hf (Nat.pow_le_pow_right (by omega) (by omega))
  simp only [isWhole, if_neg (show ¬ (0 : Int) ≤ -149 by omega), show (-149 : Int).natAbs = 149 from rfl, Nat.mod_eq_of_lt hbig]

/-- The kind of a code (R167). -/
def kindOf (ex frac : Nat) : Nat :=
  if ex = 255 then (if frac = 0 then 3 else if frac < 2 ^ 22 then 7 else 6) else if ex = 0 then (if frac = 0 then 0 else 1) else 2

/-- Whether a code is a whole number (R167). -/
def wholeOf (ex frac : Nat) : Nat :=
  if ex = 255 then 0 else if ex = 0 ∧ frac = 0 then 1
    else if 150 ≤ ex then 1 else if 127 ≤ ex ∧ (2 ^ 23 + frac) % 2 ^ (150 - ex) = 0 then 1 else 0

theorem isWhole_decodeF (code : Nat) : b2n (isWhole (decodeF .fp32 code)) = wholeOf (code / 2 ^ 23 % 256) (code % 2 ^ 23) := by
  have hf : code % 2 ^ 23 < 2 ^ 23 := Nat.mod_lt _ (by positivity)
  rw [decodeF_fp32, wholeOf]
  generalize code % 2 ^ 23 = frac at hf
  generalize code / 2 ^ 23 % 256 = ex
  split
  · split <;> rfl
  next h255 =>
  split
  · next h0 =>
    rw [isWhole_subnormal hf, h0]
    by_cases hz : frac = 0 <;> simp [b2n, hz]
  · next h0 =>
    rw [isWhole_normal hf]
    by_cases hb : 150 ≤ ex
    · simp [b2n, hb, h0]
    · by_cases hw : 127 ≤ ex ∧ (2 ^ 23 + frac) % 2 ^ (150 - ex) = 0
      · rw [if_neg (by simp [h0]), if_neg hb, if_pos hw, decide_eq_true (.inr hw)]; rfl
      · rw [if_neg (by simp [h0]), if_neg hb, if_neg hw, decide_eq_false (by simp only [hb, hw, or_self, not_false_eq_true])]; rfl

theorem fclassOf_eq (h : code < 2 ^ 32) : fclassOf code = wholeOf (code / 2 ^ 23 % 256) (code % 2 ^ 23) * 2 ^ 16 +
    code / 2 ^ 23 % 256 * 2 ^ 8 + code / 2 ^ 31 * 8 + kindOf (code / 2 ^ 23 % 256) (code % 2 ^ 23) := by
  have hex : bits code 30 23 = code / 2 ^ 23 % 256 := by rw [bits, Nat.shiftRight_eq_div_pow]; rfl
  have hsign : bits code 31 31 = code / 2 ^ 31 := by
    rw [bits, Nat.shiftRight_eq_div_pow, Nat.mod_eq_of_lt (by omega)]
  simp only [fclassOf, isWhole_decodeF, hex, hsign]
  congr 1
  rw [decodeF_fp32, kindOf]
  generalize code % 2 ^ 23 = frac
  generalize code / 2 ^ 23 % 256 = ex
  by_cases h255 : ex = 255
  · by_cases h0 : frac = 0
    · simp [h255, h0]
    · simp [h255, h0]
  · by_cases h0 : ex = 0
    · simp [h0]
    · simp [h255, h0]

end Class

/-- What a conversion's result leaves in a uniform register (R168). -/
theorem convResult_eq (dst : NType) (r : ElemRes) (p : Bool) : convResult dst r p =
    match dst with
    | .flt _ => ⟨BitVec.ofNat 64 r.code, BitVec.ofNat 5 r.tag, p⟩
    | .int sg w => ⟨if sg ∧ 2 ^ (w - 1) ≤ r.code then BitVec.ofInt 64 (r.code - 2 ^ w) else BitVec.ofNat 64 r.code, 24#5, p⟩ := by
  match dst with
  | .flt _ => rfl
  | .int false w => simp [convResult, intResult]
  | .int true w =>
    simp only [convResult, intResult, signedOf]
    by_cases h : 2 ^ (w - 1) ≤ r.code
    · simp [h, Nat.not_lt.mpr h]
    · simp [h, Nat.not_le.mp h, BitVec.ofInt_natCast]

theorem floatConvert_eq {dt rm st : BitVec 3} {d a : Reg} {s s2 : State} {x : UVal} (hp : Parties s [a] [d] [] [])
    (ha : s.readU a = .got x s2) : floatConvert dt rm st d a s =
      let r := convElem (fcvtType st.toNat) (fcvtType dt.toNat) (s2.hart.mode rm) s2.hart.thr
        ⟨x.val.toNat % 2 ^ (fcvtType st.toNat).width, x.tag.toNat⟩
      if r.fails then .trap 0x0D 1#64 else dstU (s2.raise r.flags) d (convResult (fcvtType dt.toNat) r x.poison) := by
  obtain ⟨hsrc, hdst, -, -⟩ := hp
  rw [floatConvert, guardMap_ok (by simp [hsrc, hdst]), srcU_got ha]

/-- R167, R168. -/
theorem floatClassAndConvert : FloatClassAndConvert := by
  refine ⟨fun tk d a s s1 s2 s3 x h hp ha => ?_, fun tk dt rm st d a s s1 s2 x h hp ha => ?_⟩
  · intro c ex frac kind whole hd
    have hr : Runs (.fclass tk d a) tk 4 (intImm d a fun a => BitVec.ofNat 64 (fclassOf (a.toNat % 2 ^ 32))) := ⟨rfl, fun _ => rfl⟩
    refine hr.completes_intImm h hp ha ?_
    rw [fclassOf_eq (Nat.mod_lt _ (by positivity))]
    exact hd
  · intro dst src r out
    have hr : Runs (.fcvt tk dt rm st d a) tk 4 (floatConvert dt rm st d a) := ⟨rfl, fun _ => rfl⟩
    have hbody := floatConvert_eq (dt := dt) (rm := rm) (st := st) hp ha
    have hout : convResult dst r x.poison = out := convResult_eq dst r x.poison
    refine ⟨fun hf s3 hd => hr.completes_done h ?_, fun hf => exec_trap hr h ?_⟩
    · rw [hbody]
      simp only
      rw [if_neg (by simpa using hf), hout]
      exact dstU_ok hd
    · rw [hbody]
      exact if_pos hf

/-- Settles O35: each float instruction's body ends as its shape says. -/
theorem uniformFloatInstructions : Obligations.UniformFloatInstructions := ⟨uniformFloat, floatClassAndConvert⟩

end Sys2Proof.Floats
end

section
/-! SUPPORT. Vector comparisons and masks (R144, R147, R172), reductions and dot products (R149, R150, R174), vector float arithmetic and
tags as data (R170-R176, R184-R186). -/

namespace Sys2Proof.Vectors

open Sys2Proof Sys2Proof.Machine Sys2Proof.Spec Sys2Proof.Integer Sys2Proof.Moves Sys2Proof.Floats

/-! How the bodies end. -/

section Completion

variable {i : Instr} {tk : Tok} {s s1 s2 s3 s4 u : State} {body : State → Act} {d a b c : Reg} {x y z : VVal}

/-- A body that ends as a mask write completes with it. -/
theorem Runs.maskDone (hr : Runs i tk 4 body) (h : Ready i tk s s1) {m : MReg} {r : Word} {p : Bool} (hb : body s1 = maskDone u m r p) :
    Completes i tk s ((u.note p 1).modHart (fun h => h.setM m r)) (after4 s) :=
  hr.completes_done h hb

/-- A body that ends as a vector float result does completes, or traps SIG_LOSS with the map of the failing lanes (R188). -/
theorem Runs.floatLanes (hr : Runs i tk 4 body) (h : Ready i tk s s1) {r : VVal → Bool → VecRes} (hb : body s1 = vecDone u d r) :
    FloatLanes i tk d s s1 u r := by
  refine ⟨fun hf t hd => hr.completes_done h ?_, fun hf => exec_trap hr h ?_⟩
  · rw [hb, vecDone, if_neg (not_not.mpr hf), dstV_ok hd]
  · rw [hb, vecDone, if_pos hf]

theorem vector1_done {f : VVal → VVal → Bool → VVal} (hp : Parties s [] [] [a] [d]) (ha : s.readV a = .got x s2)
    (hd : s2.putV d (f x) = .ok s3) : vector1 s d a f = .done s3 := by
  obtain ⟨-, -, hsrc, hdst⟩ := hp
  rw [vector1, guardMap_ok (by simp [hsrc, hdst]), srcV_got ha, dstV_ok hd]

theorem vecSource_eq {g : VVal → State → Act} (hp : Parties s [] [] [a] [d]) (ha : s.readV a = .got x s2) :
    guardMap [(s.badSrcV a, a), (s.badDstV d, d)] (srcV s a g) = g x s2 := by
  obtain ⟨-, -, hsrc, hdst⟩ := hp
  rw [guardMap_ok (by simp [hsrc, hdst]), srcV_got ha]

theorem vecFloat_eq {op : FOp} {e : FltW} {k : MReg} (hp : Parties s [] [] [a, b] [d]) (ha : s.readV a = .got x s2)
    (hb : s2.readV b = .got y s3) :
    vecFloat op e k d a b s = vecDone s3 d (vfMap op e s3.hart.dynMode s3.hart.thr (s3.hart.mval k) x y y) := by
  obtain ⟨-, -, hsrc, hdst⟩ := hp
  rw [vecFloat, guardMap_ok (by simp [hsrc, hdst]), srcV_got ha, srcV_got hb]

theorem vecFloat3_eq {op : FOp} {e : FltW} {k : MReg} (hp : Parties s [] [] [a, b, c] [d]) (ha : s.readV a = .got x s2)
    (hb : s2.readV b = .got y s3) (hc : s3.readV c = .got z s4) :
    vecFloat3 op e k d a b c s = vecDone s4 d (vfMap op e s4.hart.dynMode s4.hart.thr (s4.hart.mval k) x y z) := by
  obtain ⟨-, -, hsrc, hdst⟩ := hp
  rw [vecFloat3, guardMap_ok (by simp [hsrc, hdst]), srcV_got ha, srcV_got hb, srcV_got hc]

end Completion

/-! The shapes. -/

section Shapes

theorem vectorUnary_of {mk : Tok → MReg → Reg → Reg → Instr} {f g : Word → VVal → VVal → Bool → VVal}
    (hg : ∀ m x old keep, g m x old keep = f m x old keep)
    (hr : ∀ tk k d a, Runs (mk tk k d a) tk 4 fun s => vector1 s d a (g (s.hart.mval k))) : VectorUnary mk f := by
  obtain rfl : g = f := by funext m x old keep; exact hg m x old keep
  intro tk k d a s s1 s2 s3 x h hp ha hd
  exact (hr tk k d a).completes_done h (vector1_done hp ha hd)

theorem vectorFloatBinary_of {mk : Tok → FltW → MReg → Reg → Reg → Reg → Instr} {op : FOp}
    (hr : ∀ tk e k d a b, Runs (mk tk e k d a b) tk 4 (vecFloat op e k d a b)) : VectorFloatBinary mk op :=
  fun tk e k d a b _ _ _ _ _ _ h hp ha hb => Runs.floatLanes (hr tk e k d a b) h (vecFloat_eq hp ha hb)

theorem vectorFloatTernary_of {mk : Tok → FltW → MReg → Reg → Reg → Reg → Reg → Instr} {op : FOp}
    (hr : ∀ tk e k d a b c, Runs (mk tk e k d a b c) tk 4 (vecFloat3 op e k d a b c)) : VectorFloatTernary mk op :=
  fun tk e k d a b c _ _ _ _ _ _ _ _ h hp ha hb hc => Runs.floatLanes (hr tk e k d a b c) h (vecFloat3_eq hp ha hb hc)

/-- A float instruction on one vector source. -/
theorem vectorFloatUnary_of {mk : Tok → MReg → Reg → Reg → Instr} {r : State → MReg → VVal → VVal → Bool → VecRes}
    (hr : ∀ tk k d a, Runs (mk tk k d a) tk 4 fun s =>
      guardMap [(s.badSrcV a, a), (s.badDstV d, d)] (srcV s a fun x s => vecDone s d (r s k x))) : VectorFloatUnary mk r :=
  fun tk k d a _ _ _ _ h hp ha => Runs.floatLanes (hr tk k d a) h (vecSource_eq hp ha)

theorem floatReduction_of {mk : Tok → FltW → MReg → Reg → Reg → Instr} {op : FRed}
    (hr : ∀ tk e k d a, Runs (mk tk e k d a) tk 4 (vecFloatReduce op e k d a)) : FloatReduction mk op := by
  intro tk e k d a s s1 s2 x h hp ha
  obtain ⟨-, hdst, hsrc, -⟩ := hp
  refine Runs.floatDone (hr tk e k d a) h ?_
  simp only [vecFloatReduce]
  rw [guardMap_ok (by simp [hsrc, hdst]), srcV_got ha]

theorem note_false (s : State) (n : Nat) : s.note false n = s := rfl

/-- A mask made of masks brings no poison. -/
theorem Runs.maskOp {i : Instr} {tk : Tok} {s s1 : State} {d a b : MReg} {f : Word → Word → Word} (hr : Runs i tk 4 (maskOp d a b f))
    (h : Ready i tk s s1) : Completes i tk s (s1.modHart (fun h => h.setM d (f (s1.hart.mval a) (s1.hart.mval b)))) (after4 s) := by
  have hc := Runs.maskDone (m := d) (r := f (s1.hart.mval a) (s1.hart.mval b)) (u := s1) (p := false) hr h rfl
  rwa [note_false] at hc

theorem maskBinary_of {mk : Tok → MReg → MReg → MReg → Instr} {f : Word → Word → Word}
    (hr : ∀ tk d a b, Runs (mk tk d a b) tk 4 (maskOp d a b f)) : MaskBinary mk f :=
  fun tk d a b _ _ h => Runs.maskOp (hr tk d a b) h

theorem maskToUniform_of {mk : Tok → Reg → MReg → Instr} {f g : Word → Word} (hg : ∀ m, g m = f m)
    (hr : ∀ tk d a, Runs (mk tk d a) tk 4 (maskToX d a g)) : MaskToUniform mk f := by
  obtain rfl : g = f := funext hg
  exact fun tk d a _ _ _ h hp hd => (hr tk d a).completes_done h (intConst_done hp hd)

end Shapes

/-! Comparisons and masks. -/

theorem vectorCompare : VectorCompare := by
  intro tk e cc k d a b s s1 s2 s3 x y h hp ha hb m holds
  refine ⟨viCompare cc e m x y, fun i hi => ?_, ?_⟩
  · rw [viCompare, getLsbD_maskOf _ hi]
    cases cc <;> rfl
  · obtain ⟨-, -, hsrc, -⟩ := hp
    refine Runs.maskDone ⟨rfl, fun _ => rfl⟩ h ?_
    rw [guardMap_ok (by simp [hsrc]), srcV_got ha, srcV_got hb]

theorem any_activeLanes (m : Word) (f : Nat → Bool) :
    (activeLanes m).any f = (List.range 64).any (fun i => m.getLsbD i && f i) := by
  rw [activeLanes, List.any_filter]

theorem vectorFloatCompare : VectorFloatCompare := by
  intro tk e c k d a b s s1 s2 s3 x y h hp ha hb m rel
  refine ⟨(vfCompare c e m x y).1, fun i hi => by rw [vfCompare, getLsbD_maskOf _ hi], ?_⟩
  obtain ⟨-, -, hsrc, -⟩ := hp
  rw [← any_activeLanes m fun i => (List.range (32 / e.bits)).any fun j => (rel i j).2]
  refine Runs.maskDone ⟨rfl, fun _ => rfl⟩ h ?_
  rw [guardMap_ok (by simp [hsrc]), srcV_got ha, srcV_got hb]
  rfl

/-- The ones of a mask, counted (R144). -/
theorem onesOf_eq (m : Word) : onesOf m = BitVec.ofNat 64 ((List.range 64).filter (fun i => m.getLsbD i)).length := by
  rw [onesOf, popCount_eq_length]
  rfl

/-- The lowest one of a mask (R144). -/
theorem trailingZeros_eq_find (m : Word) :
    trailingZeros m = BitVec.ofNat 64 (((List.range 64).find? (fun i => m.getLsbD i)).getD 64) := by
  obtain ⟨hle, hbelow, hat⟩ := lowestOne_spec 64 m.toNat
  have hbit : (fun i => m.getLsbD i) = m.toNat.testBit := rfl
  rw [trailingZeros, hbit]
  congr 1
  rcases hle.lt_or_eq with h | h
  · rw [List.find?_range_eq_some.mpr ⟨hat h, List.mem_range.mpr h, fun j hj => by simpa using hbelow j hj⟩, Option.getD_some]
  · rw [List.find?_range_eq_none.mpr fun i hi => by simpa using hbelow i (hi.trans_eq h.symm), Option.getD_none, h]

theorem maskInstructions : MaskInstructions :=
  ⟨maskBinary_of fun _ _ _ _ => ⟨rfl, fun _ => rfl⟩, maskBinary_of fun _ _ _ _ => ⟨rfl, fun _ => rfl⟩,
    maskBinary_of fun _ _ _ _ => ⟨rfl, fun _ => rfl⟩,
    fun tk d a _ _ h => Runs.maskOp (i := .mnot tk d a) (b := a) (f := fun m _ => ~~~m) ⟨rfl, fun _ => rfl⟩ h,
    maskToUniform_of onesOf_eq fun _ _ _ => ⟨rfl, fun _ => rfl⟩,
    maskToUniform_of trailingZeros_eq_find fun _ _ _ => ⟨rfl, fun _ => rfl⟩, fun _ => rfl⟩

/-- Settles O37: the masks are those of the lanes' tests. -/
theorem vectorComparisonsAndMasks : Obligations.VectorComparisonsAndMasks := ⟨vectorCompare, vectorFloatCompare, maskInstructions⟩

/-! Integer reductions and the scan (R149). -/

section Reductions

theorem foldl_add_eq {α : Type} (f : α → Int) (l : List α) (t : Int) : l.foldl (fun t j => t + f j) t = t + (l.map f).sum := by
  induction l generalizing t with
  | nil => simp
  | cons a l ih => rw [List.foldl_cons, ih, List.map_cons, List.sum_cons, add_assoc]

theorem viReduce_add (es : List Int) : viReduce .add es = BitVec.ofInt 64 es.sum := by
  cases es with
  | nil => rfl
  | cons x xs => simpa [viReduce] using congrArg (BitVec.ofInt 64) (foldl_add_eq id xs x)

theorem viReduce_min (es : List Int) : viReduce .min es = BitVec.ofInt 64 (es.min?.getD 0) := by
  cases es with
  | nil => rfl
  | cons x xs =>
    have hmin : (fun t y : Int => if y < t then y else t) = min := by
      funext t y
      rw [min_def]
      split <;> split <;> omega
    simp only [viReduce, List.min?_cons', Option.getD_some, hmin]

theorem viReduce_max (es : List Int) : viReduce .max es = BitVec.ofInt 64 (es.max?.getD 0) := by
  cases es with
  | nil => rfl
  | cons x xs =>
    have hmax : (fun t y : Int => if t < y then y else t) = max := by
      funext t y
      rw [max_def]
      split <;> split <;> omega
    simp only [viReduce, List.max?_cons', Option.getD_some, hmax]

theorem vectorToUniform_of {mk : Tok → MReg → Reg → Reg → Instr} {op : RedOp} {e : IntW} {r : Word → VVal → UVal}
    (hr : ∀ tk k d a, Runs (mk tk k d a) tk 4 (vecReduce op e k d a))
    (hv : ∀ m x, (⟨viReduce op (activeElems e m x), 24#5, anyPoison m x⟩ : UVal) = r m x) :
    VectorToUniform mk (fun s m _ => s.modHart (fun h => h.setP 3#2 (decide (m = 0#64)))) r := by
  intro tk k d a s s1 s2 s3 x h hp ha hd
  refine (hr tk k d a).completes_done h ?_
  obtain ⟨-, hdst, hsrc, -⟩ := hp
  simp only [vecReduce]
  rw [guardMap_ok (by simp [hsrc, hdst]), srcV_got ha, intResult, hv]
  exact dstU_ok hd

/-- A filter that also asks to stay below n. -/
theorem filter_range_below {n N : Nat} (hn : n ≤ N) {p q : Nat → Bool} (h : ∀ i, i < N → p i = (q i && decide (i < n))) :
    (List.range N).filter p = (List.range n).filter q := by
  obtain ⟨k, rfl⟩ := Nat.exists_eq_add_of_le hn
  have hlow : (List.range n).filter p = (List.range n).filter q :=
    List.filter_congr fun i hi => by
      have hi := List.mem_range.mp hi
      simp [h i (by omega), hi]
  have hhigh : ((List.range k).map (n + ·)).filter p = [] := by
    rw [List.filter_eq_nil_iff]
    intro i hi
    obtain ⟨j, hj, rfl⟩ := List.mem_map.mp hi
    have hj := List.mem_range.mp hj
    simp [h (n + j) (by omega)]
  rw [List.range_add, List.filter_append, hlow, hhigh, List.append_nil]

/-- The lanes of a mask below a lane. -/
theorem activeLanes_below (m : Word) {n : Nat} (hn : n ≤ 64) :
    activeLanes (m &&& BitVec.ofNat 64 (2 ^ n - 1)) = (List.range n).filter (fun i => m.getLsbD i) := by
  refine filter_range_below hn fun i hi => ?_
  rw [BitVec.getLsbD_and, BitVec.getLsbD_ofNat, Nat.testBit_two_pow_sub_one]
  simp [hi]

theorem sumBelow_eq (e : IntW) (m : Word) (x : VVal) {k : Nat} (hk : k ≤ 64) :
    sumBelow e m x k = (activeElems e (m &&& BitVec.ofNat 64 (2 ^ k - 1)) x).sum := by
  rw [sumBelow, activeElems, activeLanes_below m hk]
  generalize (List.range k).filter (fun i => m.getLsbD i) = l
  have hrow (t : Int) (i : Nat) : (List.range (32 / e.bits)).foldl (fun t j => t + elemS (x.lane i).bits e.bits j) t =
      t + ((List.range (32 / e.bits)).map (fun j => elemS (x.lane i).bits e.bits j)).sum := foldl_add_eq ..
  simp only [hrow, foldl_add_eq, zero_add]
  induction l with
  | nil => rfl
  | cons i l ih => rw [List.map_cons, List.sum_cons, ih, List.flatMap_cons, List.sum_append]

/-- The running sums within a lane. -/
theorem scanLane_eq (w : Nat) (b : Word32) (n j : Nat) (acc : Int) : scanLane w b n j acc =
    (List.range n).map (fun i => wrapTo w (acc + ((List.range (i + 1)).map (fun l => elemS b w (j + l))).sum)) := by
  induction n generalizing j acc with
  | zero => rfl
  | succ n ih =>
    rw [scanLane, ih, List.range_succ_eq_map, List.map_cons, List.map_map]
    congr 1
    · simp
    · refine List.map_congr_left fun i _ => ?_
      simp only [Function.comp_apply]
      rw [List.range_succ_eq_map (n := i + 1), List.map_cons, List.sum_cons, List.map_map, add_assoc]
      congr 4
      refine List.map_congr_left fun l _ => ?_
      simp only [Function.comp_apply]
      congr 1
      omega

end Reductions

theorem vectorReductions : VectorReductions := by
  refine ⟨fun e => ⟨vectorToUniform_of (fun _ _ _ _ => ⟨rfl, fun _ => rfl⟩) fun m x => ?_,
    vectorToUniform_of (fun _ _ _ _ => ⟨rfl, fun _ => rfl⟩) fun m x => ?_,
    vectorToUniform_of (fun _ _ _ _ => ⟨rfl, fun _ => rfl⟩) fun m x => ?_⟩,
    fun e => vectorUnary_of (fun m x old keep => ?_) fun _ _ _ _ => ⟨rfl, fun _ => rfl⟩⟩
  · rw [viReduce_add]; rfl
  · rw [viReduce_min]; rfl
  · rw [viReduce_max]; rfl
  · unfold viScan
    congr 1
    funext i
    split
    · next hi =>
      have hlt : i < 64 := by by_contra hge; simp [BitVec.getLsbD_of_ge _ _ (Nat.not_lt.mp hge)] at hi
      rw [scanLane_eq, sumBelow_eq e m x (by omega), intTagField_eq, ← activeLanes_below m (by omega)]
      simp only [Nat.zero_add]
      rfl
    · rfl

/-! The dot product (R150). -/

theorem vectorDot : VectorDot := by
  intro tk k d a b s s1 s2 s3 s4 s5 x y z h hp ha hb hz hd
  have hr : Runs (.vdot4 tk k d a b) tk 4 (dotOp k d a b) := ⟨rfl, fun _ => rfl⟩
  refine hr.completes_done h ?_
  obtain ⟨-, -, hsrc, hdst⟩ := hp
  rw [dotOp, guardMap_ok (by simp [hsrc, hdst]), srcV_got ha, srcV_got hb, srcV_got hz]
  refine dstV_ok (Eq.trans (congrArg _ ?_) hd)
  funext old keep
  simp only [vdot, dot4Lane, foldl_add_eq]

/-! Float reductions of no elements (R174). -/

theorem redPair_none (op : FIn → FIn → ElemRes) (n : Nat) :
    ∃ k, redPair op (List.replicate n none) = (List.replicate k none, .none) := by
  induction n using Nat.twoStepInduction with
  | zero => exact ⟨0, rfl⟩
  | one => exact ⟨1, rfl⟩
  | more n ih _ =>
    obtain ⟨k, hk⟩ := ih
    refine ⟨k + 1, ?_⟩
    simp only [List.replicate_succ, redPair, hk]

theorem redTree_none (op : FIn → FIn → ElemRes) (fuel n : Nat) (f : FFlags) :
    (redTree op fuel (List.replicate n none) f).1 = none := by
  induction fuel generalizing n f with
  | zero => cases n <;> rfl
  | succ fuel ih =>
    obtain ⟨k, hk⟩ := redPair_none op n
    match n with
    | 0 => simp only [redTree, hk]; exact ih ..
    | 1 => rfl
    | n + 2 =>
      rw [show List.replicate (n + 2) none = (none : RedNode) :: none :: List.replicate n none from rfl] at hk ⊢
      simp only [redTree, hk]
      exact ih ..

theorem redLeaves_zero (e : FltW) (x : VVal) : ∃ n, (redLeaves e 0#64 x).map (·.1) = List.replicate n none := by
  refine ⟨_, List.eq_replicate_iff.mpr ⟨rfl, fun v hv => ?_⟩⟩
  obtain ⟨l, hl, rfl⟩ := List.mem_map.mp hv
  obtain ⟨i, -, hi⟩ := List.mem_flatMap.mp hl
  obtain ⟨j, -, rfl⟩ := List.mem_map.mp hi
  simp

theorem vfReduce_zero (op : FRed) (e : FltW) (mode : RMode) (thr : Option Nat) (x : VVal) :
    ∃ fl, vfReduce op e mode thr 0#64 x =
      if op = .fadd then ⟨0, 24, fl, false⟩ else ⟨FFmt.nanCode .fp32, 0, fl, false⟩ := by
  obtain ⟨n, hn⟩ := redLeaves_zero e x
  simp only [vfReduce, hn]
  rw [redTree_none]
  exact ⟨_, rfl⟩

theorem vectorFloatReductions : VectorFloatReductions := by
  refine ⟨floatReduction_of fun _ _ _ _ _ => ⟨rfl, fun _ => rfl⟩, floatReduction_of fun _ _ _ _ _ => ⟨rfl, fun _ => rfl⟩,
    floatReduction_of fun _ _ _ _ _ => ⟨rfl, fun _ => rfl⟩, fun e => vectorFloatUnary_of fun _ _ _ _ => ⟨rfl, fun _ => rfl⟩,
    fun e mode thr x => ?_⟩
  obtain ⟨f1, h1⟩ := vfReduce_zero .fadd e mode thr x
  obtain ⟨f2, h2⟩ := vfReduce_zero .fmin e mode thr x
  obtain ⟨f3, h3⟩ := vfReduce_zero .fmax e mode thr x
  rw [h1, h2, h3]
  exact ⟨rfl, rfl, rfl, rfl, rfl, rfl⟩

/-- Settles O39: the reductions are folds of the elements of the active lanes. -/
theorem vectorReductionInstructions : Obligations.VectorReductionInstructions := ⟨vectorReductions, vectorDot, vectorFloatReductions⟩

/-! Vector float arithmetic, conversions, special functions. -/

theorem vectorFloat : VectorFloat :=
  ⟨vectorFloatBinary_of fun _ _ _ _ _ _ => ⟨rfl, fun _ => rfl⟩, vectorFloatBinary_of fun _ _ _ _ _ _ => ⟨rfl, fun _ => rfl⟩,
    vectorFloatBinary_of fun _ _ _ _ _ _ => ⟨rfl, fun _ => rfl⟩, vectorFloatBinary_of fun _ _ _ _ _ _ => ⟨rfl, fun _ => rfl⟩,
    vectorFloatBinary_of fun _ _ _ _ _ _ => ⟨rfl, fun _ => rfl⟩, vectorFloatBinary_of fun _ _ _ _ _ _ => ⟨rfl, fun _ => rfl⟩,
    vectorFloatTernary_of fun _ _ _ _ _ _ _ => ⟨rfl, fun _ => rfl⟩, vectorFloatTernary_of fun _ _ _ _ _ _ _ => ⟨rfl, fun _ => rfl⟩,
    fun _ => vectorFloatUnary_of fun _ _ _ _ => ⟨rfl, fun _ => rfl⟩⟩

theorem vectorConvert : VectorConvert :=
  ⟨fun _ _ _ => vectorFloatUnary_of fun _ _ _ _ => ⟨rfl, fun _ => rfl⟩,
    fun _ _ _ => vectorFloatUnary_of fun _ _ _ _ => ⟨rfl, fun _ => rfl⟩⟩

theorem specialFunctions : SpecialFunctions :=
  ⟨vectorFloatUnary_of fun _ _ _ _ => ⟨rfl, fun _ => rfl⟩, vectorFloatUnary_of fun _ _ _ _ => ⟨rfl, fun _ => rfl⟩,
    vectorFloatUnary_of fun _ _ _ _ => ⟨rfl, fun _ => rfl⟩, vectorFloatUnary_of fun _ _ _ _ => ⟨rfl, fun _ => rfl⟩,
    vectorFloatUnary_of fun _ _ _ _ => ⟨rfl, fun _ => rfl⟩, vectorFloatUnary_of fun _ _ _ _ => ⟨rfl, fun _ => rfl⟩⟩

/-! Tags as data (R184-R186). -/

theorem intTagOf_eq (e : FltW) : intTagOf e.bits = if e = .f32 then 0x18#8 else 0xBB#8 := by cases e <;> rfl

theorem tagInstructions : TagInstructions := by
  refine ⟨fun e => vectorUnary_of (fun m x old keep => ?_) fun _ _ _ _ => ⟨rfl, fun _ => rfl⟩,
    fun tk e k d a b s s1 s2 s3 x y h hp ha hb => ?_, fun tk e k d a b s s1 s2 s3 s4 x y h hp ha hb hd => ?_⟩
  · rw [vTags, intTagOf_eq]
    rfl
  · intro m
    refine ⟨vTagsBelow e m x y.val.toNat, fun i hi => by rw [vTagsBelow, getLsbD_maskOf _ hi]; rfl, ?_⟩
    obtain ⟨husrc, -, hvsrc, -⟩ := hp
    refine Runs.maskDone ⟨rfl, fun _ => rfl⟩ h ?_
    rw [guardMap_ok (by simp [husrc, hvsrc]), srcV_got ha, srcU_got hb]
  · have hr : Runs (.vsettsb tk e k d a b) tk 4 (fun s => guardMap [(s.badSrcV a, a), (s.badSrcU b, b), (s.badDstV d, d)]
        (srcV s a fun x s => srcU s b fun y s => dstV s d (vSetTags e (s.hart.mval k) x y.val.toNat y.poison))) := ⟨rfl, fun _ => rfl⟩
    refine hr.completes_done h ?_
    obtain ⟨husrc, -, hvsrc, hvdst⟩ := hp
    rw [guardMap_ok (by simp [husrc, hvsrc, hvdst]), srcV_got ha, srcU_got hb]
    refine dstV_ok (Eq.trans (congrArg _ ?_) hd)
    funext old keep
    simp only [vSetTags, List.map_const', List.length_range]

/-- Settles O40: the vector float instructions end as their shapes say, and tags move as data. -/
theorem vectorFloatInstructions : Obligations.VectorFloatInstructions :=
  ⟨vectorFloat, vectorConvert, specialFunctions, tagInstructions⟩

end Sys2Proof.Vectors
end

section
/-! SUPPORT. Operations that leave the threads alone: whose turn it is, and every hart. -/

namespace Sys2Proof.Threads

open Sys2Proof Sys2Proof.Machine Sys2Proof.Spec Sys2Proof.Frames

/-- The clk, the turn, the harts and the bays are as before. -/
structure SameThreads (s t : State) : Prop where
  clk : t.clk = s.clk
  cur : t.cur = s.cur
  harts : t.harts = s.harts
  bays : t.bays = s.bays

/-- The kills that a region has recorded. -/
def killsOf (g : Region) : List (Nat × Nat) × Nat := (g.kills, g.killed)

/-- The threads are as before, and the kills that every region has recorded. -/
structure Quiet (s t : State) : Prop extends SameThreads s t where
  kills : ∀ r, (t.region? r).map killsOf = (s.region? r).map killsOf

section Compose

variable {s t u : State}

theorem sameThreads_refl (s : State) : SameThreads s s := ⟨rfl, rfl, rfl, rfl⟩

theorem SameThreads.trans (h : SameThreads s t) (h' : SameThreads t u) : SameThreads s u :=
  ⟨h'.clk.trans h.clk, h'.cur.trans h.cur, h'.harts.trans h.harts, h'.bays.trans h.bays⟩

theorem SameThreads.hartAt (h : SameThreads s t) (k : Nat) : t.hartAt k = s.hartAt k := by
  rw [State.hartAt, State.hartAt, h.harts]

theorem SameThreads.hart (h : SameThreads s t) : t.hart = s.hart := by
  rw [State.hart, State.hart, h.cur, h.hartAt]

theorem quiet_refl (s : State) : Quiet s s := ⟨sameThreads_refl s, fun _ => rfl⟩

theorem Quiet.trans (h : Quiet s t) (h' : Quiet t u) : Quiet s u :=
  ⟨h.toSameThreads.trans h'.toSameThreads, fun r => (h'.kills r).trans (h.kills r)⟩

theorem quiet_foldl {β : Type} {f : State → β → State} (h : ∀ s b, Quiet s (f s b)) (l : List β) (s : State) :
    Quiet s (l.foldl f s) := by
  induction l generalizing s with
  | nil => exact quiet_refl s
  | cons b l ih => exact (h s b).trans (ih _)

theorem quiet_ite {c : Prop} [Decidable c] (ht : Quiet s t) (hu : Quiet s u) : Quiet s (if c then t else u) := by
  split
  · exact ht
  · exact hu

end Compose

section Operations

variable (s : State)

theorem sameThreads_modRegion (r : Nat) (f : Region → Region) : SameThreads s (s.modRegion r f) :=
  ⟨State.modRegion_clk .., State.modRegion_cur .., State.modRegion_harts .., State.modRegion_bays ..⟩

theorem quiet_modCell (c : Nat) (f : Cell → Cell) : Quiet s (s.modCell c f) := ⟨⟨rfl, rfl, rfl, rfl⟩, fun _ => rfl⟩

theorem quiet_modRegion (r : Nat) {f : Region → Region} (h : ∀ g, killsOf (f g) = killsOf g := by intro _; rfl) :
    Quiet s (s.modRegion r f) := by
  refine ⟨sameThreads_modRegion s r f, fun k => ?_⟩
  by_cases hk : k = r
  · subst hk
    rw [State.region?_modRegion_self, Option.map_map]
    exact congrArg (fun q => Option.map q (s.region? k)) (funext h)
  · rw [State.region?_modRegion_ne s hk]

theorem quiet_modTaking (r : Nat) (f : Snapshot → Snapshot) : Quiet s (s.modTaking r f) := quiet_modRegion s r

theorem quiet_recordRing (c code slot : Nat) (f : Queue → Queue) : Quiet s (s.recordRing c code slot f) := by
  simp only [State.recordRing]
  split
  · exact quiet_refl s
  · exact quiet_modTaking s ..

theorem quiet_report (r code : Nat) : Quiet s (s.report r code) := by
  obtain ⟨h, hk⟩ := quiet_modRegion s r (f := fun g => g.count s.clk code)
  exact ⟨⟨h.clk, h.cur, h.harts, h.bays⟩, hk⟩

theorem quiet_causeLater (r code : Nat) : Quiet s (s.causeLater r code) :=
  (quiet_report s r code).trans (quiet_modRegion _ r)

theorem quiet_noteWalk (r unit ctx va n : Nat) : Quiet s (s.noteWalk r unit ctx va n) := by
  unfold State.noteWalk
  split
  · exact quiet_causeLater s r 0x48
  · exact quiet_refl s

theorem quiet_writeAs (r cell iv pa : Nat) (bs : List Byte) (us : List (Nat × Bool)) :
    Quiet s (s.writeAs r cell iv pa bs us) := by
  refine ⟨by rw [writeAs_eq]; exact ⟨rfl, rfl, rfl, rfl⟩, fun k => ?_⟩
  cases hg : s.region? r with
  | none => simp only [State.writeAs, hg]; rfl
  | some g =>
    simp only [State.writeAs, hg]
    by_cases hk : k = r
    · subst hk
      simp only [State.region?, lookup_insertAt_self] at hg ⊢
      rw [hg]
      rfl
    · simp only [State.region?, lookup_insertAt_ne hk]

theorem quiet_write (r cell iv pa : Nat) (bs : List Byte) (p : Bool) : Quiet s (s.write r cell iv pa bs p) :=
  quiet_writeAs s ..

theorem quiet_writePieces (rg unit iv : Nat) (p : Bool) (ps : List (Nat × Nat)) (bs : List Byte) :
    Quiet s (s.writePieces rg unit iv p ps bs) := by
  induction ps generalizing s bs with
  | nil => exact quiet_refl s
  | cons q ps ih => exact (quiet_write s ..).trans (ih _ _)

theorem quiet_writeVa (rg unit ctx iv va : Nat) (bs : List Byte) (p : Bool) :
    Quiet s (s.writeVa rg unit ctx iv va bs p) := by
  unfold State.writeVa
  split
  · exact quiet_writePieces s ..
  · exact quiet_refl s

theorem quiet_pushQueue (c code slot : Nat) (e : Entry) : Quiet s (s.pushQueue c code slot e) := by
  have hrec (f : Queue → Queue) : Quiet s (if code < 32 then s else s.recordRing c code slot f) :=
    quiet_ite (quiet_refl s) (quiet_recordRing s ..)
  have hlate (b : Bool) (r : Nat) (g : Snapshot → Snapshot) (f : Queue → Queue) :
      Quiet s (if b then (if code < 32 then s else s.recordRing c code slot f).modTaking r g
        else if code < 32 then s else s.recordRing c code slot f) :=
    quiet_ite ((hrec f).trans (quiet_modTaking ..)) (hrec f)
  simp only [State.pushQueue]
  split
  · refine quiet_ite ?_ ((hlate ..).trans (quiet_modCell ..))
    exact (((hlate ..).trans (quiet_noteWalk ..)).trans (quiet_writeVa ..)).trans (quiet_modCell ..)
  · exact (hlate ..).trans (quiet_modCell ..)

theorem quiet_placeEos (c code : Nat) : Quiet s (s.placeEos c code) := by
  simp only [State.placeEos]
  split
  · exact quiet_refl s
  · refine quiet_ite ?_ (quiet_refl s)
    exact ((quiet_modCell s ..).trans (quiet_recordRing ..)).trans (quiet_pushQueue ..)

theorem quiet_modRing (c code slot : Nat) (f : Queue → Queue) : Quiet s (s.modRing c code slot f) :=
  (quiet_modCell s ..).trans (quiet_recordRing ..)

theorem quiet_endProducer (h : Nat) : Quiet s (s.endProducer h) :=
  quiet_foldl (fun t _ => quiet_ite ((quiet_modRing t ..).trans (quiet_placeEos ..)) (quiet_refl t)) _ s

theorem quiet_dropAlloc (h : Nat) : Quiet s (s.dropAlloc h) := ⟨⟨rfl, rfl, rfl, rfl⟩, fun _ => rfl⟩

theorem quiet_returnHeld : Quiet s s.returnHeld := by
  simp only [State.returnHeld]
  refine Quiet.trans ?_ (quiet_foldl (fun t _ => quiet_modCell t ..) _ _)
  split
  · exact quiet_modCell s ..
  · exact quiet_refl s

end Operations

/-! What the end of a task and a trap leave of the running hart's wait. -/

section Wait

variable {s t : State}

theorem hart_setHart (h : s.cur = t.cur) (x : Hart) : (t.setHart s.cur x).hart = x := by
  have e := State.hart_modHart t fun _ => x
  rwa [State.modHart, ← h] at e

theorem wait_retire (pc : Word) : (s.retire pc).hart.wait = none := by
  rw [State.retire, State.fire, State.hart_modRegion, State.hart_modHart]

theorem wait_abandon : s.abandon.hart.wait = none := by
  simp only [State.abandon, State.hart_modHart]

/-- The load of a task that ends gives up its place in a store queue. -/
theorem quiet_freeLoad (h : Nat) (u : State) (l : Load) : Quiet u (match l.dst with
    | .queue q => u.modCell (cellOf h) (fun c => c.freePlace q l.id)
    | _ => u) := by
  cases l.dst with
  | queue q => exact quiet_modCell u ..
  | xreg => exact quiet_refl u
  | vreg => exact quiet_refl u

/-- The hart that a task leaves. -/
def idle (s : State) (x : Hart) (k : TaskInfo) (fatal : Option Nat) : Hart :=
  { x with
    task := none, lastCtx := some k.ctx, idleFrom := s.clk + 1, stage := .fresh, wait := none, held := [], portOut := [], portKey := 0,
    issued := none, dstHeld := none, record := none, loads := [],
    stores := [], sfrq := [], sfNew := false, leaving := false, reply := none,
    hnd := if fatal.isSome then false else x.hnd, nut := if fatal.isSome then false else x.nut,
    sfrf := if fatal.isSome then false else x.sfrf, gid := if fatal.isSome then 0#64 else x.gid }

/-- Where a task ends, its region notes that, and its hart is idle; of the other state only cells and regions change. -/
theorem endTask_eq (h : Nat) (fatal : Option Nat) {k : TaskInfo} (ht : (s.hartAt h).task = some k) :
    ∃ u v, Quiet s u ∧ Quiet (match fatal with
        | some code => u.recordKill k.region h code
        | none => u) v ∧ s.endTask h fatal = v.setHart h (idle v (s.hartAt h) k fatal) := by
  have hkept (u : State) (g : Cell → Cell) (c : Prop) [Decidable c] :
      Quiet u ((if c then u else u.endProducer h).modCell (cellOf h) g) :=
    (quiet_ite (quiet_refl u) (quiet_endProducer u h)).trans (quiet_modCell ..)
  have hloads (g : Cell → Cell) :=
    ((quiet_modRegion s k.region (f := fun g => { g with pois := g.pois ||| (s.hartAt h).chkiv })).trans
      (hkept _ g ((s.hartAt h).leaving = true))).trans (quiet_foldl (quiet_freeLoad h) (s.hartAt h).loads _)
  simp only [State.endTask, ht]
  refine ⟨_, _, hloads (fun c => { c with kept := removeAt (slotOf h) c.kept }), ?_, rfl⟩
  cases k.fromHost with
  | none => exact quiet_refl _
  | some fn => exact quiet_modRegion ..

/-- A task's end touches its own hart alone. -/
theorem endTask_threads (h : Nat) (fatal : Option Nat) {k : TaskInfo} (ht : (s.hartAt h).task = some k) :
    ∃ v, SameThreads s v ∧ s.endTask h fatal = v.setHart h (idle s (s.hartAt h) k fatal) := by
  obtain ⟨u, v, hu, hv, heq⟩ := endTask_eq h fatal ht
  have hs : SameThreads s v := by
    cases fatal with
    | none => exact hu.toSameThreads.trans hv.toSameThreads
    | some code => exact hu.toSameThreads.trans ((sameThreads_modRegion u ..).trans hv.toSameThreads)
  refine ⟨v, hs, ?_⟩
  rw [heq, idle, idle, hs.clk]

theorem wait_endTask (h : s.hart.wait = none) (fatal : Option Nat) : (s.endTask s.cur fatal).hart.wait = none := by
  cases ht : (s.hartAt s.cur).task with
  | none => simpa only [State.endTask, ht] using h
  | some k =>
    obtain ⟨v, hv, heq⟩ := endTask_threads s.cur fatal ht
    rw [heq, hart_setHart hv.cur.symm]
    rfl

theorem wait_fatal (code : Nat) : (s.fatal code).hart.wait = none := by
  have hleft (r : Nat) (g : Region → Region) : (s.abandon.modRegion r g).hart.wait = none := by
    rw [State.hart_modRegion, wait_abandon]
  simp only [State.fatal]
  split
  · exact wait_endTask (hleft ..) _
  · exact wait_endTask wait_abandon _

theorem wait_takeTrap (code : Nat) (value epc : Word) : (s.takeTrap code value epc).hart.wait = none := by
  have hset (f : Hart → Hart) (hf : (f s.abandon.hart).wait = s.abandon.hart.wait) : (s.abandon.modHart f).hart.wait = none := by
    rw [State.hart_modHart, hf, wait_abandon]
  simp only [State.takeTrap]
  split
  · split
    · split
      · exact hset _ rfl
      · exact wait_fatal _
    · split
      · exact hset _ rfl
      · exact wait_fatal _
  · split
    · exact wait_fatal _
    · simp only [State.hart_modHart, wait_abandon]

end Wait

end Sys2Proof.Threads
end

section
/-! SUPPORT. Vector port reads and writes, and the tests of queues (R123-R125, R128). -/

namespace Sys2Proof.VectorPort

open Sys2Proof Sys2Proof.Machine Sys2Proof.Spec Sys2Proof.Integer Sys2Proof.Threads

/-! A turn of a vector read collects only while it waits for data (R123). -/

section Collect

variable {s t : State} {tk : Tok} {k : MReg} {d : Reg} {sel : PortSel} {s1 : State}

theorem collectWaiting_of_ready (h : t.hart.wait = none) (pc : Word) (p : Nat) : t.collectWaiting pc p = t := by
  simp only [State.collectWaiting, h, Option.isSome_none, Bool.false_and, Bool.false_eq_true, if_false]

/-- Where no data flit stands at the head, nothing is collected. -/
theorem collect_of_control {p : Nat} (h : (s.portItems p).takeWhile (fun i => i.flit.isData) = []) : s.collect p = s := by
  simp only [State.collect, h, List.take_nil, List.length_nil, Nat.zero_sub, if_true]

theorem portItems_waiting (w : Wait) (p : Nat) : (s.waiting w).portItems p = s.portItems p := by
  have hh : (s.waiting w).hart = { s.hart with wait := some w } := State.hart_modHart ..
  simp only [State.portItems, hh]
  rfl

theorem collectWaiting_waiting {p : Nat} (h : (s.portItems p).takeWhile (fun i => i.flit.isData) = []) (w : Wait) (pc : Word) :
    (s.waiting w).collectWaiting pc p = s.waiting w := by
  unfold State.collectWaiting
  split
  · exact collect_of_control (by rwa [portItems_waiting])
  · rfl

/-- A trap at a token collects nothing, also while it waits for older stores. -/
theorem collectWaiting_trapNow {p : Nat} (h : (s.portItems p).takeWhile (fun i => i.flit.isData) = []) (code : Nat) (v pc : Word) :
    (s.trapNow code v).collectWaiting pc p = s.trapNow code v := by
  unfold State.trapNow
  split
  · exact collectWaiting_of_ready (wait_takeTrap ..) pc p
  · exact collectWaiting_waiting h _ pc

/-- The W pop leaves the port that a direction names. -/
theorem ready_portOf {i : Instr} (h : Ready i tk s s1) (dir : Nat) : s.hart.portOf dir = s1.hart.portOf dir := by
  obtain ⟨-, -, -, hpop⟩ := h
  rcases popW_hart hpop with e | e
  · rw [e]
  · rw [e]; rfl

theorem exec_vportr_trap (h : Ready (.vportr tk k d sel) tk s s1) {code : Nat} {v : Word} (hb : vportrOp k d sel s1 = .trap code v)
    (hc : (s1.portItems (s1.hart.portOf sel.toNat)).takeWhile (fun i => i.flit.isData) = []) :
    exec (.vportr tk k d sel) s = .next (s1.trapNow code v) := by
  have hexec : exec (.vportr tk k d sel) s = execVportr tk k d sel s := rfl
  rw [hexec, execVportr, runHart_trap h hb, ready_portOf h]
  exact congrArg Host.Outcome.next (collectWaiting_trapNow hc ..)

theorem completes_vportr (h : Ready (.vportr tk k d sel) tk s s1) {u : State} (hb : vportrOp k d sel s1 = .done u) :
    Completes (.vportr tk k d sel) tk s u (after4 s) := by
  intro v hv
  have hexec : exec (.vportr tk k d sel) s = execVportr tk k d sel s := rfl
  rw [hexec, execVportr, runHart_done h hb hv]
  exact congrArg Host.Outcome.next (collectWaiting_of_ready (wait_retire _) ..)

end Collect

theorem vectorPortRead : VectorPortRead := by
  intro tk k d sel s s1 item rest h hp p m hitems data need
  obtain ⟨-, -, -, hdst⟩ := hp
  have hguard : ∀ a : Act, guardMap [(s1.badDstV d, d)] a = a := fun a => guardMap_ok (by simp [hdst])
  refine ⟨fun hc => exec_vportr_trap h ?_ ?_, fun hdata hsame hn s2 hput => completes_vportr h ?_⟩
  · simp only [vportrOp, hguard]
    rw [hitems]
    simp only [hc, Bool.not_false, if_true]
  · rw [hitems, List.takeWhile_cons_of_neg (by simp [hc])]
  · have hall : ((data.take need).any fun j => decide (s1.itemBlock j ≠ s1.itemBlock item)) = false := by
      rw [List.any_eq_false]
      exact fun j hj => by simpa using hsame j hj
    have hn' : (decide (need ≤ data.length) || decide (data.length < (item :: rest).length)) = true := by simpa using hn
    simp only [vportrOp, hguard]
    rw [hitems]
    simp only [hdata, Bool.not_true, Bool.false_eq_true, if_false]
    rw [if_neg (by simpa using hall), if_pos hn']
    exact dstV_ok hput

/-! The vector write. -/

/-- What a vector port write does once it has issued: it pushes what fits, and is done behind the last flit (R124). -/
def pushing (tk : Tok) (s : State) : Act :=
  if s.pushOut.hart.portOut.isEmpty then
    (if (s.pushOut.pushS tk).isSome then .done s.pushOut else .wait (.full (16 + s.hart.ssel)) (fun _ => s.pushOut))
  else Act.wait (.full (s.hart.portKey - 1)) (fun _ => s.pushOut)

section Push

variable {tk : Tok} {k : MReg} {sel : PortSel} {a : Reg} {s s1 s2 : State}

theorem pushing_done {v : State} (h : s.pushOut.hart.portOut = []) (hv : s.pushOut.pushS tk = some v) : pushing tk s = .done s.pushOut := by
  simp only [pushing, h, List.isEmpty_nil, if_true, hv, Option.isSome_some]

theorem pushing_wait (h : s.pushOut.hart.portOut ≠ []) :
    pushing tk s = .wait (.full (s.hart.portKey - 1)) (fun _ => s.pushOut) := by
  simp [pushing, h]

/-- One that has issued goes on. -/
theorem vportwOp_issued (h : s.hart.portKey ≠ 0) : vportwOp tk k sel a s = pushing tk s := by
  simp only [vportwOp, if_pos h]
  rfl

end Push

theorem vectorPortWrite : VectorPortWrite := by
  have hr (tk k sel a) : Runs (.vportw tk k sel a) tk 4 (vportwOp tk k sel a) := ⟨rfl, fun _ => rfl⟩
  refine ⟨fun tk k sel a s s1 s2 v h hkey hp ha => ?_, fun tk k sel a s s1 h hkey hout => ?_,
    fun tk k sel a s s1 h hkey hout => ?_⟩
  · intro w key vc fs u hroom hout x hx
    obtain ⟨-, -, hsrc, -⟩ := hp
    have hbody : vportwOp tk k sel a s1 = pushing tk (((s1.hold s2).modHart (fun h => { h with
        chkiv := s2.hart.chkiv, portKey := key + 1, portOut := fs, issued := some (.vportw tk k sel a) })).note
        (w.poison.toList.any (fun b => b)) 3) := by
      simp only [vportwOp]
      rw [if_neg (not_not.mpr hkey), guardMap_ok (by simp [hsrc]), srcV_got ha, if_pos (Bool.or_eq_true _ _ |>.mpr (.inl hroom))]
      rfl
    exact (hr tk k sel a).completes_done h (hbody.trans (pushing_done hout hx)) x hx
  · intro x hx
    exact (hr tk k sel a).completes_done h ((vportwOp_issued hkey).trans (pushing_done hout hx)) x hx
  · rw [(hr tk k sel a).2, runHart_wait h ((vportwOp_issued hkey).trans (pushing_wait hout))]

/-! Tests of queues (R128). -/

theorem guardMap_queue {s : State} {q : QSel} (h : q.toNat < 4 → s.badSrcU (3#2 ++ q) = false) (x : Act) :
    guardMap [(decide (q.toNat < 4) && s.badSrcU (QSel.reg q), QSel.reg q)] x = x := by
  refine guardMap_ok fun b hb => ?_
  obtain rfl := List.mem_singleton.mp hb
  by_cases hq : q.toNat < 4
  · exact Bool.and_eq_false_iff.mpr (.inr (h hq))
  · simp [hq]

theorem queueTests : QueueTests := by
  refine ⟨fun tk p q s s1 h hq => ?_, fun tk d q s s1 s2 k h hq hk hd => ?_⟩
  · exact Runs.completes_done (i := .qtest tk p q) ⟨rfl, fun _ => rfl⟩ h (guardMap_queue hq _)
  · refine Runs.completes_done (i := .qtok tk d q) ⟨rfl, fun _ => rfl⟩ h ((guardMap_queue hq _).trans ?_)
    simp only [hk]
    exact dstU_ok hd

/-- Settles O41: a vector read at a port takes the flits that fill it, a vector write sends its flits, and the tests pop nothing. -/
theorem vectorPorts : Obligations.VectorPorts := ⟨vectorPortRead, vectorPortWrite, queueTests⟩

end Sys2Proof.VectorPort
end

section
/-! SUPPORT. Loads of registers and of vectors (R195-R201, R205): how they begin, and how their data comes back. -/

namespace Sys2Proof.Loads

open Sys2Proof Sys2Proof.Machine Sys2Proof.Spec Sys2Proof.Integer Sys2Proof.Floats Sys2Proof.Operands

/-! How a load begins. -/

section Begin

variable {s t : State} {dst : LoadDst} {kind : LoadKind} {byLane tagged : Bool} {as : List Access} {ps : List Piece} {sup : Word}

/-- Accesses that are all placed are placed whichever fault would decide. -/
theorem placeBy_of_place (h : s.place tagged as = .ok ps) : s.placeBy byLane tagged as = .ok ps := by
  have hnone : ∀ xs, deciding false xs = none → deciding byLane xs = none := by
    intro xs h
    cases xs with
    | nil => rfl
    | cons x r =>
      simp only [deciding] at h
      split at h <;> cases h
  unfold State.place State.placeBy at h
  unfold State.placeBy
  split at h
  · cases h
  · next hd => simpa only [hnone _ hd] using h

theorem loadTo_done (hs : s.hart.storeOverlap (accessRanges s.hart.tagbase tagged as) = false)
    (hl : s.hart.loadOverlap (accessRanges s.hart.tagbase tagged as) = false) (hp : s.place tagged as = .ok ps)
    (hb : Begins s dst kind ps sup (accessRanges s.hart.tagbase tagged as) t) :
    loadTo dst kind byLane tagged as sup s = .done t := by
  simp only [loadTo, hs, hl, Bool.or_self, Bool.false_eq_true, if_false, placeBy_of_place hp]
  cases dst with
  | queue q =>
    rcases hb with ⟨hheld, hroom, rfl⟩ | ⟨id, hheld, rfl⟩
    · simp only [hheld, hroom, if_true]; rfl
    · simp only [hheld, if_true]
  | xreg d => exact congrArg Act.done (Eq.symm hb)
  | vreg d => exact congrArg Act.done (Eq.symm hb)

theorem accessRanges_singleton (tb : Word) (tagged : Bool) (a : Access) :
    accessRanges tb tagged [a] = (a.va, a.bytes) :: (if tagged then [(shadowOf tb a.va, 1)] else []) := by
  simp only [accessRanges, List.flatMap_cons, List.flatMap_nil, List.append_nil]

/-- What a vector load may read: each of its words, and the byte of its tag. -/
theorem accessRanges_words {f : Nat → Access} (h : ∀ k, (f k).bytes = 4) (tb : Word) (l : List Nat) :
    accessRanges tb true (l.map f) = (l.map f).flatMap (fun w => [(w.va, 4), (shadowOf tb w.va, 1)]) := by
  simp only [accessRanges, List.flatMap_map, h, if_true]

end Begin

/-! Scalar loads. -/

theorem scalarLoad_of {i : Instr} {tk : Tok} {d a : Reg} {kind : LoadKind} {n len : Nat} {off : Word}
    (hr : Runs i tk len (scalarLoad kind n d a off)) :
    ScalarLoad i tk d a kind n off (fun s => s.hart.pc + BitVec.ofNat 64 len) := by
  intro s s1 s2 x h hp ha hbusy ea tagged ranges
  obtain ⟨-, hdst, -, -⟩ := hp
  have hbody : scalarLoad kind n d a off s1 = _ := (guardMap_ok (by simp [hdst])).trans (srcU_got ha)
  simp only [hbusy, Bool.false_eq_true, if_false] at hbody
  refine ⟨fun hx s3 hput => ?_, fun hx hmis => ?_, fun hx hal ps hplace => ⟨fun hd hs hl s3 hb => ?_, fun hd hs hl => ?_⟩⟩
  · rw [if_pos hx] at hbody
    exact hr.completes_done h (hbody.trans (dstU_ok hput))
  · rw [if_neg (by simp [hx]), if_pos hmis] at hbody
    exact exec_trap hr h hbody
  all_goals
    rw [if_neg (by simp [hx]), if_neg (not_not.mpr hal)] at hbody
    have hr1 : accessRanges s2.hart.tagbase tagged [⟨0, ea.toNat, n⟩] = ranges := accessRanges_singleton ..
  · rw [if_neg (by omega)] at hbody
    rw [← hr1] at hs hl hb
    exact hr.completes_done h (hbody.trans (loadTo_done hs hl hplace hb))
  · intro l s3 hput
    rw [if_pos hd, hr1, hs, hl, Bool.or_self, if_neg Bool.false_ne_true] at hbody
    simp only [show s2.place (decide (kind = .tagged)) [⟨0, (x.val + off).toNat, n⟩] = .ok ps from hplace] at hbody
    exact hr.completes_done h (hbody.trans (dstU_ok hput))

theorem zext_shiftLeft (k : Nat) (i : BitVec 5) : zext64 i <<< k = BitVec.ofNat 64 (i.toNat * 2 ^ k) := by
  apply BitVec.eq_of_toNat_eq
  simp [zext64, Nat.shiftLeft_eq, Nat.mod_eq_of_lt (show i.toNat < 18446744073709551616 by omega)]

theorem scalarLoadForms : ScalarLoadForms := by
  refine ⟨fun tk d a imm => ⟨?_, ?_, ?_, ?_, ?_, ?_, ?_⟩, fun tk d a => ?_, fun d i => ⟨?_, ?_⟩⟩
  case refine_9 =>
    rw [show i.toNat * 8 = i.toNat * 2 ^ 3 from rfl, ← zext_shiftLeft]; exact scalarLoad_of (i := .cLdd d i) ⟨rfl, fun _ => rfl⟩
  case refine_10 =>
    rw [show i.toNat * 4 = i.toNat * 2 ^ 2 from rfl, ← zext_shiftLeft]; exact scalarLoad_of (i := .cLdw d i) ⟨rfl, fun _ => rfl⟩
  all_goals exact scalarLoad_of ⟨rfl, fun _ => rfl⟩

/-! The data of a load. -/

section Data

theorem signedOf_eq (w v : Nat) : signedOf w v = if 2 ^ (w - 1) ≤ v then (v : Int) - 2 ^ w else (v : Int) := by
  unfold signedOf
  split <;> split <;> first | rfl | omega

/-- A value read with its sign, or without. -/
theorem extend_eq (sg : Bool) (w v : Nat) : (if sg then BitVec.ofInt 64 (signedOf w v) else BitVec.ofNat 64 v) =
    if sg ∧ 2 ^ (w - 1) ≤ v then BitVec.ofInt 64 ((v : Int) - 2 ^ w) else BitVec.ofNat 64 v := by
  cases sg with
  | false => simp
  | true =>
    simp only [if_true, true_and, signedOf_eq]
    split
    · rfl
    · exact BitVec.ofInt_natCast ..

theorem leNat_append (bs cs : List Byte) : leNat (bs ++ cs) = leNat bs + 256 ^ bs.length * leNat cs := by
  induction bs with
  | nil => simp [leNat]
  | cons b bs ih => simp only [List.cons_append, leNat, ih, List.length_cons, pow_succ]; ring

/-- A little-endian value is the sum of its bytes by their weights. -/
theorem leNat_range (f : Nat → Byte) (n : Nat) :
    leNat ((List.range n).map f) = ((List.range n).map (fun i => (f i).toNat * 256 ^ i)).sum := by
  induction n with
  | zero => rfl
  | succ n ih =>
    simp only [List.range_succ, List.map_append, leNat_append, List.sum_append, ih, List.length_map, List.length_range]
    simp [leNat, Nat.mul_comm]

theorem length_dropNth {α : Type} {l : List α} {i : Nat} {a : α} (h : l[i]? = some a) : (dropNth l i).length + 1 = l.length := by
  induction l generalizing i with
  | nil => simp at h
  | cons b l ih =>
    cases i with
    | zero => rfl
    | succ i => simpa [dropNth] using ih h

variable {l : Load} {p : Piece} {n : Nat} {sg : Bool}

theorem piecePoison_bare (h : p.shadow = none) : l.piecePoison p = l.poisonAt p.pa := by
  simp only [Load.piecePoison, h, Bool.or_false]

/-- The value of a scalar load of one piece. -/
theorem uval_scalar {ps : List Piece} (hk : l.kind = .scalar n sg) (hp : l.pieces = p :: ps) (hs : p.shadow = none) (hb : p.bytes = n) :
    l.uval = ⟨if sg ∧ 2 ^ (8 * n - 1) ≤ l.pieceNat p then BitVec.ofInt 64 ((l.pieceNat p : Int) - 2 ^ (8 * n))
      else BitVec.ofNat 64 (l.pieceNat p), 24#5, l.poisonAt p.pa⟩ := by
  simp only [Load.uval, hp, hk, hb, extend_eq, piecePoison_bare hs]

theorem xval_setX_self (h : Hart) {d : Reg} (h0 : d ≠ 0#5) (hd : d.toNat < 24) (v : UVal) : (h.setX d v).xval d = v := by
  simp [Hart.xval, Hart.setX, h0, hd]

theorem xval_setX_ne (h : Hart) {d r : Reg} (hr : r ≠ d) (v : UVal) : (h.setX d v).xval r = h.xval r := by
  have hne : d.toNat ≠ r.toNat := fun e => hr (BitVec.eq_of_toNat_eq e.symm)
  unfold Hart.setX
  split
  · rfl
  · simp [Hart.xval, Vector.getElem?_setIfInBounds_ne hne]

end Data

theorem mem_deliver (s : State) (l : Load) : (s.deliver l).mem = s.mem := by
  unfold State.deliver
  cases l.dst <;> simp

/-- The hart that a register load is delivered to. -/
theorem hart_deliver (s : State) {l : Load} {d : Reg} (h : l.dst = .xreg d) :
    (s.deliver l).hart = ((s.note l.poisoned 0).hart).setX d l.uval := by
  simp only [State.deliver, h, State.hart_modHart]

theorem cur_deliver (s : State) {l : Load} {d : Reg} (h : l.dst = .xreg d) : (s.deliver l).cur = s.cur := by
  simp only [State.deliver, h, State.modHart_cur, State.note_cur]

theorem loadDataReturn : LoadDataReturn := by
  intro s h idx l p d n sg hl hready hk hp hs hb hn hd h0 hd24 v
  have hv : l.pieceNat p = v := by rw [Load.pieceNat, hb, leNat_range]
  have hpois : l.poisoned = l.poisonAt p.pa := by
    simp only [Load.poisoned, hp, List.any_cons, List.any_nil, Bool.or_false, piecePoison_bare hs]
  have hexec : exec (.loadDataReturn h idx) s = execLoadDataReturn h idx s := rfl
  refine ⟨((s.as h).modHart (fun x => { x with loads := dropNth x.loads idx })).deliver l,
    hexec.trans (by simp only [execLoadDataReturn, hl, hready, if_true]), mem_deliver .., ?_⟩
  have hx : (((s.as h).modHart (fun x => { x with loads := dropNth x.loads idx })).deliver l).hartAt h =
      Hart.setX { s.hartAt h with
        loads := dropNth (s.hartAt h).loads idx,
        chkiv := (s.hartAt h).chkiv ||| (if l.poisonAt p.pa then 1#5 else 0#5) } d l.uval := by
    have hcur := cur_deliver ((s.as h).modHart (fun x => { x with loads := dropNth x.loads idx })) hd
    have hh := hart_deliver ((s.as h).modHart (fun x => { x with loads := dropNth x.loads idx })) hd
    rw [State.hart, hcur, hart_note, State.hart_modHart, hpois] at hh
    exact hh
  rw [hx, xval_setX_self _ h0 hd24, uval_scalar hk hp hs hb, hv]
  refine ⟨rfl, fun r hr => (xval_setX_ne _ hr _).trans rfl, Hart.setX_chkiv .., ?_⟩
  rw [Hart.setX_loads]
  exact length_dropNth hl

/-- Settles O43: the scalar loads begin, and their data reaches its register. -/
theorem scalarLoads : Obligations.ScalarLoads := ⟨scalarLoadForms, loadDataReturn⟩

/-! Vector loads. -/

theorem maskAll_eq : maskAll = BitVec.allOnes 64 := by decide

/-- Settles O1: consecutive words and the words that a vector's lanes name. -/
theorem vectorLoads : Obligations.VectorLoads := by
  constructor
  · intro tk d a imm s s1 s2 x h hp ha hbusy ea words ranges
    have hr : Runs (.vld tk d a imm) tk 4 (vectorLoad d a (imm.signExtend 64)) := ⟨rfl, fun _ => rfl⟩
    obtain ⟨-, -, -, hdst⟩ := hp
    have hfree : (s2.hart.vBusy d && decide (d.toNat < 28)) = false := by
      by_cases hd : d.toNat < 28 <;> simp [hd, hbusy]
    have hbody : vectorLoad d a (imm.signExtend 64) s1 = _ := (guardMap_ok (by simp [hdst])).trans (srcU_got ha)
    simp only [hfree, Bool.false_eq_true, if_false] at hbody
    refine ⟨fun hx s3 hput => ?_, fun hx hmis => ?_, fun hx hal hs hl ps s3 hplace hb => ?_⟩
    · rw [if_pos hx] at hbody
      exact hr.completes_done h (hbody.trans (dstV_ok hput))
    · rw [if_neg (by simp [hx]), if_pos hmis] at hbody
      exact exec_trap hr h hbody
    · rw [if_neg (by simp [hx]), if_neg (not_not.mpr hal)] at hbody
      have hranges : accessRanges s2.hart.tagbase true words = ranges := accessRanges_words (fun _ => rfl) ..
      rw [← maskAll_eq] at hb
      rw [← hranges] at hs hl hb
      exact hr.completes_done h (hbody.trans (loadTo_done hs hl hplace hb))
  · intro tk k d a b s s1 s2 s3 x idx h hp ha hb hbusy m live addr words dead u ranges
    have hr : Runs (.vldx tk k d a b) tk 4 (gather k d a b) := ⟨rfl, fun _ => rfl⟩
    obtain ⟨-, -, -, hdst⟩ := hp
    have hfree : (s3.hart.vBusy d && decide (d.toNat < 28)) = false := by
      by_cases hd : d.toNat < 28 <;> simp [hd, hbusy]
    have hbody : gather k d a b s1 = _ := (guardMap_ok (by simp [hdst])).trans ((srcU_got ha).trans (srcV_got hb))
    simp only [hfree, Bool.false_eq_true, if_false] at hbody
    refine ⟨fun i hi => ?_, fun hal hs hl ps s4 hplace hb => ?_⟩
    · refine exec_trap hr h (hbody.trans ?_)
      simp only [show (addressed (s3.hart.mval k) x.poison idx).find? (fun i => decide ((laneAddr x.val idx i).toNat % 4 ≠ 0)) = some i from hi]
      rfl
    · have hnone : (addressed (s3.hart.mval k) x.poison idx).find? (fun i => decide ((laneAddr x.val idx i).toNat % 4 ≠ 0)) = none :=
        List.find?_eq_none.mpr fun i hi => by simpa using show (laneAddr x.val idx i).toNat % 4 = 0 from hal i hi
      have hranges : accessRanges u.hart.tagbase true words = ranges := accessRanges_words (fun _ => rfl) ..
      rw [← hranges] at hs hl hb
      refine hr.completes_done h (hbody.trans ?_)
      simp only [hnone]
      exact loadTo_done hs hl hplace hb

end Sys2Proof.Loads
end

section
/-! SUPPORT. Stores of harts (R199-R205, R225, R433): what they queue, and what their translation does. -/

namespace Sys2Proof.Stores

open Sys2Proof Sys2Proof.Machine Sys2Proof.Spec Sys2Proof.Integer Sys2Proof.Floats Sys2Proof.Frames Sys2Proof.Loads Sys2Proof.Threads

/-! The translation of a store's parts. -/

section Parts

variable {s : State} {rs : List (StorePart × PartRes)} {ws : List (Nat × List Byte)} {part : StorePart}

/-- The parts that a list of results names are all translated. -/
def Translated (rs : List (StorePart × PartRes)) : Prop := ∀ r ∈ rs, ∃ ws, r.2 = .ok ws

theorem firstBad_of_translated (h : Translated rs) (f : Trans → Bool) : firstBad f rs = none := by
  refine List.findSome?_eq_none_iff.mpr fun r hr => ?_
  obtain ⟨ws, hw⟩ := h r hr
  simp only [hw]

theorem translated_singleton (p : StorePart) (ws : List (Nat × List Byte)) : Translated [(p, .ok ws)] := by
  intro r hr
  obtain rfl := List.mem_singleton.mp hr
  exact ⟨ws, rfl⟩

/-- A store whose parts are translated goes on. -/
theorem storeAt_of_translated {swid : Nat} {parts : List StorePart} {k : List (StorePart × PartRes) → State → Act}
    (h : Translated (parts.map (fun p => (p, s.placePart p)))) :
    storeAt swid parts k s = k (parts.map (fun p => (p, s.placePart p))) s := by
  simp only [storeAt, firstBad_of_translated h]

theorem storeNow_one {swid : Nat} {k : State → Act} (h : s.placePart part = .ok ws) :
    storeNow swid [part] k s = k (s.performStore [(part, .ok ws)]) := by
  have hrs : [part].map (fun p => (p, s.placePart p)) = [(part, .ok ws)] := by simp only [List.map_cons, List.map_nil, h]
  rw [storeNow, storeAt_of_translated (by rw [hrs]; exact translated_singleton part ws), hrs]

/-- The bytes of a list of writes. -/
def bytesOf (ws : List (Nat × List Byte)) : Nat := (ws.map (fun w => w.2.length)).sum

theorem translated_writes_snd (s : State) (rs : List (StorePart × PartRes)) :
    (s.translated rs).writes.map Prod.snd = rs.flatMap (fun r => r.2.writes) := by
  simp only [State.translated, List.map_flatMap, List.map_map]
  exact List.flatMap_congr fun r _ => List.map_id _

theorem size_eq (p : Parked) : p.size = bytesOf (p.writes.map Prod.snd) := by
  rw [Parked.size, bytesOf, List.sum_eq_foldl_nat, List.map_map]
  rfl

theorem size_translated_one (s : State) (part : StorePart) (ws : List (Nat × List Byte)) :
    (s.translated [(part, .ok ws)]).size = bytesOf ws := by
  rw [size_eq, translated_writes_snd, List.flatMap_singleton]
  rfl

end Parts

/-! Whether a store is performed, or waits (R433). -/

section Enter

variable {s : State} {p : Parked}

theorem unentered_cur : s.unentered s.cur = !s.cell.parked.isEmpty := rfl

theorem enterStore_performs (h : s.unentered s.cur = false) (hr : s.commitRoom p.region p.unit p.size = true) :
    s.enterStore p = s.performAs p := by
  simp only [State.enterStore, h, hr, Bool.not_true, Bool.or_self, Bool.false_eq_true, if_false]

theorem enterStore_waits (h : s.unentered s.cur = true ∨ s.commitRoom p.region p.unit p.size = false) :
    s.enterStore p = s.modCell (cellOf s.cur) (fun c => { c with parked := c.parked ++ [p] }) := by
  unfold State.enterStore
  rw [if_pos]
  rcases h with h | h <;> simp [h]

theorem unentered_iff : s.unentered s.cur = true ↔ s.cell.parked ≠ [] := by
  simp [unentered_cur]

/-- A store of one translated part that is performed. -/
theorem performStore_performs {part : StorePart} {ws : List (Nat × List Byte)} (h : s.cell.parked = [])
    (hr : s.commitRoom s.hart.regionId (unitOf (cellOf s.cur)) (bytesOf ws) = true) :
    s.performStore [(part, .ok ws)] = s.performParts [(part, .ok ws)] :=
  enterStore_performs (by simp [unentered_cur, h]) (by rw [size_translated_one]; exact hr)

/-- A store of one translated part that waits. -/
theorem performStore_waits {part : StorePart} {ws : List (Nat × List Byte)}
    (h : s.cell.parked ≠ [] ∨ s.commitRoom s.hart.regionId (unitOf (cellOf s.cur)) (bytesOf ws) = false) :
    s.performStore [(part, .ok ws)] =
      s.modCell (cellOf s.cur) (fun c => { c with parked := c.parked ++ [s.translated [(part, .ok ws)]] }) :=
  enterStore_waits (h.imp unentered_iff.mpr fun hr => by rw [size_translated_one]; exact hr)

end Enter

/-! Scalar stores. -/

section Out

variable {s : State} {swid : Nat} {parts : List StorePart}

/-- A store of a compute hart enters its store path (R225). -/
theorem storeOut_queued (hc : isStreamer s.cur = false) (hn : s.hart.stores.length < 8)
    (hs : s.hart.storeOverlap (parts.flatMap (StorePart.ranges s.hart.tagbase)) = false)
    (hl : s.hart.loadOverlap (parts.flatMap (StorePart.ranges s.hart.tagbase)) = false) :
    storeOut swid parts s = .done (if parts = [] then s.note (parts.any (fun p => p.poison)) 3
      else (s.note (parts.any (fun p => p.poison)) 3).modHart
        (fun h => { h with stores := h.stores ++ [⟨swid, parts, h.instret + 1#64⟩] })) := by
  have hinstret : (s.note (parts.any (fun p => p.poison)) 3).hart.instret = s.hart.instret := by rw [Operands.hart_note]
  simp only [storeOut, hs, hl, hc, Bool.or_self, Bool.false_eq_true, if_false, if_neg (show ¬ 8 ≤ s.hart.stores.length by omega)]
  cases parts <;> simp

/-- A store of a streamer translates first (R234). -/
theorem storeOut_now (hc : isStreamer s.cur = true)
    (hs : s.hart.storeOverlap (parts.flatMap (StorePart.ranges s.hart.tagbase)) = false)
    (hl : s.hart.loadOverlap (parts.flatMap (StorePart.ranges s.hart.tagbase)) = false) :
    storeOut swid parts s = storeNow swid parts .done (s.note (parts.any (fun p => p.poison)) 3) := by
  simp only [storeOut, hs, hl, hc, Bool.or_self, Bool.false_eq_true, if_false, if_true]

end Out

theorem scalarStore_of {i : Instr} {tk : Tok} {b a : Reg} {swid n len : Nat} {tagged : Bool} {off : Word}
    (hr : Runs i tk len (scalarStore swid n tagged b a off)) :
    ScalarStore i tk b a swid n tagged off (fun s => s.hart.pc + BitVec.ofNat 64 len) := by
  intro s s1 s2 s3 x y h hp ha hb ea part ranges u
  obtain ⟨hsrc, -, -, -⟩ := hp
  have hbody : scalarStore swid n tagged b a off s1 = _ :=
    (guardMap_ok (by simp [hsrc])).trans ((srcU_got ha).trans (srcU_got hb))
  have hranges : [part].flatMap (StorePart.ranges s3.hart.tagbase) = ranges := by
    rw [List.flatMap_singleton]
    cases tagged <;> rfl
  have hpoison : s3.note ([part].any (fun p => p.poison)) 3 = u := by
    rw [List.any_cons, List.any_nil, Bool.or_false]
  refine ⟨fun hx => ?_, fun hx hmis => ?_, fun hx hal hs hl => ⟨fun hc hn => ?_, fun hc ws hws => ?_⟩⟩
  · simp only [hx, if_true] at hbody
    exact hr.completes_done h hbody
  · simp only [hx, Bool.false_eq_true, if_false] at hbody
    rw [if_pos hmis] at hbody
    exact exec_trap hr h hbody
  all_goals
    simp only [hx, Bool.false_eq_true, if_false] at hbody
    rw [if_neg (not_not.mpr hal)] at hbody
    rw [← hranges] at hs hl
  · refine hr.completes_done h (hbody.trans ((storeOut_queued hc hn hs hl).trans ?_))
    rw [hpoison, if_neg (List.cons_ne_nil _ _)]
  · have hnow : storeOut swid [part] s3 = .done (u.performStore [(part, .ok ws)]) := by
      rw [storeOut_now hc hs hl, hpoison, storeNow_one hws]
    refine ⟨fun hpark hroom => ?_, fun hroom => ?_⟩
    · rw [← performStore_performs hpark hroom]
      exact hr.completes_done h (hbody.trans hnow)
    · rw [← performStore_waits hroom]
      exact hr.completes_done h (hbody.trans hnow)

theorem scalarStores : ScalarStores := by
  refine ⟨fun tk b a imm => ⟨?_, ?_, ?_, ?_⟩, fun tk b a => ?_, fun d i => ⟨?_, ?_⟩⟩
  case refine_6 =>
    rw [show i.toNat * 8 = i.toNat * 2 ^ 3 from rfl, ← zext_shiftLeft]; exact scalarStore_of (i := .cStd d i) ⟨rfl, fun _ => rfl⟩
  case refine_7 =>
    rw [show i.toNat * 4 = i.toNat * 2 ^ 2 from rfl, ← zext_shiftLeft]; exact scalarStore_of (i := .cStw d i) ⟨rfl, fun _ => rfl⟩
  all_goals exact scalarStore_of ⟨rfl, fun _ => rfl⟩

/-! Vector stores. -/

/-- What the parts of a vector store may write: each word, and the byte of its tag. -/
theorem ranges_vectorParts (tb : Word) (v : VVal) (lanes : List Nat) (addr : Nat → Word) :
    (vectorParts v lanes addr).flatMap (StorePart.ranges tb) =
      (vectorParts v lanes addr).flatMap (fun p => [(p.va, p.bytes.length), (shadowOf tb p.va, 1)]) := by
  simp only [vectorParts, List.flatMap_map, StorePart.ranges, Option.isSome_some, if_true]

theorem vectorStores : VectorStores := by
  unfold VectorStores
  intro part covered queued
  constructor
  · intro tk b a imm s s1 s2 s3 x v h hp ha hb ea ps
    have hr : Runs (.vst tk b a imm) tk 4 (vectorStore b a (imm.signExtend 64)) := ⟨rfl, fun _ => rfl⟩
    obtain ⟨-, -, hsrc, -⟩ := hp
    have hbody : vectorStore b a (imm.signExtend 64) s1 = _ :=
      (guardMap_ok (by simp [hsrc])).trans ((srcU_got ha).trans (srcV_got hb))
    refine ⟨fun hx => ?_, fun hx hmis => ?_, fun hx hal hc hn hs hl => ?_⟩
    · simp only [hx, if_true] at hbody
      exact hr.completes_done h hbody
    · simp only [hx, Bool.false_eq_true, if_false] at hbody
      rw [if_pos hmis] at hbody
      exact exec_trap hr h hbody
    · simp only [hx, Bool.false_eq_true, if_false] at hbody
      rw [if_neg (not_not.mpr hal)] at hbody
      have hranges := ranges_vectorParts s3.hart.tagbase v (List.range 64) (fun k => ea + BitVec.ofNat 64 (4 * k))
      exact hr.completes_done h (hbody.trans (storeOut_queued hc hn (by rw [hranges]; exact hs) (by rw [hranges]; exact hl)))
  · intro tk k d a b s s1 s2 s3 s4 x idx v h hp ha hb hd m live addr u ps
    have hr : Runs (.vstx tk k d a b) tk 4 (scatter k d a b) := ⟨rfl, fun _ => rfl⟩
    obtain ⟨-, -, hsrc, -⟩ := hp
    have hbody : scatter k d a b s1 = _ :=
      (guardMap_ok (by simp [hsrc])).trans ((srcU_got ha).trans ((srcV_got hb).trans (srcV_got hd)))
    refine ⟨fun i hi => exec_trap hr h (hbody.trans ?_), fun hal hc hn hs hl => hr.completes_done h (hbody.trans ?_)⟩
    · simp only [show (addressed (s4.hart.mval k) x.poison idx).find? (fun i => decide ((laneAddr x.val idx i).toNat % 4 ≠ 0)) =
        some i from hi]
      rfl
    · have hnone : (addressed (s4.hart.mval k) x.poison idx).find? (fun i => decide ((laneAddr x.val idx i).toNat % 4 ≠ 0)) = none :=
        List.find?_eq_none.mpr fun i hi => by simpa using show (laneAddr x.val idx i).toNat % 4 = 0 from hal i hi
      have hranges := ranges_vectorParts u.hart.tagbase v live (laneAddr x.val idx)
      simp only [hnone]
      exact storeOut_queued (s := u) hc hn ((congrArg u.hart.storeOverlap hranges).trans hs)
        ((congrArg u.hart.loadOverlap hranges).trans hl)

/-! What a region sees of a store that has been performed. -/

section View

variable {s : State} {r : Nat}

theorem viewByte_writeAs_inside (h : s.mem.wf) {pa q : Nat} {bs : List Byte} (hq : pa ≤ q) (hq' : q < pa + bs.length) (unit iv : Nat)
    (us : List (Nat × Bool)) : (s.writeAs r unit iv pa bs us).viewByte r q = bs.getD (q - pa) 0#8 := by
  have hi : q - pa < bs.length := by omega
  cases hg : s.region? r with
  | none =>
    have e := Mem.setBytes_byte_inside h pa bs hi
    rw [Nat.add_sub_cancel' hq] at e
    simp only [State.writeAs, hg]
    have hnone (m : Mem) : State.pending { s with mem := m } r = [] := by
      rw [State.pending, show State.region? { s with mem := m } r = none from hg]
      rfl
    rw [State.viewByte, hnone]
    simp only [List.findSome?_nil, Option.getD_none, Mem.foldPoison_byte us (fun _ u => u.1) (fun _ u => u.2), e]
    simp [hi]
  | some g =>
    have hsome : CWrite.byteAt ⟨unit, iv, pa, bs.map some, us⟩ q = some (bs.getD (q - pa) 0#8) := by
      simp [CWrite.byteAt, hq, hi]
    simp only [State.viewByte, pending_writeAs_self s hg, List.findSome?_cons, hsome, Option.getD_some]

theorem writeAs_mem_wf (h : s.mem.wf) (unit iv pa : Nat) (bs : List Byte) (us : List (Nat × Bool)) :
    (s.writeAs r unit iv pa bs us).mem.wf := by
  cases hg : s.region? r with
  | none =>
    simp only [State.writeAs, hg]
    exact Mem.foldPoison_wf us (fun _ u => u.1) (fun _ u => u.2) (Mem.setBytes_wf h ..)
  | some g => rwa [mem_writeAs s hg]

/-- The last of the writes over a byte is the one seen (R211). -/
theorem viewByte_foldl_writeAs {β : Type} (h : s.mem.wf) (unit iv : Nat) (w : β → Nat × List Byte) (us : β → List (Nat × Bool))
    (l : List β) (q : Nat) :
    (l.foldl (fun t b => t.writeAs r unit iv (w b).1 (w b).2 (us b)) s).viewByte r q =
      (((l.map w).reverse.find? (fun w => decide (w.1 ≤ q) && decide (q < w.1 + w.2.length))).map
        (fun w => w.2.getD (q - w.1) 0#8)).getD (s.viewByte r q) := by
  induction l generalizing s with
  | nil => rfl
  | cons b l ih =>
    rw [List.foldl_cons, ih (writeAs_mem_wf h ..), List.map_cons, List.reverse_cons, List.find?_append]
    cases ((l.map w).reverse.find? _) with
    | some x => rfl
    | none =>
      by_cases hq : (w b).1 ≤ q ∧ q < (w b).1 + (w b).2.length
      · simp [viewByte_writeAs_inside h hq.1 hq.2, hq]
      · simp [viewByte_writeAs_outside s (show q < (w b).1 ∨ (w b).1 + (w b).2.length ≤ q by omega),
          List.find?_cons_of_neg (p := fun w : Nat × List Byte => decide (w.1 ≤ q) && decide (q < w.1 + w.2.length)) (a := w b)
            (by simpa using hq)]

theorem viewByte_performAs (h : s.mem.wf) (p : Parked) (q : Nat) : (s.performAs p).viewByte p.region q =
    (((p.writes.map Prod.snd).reverse.find? (fun w => decide (w.1 ≤ q) && decide (q < w.1 + w.2.length))).map
      (fun w => w.2.getD (q - w.1) 0#8)).getD (s.viewByte p.region q) := by
  rw [performAs_eq]
  exact viewByte_foldl_writeAs h p.unit p.interval Prod.snd _ p.writes q

end View

/-! The translation of a store that has retired. -/

section Done

variable {s : State} {h idx : Nat} {st : PendingStore} {wss : List (List (Nat × List Byte))}

/-- The results of a store's parts. -/
def resultsOf (s : State) (h : Nat) (st : PendingStore) : List (StorePart × PartRes) :=
  st.parts.map (fun p => (p, (s.as h).placePart p))

theorem results_snd (hp : st.parts.map (fun p => (s.as h).placePart p) = wss.map PartRes.ok) :
    (resultsOf s h st).map Prod.snd = wss.map PartRes.ok := by
  rw [← hp, resultsOf, List.map_map]
  rfl

theorem translated_results (hp : st.parts.map (fun p => (s.as h).placePart p) = wss.map PartRes.ok) :
    Translated (resultsOf s h st) := by
  intro r hr
  have hm : r.2 ∈ wss.map PartRes.ok := results_snd hp ▸ List.mem_map_of_mem hr
  obtain ⟨ws, -, hw⟩ := List.mem_map.mp hm
  exact ⟨ws, hw.symm⟩

theorem writes_results (hp : st.parts.map (fun p => (s.as h).placePart p) = wss.map PartRes.ok) :
    (resultsOf s h st).flatMap (fun r => r.2.writes) = wss.flatten := by
  calc (resultsOf s h st).flatMap (fun r => r.2.writes)
      = ((resultsOf s h st).map Prod.snd).flatMap PartRes.writes := by rw [List.flatMap_map]
    _ = wss.flatten := by rw [results_snd hp, List.flatMap_map, ← List.flatMap_id]; rfl

theorem exec_translated (hst : (s.hartAt h).stores[idx]? = some st) (hw : st.swid < 8)
    (hp : st.parts.map (fun p => (s.as h).placePart p) = wss.map PartRes.ok) :
    exec (.storeTranslationDone h idx) s = .next (((s.as h).performStore (resultsOf s h st)).modHart
      (fun x => { x with stores := dropNth (s.hartAt h).stores idx })) := by
  have hexec : exec (.storeTranslationDone h idx) s = execStoreTranslationDone h idx s := rfl
  have hbad (f : Trans → Bool) : firstBad f (st.parts.map (fun p => (p, (s.as h).placePart p))) = none :=
    firstBad_of_translated (translated_results hp) f
  rw [hexec]
  simp only [execStoreTranslationDone, hst, hbad]
  rw [if_neg (by unfold tstWaits; omega)]
  rfl

theorem sameThreads_performAs (s : State) (p : Parked) : SameThreads s (s.performAs p) :=
  ⟨by rw [(stored_performAs p).1], (stored_performAs p).cur, (stored_performAs p).harts, by rw [(stored_performAs p).1]⟩

/-- The hart whose store has been translated has the others left. -/
theorem hartAt_storesLeft {t : State} (hs : SameThreads (s.as h) t) (l : List PendingStore) :
    (t.modHart (fun x => { x with stores := l })).hartAt h = { s.hartAt h with stores := l } := by
  have e := State.hart_modHart t (fun x => { x with stores := l })
  rw [State.hart, State.modHart_cur, hs.cur, hs.hart] at e
  exact e

theorem hartAt_storesLeft_ne {t : State} (hs : SameThreads (s.as h) t) (l : List PendingStore) {k : Nat} (hk : k ≠ h) :
    (t.modHart (fun x => { x with stores := l })).hartAt k = s.hartAt k := by
  rw [State.hartAt_modHart_ne _ _ (by rw [hs.cur]; exact hk), hs.hartAt]
  rfl

end Done

/-! The stores of a cell that wait (R433). -/

/-- Behind a store that waits, every store waits. -/
theorem foldl_enter_blocked (ps : List Parked) (s : State) {left : List Parked} (h : left ≠ []) :
    ps.foldl (fun (a : State × List Parked) p =>
      if !a.2.isEmpty || !a.1.commitRoom p.region p.unit p.size then (a.1, a.2 ++ [p]) else (a.1.performAs p, a.2)) (s, left) =
      (s, left ++ ps) := by
  induction ps generalizing left with
  | nil => rw [List.append_nil]; rfl
  | cons p ps ih =>
    have hne : (!left.isEmpty || !s.commitRoom p.region p.unit p.size) = true := by simp [h]
    rw [List.foldl_cons, if_pos hne, ih (by simp), List.append_assoc]
    rfl

theorem enterParked_blocked {s : State} {c : Nat} {p : Parked} {rest : List Parked} (hc : (s.cellAt c).parked = p :: rest)
    (hr : s.commitRoom p.region p.unit p.size = false) :
    s.enterParked c = s.modCell c (fun x => { x with parked := p :: rest }) := by
  have hno : (!([] : List Parked).isEmpty || !s.commitRoom p.region p.unit p.size) = true := by simp [hr]
  simp only [State.enterParked, hc, List.foldl_cons]
  rw [if_pos hno, foldl_enter_blocked rest s (by simp)]
  rfl

theorem enterParked_one {s : State} {c : Nat} {p : Parked} (hc : (s.cellAt c).parked = [p])
    (hr : s.commitRoom p.region p.unit p.size = true) :
    s.enterParked c = (s.performAs p).modCell c (fun x => { x with parked := [] }) := by
  have hyes : (!([] : List Parked).isEmpty || !s.commitRoom p.region p.unit p.size) = false := by simp [hr]
  simp only [State.enterParked, hc, List.foldl_cons, List.foldl_nil]
  rw [if_neg (by rw [hyes]; exact Bool.false_ne_true)]

theorem storeTranslation : StoreTranslation := by
  refine ⟨fun s h idx st wss hst hsw hp hwf => ?_, fun s c p rest hc => ⟨fun hroom hrest => ?_, fun hroom => ?_⟩⟩
  · intro ws size unit
    have hwrites : ((s.as h).translated (resultsOf s h st)).writes.map Prod.snd = ws :=
      (translated_writes_snd ..).trans (writes_results hp)
    have hsize : ((s.as h).translated (resultsOf s h st)).size = size := by rw [size_eq, hwrites]; rfl
    refine ⟨fun hwait => ?_, fun hent hroom => ?_⟩
    · have hperf := enterStore_waits (s := s.as h) (p := (s.as h).translated (resultsOf s h st)) (hwait.imp id fun e => by
        rw [hsize]; exact e)
      have hsame (g : Cell → Cell) := hartAt_storesLeft (s := s) (h := h) (quiet_modCell (s.as h) (cellOf (s.as h).cur) g).toSameThreads
        (dropNth (s.hartAt h).stores idx)
      refine ⟨_, (s.as h).translated (resultsOf s h st), exec_translated hst hsw hp, ?_⟩
      rw [State.performStore, hperf]
      refine ⟨by rw [hsame], ?_, rfl, hwrites, rfl, rfl, fun k hk => State.hartAt_modHart_ne _ _ hk, by rw [hsame]⟩
      exact congrArg Cell.parked (State.cellAt_modCell_self (s.as h) (cellOf h)
        fun c => { c with parked := c.parked ++ [(s.as h).translated (resultsOf s h st)] })
    · have hperf := enterStore_performs (s := s.as h) (p := (s.as h).translated (resultsOf s h st)) hent (by rw [hsize]; exact hroom)
      have hsame : SameThreads (s.as h) ((s.as h).performAs ((s.as h).translated (resultsOf s h st))) := sameThreads_performAs ..
      have hhart := hartAt_storesLeft hsame (dropNth (s.hartAt h).stores idx)
      refine ⟨_, exec_translated hst hsw hp, ?_⟩
      rw [State.performStore, hperf]
      refine ⟨by rw [hhart], fun a => ?_, fun a ha r => ?_, fun k hk => hartAt_storesLeft_ne hsame _ hk, by rw [hhart], by rw [hhart]⟩
      · rw [← hwrites]
        exact viewByte_performAs (s := s.as h) hwf ((s.as h).translated (resultsOf s h st)) a
      · refine viewByte_entered_outside (s.as h) ((s.as h).translated (resultsOf s h st)) r a fun w hw => ha w.2 ?_
        rw [← hwrites]
        exact List.mem_map_of_mem hw
  · subst hrest
    exact enterParked_one hc hroom
  · rw [enterParked_blocked hc hroom]
    exact ⟨rfl, rfl, by rw [State.cellAt_modCell_self]⟩

/-- Settles O42: stores enter the store path, and their translation lays their bytes in order. -/
theorem stores : Obligations.Stores := ⟨scalarStores, vectorStores, storeTranslation⟩

end Sys2Proof.Stores
end

section
/-! SUPPORT. Ordered loads and stores, atomics and fences (R202, R206-R210, R213). -/

namespace Sys2Proof.Ordered

open Sys2Proof Sys2Proof.Machine Sys2Proof.Spec Sys2Proof.Integer Sys2Proof.Floats Sys2Proof.Frames Sys2Proof.Loads Sys2Proof.Stores

/-! What an instruction that orders accesses waits for. -/

section Drain

variable {s : State} {k : State → Act}

theorem drained_ready (hs : s.hart.stores = []) (hl : s.hart.loads = []) (hf : s.hart.sfrq = []) : drained k s = k s := by
  simp only [drained, hs, hl, hf, List.isEmpty_nil, Bool.and_self, if_true]

theorem drainStores_ready (hs : s.hart.stores = []) (hf : s.hart.sfrq = []) : drainStores k s = k s := by
  simp only [drainStores, hs, hf, List.isEmpty_nil, Bool.not_true, Bool.false_eq_true, if_false]

theorem drainStores_wait (hs : s.hart.stores ≠ []) : drainStores k s = .wait .memory id := by
  simp [drainStores, hs]

/-- A release goes on once its hart's stores have entered their commit buffer, where its scope reaches beyond the cell. -/
theorem released_ready {sc : ScopeCode} (hs : s.hart.stores = []) (hl : s.hart.loads = []) (hf : s.hart.sfrq = [])
    (he : 2 ≤ sc.toNat → s.unentered s.cur = false ∨ s.draining = true) : released (farScope sc) k s = k s := by
  rw [released, drained_ready hs hl hf, if_neg]
  by_cases h2 : 2 ≤ sc.toNat
  · rcases he h2 with e | e <;> simp [e]
  · simp [farScope, h2]

theorem unentered_of_empty (h : s.cell.parked = []) : s.unentered s.cur = false := by simp [unentered_cur, h]

end Drain

/-! An acquiring load. -/

section Acquire

variable {s : State}

theorem lineData_length (s : State) (rg pa : Nat) : (s.lineData rg pa).1.length = 64 := by
  simp [State.lineData, State.view]

theorem overlaid_length (c : Cell) (pa : Nat) (d : List Byte × List Bool) (h : d.1.length = 64) : (c.overlaid pa d).1.length = 64 := by
  unfold Cell.overlaid
  induction c.parked generalizing d with
  | nil => exact h
  | cons p ps ih => exact ih _ (by simp [overlay])

theorem cellData_length (pa : Nat) : (s.cellData pa).1.length = 64 := overlaid_length _ _ _ (lineData_length ..)

/-- An acquire touches the cell's L1 alone. -/
theorem cellData_modL1 (f : Cell → List L1Line) (pa : Nat) :
    (s.modCell (cellOf s.cur) (fun c => { c with l1 := f c })).cellData pa = s.cellData pa := by
  have hcell : (s.modCell (cellOf s.cur) (fun c => { c with l1 := f c })).cell = { s.cell with l1 := f s.cell } :=
    State.cellAt_modCell_self ..
  simp only [State.cellData, hcell]
  rfl

theorem cellData_acquiredAt (sc : ScopeCode) (pas : List Nat) (pa : Nat) : (s.acquiredAt sc pas).cellData pa = s.cellData pa := by
  unfold State.acquiredAt
  split
  · exact cellData_modL1 (fun _ => []) pa
  · exact cellData_modL1 _ pa

theorem place_one {ea pa n : Nat} {e : TlbEntry} (h : s.access ea true false = .hit pa e) :
    s.place false [⟨0, ea, n⟩] = .ok [⟨0, pa, n, none⟩] := by
  have hone : s.placeOne false ⟨0, ea, n⟩ = .ok ⟨0, pa, n, none⟩ := by simp [State.placeOne, h]
  simp [State.place, State.placeBy, State.misplaced, deciding, hone, Except.toOption]

/-- The bytes of an aligned piece stand in one line. -/
theorem aligned_line {n pa i : Nat} (hn : n = 1 ∨ n = 2 ∨ n = 4 ∨ n = 8) (ha : pa % n = 0) (hi : i < n) :
    pa / 64 = (pa + i) / 64 ∧ (pa + i) % 64 = pa % 64 + i ∧ pa % 64 + n ≤ 64 := by
  rcases hn with rfl | rfl | rfl | rfl <;> omega

/-- The load of a piece in one line that is there. -/
def lineLoad (d : Reg) (kind : LoadKind) (pa n : Nat) (line : List Byte × List Bool) : Load :=
  ⟨0, .xreg d, kind, [⟨0, pa, n, none⟩], 0#64, [⟨pa / 64 * 64, some line⟩], []⟩

variable {d : Reg} {kind : LoadKind} {pa n : Nat} {line : List Byte × List Bool}

theorem pieceNat_lineLoad (hn : n = 1 ∨ n = 2 ∨ n = 4 ∨ n = 8) (ha : pa % n = 0) (hl : line.1.length = 64) :
    (lineLoad d kind pa n line).pieceNat ⟨0, pa, n, none⟩ = leNat ((line.1.drop (pa % 64)).take n) := by
  refine congrArg leNat (List.ext_getElem ?_ fun i hi hi' => ?_)
  · have h := (aligned_line hn ha (show 0 < n by omega)).2.2
    simp [hl]
    omega
  · have hin : i < n := by simpa using hi
    obtain ⟨h1, h2, h3⟩ := aligned_line hn ha hin
    simp [lineLoad, Load.byte, h1, h2, hl, show pa % 64 + i < 64 by omega]

theorem poison_lineLoad : (lineLoad d kind pa n line).poisonAt pa = line.2.getD (pa % 64 / 8) false := by
  simp [lineLoad, Load.poisonAt]

theorem uval_lineLoad {sg : Bool} (hn : n = 1 ∨ n = 2 ∨ n = 4 ∨ n = 8) (ha : pa % n = 0) (hl : line.1.length = 64) :
    (lineLoad d (.scalar n sg) pa n line).uval =
      let v := leNat ((line.1.drop (pa % 64)).take n)
      ⟨if sg ∧ 2 ^ (8 * n - 1) ≤ v then BitVec.ofInt 64 ((v : Int) - 2 ^ (8 * n)) else BitVec.ofNat 64 v, 24#5,
        line.2.getD (pa % 64 / 8) false⟩ := by
  rw [uval_scalar rfl rfl rfl rfl, pieceNat_lineLoad hn ha hl, poison_lineLoad]

theorem poisoned_lineLoad : (lineLoad d kind pa n line).poisoned = line.2.getD (pa % 64 / 8) false := by
  rw [← poison_lineLoad (d := d) (kind := kind) (n := n)]
  simp [Load.poisoned, lineLoad, Load.piecePoison]

theorem loadShape_eq : ∀ w : BitVec 3, loadShape w =
    (if w.toNat ≤ 1 then 1 else if w.toNat ≤ 3 then 2 else if w.toNat ≤ 5 then 4 else 8, decide (w.toNat % 2 = 0) || decide (w = 7#3)) := by
  decide

theorem loadShape_bytes : ∀ w : BitVec 3, (loadShape w).1 = 1 ∨ (loadShape w).1 = 2 ∨ (loadShape w).1 = 4 ∨ (loadShape w).1 = 8 := by
  decide

end Acquire

/-- What an acquire at a scope reads afresh (R371, R376). -/
theorem acquiredAt_eq (s : State) (sc : ScopeCode) (pa : Nat) : s.acquiredAt sc [pa] =
    if 2 ≤ sc.toNat then s.dropLines (cellOf s.cur) else s.refresh (cellOf s.cur) s.hart.regionId [(pa, 64)] := by
  unfold State.acquiredAt farScope
  by_cases h : 2 ≤ sc.toNat <;> simp [h, State.acquired]

section Body

variable {w : BitVec 3} {d a : Reg} {sc : ScopeCode} {s1 s2 : State} {x : UVal} {n pa : Nat} {sg : Bool} {e : TlbEntry}

/-- An acquiring load whose access is there reads its line past the L1 (R371). -/
theorem acquireLoad_hit (hsh : loadShape w = (n, sg)) (hd : s1.badDstU d = false) (ha : s1.readU a = .got x s2)
    (hx : x.poison = false) (hal : x.val.toNat % n = 0) (hs : s2.hart.storeOverlap [(x.val.toNat, n)] = false)
    (hl : s2.hart.loadOverlap [(x.val.toNat, n)] = false) (hacc : s2.access x.val.toNat true false = .hit pa e) :
    acquireLoad w d a sc s1 =
      let l := lineLoad d (.scalar n sg) pa n (s2.cellData (pa / 64 * 64))
      dstU ((s2.acquiredAt sc [pa / 64 * 64]).note l.poisoned 0) d l.uval := by
  have hbody : acquireLoad w d a sc s1 = _ := (guardMap_ok (by simp [hd])).trans (srcU_got ha)
  have hpas : distinct ([(⟨0, pa, n, none⟩ : Piece)].flatMap Piece.lines) = [pa / 64 * 64] := by simp [Piece.lines, distinct]
  simp only [hsh, hx, hal, hs, hl, place_one hacc, hpas, Bool.false_eq_true, if_false, ne_eq, not_true_eq_false, Bool.or_self,
    List.map_cons, List.map_nil, cellData_acquiredAt] at hbody
  exact hbody

end Body

theorem acquireLoad_of : AcquireLoad := by
  refine ⟨fun s hpark pa => by simp [State.cellData, Cell.overlaid, hpark, State.lineData], ?_⟩
  intro tk wd d a sc s s1 s2 x h hp ha
  have hr : Runs (.ldAcq tk wd d a sc) tk 4 (acquireLoad wd d a sc) := ⟨rfl, fun _ => rfl⟩
  obtain ⟨-, hdst, -, -⟩ := hp
  have hbody : acquireLoad wd d a sc s1 = _ := (guardMap_ok (by simp [hdst])).trans (srcU_got ha)
  have hbytes := loadShape_bytes wd
  have hsh := loadShape_eq wd
  intro n sg
  refine ⟨fun hx s3 hput => ?_, fun hx hmis => ?_, fun hx hal hs hl pa e hacc hpa => ?_⟩
  · simp only [hx, if_true] at hbody
    exact hr.completes_done h (hbody.trans (dstU_ok hput))
  · simp only [hsh, hx, Bool.false_eq_true, if_false] at hbody
    rw [if_pos hmis] at hbody
    exact exec_trap hr h hbody
  · intro line v p u s3 hput
    refine hr.completes_done h ((acquireLoad_hit hsh (by simp [hdst]) ha hx hal hs hl hacc).trans (dstU_ok ?_))
    rw [poisoned_lineLoad, uval_lineLoad (by rw [hsh] at hbytes; exact hbytes) hpa (cellData_length _), acquiredAt_eq]
    exact hput

/-! A releasing store. -/

theorem bytesOf_natBytes (pa n v : Nat) : bytesOf [(pa, natBytes n v)] = n := by
  simp [bytesOf, natBytes_length]

theorem releaseStore_of : ReleaseStore := by
  intro tk wd b a sc s s1 s2 s3 x y h hst hld hsf hpark hp ha hb
  have hr : Runs (.stRel tk wd b a sc) tk 4 (releaseStore wd b a sc) := ⟨rfl, fun _ => rfl⟩
  obtain ⟨hsrc, -, -, -⟩ := hp
  have hbody : releaseStore wd b a sc s1 = _ := (released_ready hst hld hsf fun h2 => (hpark h2).imp unentered_of_empty id).trans
    ((guardMap_ok (by simp [hsrc])).trans ((srcU_got ha).trans (srcU_got hb)))
  intro n part u
  refine ⟨fun hx => ?_, fun hx hmis => ?_, fun hx hal pa hplace => ?_⟩
  · simp only [hx, if_true] at hbody
    exact hr.completes_done h hbody
  · simp only [hx, Bool.false_eq_true, if_false] at hbody
    rw [if_pos hmis] at hbody
    exact exec_trap hr h hbody
  · simp only [hx, Bool.false_eq_true, if_false] at hbody
    rw [if_neg (not_not.mpr hal)] at hbody
    intro rs room
    have hdone := hbody.trans (storeNow_one hplace)
    refine ⟨fun hpk hroom => ?_, fun hwait => ?_⟩
    · rw [performStore_performs hpk (by rw [bytesOf_natBytes]; exact hroom)] at hdone
      exact hr.completes_done h hdone
    · rw [performStore_waits (hwait.imp id fun e => by rw [bytesOf_natBytes]; exact e)] at hdone
      exact hr.completes_done h hdone

/-! Fences and polling. -/

/-- What a fence does once the accesses that it orders have ended. -/
def fenced (kk : BitVec 2) (sc : ScopeCode) (s : State) : State :=
  let u := if kk = 1#2 then s else s.noteRelease sc
  if kk ≠ 2#2 ∧ 2 ≤ sc.toNat then u.dropLines (cellOf u.cur) else u

theorem fenceOp_eq (kk : BitVec 2) (sc : ScopeCode) (s : State) : fenceOp kk sc s =
    if kk = 1#2 then (if s.hart.loads.isEmpty then .done (fenced kk sc s) else .wait .memory id)
    else released (farScope sc) (fun s => .done (fenced kk sc s)) s := by
  unfold fenceOp fenced
  simp only [State.acquired, farScope, Bool.and_eq_true, decide_eq_true_eq]

theorem fencesAndPolling : FencesAndPolling := by
  have hf (tk kk sc) : Runs (.fence tk kk sc) tk 4 (fenceOp kk sc) := ⟨rfl, fun _ => rfl⟩
  have hsd (tk) : Runs (.sdrain tk) tk 4 (drainStores .done) := ⟨rfl, fun _ => rfl⟩
  refine ⟨fun tk kk sc s s1 h hl hk => ?_, fun tk kk sc s s1 h hl hst hsf hk h2 hu hdr => ?_, fun tk s s1 h hst hsf => ?_,
    fun tk d s s1 s2 h hl hput => ?_, fun tk d s s1 s2 h hl hput => ?_, fun tk s s1 h hst => ?_⟩
  · refine (hf tk kk sc).completes_done h (u := fenced kk sc s1) ?_
    rw [fenceOp_eq]
    split
    · simp [hl]
    · next hne =>
      obtain ⟨hst, hsf, he⟩ := hk.resolve_left hne
      exact released_ready hst hl hsf he
  · rw [(hf tk kk sc).2, runHart_wait h (w := .full 302) (f := id)]
    · rfl
    · rw [fenceOp_eq, if_neg hk, released, drained_ready hst hl hsf]
      simp [farScope, h2, hu, hdr]
  · exact (hsd tk).completes_done h (drainStores_ready hst hsf)
  · refine Runs.completes_done (i := .chkerr tk d) (body := chkerrOp false d) ⟨rfl, fun _ => rfl⟩ h ?_
    simp only [chkerrOp, hl, List.isEmpty_nil, if_true]
    exact dstU_ok hput
  · refine Runs.completes_done (i := .chkerrClr tk d) (body := chkerrOp true d) ⟨rfl, fun _ => rfl⟩ h ?_
    simp only [chkerrOp, hl, List.isEmpty_nil, if_true]
    exact dstU_ok hput
  · rw [(hsd tk).2, runHart_wait h (drainStores_wait hst)]
    rfl

/-- Settles O44: acquiring loads, releasing stores, fences, and the reading of CHKIV. -/
theorem acquireAndRelease : Obligations.AcquireAndRelease := ⟨acquireLoad_of, releaseStore_of, fencesAndPolling⟩

/-! Atomics (R207, R208, R434). -/

theorem wideScope_iff (sc : ScopeCode) : wideScope sc = true ↔ sc = 4#3 ∨ sc = 5#3 := by simp [wideScope]

/-- The end of an atomic whose access is there: the destination of its old value, from the state that its write leaves. -/
def amoOut (sc : ScopeCode) (d : Reg) (pa : Nat) (out : UVal) (p : Bool) (u : State) : Act :=
  dstU (((u.acquiredAt sc [pa / 64 * 64]).note out.poison 0).note p 3) d out

/-- What an atomic whose access is there does, by its scope and its new value. -/
def amoEnd (sc : ScopeCode) (d : Reg) (ea pa n : Nat) (out : UVal) (p : Bool) (new : Option Nat) (s : State) : Act :=
  match new with
  | none => amoOut sc d pa out false (if wideScope sc then s.earlyCommit pa n else s)
  | some v =>
    if wideScope sc then
      let c := s.earlyCommit pa n
      amoOut sc d pa out p { c with mem := c.mem.write pa (natBytes n v) p }
    else if farScope sc then
      if s.commitRoom s.hart.regionId (unitOf (cellOf s.cur)) n then amoOut sc d pa out p (s.writeAll p [(pa, natBytes n v)])
      else .wait (.full 302) id
    else amoOut sc d pa out p (s.performStore [(⟨0, ea, natBytes n v, p, none⟩, .ok [(pa, natBytes n v)])])

section Body

variable {op : AmoOp} {sc : ScopeCode} {z : BitVec 1} {d a b : Reg} {s1 s2 s3 s4 : State} {x y e : UVal} {n pa old : Nat} {oldP : Bool}
  {new : Option Nat} {en : TlbEntry}

/-- The operands of an atomic that is ready to perform. -/
structure AmoReady (sc : ScopeCode) (d a b : Reg) (s1 s2 s3 s4 : State) (x y e : UVal) : Prop where
  stores : s1.hart.stores = []
  loads : s1.hart.loads = []
  records : s1.hart.sfrq = []
  entered : 2 ≤ sc.toNat → s1.cell.parked = [] ∨ s1.draining = true
  reada : s1.readU a = .got x s2
  readb : s2.readU b = .got y s3
  readd : s3.readU d = .got e s4

/-- An atomic whose access is there reads the old value, and ends with the new one. -/
theorem atomicOp_hit (hr : AmoReady sc d a b s1 s2 s3 s4 x y e) (hnd : (s4.draining && wideScope sc) = false) (hx : x.poison = false)
    (hn : (if z = 0#1 then 4 else 8) = n) (hal : x.val.toNat % n = 0) (hacc : s4.access x.val.toNat true true = .hit pa en)
    (hfar : (s4.cell.parkedAt pa n && farScope sc) = false)
    (hold : leNat (if s4.cell.parkedAt pa n then ((s4.cellData (pa / 64 * 64)).1.drop (pa % 64)).take n
      else s4.view s4.hart.regionId pa n) = old)
    (hpois : (if s4.cell.parkedAt pa n then (s4.cellData (pa / 64 * 64)).2.getD (pa % 64 / 8) false
      else s4.viewAnyPoison s4.hart.regionId pa n) = oldP)
    (hnew : amoValue op (8 * n) old (y.val.toNat % 2 ^ (8 * n)) (e.val.toNat % 2 ^ (8 * n)) = new) :
    atomicOp op sc z d a b s1 =
      amoEnd sc d x.val.toNat pa n ⟨BitVec.ofInt 64 (signedOf (8 * n) old), 24#5, oldP⟩ (amoPoison op oldP y.poison) new s4 := by
  have hbody : atomicOp op sc z d a b s1 = _ :=
    (released_ready hr.stores hr.loads hr.records fun h2 => (hr.entered h2).imp unentered_of_empty id).trans
      ((srcU_got hr.reada).trans ((srcU_got hr.readb).trans (srcU_got hr.readd)))
  simp only [hnd, hx, hn, hal, hacc, hfar, hold, hpois, hnew, Bool.false_eq_true, if_false, ne_eq, not_true_eq_false] at hbody
  rw [hbody]
  cases new <;> rfl

end Body

theorem atomic_of {mk : Tok → ScopeCode → BitVec 1 → Reg → Reg → Reg → Instr} {op : AmoOp}
    (hr : ∀ tk sc z d a b, Runs (mk tk sc z d a b) tk 4 (atomicOp op sc z d a b)) : Atomic mk (amoValue op) (amoPoison op) := by
  intro tk sc z d a b s s1 s2 s3 s4 x y e h hst hld hsf hpark ha hb hd n w wide ends
  have hready : AmoReady sc d a b s1 s2 s3 s4 x y e := ⟨hst, hld, hsf, hpark, ha, hb, hd⟩
  have hbody : atomicOp op sc z d a b s1 = _ := (released_ready hst hld hsf fun h2 => (hpark h2).imp unentered_of_empty id).trans
    ((srcU_got ha).trans ((srcU_got hb).trans (srcU_got hd)))
  have hends {u : State} {v : UVal} (hu : atomicOp op sc z d a b s1 = dstU u d v) : ends u v :=
    fun s5 hs5 => (hr tk sc z d a b).completes_done h (hu.trans (dstU_ok hs5))
  have hdrain (hnd : wide → s4.draining = false) : (s4.draining && wideScope sc) = false := by
    cases hw : wideScope sc with
    | false => rw [Bool.and_false]
    | true => rw [hnd ((wideScope_iff sc).mp hw), Bool.false_and]
  refine ⟨fun hw hdr => hends ?_, fun hnd hx => hends ?_, fun hnd hx hmis => ?_, fun hnd hx hal pa en hacc => ?_⟩
  · rw [hbody, if_pos (by simp [hdr, (wideScope_iff sc).mpr hw])]
    rfl
  · rw [hbody, if_neg (by simp [hdrain hnd]), if_pos hx]
  · refine exec_trap (hr tk sc z d a b) h (hbody.trans ?_)
    rw [if_neg (by simp [hdrain hnd]), if_neg (by simp [hx]), if_pos hmis]
  · intro parked hpk after rg line old oldP out result
    have hfar : (parked && farScope sc) = false := by
      by_cases h2 : 2 ≤ sc.toNat
      · rw [hpk h2, Bool.false_and]
      · simp [farScope, h2]
    have hend : atomicOp op sc z d a b s1 = amoEnd sc d x.val.toNat pa n out (amoPoison op oldP y.poison) result s4 :=
      atomicOp_hit hready (hdrain hnd) hx rfl hal hacc hfar rfl rfl rfl
    have hscope (hw : ¬ wide) : wideScope sc = false := Bool.eq_false_iff.mpr fun e => hw ((wideScope_iff sc).mp e)
    refine ⟨fun hres hw => hends ?_, fun hres hw => hends ?_, fun v hres h2 => hends ?_, fun v hres hw h2 hroom => hends ?_,
      fun v hres hw => hends ?_⟩
    · rw [hend, hres, amoEnd, hscope hw]
      rfl
    · rw [hend, hres, amoEnd, (wideScope_iff sc).mpr hw]
      rfl
    · have hw : ¬ wide := fun hw => by rcases hw with rfl | rfl <;> exact absurd h2 (by decide)
      have hf : farScope sc = false := by simpa [farScope] using h2
      rw [hend, hres, amoEnd, hscope hw, hf]
      rfl
    · have hf : farScope sc = true := by simpa [farScope] using h2
      simp only [hend, hres, amoEnd, hscope hw, hf, Bool.false_eq_true, if_false, if_true]
      rw [if_pos hroom]
      rfl
    · rw [hend, hres, amoEnd, (wideScope_iff sc).mpr hw]
      rfl

/-- Settles O2: the eight atomics give the old value and write the new one. -/
theorem atomics : Obligations.Atomics :=
  ⟨atomic_of (op := .add) fun _ _ _ _ _ _ => ⟨rfl, fun _ => rfl⟩, atomic_of (op := .and) fun _ _ _ _ _ _ => ⟨rfl, fun _ => rfl⟩,
    atomic_of (op := .or) fun _ _ _ _ _ _ => ⟨rfl, fun _ => rfl⟩, atomic_of (op := .xor) fun _ _ _ _ _ _ => ⟨rfl, fun _ => rfl⟩,
    atomic_of (op := .min) fun _ _ _ _ _ _ => ⟨rfl, fun _ => rfl⟩, atomic_of (op := .max) fun _ _ _ _ _ _ => ⟨rfl, fun _ => rfl⟩,
    atomic_of (op := .swap) fun _ _ _ _ _ _ => ⟨rfl, fun _ => rfl⟩, atomic_of (op := .cas) fun _ _ _ _ _ _ => ⟨rfl, fun _ => rfl⟩⟩

end Sys2Proof.Ordered
end

section
/-! SUPPORT. CSRs, the entry of a trap, calls, breaks and returns (R216-R224). -/

namespace Sys2Proof.System

open Sys2Proof Sys2Proof.Machine Sys2Proof.Spec Sys2Proof.Integer Sys2Proof.Floats Sys2Proof.Threads

/-! CSR instructions. -/

section Modify

variable {n : BitVec 11} {a : Reg} {rw : Word → Word → Word} {w1c : Word → Word} {k : Word → State → Act} {s t u : State} {x : UVal}

theorem csrModify_priv (h : handlerCsr n.toNat = true) (hh : s.hart.hnd = false) :
    csrModify n a rw w1c k s = .trap 0x04 (n.setWidth 64) := by
  simp only [csrModify, h, hh, Bool.not_false, Bool.and_self, if_true]

/-- A poisoned value is discarded; another is written (R211, R219). -/
theorem csrModify_written (h : handlerCsr n.toNat = true → s.hart.hnd = true) (hx : s.readU a = .got x t)
    (hw : if x.poison then u = t.note true 4 else t.csrWrite n.toNat (rw (t.csrRead n.toNat) x.val) (w1c x.val) = .ok u) :
    csrModify n a rw w1c k s = k (t.csrRead n.toNat) u := by
  have hno : (handlerCsr n.toNat && !s.hart.hnd) = false := by
    cases hc : handlerCsr n.toNat with
    | false => rfl
    | true => simp [h hc]
  rw [csrModify, if_neg (by rw [hno]; exact Bool.false_ne_true), srcU_got hx]
  cases hp : x.poison with
  | true =>
    rw [hp, if_pos rfl] at hw
    rw [hw]
    rfl
  | false =>
    rw [hp, if_neg Bool.false_ne_true] at hw
    simp only [Bool.false_eq_true, if_false, hw]

end Modify

theorem csrInstructions : CsrInstructions := by
  refine ⟨fun tk d n s s1 s2 h hput => ?_, fun tk a n s s1 hc hh => ⟨fun h => ?_, fun d h => ?_, fun d h => ?_⟩,
    fun tk a n s s1 s2 x hh hx => ⟨fun u h hw => ?_, fun d u v h hw hput => ?_, fun d u v h hw hput => ?_⟩⟩
  · exact Runs.completes_done (i := .csrr tk d n) ⟨rfl, fun _ => rfl⟩ h (dstU_ok hput)
  · exact exec_trap (i := .csrw tk a n) ⟨rfl, fun _ => rfl⟩ h (csrModify_priv hc hh)
  · exact exec_trap (i := .csrs tk d a n) ⟨rfl, fun _ => rfl⟩ h (csrModify_priv hc hh)
  · exact exec_trap (i := .csrc tk d a n) ⟨rfl, fun _ => rfl⟩ h (csrModify_priv hc hh)
  · exact Runs.completes_done (i := .csrw tk a n) ⟨rfl, fun _ => rfl⟩ h
      (csrModify_written (rw := fun _ x => x) (w1c := fun x => x) hh hx hw)
  · exact Runs.completes_done (i := .csrs tk d a n) ⟨rfl, fun _ => rfl⟩ h
      ((csrModify_written (rw := fun o x => o ||| x) (w1c := fun x => x) hh hx hw).trans (dstU_ok hput))
  · exact Runs.completes_done (i := .csrc tk d a n) ⟨rfl, fun _ => rfl⟩ h
      ((csrModify_written (rw := fun o x => o &&& ~~~x) (w1c := fun _ => 0#64) hh hx hw).trans (dstU_ok hput))

/-! Reading back what a CSR has been written with. -/

section Fields

theorem zext64_toNat {n : Nat} (h : n ≤ 64) (x : BitVec n) : (zext64 x).toNat = x.toNat := by
  have hlt : x.toNat < 2 ^ 64 := lt_of_lt_of_le x.isLt (Nat.pow_le_pow_right (by decide) h)
  simp only [zext64, BitVec.toNat_setWidth, Nat.mod_eq_of_lt hlt]

/-- FCSR has RM in its bits 7:5 and the flags in 4:0 (R160). -/
theorem fcsr_toNat (rm : BitVec 3) (flags : BitVec 5) : (rm ++ flags).toNat = rm.toNat * 32 + flags.toNat := by
  have h : rm.toNat <<< 5 ||| flags.toNat = rm.toNat <<< 5 + flags.toNat := (Nat.shiftLeft_add_eq_or_of_lt flags.isLt rm.toNat).symm
  rw [BitVec.toNat_append, h, Nat.shiftLeft_eq]

theorem extract_low (x : BitVec w) (k : Nat) : (x.extractLsb' 0 k).toNat = x.toNat % 2 ^ k := by
  rw [BitVec.extractLsb'_toNat, Nat.shiftRight_zero]

theorem extract_rm (x : BitVec w) : (x.extractLsb' 5 3).toNat = x.toNat / 32 % 8 := by
  rw [BitVec.extractLsb'_toNat, Nat.shiftRight_eq_div_pow]

variable (s : State)

theorem csrRead_sstat : s.csrRead 0x001 = s.hart.sstat := rfl

theorem csrRead_tvec : s.csrRead 0x002 = s.hart.tvec := rfl

theorem csrRead_tcause : s.csrRead 0x003 = s.hart.tcause := rfl

theorem csrRead_tval : s.csrRead 0x004 = s.hart.tval := rfl

theorem csrRead_tepc : s.csrRead 0x005 = s.hart.tepc := rfl

theorem csrRead_fcsr : s.csrRead 0x010 = zext64 s.hart.fcsr := rfl

theorem csrRead_sigthr : s.csrRead 0x011 = BitVec.ofNat 64 (bitAt s.hart.sigEn 8 + s.hart.sigThr.toNat) := rfl

theorem csrRead_pchan : s.csrRead 0x021 = zext64 s.hart.pchan := rfl

theorem csrRead_tksel : s.csrRead 0x022 = zext64 s.hart.tksel := rfl

end Fields

theorem csrFields : CsrFields := by
  intro s v w
  refine ⟨fun t h => ?_, fun t h => ?_, fun t h => ?_, fun t h => ?_, fun t h => ?_, fun t h => ?_, fun t h => ?_, fun t h => ?_,
    fun t h => ?_⟩
  all_goals obtain rfl := Except.ok.inj h
  · rw [csrRead_sstat, State.hart_modHart]
  · rw [csrRead_tval, State.hart_modHart]
  · rw [csrRead_tcause, State.hart_modHart]
  · rw [csrRead_tvec, State.hart_modHart, ← evenAddr]
  · rw [csrRead_tepc, State.hart_modHart, ← evenAddr]
  · rw [csrRead_fcsr, State.hart_modHart, zext64_toNat (by decide), fcsr_toNat, extract_low, apply_ite BitVec.toNat, extract_rm, extract_rm]
    have hlt := s.hart.fcsr.isLt
    split <;> omega
  · rw [csrRead_sigthr, State.hart_modHart]
    dsimp only
    have hthr : (if 24 < v.toNat % 32 then 24#5 else v.setWidth 5).toNat = min (v.toNat % 32) 24 := by
      rw [apply_ite BitVec.toNat, BitVec.toNat_setWidth, show (24#5).toNat = 24 from rfl]
      split <;> omega
    have hbit : bitAt (v.getLsbD 8) 8 ≤ 256 := by unfold bitAt; split <;> omega
    rw [BitVec.toNat_ofNat, hthr, Nat.mod_eq_of_lt (by omega)]
    rfl
  · rw [csrRead_pchan, State.hart_modHart, zext64_toNat (by decide), BitVec.toNat_setWidth]
  · rw [csrRead_tksel, State.hart_modHart, zext64_toNat (by decide), BitVec.toNat_setWidth]

/-- Settles O45: the CSR instructions, and the fields of the CSRs. -/
theorem controlAndStatusRegisters : Obligations.ControlAndStatusRegisters := ⟨csrInstructions, csrFields⟩

/-! The entry of a trap (R222). -/

section Entry

variable (s : State)

theorem returnHeld_mem : s.returnHeld.mem = s.mem := by
  have hfold (l : List (Nat × Entry)) (f : Nat × Entry → Cell → Cell) (t : State) :
      (l.foldl (fun t e => t.modCell (cellOf t.cur) (f e)) t).mem = t.mem := by
    induction l generalizing t with
    | nil => rfl
    | cons e l ih => exact (ih _).trans rfl
  simp only [State.returnHeld]
  rw [hfold]
  split <;> rfl

/-- The hart of an instruction that is abandoned: it has not begun. -/
def unbegun (h : Hart) : Hart :=
  { h with
    stage := .fresh, wait := none, held := [], portOut := [], portKey := 0, issued := none, dstHeld := none, record := none,
    reply := none }

/-- An instruction that is abandoned leaves its hart as it was before, and memory, and every other hart. -/
theorem abandon_eq : ∃ u, Quiet s u ∧ u.mem = s.mem ∧ s.abandon = u.modHart unbegun := by
  have hdrop : Quiet s (if s.hart.stage = .arrived && isStreamer s.cur then s.dropAlloc s.cur else s) ∧
      (if s.hart.stage = .arrived && isStreamer s.cur then s.dropAlloc s.cur else s).mem = s.mem := by
    split
    · exact ⟨quiet_dropAlloc s _, rfl⟩
    · exact ⟨quiet_refl s, rfl⟩
  have hforget (t : State) (r : Nat) (f : Region → Region) (c : Prop) [Decidable c] :
      (if c then t.modRegion r f else t).mem = t.mem := by
    split
    · exact State.modRegion_mem ..
    · rfl
  refine ⟨_, ?_, ?_, rfl⟩
  · exact (hdrop.1.trans (quiet_ite (quiet_modRegion ..) (quiet_refl _))).trans (quiet_returnHeld _)
  · rw [returnHeld_mem, hforget, hdrop.2]

variable {s}

theorem b2w_pair (a b : Bool) :
    b2w a ||| (b2w b <<< 1) = (if a then 1#64 else 0#64) ||| (if b then 2#64 else 0#64) := by
  cases a <;> cases b <;> rfl

/-- The hart that enters its handler. -/
def entering (streamer : Bool) (code : Nat) (value epc : Word) (h : Hart) : Hart :=
  { h with
    sstat := if streamer then 0#64 else b2w h.nut ||| (b2w h.sigEn <<< 1),
    sigEn := if streamer then h.sigEn else false, nut := if streamer then h.nut else false, hnd := true, sfNew := false,
    tcause := BitVec.ofNat 64 (code % 128), tval := value, tepc := evenAddr epc, pc := h.tvec }

theorem takeTrap_eq (hsf : s.hart.sfrq = []) (hh : s.hart.hnd = false) (hv : s.hart.tvec ≠ 0#64) (code : Nat) (value epc : Word) :
    s.takeTrap code value epc = s.abandon.modHart (entering (isStreamer s.cur) code value epc) := by
  obtain ⟨u, hu, -, habandon⟩ := abandon_eq s
  have hhart : s.abandon.hart = unbegun s.hart := by rw [habandon, State.hart_modHart, hu.hart]
  have hcur : s.abandon.cur = s.cur := by rw [habandon, State.modHart_cur, hu.cur]
  have h1 : s.abandon.hart.sfrq = [] := by rw [hhart]; exact hsf
  have h2 : s.abandon.hart.hnd = false := by rw [hhart]; exact hh
  have h3 : s.abandon.hart.tvec ≠ 0#64 := by rw [hhart]; exact hv
  simp only [State.takeTrap, h1, h2, h3, hcur, if_false, Bool.false_eq_true, Nat.zero_mod, Nat.zero_mul, Nat.zero_add]
  rfl

theorem takeTrap_entered (h : MayTrap s) (code : Nat) (value : Word) : Entered s (s.takeTrap code value s.hart.pc) code value := by
  obtain ⟨-, hsf, hh, hv⟩ := h
  obtain ⟨u, hu, hmem, habandon⟩ := abandon_eq s
  have heq := takeTrap_eq hsf hh hv code value s.hart.pc
  have ht : (s.takeTrap code value s.hart.pc).hart = entering (isStreamer s.cur) code value s.hart.pc (unbegun s.hart) := by
    rw [heq, State.hart_modHart, habandon, State.hart_modHart, hu.hart]
  unfold Entered
  rw [ht]
  refine ⟨rfl, rfl, rfl, rfl, rfl, rfl, ?_, ?_, ?_, rfl, rfl, rfl, rfl, rfl, rfl, rfl, ?_, fun k hk => ?_⟩
  · simp only [entering, unbegun, b2w_pair]
  · simp only [entering, unbegun]
    cases isStreamer s.cur <;> rfl
  · simp only [entering, unbegun]
    cases isStreamer s.cur <;> rfl
  · rw [heq, habandon]
    exact hmem
  · rw [heq, habandon, State.hartAt_modHart_ne _ _ (by rwa [State.modHart_cur, hu.cur]),
      State.hartAt_modHart_ne _ _ (by rwa [hu.cur]), hu.hartAt]

/-- What a walk that has failed leaves of its fault, before a trap tells it. -/
theorem trapNow_eq (hs : s.hart.stores = []) (code : Nat) (value : Word) :
    s.trapNow code value = s.takeTrap code value s.hart.pc ∨
      s.trapNow code value = (s.takeWalkFault (unitOf (cellOf s.cur)) s.hart.ctxId value.toNat).takeTrap code value s.hart.pc := by
  simp only [State.trapNow, hs, List.isEmpty_nil, if_true]
  split
  · exact .inr rfl
  · exact .inl rfl

theorem trapEntry : TrapEntry := by
  intro s code value h
  rcases trapNow_eq h.1 code value with e | e
  · rw [e]
    exact takeTrap_entered h code value
  · rw [e]
    exact takeTrap_entered (s := s.takeWalkFault (unitOf (cellOf s.cur)) s.hart.ctxId value.toNat) h code value

end Entry

/-! Calls and breaks, the return from a handler, failed fetches. -/

section Outcomes

variable {i : Instr} {tk : Tok} {n : Nat} {s s1 : State} {body : State → Act}

theorem exec_entered (hr : Runs i tk n body) (h : Ready i tk s s1) (hm : MayTrap s1) {code : Nat} {value : Word}
    (hb : body s1 = .trap code value) : ∃ t, exec i s = .next t ∧ Entered s1 t code value :=
  ⟨_, exec_trap hr h hb, trapEntry s1 code value hm⟩

theorem callsAndBreaks : CallsAndBreaks :=
  fun tk _ _ hm => ⟨fun h => exec_entered (i := .ecall tk) ⟨rfl, fun _ => rfl⟩ h hm rfl,
    fun h => exec_entered (i := .ebreak tk) ⟨rfl, fun _ => rfl⟩ h hm rfl,
    fun h => exec_entered (i := .cEbreak) ⟨rfl, fun _ => rfl⟩ h hm rfl⟩

theorem trapReturn : TrapReturn := by
  intro tk s s1 h
  have hr : Runs (.tret tk) tk 4 (fun s => if !s.hart.hnd then .trap 0x02 0#64
    else if s.hart.sstat.toNat / 4 ≠ 0 then .trap 0x03 s.hart.sstat else .jump s.leaveTrap s.hart.tepc) := ⟨rfl, fun _ => rfl⟩
  refine ⟨fun hh hs hc => hr.completes_jump h ?_, fun hh hs hc => hr.completes_jump h ?_, fun hh => exec_trap hr h ?_,
    fun hh hs => exec_trap hr h ?_⟩
  · simp only [hh, Bool.not_true, Bool.false_eq_true, if_false, if_neg (show ¬ s1.hart.sstat.toNat / 4 ≠ 0 by omega), State.leaveTrap, hc]
  · simp only [hh, Bool.not_true, Bool.false_eq_true, if_false, if_neg (show ¬ s1.hart.sstat.toNat / 4 ≠ 0 by omega), State.leaveTrap, hc,
      if_true]
  · simp only [hh, Bool.not_false, if_true]
  · simp only [hh, Bool.not_true, Bool.false_eq_true, if_false, if_pos (show s1.hart.sstat.toNat / 4 ≠ 0 by omega)]

theorem trapAtFetch_next (h : s.dueTrap = none) (code : Nat) (value : Word) :
    trapAtFetch code value s = .next (s.trapNow code value) := by
  simp only [trapAtFetch, h]

/-- An instruction that the class of the hart does not have is ILLEGAL (R66). -/
theorem runHart_illegal (h : s.dueTrap = none) (hl : legalFor s.cur i = false) :
    runHart i tk s body = .next (s.trapNow 0x01 (instrWord i)) := by
  simp only [runHart, h, ite_self, hl, Bool.not_false, if_true]

end Outcomes

theorem failedFetch : FailedFetch := by
  refine ⟨fun w s h => ⟨trapAtFetch_next h .., fun hm => ⟨_, trapAtFetch_next h .., trapEntry s _ _ hm⟩⟩,
    fun a s h => ⟨trapAtFetch_next h .., fun hm => ⟨_, trapAtFetch_next h .., trapEntry s _ _ hm⟩⟩,
    fun tk d a b s h hc => ?_, fun tk a b s h hc => ?_⟩
  · exact runHart_illegal h (by rw [legalFor, if_pos hc]; rfl)
  · exact runHart_illegal h (by rw [legalFor, if_neg (by simp [hc])]; rfl)

/-- Settles O47: calls and breaks enter the handler, tret leaves it, and a failed fetch is a trap. -/
theorem callsBreaksAndReturns : Obligations.CallsBreaksAndReturns := ⟨callsAndBreaks, trapReturn, failedFetch⟩

/-! A thread that is no streamer, in a slot that none of a cell's harts has: its end still counts as that of a producer. -/

/-- M-cell 1 with a ring whose one producer is slot 7, all of its places in a spill area that translates. -/
def ringCell : Cell :=
  { Cell.reset with
    cfg := { Cell.reset.cfg with queueMap := [⟨32, 8, 0, [7]⟩] }
    queues := [(32, { Queue.fresh with ext := some ⟨0, 8, 0, false⟩ })]
    tlb := [⟨0, 0, 65536, 0, true, true, true, false⟩] }

/-- A task runs in slot 7 of M-cell 1, which lies outside its region, with no handler. -/
def strayTask : State :=
  { State.reset with
    cur := 15
    harts := [(15, { Hart.reset with task := some ⟨0, 0, 0, 0, none⟩ })]
    regions := [(0, Region.reset)]
    cells := [(1, ringCell)] }

/-- Refutes O46: the task of hart 15, slot 7 of an M-cell and so no streamer, ends as the last counted producer of a ring. Its EOS goes to
the ring's spill area, and as no region has the cell, at once to memory, which the statement says is as before. -/
theorem not_traps : ¬ Obligations.Traps := by
  rintro ⟨-, h⟩
  obtain ⟨-, -, hmem, -⟩ := h strayTask 1 0#64 Region.reset ⟨0, 0, 0, 0, none⟩ rfl rfl rfl rfl (.inr ⟨rfl, rfl⟩)
  have hlen : (strayTask.trapNow 1 0#64).mem.bytes.length = 2 := by decide +kernel
  rw [hmem (by decide)] at hlen
  exact absurd hlen (by decide)

end Sys2Proof.System
end

section
/-! SUPPORT. Groups of harts (R189-R194, R230, R231): JOIN, LEAVE, GBAR, VEXCH and GKILL. -/

namespace Sys2Proof.Groups

open Sys2Proof Sys2Proof.Machine Sys2Proof.Spec Sys2Proof.Integer Sys2Proof.Floats Sys2Proof.Operands Sys2Proof.Ordered

/-! What a source leaves: its pop shows in the hart's poison bits and in what the hart has collected, and in no byte of memory. -/

/-- A source has been read. -/
structure Popped (s t : State) : Prop where
  mem : t.mem = s.mem
  cur : t.cur = s.cur
  hart : t.hart = { s.hart with chkiv := t.hart.chkiv, held := t.hart.held, collected := t.hart.collected }

section Read

variable {s t u : State}

theorem popped_refl (s : State) : Popped s s := ⟨rfl, rfl, rfl⟩

theorem Popped.trans (h : Popped s t) (h' : Popped t u) : Popped s u :=
  ⟨h'.mem.trans h.mem, h'.cur.trans h.cur, h'.hart.trans (by rw [h.hart])⟩

theorem Popped.stage (h : Popped s t) : t.hart.stage = s.hart.stage := by rw [h.hart]

theorem Popped.gid (h : Popped s t) : t.hart.gid = s.hart.gid := by rw [h.hart]

theorem Popped.regionId (h : Popped s t) : t.hart.regionId = s.hart.regionId := by rw [h.hart]; rfl

theorem popped_note (s : State) (p : Bool) (n : Nat) : Popped s (s.note p n) :=
  ⟨State.note_mem .., State.note_cur .., by rw [hart_note]⟩

theorem popped_modCell (s : State) (c : Nat) (f : Cell → Cell) : Popped s (s.modCell c f) := ⟨rfl, rfl, rfl⟩

theorem popped_report (s : State) (r code : Nat) : Popped s (s.report r code) :=
  ⟨State.modRegion_mem .., State.modRegion_cur .., by rw [report_hart]⟩

theorem popped_noteWalk (s : State) (r unit ctx va n : Nat) : Popped s (s.noteWalk r unit ctx va n) := by
  have hh := noteWalk_hart s r unit ctx va n
  unfold State.noteWalk State.causeLater at hh ⊢
  split at hh
  · next h =>
    rw [if_pos h]
    exact (popped_report s r 0x48).trans ⟨State.modRegion_mem .., State.modRegion_cur .., by rw [State.hart_modRegion]⟩
  · next h =>
    rw [if_neg h]
    exact popped_refl s

theorem popped_noteSpilled (s : State) (c : Nat) (x : SpillExt) (n : Nat) (is : List QItem) : Popped s (s.noteSpilled c x n is) := by
  unfold State.noteSpilled
  generalize (is.filter fun i => !i.isKerf).take n = js
  induction js generalizing s with
  | nil => exact popped_refl s
  | cons j js ih =>
    refine Popped.trans ?_ (ih _)
    cases j with
    | spilled k src => exact popped_noteWalk ..
    | entry e src => exact popped_refl s
    | reserved id src => exact popped_refl s
    | kerf w src => exact popped_refl s

theorem popped_dropHead (s : State) (c code : Nat) (rest : List QItem) : Popped s (s.dropHead c code rest) := by
  simp only [State.dropHead]
  refine Popped.trans ?_ (popped_modCell ..)
  split
  · exact popped_noteSpilled ..
  · exact popped_refl s

theorem popped_modHart (s : State) {f : Hart → Hart} (h : ∀ x, f x = { x with held := (f x).held, collected := (f x).collected }) :
    Popped s (s.modHart f) :=
  ⟨rfl, rfl, by rw [State.hart_modHart, h]⟩

theorem popped_dropPort (s : State) (p n : Nat) : Popped s (s.dropPort p n) := by
  have h := popped_modHart s (f := fun h => { h with collected := insertAt p ((lookupD [] p s.hart.collected).drop n) h.collected })
    fun _ => rfl
  simp only [State.dropPort]
  split
  · exact h
  · exact h.trans (popped_modCell ..)

theorem popped_popQueue {n : Nat} {e : Entry} (h : s.popQueue n = some (e, t)) : Popped s t := by
  simp only [State.popQueue] at h
  split at h
  · cases h
    exact popped_modHart s fun _ => rfl
  · split at h <;> cases h
    exact popped_dropHead ..

theorem popped_readU {r : Reg} {x : UVal} (h : s.readU r = .got x t) : Popped s t := by
  unfold State.readU at h
  split at h
  · -- a register
    split at h <;> cases h
    exact popped_refl s
  · split at h
    · -- a queue
      split at h
      · split at h <;> cases h
        exact popped_refl s
      · next hpop => cases h; exact (popped_popQueue hpop).trans (popped_note ..)
      · next hpop => cases h; exact popped_popQueue hpop
      · cases h
    · -- a port
      simp only at h
      split at h
      · split at h <;> cases h
        exact popped_refl s
      · split at h <;> cases h
        · exact (popped_dropPort ..).trans (popped_note ..)
        · exact popped_dropPort ..

theorem popped_readV {r : Reg} {x : VVal} (h : s.readV r = .got x t) : Popped s t := by
  unfold State.readV at h
  split at h
  · split at h <;> cases h
    exact popped_refl s
  · split at h
    · split at h <;> cases h
      exact popped_refl s
    · next hpop => cases h; exact (popped_popQueue hpop).trans (popped_note ..)
    · cases h

theorem popW_mem {tk : Tok} (h : s.popW tk = some t) : t.mem = s.mem := by
  unfold State.popW at h
  split at h
  · split at h
    · cases h; rfl
    · split at h <;> cases h
      rfl
  · cases h; rfl

theorem draining_note (s : State) (p : Bool) (n : Nat) : (s.note p n).draining = s.draining := by
  simp only [State.draining, State.region?, State.note_regions, (popped_note s p n).regionId]

end Read

/-! Maps. -/

section Maps

variable {α : Type}

theorem insertAt_insertAt (k : Nat) (a b : α) (m : List (Nat × α)) : insertAt k a (insertAt k b m) = insertAt k a m := by
  induction m with
  | nil => simp [insertAt]
  | cons c m ih =>
    obtain ⟨j, x⟩ := c
    rcases lt_trichotomy j k with h | h | h
    · simp [insertAt, h, ih]
    · subst h; simp [insertAt]
    · simp [insertAt, show ¬ j < k by omega, show ¬ j = k by omega]

theorem modHart_modHart (s : State) (f g : Hart → Hart) : (s.modHart f).modHart g = s.modHart (fun h => g (f h)) := by
  have hh : (s.modHart f).hart = f s.hart := State.hart_modHart s f
  have e : ∀ t : State, t.modHart g = { t with harts := insertAt t.cur (g t.hart) t.harts } := fun _ => rfl
  rw [e, hh]
  exact congrArg (fun l => { s with harts := l }) (insertAt_insertAt s.cur _ _ s.harts)

/-- The first value of a key is that of the first entry with it. -/
theorem lookup_append (k : Nat) (l m : List (Nat × α)) : lookup k (l ++ m) = (lookup k l).or (lookup k m) := by
  induction l with
  | nil => rfl
  | cons c l ih =>
    obtain ⟨j, a⟩ := c
    by_cases h : j = k <;> simp [lookup, h, ih]

theorem lookup_none {k : Nat} {l : List (Nat × α)} (h : ∀ p ∈ l, p.1 ≠ k) : lookup k l = none := by
  induction l with
  | nil => rfl
  | cons c l ih =>
    obtain ⟨j, a⟩ := c
    simp only [lookup, if_neg (h (j, a) (by simp)), ih fun p hp => h p (List.mem_cons_of_mem _ hp)]

/-- A key among those of a list of equal values. -/
theorem lookup_map_const {k : Nat} {l : List Nat} (h : k ∈ l) (a : α) : lookup k (l.map (fun j => (j, a))) = some a := by
  induction l with
  | nil => cases h
  | cons j l ih =>
    by_cases hj : j = k
    · simp [lookup, hj]
    · simp [lookup, hj, ih ((List.mem_cons.mp h).resolve_left fun e => hj e.symm)]

end Maps

end Sys2Proof.Groups
end

section
/-! SUPPORT. The instructions of groups (R189-R194, R230, R231), and the exchange of vectors. -/

namespace Sys2Proof.Groups

open Sys2Proof Sys2Proof.Machine Sys2Proof.Spec Sys2Proof.Integer Sys2Proof.Floats Sys2Proof.Operands Sys2Proof.Ordered

/-! The end of an instance in which a hart waits. -/

section Verdict

variable {g : Nat} {k : Nat × List (Nat × (Nat × VVal)) → State → Act} {pending : Act} {s t : State}

theorem atVerdict_fresh (h : s.hart.stage ≠ .arrived) : atVerdict g k pending s = pending := by rw [atVerdict, if_neg h]

theorem atVerdict_taken (h : s.hart.stage = .arrived) {v : Nat × List (Nat × (Nat × VVal))} (hv : s.takeVerdict g = some (v, t)) :
    atVerdict g k pending s = k v t := by
  simp only [atVerdict, h, hv, if_true]

end Verdict

/-! JOIN (R190). -/

section Join

variable {s : State} {g : Nat} {x : Group} {h : Nat}

theorem pushS_threads {tk : Tok} {t : State} (hp : s.pushS tk = some t) : Threads.SameThreads s t ∧ t.mem = s.mem := by
  unfold State.pushS at hp
  split at hp
  · split at hp
    · cases hp
      simp only [State.pushToken]
      split
      · exact ⟨(Threads.quiet_modTaking s ..).toSameThreads.trans (Threads.quiet_modCell ..).toSameThreads, State.modRegion_mem ..⟩
      · exact ⟨(Threads.quiet_modCell s ..).toSameThreads, rfl⟩
    · split at hp <;> cases hp
      exact ⟨Threads.sameThreads_refl s, rfl⟩
  · cases hp
    exact ⟨Threads.sameThreads_refl s, rfl⟩

/-- The hart that leaves its JOIN with the GID w. -/
def withGid (w : Word) (y : Hart) : Hart := { y with gid := w }

theorem withGid_pc (w : Word) (y : Hart) : (withGid w y).pc = y.pc := rfl

theorem withGid_gid (w : Word) (y : Hart) : (withGid w y).gid = w := rfl

/-- What a step on a member leaves to a group that is complete: no other hart has changed, nor a byte of memory. -/
structure Passed (g : Nat) (x : Group) (h : Nat) (s t : State) : Prop where
  cur : t.cur = s.cur
  mem : t.mem = s.mem
  others : ∀ k, k ≠ h → t.hartAt k = s.hartAt k
  gid : (t.hartAt h).gid = gidOf (indexOfNat h x.members) x.size g
  retired : (s.hartAt h).sBit = false → (t.hartAt h).pc = (s.hartAt h).pc + 4#64 ∧ (t.hartAt h).stage = .fresh

/-- The hart whose instruction has retired. -/
def retired (pc : Word) (h : Hart) : Hart :=
  { h with
    pc := pc, instret := h.instret + 1#64, stage := .fresh, wait := none, held := [], portOut := [], portKey := 0, issued := none,
    dstHeld := none, record := none, reply := none }

theorem retired_pc (pc : Word) (h : Hart) : (retired pc h).pc = pc := rfl

theorem retired_gid (pc : Word) (h : Hart) : (retired pc h).gid = h.gid := rfl

theorem retired_stage (pc : Word) (h : Hart) : (retired pc h).stage = .fresh := rfl

theorem hart_retire (s : State) (pc : Word) : (s.retire pc).hart = retired pc s.hart := by
  rw [State.retire, State.fire, State.hart_modRegion, State.hart_modHart]
  rfl

theorem hartAt_retire_ne (s : State) (pc : Word) {k : Nat} (hk : k ≠ s.cur) : (s.retire pc).hartAt k = s.hartAt k := by
  rw [State.retire, State.fire, State.hartAt_modRegion, State.hartAt_modHart_ne _ _ hk]

theorem hart_as (s : State) (h : Nat) : (s.as h).hart = s.hartAt h := rfl

theorem passJoin_eq (g : Nat) (x : Group) (s : State) (h : Nat) : State.passJoin g x s h =
    { ((s.as h).joined g x).retire (((s.as h).joined g x).hart.pc + 4#64) with cur := s.cur } := rfl

theorem hartAt_setCur (t : State) (c k : Nat) : State.hartAt { t with cur := c } k = t.hartAt k := rfl

theorem cur_retire (t : State) (pc : Word) : (t.retire pc).cur = t.cur := by
  rw [State.retire, State.fire, State.modRegion_cur, State.modHart_cur]

theorem mem_retire (t : State) (pc : Word) : (t.retire pc).mem = t.mem := by
  rw [State.retire, State.fire, State.modRegion_mem, State.modHart_mem]

theorem hartAt_retire_self (t : State) (pc : Word) : (t.retire pc).hartAt t.cur = retired pc t.hart := by
  rw [← hart_retire, ← cur_retire t pc]
  rfl

/-- The instruction of hart h, whose turn it is not, retires past its 32 bits. -/
theorem passed_of_retire {g : Nat} {x : Group} {h c : Nat} {s t : State} (hc : t.cur = h) (hm : t.mem = s.mem)
    (hj : t.hart = withGid (gidOf (indexOfNat h x.members) x.size g) (s.hartAt h)) (hne : ∀ k, k ≠ h → t.hartAt k = s.hartAt k) (hs : c = s.cur) (pc : Word)
    (hpc : pc = (s.hartAt h).pc + 4#64) : Passed g x h s { t.retire pc with cur := c } := by
  have hh := hartAt_retire_self t pc
  rw [hc, hj] at hh
  refine ⟨hs, (mem_retire ..).trans hm, fun k hk => ?_, ?_, fun _ => ⟨?_, ?_⟩⟩
  · rw [hartAt_setCur, hartAt_retire_ne _ _ (by rwa [hc]), hne k hk]
  · rw [hartAt_setCur, hh, retired_gid, withGid_gid]
  · rw [hartAt_setCur, hh, retired_pc, hpc]
  · rw [hartAt_setCur, hh, retired_stage]

theorem passJoin_passed (g : Nat) (x : Group) (s : State) (h : Nat) : Passed g x h s (State.passJoin g x s h) := by
  have hj : ((s.as h).joined g x).hart = withGid (gidOf (indexOfNat h x.members) x.size g) (s.hartAt h) := by
    rw [← hart_as]
    exact State.hart_modHart ..
  have hpc : ((s.as h).joined g x).hart.pc = (s.hartAt h).pc := by rw [hj, withGid_pc]
  rw [passJoin_eq]
  exact passed_of_retire (s := s) (h := h) (t := (s.as h).joined g x) rfl rfl hj (fun k hk => State.hartAt_modHart_ne (s.as h) _ hk) rfl _ (by rw [hpc])

/-- The members leave one after the other. -/
theorem foldl_passJoin (g : Nat) (x : Group) (l : List Nat) (hl : l.Nodup) (s : State) :
    let t := l.foldl (State.passJoin g x) s
    t.mem = s.mem ∧ (∀ k, k ∉ l → t.hartAt k = s.hartAt k) ∧
      ∀ h ∈ l, (t.hartAt h).gid = gidOf (indexOfNat h x.members) x.size g ∧
        ((s.hartAt h).sBit = false → (t.hartAt h).pc = (s.hartAt h).pc + 4#64 ∧ (t.hartAt h).stage = .fresh) := by
  induction l generalizing s with
  | nil => exact ⟨rfl, fun _ _ => rfl, fun _ hh => absurd hh (List.not_mem_nil)⟩
  | cons a l ih =>
    obtain ⟨ha, hl⟩ := List.nodup_cons.mp hl
    obtain ⟨hm, ho, hg⟩ := ih hl (State.passJoin g x s a)
    have hp := passJoin_passed g x s a
    refine ⟨hm.trans hp.mem, fun k hk => ?_, fun h hh => ?_⟩
    · obtain ⟨hka, hkl⟩ := not_or.mp (fun e => hk (List.mem_cons.mpr e))
      exact (ho k hkl).trans (hp.others k hka)
    · rcases List.mem_cons.mp hh with rfl | hh
      · rw [List.foldl_cons, ho h ha]
        exact ⟨hp.gid, hp.retired⟩
      · have hne : h ≠ a := fun e => ha (e ▸ hh)
        rw [← hp.others h hne]
        exact hg h hh

theorem completeJoin_mem (s : State) (g : Nat) (x : Group) : (s.completeJoin g x).mem = s.mem := by
  have hfold (l : List Nat) (t : State) (x : Group) : (l.foldl (State.passJoin g x) t).mem = t.mem := by
    induction l generalizing t with
    | nil => rfl
    | cons a l ih => exact (ih _).trans (passJoin_passed ..).mem
  simp only [State.completeJoin]
  rw [hfold]
  exact State.modRegion_mem ..

theorem hartAt_modHart_self (s : State) (f : Hart → Hart) : (s.modHart f).hartAt s.cur = f s.hart := State.hart_modHart s f

/-- The last member's own GID. -/
theorem joined_self (s : State) (g : Nat) (x : Group) :
    (s.joined g x).hartAt s.cur = withGid (gidOf (indexOfNat s.cur x.members) x.size g) s.hart :=
  hartAt_modHart_self ..

/-- The harts of a group that is complete: all have their GID, and those that wait without a token have retired. -/
theorem completeJoin_harts (s : State) (g : Nat) (x : Group) (hx : x.members.Nodup) :
    (∀ h ∈ x.members, ((s.completeJoin g x).hartAt h).gid = gidOf (indexOfNat h x.members) x.size g) ∧
      ∀ h ∈ x.members, h ≠ s.cur → (s.hartAt h).sBit = false →
        ((s.completeJoin g x).hartAt h).pc = (s.hartAt h).pc + 4#64 ∧ ((s.completeJoin g x).hartAt h).stage = .fresh := by
  have hc (y : Group) : (s.setGroup g y).cur = s.cur := State.modRegion_cur ..
  have hself (y : Group) : (((s.setGroup g y).joined g y).hartAt s.cur).gid = gidOf (indexOfNat s.cur y.members) y.size g := by
    have e := joined_self (s.setGroup g y) g y
    rw [hc] at e
    rw [e, withGid_gid]
  have hother (k : Nat) (hk : k ≠ s.cur) :
      ((s.setGroup g { x with complete := true }).joined g { x with complete := true }).hartAt k = s.hartAt k := by
    rw [State.joined, State.hartAt_modHart_ne _ _ (by rwa [State.setGroup, State.modRegion_cur]), State.setGroup,
      State.hartAt_modRegion]
  obtain ⟨-, hout, hin⟩ := foldl_passJoin g { x with complete := true } (x.members.filter (· ≠ s.cur)) (hx.filter _)
    ((s.setGroup g { x with complete := true }).joined g { x with complete := true })
  refine ⟨fun h hh => ?_, fun h hh hne hs => ?_⟩
  · by_cases hc : h = s.cur
    · subst hc
      exact (congrArg Hart.gid (hout s.cur (by simp))).trans (hself _)
    · exact (hin h (List.mem_filter.mpr ⟨hh, by simpa using hc⟩)).1
  · have e := (hin h (List.mem_filter.mpr ⟨hh, by simpa using hne⟩)).2
    rw [hother h hne] at e
    exact e hs

end Join

theorem joinGroup : JoinGroup := by
  intro tk a b s s1 s2 s3 x y h ha hb hdr g n u gid
  have hr : Runs (.join tk a b) tk 4 (joinOp tk a b) := ⟨rfl, fun _ => rfl⟩
  obtain ⟨-, -, -, hpop⟩ := id h
  have hbody : joinOp tk a b s1 = _ := (srcU_got ha).trans (srcU_got hb)
  have hdu : u.draining = false := (draining_note ..).trans hdr
  have hmem : u.mem = s.mem :=
    (popped_note ..).mem.trans ((popped_readU hb).mem.trans ((popped_readU ha).mem.trans (popW_mem hpop)))
  have hfresh (hst : u.hart.stage ≠ .arrived) : joinOp tk a b s1 =
      if 63 < g || n = 0 || 256 < n then .trap 0x0F 1#64
      else if u.hart.inGroup then .trap 0x0F 2#64
      else if ((u.group g).getD (Group.fresh n)).size ≠ n || ((u.group g).getD (Group.fresh n)).complete then .trap 0x0F 3#64
      else
        let k := { (u.group g).getD (Group.fresh n) with members := insertNat u.cur ((u.group g).getD (Group.fresh n)).members }
        if k.members.length = n then .done (u.completeJoin g k)
        else .wait .group (fun s => (s.setGroup g k).arrive.modHart (fun h => { h with sBit := tk.s })) := by
    refine hbody.trans ((atVerdict_fresh hst).trans ?_)
    rw [if_neg (by rw [hdu]; exact Bool.false_ne_true), if_neg hst]
  refine ⟨fun hst hbad => exec_trap hr h ?_, fun hst hg h1 h2 hin => exec_trap hr h ?_, fun hst hg h1 h2 hin => ?_,
    fun hst v t hv => hr.completes_done h (hbody.trans (atVerdict_taken hst hv))⟩
  · rw [hfresh hst, if_pos (by simpa [or_assoc] using hbad)]
  · rw [hfresh hst, if_neg (by simp; omega), if_pos (show u.hart.inGroup = true from hin)]
  · intro k k'
    have hop := hfresh hst
    rw [if_neg (by simp; omega), if_neg (by rw [show u.hart.inGroup = false from hin]; exact Bool.false_ne_true)] at hop
    refine ⟨fun hbad => exec_trap hr h ?_, fun hsize hcomp hlen => ?_, fun hsize hcomp hlen => ?_⟩
    · rw [hop, if_pos (by rw [Bool.or_eq_true, decide_eq_true_eq]; exact hbad)]
    · rw [if_neg (by simp; exact ⟨hsize, hcomp⟩)] at hop
      intro t
      have hgid (h : Nat) : gidOf (indexOfNat h k'.members) k'.size g = gid h k'.members := by
        rw [show k'.size = n from hsize]
        rfl
      refine ⟨hr.completes_done h (hop.trans (if_pos hlen)), (completeJoin_mem u g k').trans hmem, fun hnd => ?_⟩
      obtain ⟨hg, hp⟩ := completeJoin_harts u g k' hnd
      exact ⟨fun h hh => (hg h hh).trans (hgid h), hp⟩
    · rw [if_neg (by simp; exact ⟨hsize, hcomp⟩)] at hop
      rw [hr.2, runHart_wait h (hop.trans (if_neg hlen))]
      exact congrArg (fun t => Host.Outcome.next (State.waiting t .group)) (modHart_modHart ..)

/-! LEAVE and GBAR (R191, R192). -/

section Barrier

variable {k : Group} {c h : Nat}

/-- The GBARs a member has executed, once hart c has executed another. -/
def countWith (k : Group) (c m : Nat) : Nat := if m = c then k.barCount m + 1 else k.barCount m

/-- Whether the instance that a member waits in is complete, once hart c has executed another. -/
def throughWith (k : Group) (c h : Nat) : Bool := k.members.all (fun m => decide (countWith k c h ≤ countWith k c m))

theorem barCount_arrived (k : Group) (c m : Nat) (at' : List Nat) :
    Group.barCount { k with atBar := at', bars := insertAt c (k.barCount c + 1) k.bars } m = countWith k c m := by
  unfold Group.barCount countWith
  rw [lookupD_insertAt]
  split
  · next h => rw [h]; rfl
  · rfl

theorem reached_arrived (k : Group) (c m : Nat) (at' : List Nat) :
    Group.reached { k with atBar := at', bars := insertAt c (k.barCount c + 1) k.bars } m = throughWith k c m := by
  simp only [Group.reached, barCount_arrived, throughWith]

/-- The group once a member has executed a GBAR, with no verdict of its own: those that wait in an instance so complete are told. -/
def told (k : Group) (c : Nat) : Group :=
  { k with
    bars := insertAt c (k.barCount c + 1) k.bars, atBar := (insertNat c k.atBar).filter (fun h => !throughWith k c h)
    verdicts := k.verdicts ++ ((insertNat c k.atBar).filter (fun h => throughWith k c h && decide (h ≠ c))).map (fun h => (h, (0, []))) }

theorem arriveBar_eq (k : Group) (c : Nat) : k.arriveBar c =
    { told k c with
      verdicts := k.verdicts ++ ((insertNat c k.atBar).filter (throughWith k c)).map (fun h => (h, (0, []))) } := by
  have h := reached_arrived k c (at' := insertNat c k.atBar)
  simp only [Group.arriveBar, Group.settle, told, funext h]

/-- The verdict of the member itself. -/
theorem lookup_arriveBar (hk : ∀ v ∈ k.verdicts, v.1 ≠ c) :
    lookup c (k.arriveBar c).verdicts = if throughWith k c c then some (0, []) else none := by
  rw [arriveBar_eq]
  simp only [lookup_append, lookup_none hk, Option.none_or]
  split
  · next h => exact lookup_map_const (List.mem_filter.mpr ⟨mem_insertNat.mpr (.inl rfl), h⟩) _
  · next h =>
    refine lookup_none fun p hp e => h ?_
    obtain ⟨j, hj, rfl⟩ := List.mem_map.mp hp
    obtain rfl : j = c := e
    exact (List.mem_filter.mp hj).2

theorem filter_arriveBar (hk : ∀ v ∈ k.verdicts, v.1 ≠ c) :
    { k.arriveBar c with verdicts := (k.arriveBar c).verdicts.filter (fun p => p.1 ≠ c) } = told k c := by
  have hkeep : k.verdicts.filter (fun p => decide (p.1 ≠ c)) = k.verdicts := List.filter_eq_self.mpr fun v hv => by simpa using hk v hv
  rw [arriveBar_eq]
  simp only [told, List.filter_append, hkeep, List.filter_map, List.filter_filter]
  congr 3
  exact List.filter_congr fun j _ => Bool.and_comm ..

theorem arriveBar_waits (h : throughWith k c c = false) : k.arriveBar c = told k c := by
  rw [arriveBar_eq]
  have hf : (insertNat c k.atBar).filter (throughWith k c) =
      (insertNat c k.atBar).filter (fun h => throughWith k c h && decide (h ≠ c)) := by
    refine List.filter_congr fun j _ => ?_
    by_cases hj : j = c
    · simp [hj, h]
    · simp [hj]
  rw [hf, told]

end Barrier

theorem leaveAndBarrier : LeaveAndBarrier := by
  refine ⟨fun tk a s s1 s2 x h ha => ?_, fun tk a s s1 s2 x h hst hld hsf hent ha hdr => ?_⟩
  · intro u
    have hr : Runs (.leave tk a) tk 4 (leaveOp a) := ⟨rfl, fun _ => rfl⟩
    have hbody : leaveOp a s1 = _ := srcU_got ha
    have hcond : (!u.hart.inGroup || decide (x.val.toNat ≠ u.hart.groupId)) = true ↔
        u.hart.gid.getLsbD 31 = false ∨ x.val.toNat ≠ u.hart.gid.toNat % 64 := by
      rw [Bool.or_eq_true, Bool.not_eq_true', decide_eq_true_eq]
      rfl
    refine ⟨fun hbad => exec_trap hr h (hbody.trans (if_pos (hcond.mpr hbad))),
      fun hin hg => hr.completes_done h (hbody.trans (if_neg fun e => ?_))⟩
    exact (hcond.mp e).elim (fun e => absurd (hin.symm.trans e) (by decide)) fun e => e hg
  · intro u g
    have hr : Runs (.gbar tk a) tk 4 (gbarOp a) := ⟨rfl, fun _ => rfl⟩
    have hbody : gbarOp a s1 = _ := (released_ready (sc := 2#3) hst hld hsf fun _ => .inl hent).trans (srcU_got ha)
    have hdu : u.draining = false := (draining_note ..).trans hdr
    have hcond : (!u.hart.inGroup || decide (g ≠ u.hart.groupId)) = true ↔
        u.hart.gid.getLsbD 31 = false ∨ g ≠ u.hart.gid.toNat % 64 := by
      rw [Bool.or_eq_true, Bool.not_eq_true', decide_eq_true_eq]
      rfl
    have hfresh (hf : u.hart.stage ≠ .arrived) : gbarOp a s1 = _ := hbody.trans (atVerdict_fresh hf)
    refine ⟨fun hf hbad => exec_trap hr h ((hfresh hf).trans ?_), fun hf hin hg k hk hno => ?_, fun hf code data t hv => ?_⟩
    · rw [if_neg (by rw [hdu]; exact Bool.false_ne_true), if_neg hf, if_pos (hcond.mpr hbad)]
    · intro count through there k' said left
      have hleft : left = told k u.cur := rfl
      have hop := hfresh hf
      rw [if_neg (by rw [hdu]; exact Bool.false_ne_true), if_neg hf,
        if_neg fun e => (hcond.mp e).elim (fun e => absurd (hin.symm.trans e) (by decide)) fun e => e hg] at hop
      have hk' : (s2.note x.poison 4).group x.val.toNat = some k := hk
      have hlook : lookup (s2.note x.poison 4).cur (k.arriveBar (s2.note x.poison 4).cur).verdicts = _ := lookup_arriveBar hno
      simp only [hk', hlook] at hop
      refine ⟨fun ht => ?_, fun ht => ?_⟩
      · simp only [show throughWith k (s2.note x.poison 4).cur (s2.note x.poison 4).cur = true from ht, if_true] at hop
        rw [filter_arriveBar hno] at hop
        exact hr.completes_done h hop
      · simp only [show throughWith k (s2.note x.poison 4).cur (s2.note x.poison 4).cur = false from ht, Bool.false_eq_true, if_false] at hop
        rw [arriveBar_waits ht] at hop
        rw [hr.2, runHart_wait h hop]
        rfl
    · exact hr.completes_done h (hbody.trans (atVerdict_taken hf hv))

/-! GKILL (R230, R231). -/

theorem killGroup : KillGroup := by
  intro tk a s s1 h
  have hr : Runs (.gkill tk a) tk 4 (gkillOp (instrWord (.gkill tk a)) tk 4 a) := ⟨rfl, fun _ => rfl⟩
  refine ⟨fun hh => exec_trap hr h (if_pos (by simp [hh])), fun hh hst hsf s2 x ha => ?_⟩
  intro u g r freed
  have hbody : gkillOp (instrWord (.gkill tk a)) tk 4 a s1 = _ :=
    (if_neg (by simp [hh])).trans ((drainStores_ready hst hsf).trans (srcU_got ha))
  have hgroup (k : Group) (hg : g ≤ 63) (hk : u.group g = some k) :
      (if x.val.toNat ≤ 63 then (s2.note x.poison 4).group x.val.toNat else none) = some k := (if_pos hg).trans hk
  refine ⟨fun hno => ?_, fun hg k hk hm => ?_, fun hg k hk hm t ht => ?_⟩
  · have hnone : (if x.val.toNat ≤ 63 then (s2.note x.poison 4).group x.val.toNat else none) = none := by
      split
      · next hle => exact hno.resolve_left (by omega)
      · rfl
    simp only [hnone] at hbody
    exact hr.completes_done h hbody
  · have hc : k.members.contains (s2.note x.poison 4).cur = false :=
      Bool.eq_false_iff.mpr fun e => hm (List.contains_iff_mem.mp e)
    simp only [hgroup k hg hk, hc, Bool.false_eq_true, if_false] at hbody
    exact hr.completes_done h hbody
  · have hc : k.members.contains (s2.note x.poison 4).cur = true := List.contains_iff_mem.mpr hm
    have ht' : (s2.note x.poison 4).pushS tk = some t := ht
    simp only [hgroup k hg hk, hc, if_true, ht'] at hbody
    rw [hr.2, runHart_ended h hbody]

/-- Settles O48: JOIN, LEAVE, GBAR and GKILL. -/
theorem groups : Obligations.Groups := ⟨joinGroup, leaveAndBarrier, killGroup⟩

/-! VEXCH (R193). -/

section Exchange

variable {k : Group} {c h : Nat} {v : VVal}

/-- The group once its last member has reached the VEXCH, every member's chunk being c: each has a verdict. -/
theorem settleExch_eq (hk : k.verdicts = []) {all : List (Nat × (Nat × VVal))} (hne : all ≠ []) (hc : ∀ p ∈ all, p.2.1 = c)
    (hm : ∀ m ∈ k.members, ∃ p ∈ all, p.1 = m) : Group.settleExch { k with atExch := all } =
      { k with verdicts := all.map (fun p => (p.1, (0, all))), atExch := [] } := by
  have hall : k.members.all (fun m => all.any (fun p => p.1 = m)) = true := by
    simpa using hm
  have hsame : all.all (fun p => p.2.1 = (all.head?.map (fun p => p.2.1)).getD 0) = true := by
    cases all with
    | nil => exact absurd rfl hne
    | cons q qs =>
      refine List.all_eq_true.mpr fun p hp => decide_eq_true ?_
      rw [hc p hp]
      exact (hc q (List.mem_cons_self ..)).symm
  have hemp : (!all.isEmpty) = true := by simpa using hne
  unfold Group.settleExch
  simp only [hemp, hall, hsame, Bool.and_self, if_true, hk, List.nil_append]

/-- The last member's verdict is its own, and the others' stay. -/
theorem lookup_last {α β : Type} {l : List (Nat × α)} (hl : ∀ p ∈ l, p.1 ≠ h) (a : α) (b : β) (f : Nat × α → Nat × β)
    (hf : ∀ p, f p = (p.1, b)) : lookup h ((l ++ [(h, a)]).map f) = some b := by
  rw [List.map_append, lookup_append, lookup_none (fun p hp => ?_), Option.none_or]
  · simp [lookup, hf]
  · obtain ⟨q, hq, rfl⟩ := List.mem_map.mp hp
    rw [hf]
    exact hl q hq

end Exchange

/-- Settles O3: the last member to reach a VEXCH completes it. -/
theorem vectorExchange : Obligations.VectorExchange := by
  intro tk d a b s s1 s2 s3 v y k h hp ha hb hdr hst hin hk hleft c hc hsz hver all hchunk hmem hown data rest s4 hput
  have hr : Runs (.vexch tk d a b) tk 4 (vexchOp d a b) := ⟨rfl, fun _ => rfl⟩
  obtain ⟨-, -, hsrc, hdst⟩ := hp
  have hpop : Popped s1 s3 := (popped_readV ha).trans (popped_readU hb)
  have hbody : vexchOp d a b s1 = _ := (guardMap_ok (by simp [hsrc, hdst])).trans ((srcV_got ha).trans ((srcU_got hb).trans
    (atVerdict_fresh (by rw [hpop.stage]; exact hst))))
  rw [if_neg (by rw [hdr]; exact Bool.false_ne_true), if_neg hst,
    if_neg (by rw [show s1.hart.inGroup = true from hin]; exact Bool.false_ne_true)] at hbody
  have hgroup : s1.group s1.hart.groupId = some k := hk
  have hok : (!chunkOk c k.size) = false := by simp [chunkOk, hc, hsz]
  have hsettle : Group.settleExch { k with atExch := k.atExch ++ [(s1.cur, (y.val.toNat, v))] } = _ :=
    settleExch_eq (all := all) hver (List.append_ne_nil_of_right_ne_nil _ (List.cons_ne_nil _ _)) hchunk hmem
  have hlook : lookup s1.cur (all.map (fun p => (p.1, (0, all)))) = some (0, all) := lookup_last hown (c, v) (0, all) _ fun _ => rfl
  have hrest : (all.map (fun p => (p.1, ((0 : Nat), all)))).filter (fun p => decide (p.1 ≠ s1.cur)) =
      k.atExch.map (fun p => (p.1, (0, all))) := by
    simp only [all, List.map_append, List.filter_append, List.map_cons, List.map_nil]
    rw [List.filter_eq_self.mpr fun p hp => ?_, List.filter_eq_nil_iff.mpr (by simp), List.append_nil]
    obtain ⟨q, hq, rfl⟩ := List.mem_map.mp hp
    simpa using hown q hq
  simp only [hgroup] at hbody
  rw [if_neg (by rw [hleft]; exact Bool.false_ne_true), if_neg (by rw [hok]; exact Bool.false_ne_true)] at hbody
  simp only [hsettle, hlook, hrest] at hbody
  have hend : vexchEnd d y.val.toNat (0, all) (s3.setGroup s1.hart.groupId rest) =
      dstV ((s3.setGroup s1.hart.groupId rest).status false) d (exchanged data c data.length s3.hart.rank) := by
    rw [vexchEnd, if_pos rfl, State.setGroup, State.hart_modRegion]
  have hdone : dstV ((s3.setGroup s1.hart.groupId rest).status false) d (exchanged data c data.length s3.hart.rank) = .done s4 :=
    dstV_ok hput
  refine hr.completes_done h (hbody.trans ?_)
  exact (congrArg (fun x => Act.noting x _) (hend.trans hdone)).trans rfl

end Sys2Proof.Groups
end

section
/-! SUPPORT. Event bits, and the end of a task (R384, R398-R400). -/

namespace Sys2Proof.Tasks

open Sys2Proof Sys2Proof.Machine Sys2Proof.Spec Sys2Proof.Integer Sys2Proof.Ordered Sys2Proof.System

theorem eventInstructions : EventInstructions := by
  have hw (tk n) : Runs (.wfe tk n) tk 4 (fun s =>
    if s.draining then .done s
    else if (s.bayAt s.myBay).events.getLsbD n.toNat then .done s.acquired else .wait .event id) := ⟨rfl, fun _ => rfl⟩
  refine ⟨fun tk n s s1 h hst hl hf hu hd => ?_, fun tk n s s1 h => ?_,
    fun tk n s s1 h => ⟨fun he hd => ?_, fun hd => ?_, fun he hd => ?_⟩⟩
  · refine Runs.completes_done (i := .evset tk n) ⟨rfl, fun _ => rfl⟩ h ?_
    rw [released, drained_ready hst hl hf, hu, hd]
    rfl
  · exact Runs.completes_done (i := .evclr tk n) ⟨rfl, fun _ => rfl⟩ h rfl
  · exact (hw tk n).completes_done h (by rw [hd, he]; rfl)
  · exact (hw tk n).completes_done h (by rw [hd]; rfl)
  · rw [(hw tk n).2, runHart_wait h (w := .event) (f := id) (by rw [hd, he]; rfl)]
    rfl

theorem eventBitsOfAClk : EventBitsOfAClk := by
  intro s b n hn
  refine ⟨?_, rfl, rfl, rfl⟩
  simp only [Bay.clock, BitVec.getLsbD_or, BitVec.getLsbD_and, BitVec.getLsbD_not, hn, decide_true, Bool.true_and]
  exact Bool.or_comm ..

/-- Settles O49: event bits are set, cleared and waited for, and change as the clk ends. -/
theorem events : Obligations.Events := ⟨eventInstructions, eventBitsOfAClk⟩

theorem strayTask_ready : Ready (.texit ⟨false, false⟩) ⟨false, false⟩ strayTask strayTask :=
  ⟨by decide +kernel, by decide +kernel, fun _ => by decide +kernel, rfl⟩

/-- Refutes O50: as the task of slot 7 of an M-cell (no streamer) exits, it ends as the last counted producer of a ring whose EOS goes
to its spill area. No region has the cell, so the EOS is in memory at once, which the statement says is as before. -/
theorem not_tasks : ¬ Obligations.Tasks := by
  rintro ⟨h, -⟩
  obtain ⟨hexit, -⟩ := h strayTask strayTask ⟨0, 0, 0, 0, none⟩ rfl rfl rfl rfl (by decide +kernel) (fun he => absurd he (by decide))
    (by decide +kernel) (by decide +kernel) (by decide +kernel)
  obtain ⟨u, he, -, -, -, -, -, -, -, hmem⟩ := hexit ⟨false, false⟩ strayTask_ready strayTask rfl
  have hlen : (match exec (.texit ⟨false, false⟩) strayTask with | .next u => u.mem.bytes.length | _ => 0) = 2 := by decide +kernel
  rw [he] at hlen
  have : u.mem.bytes.length = 2 := hlen
  rw [hmem (by decide)] at this
  exact absurd this (by decide)

end Sys2Proof.Tasks
end

section
/-! SUPPORT. What a region does as a whole: configurations, waves, causes, rollbacks and watchdogs (R429-R450). -/

namespace Sys2Proof.Regions

open Sys2Proof Sys2Proof.Machine Sys2Proof.Spec Sys2Proof.Integer Sys2Proof.Floats Sys2Proof.Threads Sys2Proof.Groups

/-! shadow and recfg (R440, R441). -/

/-- Settles O4: shadow starts the fetch of an image that can be swapped to, recfg of the shadow's ID asks for the switch wave. -/
theorem reconfiguration : Obligations.Reconfiguration := by
  refine ⟨fun tk a s s1 s2 x im h hx hd => ?_, fun tk a s s1 s2 x h hx hd => ?_⟩
  · intro u h1 h256 hacfg him hsws hplace
    refine Runs.completes_done (i := .shadow tk a) ⟨rfl, fun _ => rfl⟩ h ((srcU_got hx).trans ?_)
    have hid : x.val.toNat % 256 = x.val.toNat := Nat.mod_eq_of_lt h256
    have hne : (decide (x.val.toNat % 256 = 0) || decide (x.val.toNat % 256 = u.myRegion.acfg)) = false := by
      simp only [hid, Bool.or_eq_false_iff, decide_eq_false_iff_not]
      exact ⟨by omega, hacfg⟩
    have hge : decide (256 ≤ x.val.toNat) = false := by simpa using h256
    simp only [draining_note, hd, Bool.false_eq_true, if_false, hge, Bool.false_or, u] at hne ⊢
    rw [hne]
    simp only [Bool.and_false, Bool.false_eq_true, if_false, hid]
    simp only [u] at him hsws hplace
    rw [him]
    simp only [if_neg hsws, Region.place, hplace, ne_eq, not_true_eq_false, if_false]
  · intro u
    refine ⟨fun h256 hs he => ?_, fun hbad => ?_⟩
    · refine Runs.completes_done (i := .recfg tk a) ⟨rfl, fun _ => rfl⟩ h ((srcU_got hx).trans ?_)
      have hid : x.val.toNat % 256 = u.myRegion.scfg := by rw [Nat.mod_eq_of_lt h256]; exact he
      have hge : decide (256 ≤ x.val.toNat) = false := by simpa using h256
      simp only [u] at hs hid
      simp only [draining_note, hd, Bool.false_eq_true, if_false, hge, hs, hid, decide_false, Bool.false_or, ne_eq, not_true_eq_false, u]
    · refine exec_trap (i := .recfg tk a) ⟨rfl, fun _ => rfl⟩ h ((srcU_got hx).trans ?_)
      simp only [draining_note, hd, Bool.false_eq_true, if_false]
      refine if_pos ?_
      simp only [Bool.or_eq_true, decide_eq_true_eq, u] at hbad ⊢
      rcases hbad with hb | hb | hb
      · exact .inl (.inl hb)
      · exact .inl (.inr hb)
      · by_cases hge : 256 ≤ x.val.toNat
        · exact .inl (.inl hge)
        · exact .inr (by rwa [Nat.mod_eq_of_lt (by omega)])

/-! Waves (R429-R432). -/

section Waves

variable {s : State} {r : Nat} {g : Region}

/-- A region whose next wave has opened. -/
def opened (s : State) (g : Region) : Region :=
  { g with
    inFlight := true, wanted := false, parted := [], moved := 0, takeSpill := (Config.freeWord s.fresh).toNat
    taking := some { Snapshot.empty (g.wave + 1) with owners := g.owners, queues := s.ringStates g } }

theorem region_openWave (hg : s.region? r = some g) : (s.openWave r).region? r = some (opened s g) := by
  have hf : State.region? { s with fresh := s.fresh + 1 } r = some g := hg
  rw [State.openWave, State.region?_modRegion_self, hf]
  rfl

theorem modRegion_some (hg : s.region? r = some g) (f : Region → Region) :
    s.modRegion r f = { s with regions := insertAt r (f g) s.regions } := by
  rw [State.modRegion, hg]

theorem exec_waveOpen (hg : s.region? r = some g) :
    exec (.waveOpen r) s = .next (if g.cuts && g.wanted && !g.inFlight then s.openWave r else s) := by
  show execWaveOpen r s = _
  rw [execWaveOpen, hg]

theorem askWave_eq (hg : s.region? r = some g) :
    s.askWave r = if g.inFlight then s.modRegion r (fun g => { g with wanted := true }) else s.openWave r := by
  rw [State.askWave, hg]

theorem exec_kiCut (hg : s.region? r = some g) :
    exec (.kiCut r) s = .next (if g.cuts && decide (bits g.rparm.toNat 63 32 ≤ g.moved) then s.askWave r else s) := by
  show execKiCut r s = _
  rw [execKiCut, hg]

theorem exec_kerfPart (hg : s.region? r = some g) (p : Nat) : exec (.kerfPart r p) s =
    .next (if g.cuts && g.inFlight && (s.parties g).contains p && !g.parted.contains p && s.partDue g p then s.takePart r p else s) := by
  show execKerfPart r p s = _
  rw [execKerfPart, hg]

theorem exec_waveComplete (hg : s.region? r = some g) : exec (.waveComplete r) s =
    .next (if g.cuts && g.inFlight && (s.parties g).all g.parted.contains && (s.ties g).all (s.kerfDone g) then
      (if g.finalWave then
        ((s.clearKerfs g).commitWave r g).park r ((((s.clearKerfs g).commitWave r g).region? r).bind Region.snap)
      else ((s.clearKerfs g).commitWave r g).wind r)
    else s) := by
  show execWaveComplete r s = _
  rw [execWaveComplete, hg]
  exact (apply_ite Host.Outcome.next _ _ _).symm

/-- The clk after which a wide release asks for a wave. -/
def releaseLimit (g : Region) : Nat := 2 ^ bits g.rparm.toNat 23 19

/-- A region whose wide releases that have asked for a wave start to wait again. -/
def restarted (limit : Nat) (h : Region) : Region :=
  { h with releases := h.releases.map (fun w => if limit ≤ w.2 then (w.1, 0) else w) }

theorem exec_releaseCommitTimeout (hg : s.region? r = some g) : exec (.releaseCommitTimeout r) s =
    .next (if g.cuts && g.releases.any (fun w => releaseLimit g ≤ w.2) then
      (s.askWave r).modRegion r (restarted (releaseLimit g)) else s) := by
  show execReleaseCommitTimeout r s = _
  rw [execReleaseCommitTimeout, hg]
  rfl

/-- A wave that is asked for opens, or is wanted once the wave in flight is complete. -/
theorem region_askWave (hg : s.region? r = some g) : ∃ h, (s.askWave r).region? r = some h ∧ h.inFlight = true ∧
    (g.inFlight = true → h.wanted = true) ∧ h.releases = g.releases := by
  rw [askWave_eq hg]
  cases hf : g.inFlight with
  | true => exact ⟨{ g with wanted := true }, by rw [if_pos rfl, State.region?_modRegion_self, hg]; rfl, hf, fun _ => rfl, rfl⟩
  | false => exact ⟨opened s g, by rw [if_neg Bool.false_ne_true, region_openWave hg], rfl, fun e => absurd e Bool.false_ne_true, rfl⟩

end Waves

/-- Settles O15: waves open, are taken part in and complete. -/
theorem kerfWaves : Obligations.KerfWaves := by
  intro s r g hg
  have hki : bits g.rparm.toNat 63 32 = g.rparm.toNat / 2 ^ 32 := by
    have := g.rparm.isLt
    simp only [bits]
    omega
  have hlim : releaseLimit g = 2 ^ (g.rparm.toNat / 2 ^ 19 % 32) := by
    simp only [releaseLimit, bits, Nat.shiftRight_eq_div_pow, Nat.reduceAdd, Nat.reduceSub, Nat.reducePow]
  refine ⟨⟨fun h => ?_, fun h => ?_⟩, ?_, ⟨fun hc hk hf => ?_, fun hc hk hf => ?_, fun h => ?_⟩, ⟨fun hc hw => ?_, fun h => ?_⟩,
    fun p => ⟨fun hc hf hp hn hd => ?_, fun h => ?_⟩, fun hc hf hp hk => ⟨fun hw => ?_, fun hw => ?_⟩, fun h => ?_⟩
  · obtain ⟨hc, hw, hf⟩ := h
    rw [exec_waveOpen hg, hc, hw, hf]
    rfl
  · rw [exec_waveOpen hg, if_neg]
    simp only [Bool.and_eq_true, Bool.not_eq_true', not_and, Bool.not_eq_false]
    rcases h with h | h | h <;> simp [h]
  · exact ⟨opened s g, region_openWave hg, rfl, rfl, rfl, rfl, rfl, rfl, State.modRegion_mem .., State.modRegion_harts .., State.modRegion_cells ..⟩
  · rw [exec_kiCut hg, hki, hc, decide_eq_true hk, askWave_eq hg, hf]
    rfl
  · rw [exec_kiCut hg, hki, hc, decide_eq_true hk, askWave_eq hg, hf]
    rfl
  · rw [exec_kiCut hg, hki, if_neg]
    rcases h with h | h
    · simp [h]
    · rw [decide_eq_false (Nat.not_le.mpr h)]
      simp
  · obtain ⟨w, hwm, hwl⟩ := hw
    obtain ⟨h, hr, hin, hwant, hrel⟩ := region_askWave hg
    have hany : g.releases.any (fun w => releaseLimit g ≤ w.2) = true := List.any_eq_true.mpr ⟨w, hwm, by simpa [hlim] using hwl⟩
    refine ⟨_, restarted (releaseLimit g) h, (exec_releaseCommitTimeout hg).trans (congrArg _ (if_pos (by rw [hc, hany]; rfl))), ?_, ⟨hin, hwant⟩, ?_⟩
    · rw [State.region?_modRegion_self, hr]
      rfl
    · rw [← hlim, ← hrel]
      rfl
  · rw [exec_releaseCommitTimeout hg, if_neg]
    rcases h with h | h
    · simp [h]
    · have : g.releases.any (fun w => releaseLimit g ≤ w.2) = false :=
        List.any_eq_false.mpr fun w hw => by simpa [hlim] using h w hw
      simp [this]
  · rw [exec_kerfPart hg, hc, hf, hd, List.contains_iff_mem.mpr hp, Bool.eq_false_iff.mpr (mt List.contains_iff_mem.mp hn)]
    rfl
  · rw [exec_kerfPart hg, if_neg]
    rcases h with h | h | h | h | h <;> simp [h]
  · rw [exec_waveComplete hg, hc, hf, hw, List.all_eq_true.mpr (fun p h => List.contains_iff_mem.mpr (hp p h)), List.all_eq_true.mpr hk]
    rfl
  · rw [exec_waveComplete hg, hc, hf, hw, List.all_eq_true.mpr (fun p h => List.contains_iff_mem.mpr (hp p h)), List.all_eq_true.mpr hk]
    rfl
  · rw [exec_waveComplete hg, if_neg]
    simp only [Bool.and_eq_true, List.all_eq_true, List.contains_iff_mem]
    rintro ⟨⟨⟨hc, hf⟩, hp⟩, hk⟩
    rcases h with h | h | ⟨p, h, hn⟩ | ⟨t, h, hn⟩
    · rw [hc] at h; exact Bool.noConfusion h
    · rw [hf] at h; exact Bool.noConfusion h
    · exact hn (hp p h)
    · exact absurd (hk t h) (by rw [hn]; decide)

/-! Causes and rollbacks (R434-R436, R439, R446). -/

section Causes

variable {s : State} {r : Nat} {g : Region}

theorem region_report (hg : s.region? r = some g) (code : Nat) : (s.report r code).region? r = some (g.count s.clk code) := by
  show (s.modRegion r (fun g => g.count s.clk code)).region? r = _
  rw [State.region?_modRegion_self, hg]
  rfl

theorem report_clk (s : State) (r code : Nat) : (s.report r code).clk = s.clk := State.modRegion_clk ..

theorem cause_freeze (hg : s.region? r = some g) {code : Nat} (hc : causeAction code = .freeze) : s.cause r code =
    if g.live || (decide (g.state = .rollback) && decide (g.actedAt = some s.clk)) then (s.report r code).freeze r code
    else if g.state = .frozen then s.report r code else (s.report r code).postpone r code := by
  rw [State.cause, State.act, region_report hg]
  simp only [hc, report_clk]
  rfl

theorem cause_rollback (hg : s.region? r = some g) {code : Nat} (hc : causeAction code = .rollback) : s.cause r code =
    if g.live then
      if g.exposed.any (fun w => g.wave < w) || decide (7 ≤ g.rollbacks) || g.snap.isNone then (s.report r code).killContext g.ctx
      else (s.report r code).startRollback r code
    else if g.state = .rollback then
      (if decide (code = 0x48) && g.snap.isNone then (s.report r code).killContext g.ctx else s.report r code)
    else if decide (g.state = .frozen) && decide (g.actedAt = some s.clk) then s.report r code
    else (s.report r code).postpone r code := by
  rw [State.cause, State.act, region_report hg]
  simp only [hc, report_clk]
  rfl

theorem cause_kill (hg : s.region? r = some g) : s.cause r 0x42 = (s.report r 0x42).killContext g.ctx := by
  rw [State.cause, State.act, region_report hg]
  rfl

/-- A region whose work is halted: what its last complete wave does not hold of updates, writes to peers and spawns is gone. -/
def halted (g : Region) : Region :=
  { g with
    updates := g.updates.filter (fun u => u.interval ≤ g.wave), peerWrites := g.peerWrites.filter (fun u => u.interval ≤ g.wave)
    spawnEnds := g.spawnEnds.filter (fun u => u.1 ≤ g.wave) }

theorem region_haltWork (hg : s.region? r = some g) (k : Region) : (s.haltWork r k).region? r = some (halted g) := by
  show (State.modRegion _ r _).region? r = _
  rw [State.region?_modRegion_self]
  show Option.map _ (s.region? r) = _
  rw [hg]
  rfl

theorem haltWork_mem (s : State) (r : Nat) (k : Region) : (s.haltWork r k).mem = s.mem := State.modRegion_mem ..

/-- A region whose rollback begins. -/
def rolledBack (clk code : Nat) (g : Region) : Region :=
  { g with
    state := .rollback, cause := code, drainClk := 0, actedAt := some clk
    wasDraining := g.wasDraining || decide (g.state = .draining), rollbacks := g.rollbacks + 1
    inFlight := false, parted := [], taking := none, takeSpill := 0, finalWave := false, waitCauses := [] }

theorem startRollback_eq (hg : s.region? r = some g) (code : Nat) :
    s.startRollback r code = (s.haltWork r g).modRegion r (rolledBack s.clk code) := by
  rw [State.startRollback, hg]
  rfl

theorem exec_rollbackDrainTimeout (hg : s.region? r = some g) : exec (.rollbackDrainTimeout r) s =
    .next (if g.state = .rollback ∧ 2 ^ 16 ≤ g.drainClk then (s.running r).foldl (fun s h => s.endMember h none) s else s) := by
  show execRollbackDrainTimeout r s = _
  rw [execRollbackDrainTimeout, hg]

theorem exec_drainComplete (hg : s.region? r = some g) : exec (.drainComplete r) s =
    .next (if g.state = .draining && !g.debugHalt && !g.inFlight && s.drained? r g then
      (s.openWave r).modRegion r (fun g => { g with finalWave := true }) else s) := by
  show execDrainComplete r s = _
  rw [execDrainComplete, hg]

theorem rollbackRestore_idle (hg : s.region? r = some g) (h : g.state ≠ .rollback ∨ g.debugHalt = true ∨ s.running r ≠ []) :
    exec (.rollbackRestore r) s = .next s := by
  show execRollbackRestore r s = _
  rw [execRollbackRestore, hg]
  refine if_pos ?_
  rcases h with h | h | h <;> simp [h]

/-- A rollback whose harts are all idle is restored. -/
theorem rollbackRestore_due (hg : s.region? r = some g) (hst : g.state = .rollback) (hh : g.debugHalt = false)
    (hr : s.running r = []) : exec (.rollbackRestore r) s =
    match g.snap with
    | none => .next ((s.report r 0x48).killContext g.ctx)
    | some k =>
      if g.forced then .next ((s.restore r g k).park r (some k))
      else
        let t := ((s.restore r g k).modRegion r (fun g => { g with
          state := if g.wasDraining then .draining else .active, wasDraining := false, resumeCmd := none })).actWaiting r
        match g.resumeCmd with
        | some (fn, seq) => .next (t.complete fn seq 0#64)
        | none => .next t := by
  show execRollbackRestore r s = _
  rw [execRollbackRestore, hg]
  exact if_neg (by simp [hst, hh, hr])

/-- Whether the deadline of a pre-emption has passed. -/
def overdue (g : Region) : Bool := g.state = .draining && !g.finalWave && decide (2 ^ bits g.rparm.toNat 8 4 ≤ g.pdl)

theorem overdue_iff (g : Region) :
    overdue g = true ↔ g.state = .draining ∧ g.finalWave = false ∧ 2 ^ (g.rparm.toNat / 2 ^ 4 % 32) ≤ g.pdl := by
  have hb : bits g.rparm.toNat 8 4 = g.rparm.toNat / 2 ^ 4 % 32 := by
    simp only [bits, Nat.shiftRight_eq_div_pow, Nat.reduceAdd, Nat.reduceSub, Nat.reducePow]
  simp only [overdue, hb, Bool.and_eq_true, Bool.not_eq_true', decide_eq_true_eq, and_assoc]

theorem exec_preemptTimeout (hg : s.region? r = some g) : exec (.preemptTimeout r) s =
    if overdue g then
      (if g.exposed.isSome || g.snap.isNone then .next ((s.report r 0x4D).killContext g.ctx)
      else .next (((s.report r 0x4D).startRollback r 0x4D).modRegion r
        (fun h => { h with forced := true, kept := (s.report r 0x4D).messagesOf r g, rollbacks := g.rollbacks })))
    else .next s := by
  show execPreemptTimeout r s = _
  rw [execPreemptTimeout, hg]
  rfl

end Causes

theorem live_iff (g : Region) : g.live = true ↔ g.state = .active ∨ g.state = .draining := by
  simp only [Region.live, Bool.or_eq_true, decide_eq_true_eq]

theorem rollback_codes : ∀ code ∈ [0x40, 0x41, 0x43, 0x45, 0x46, 0x48], causeAction code = .rollback := by decide

theorem freeze_codes : ∀ code ∈ [0x44, 0x49], causeAction code = .freeze := by decide

/-- Whether a rollback is not to be had: the region is exposed, has rolled back seven times from this wave, or has no snapshot. -/
def Hopeless (g : Region) : Prop := (∃ w, g.exposed = some w ∧ g.wave < w) ∨ 7 ≤ g.rollbacks ∨ g.snap = none

theorem hopeless_iff (g : Region) :
    (g.exposed.any (fun w => g.wave < w) || decide (7 ≤ g.rollbacks) || g.snap.isNone) = true ↔ Hopeless g := by
  simp only [Bool.or_eq_true, decide_eq_true_eq, Option.isNone_iff_eq_none, Option.any_eq_true, or_assoc, Hopeless]

/-- What a cause does (R434-R436). -/
theorem causes_act (s : State) (r : Nat) (g : Region) (code : Nat) (hg : s.region? r = some g) :
    let t := s.report r code
    (code ∈ [0x40, 0x41, 0x43, 0x45, 0x46, 0x48] → g.state = .active ∨ g.state = .draining →
      (¬ Hopeless g → s.cause r code = t.startRollback r code) ∧ (Hopeless g → s.cause r code = t.killContext g.ctx)) ∧
    (code ∈ [0x40, 0x41, 0x43, 0x45, 0x46, 0x48] → g.state = .rollback →
      s.cause r code = if code = 0x48 ∧ g.snap = none then t.killContext g.ctx else t) ∧
    (code ∈ [0x40, 0x41, 0x43, 0x45, 0x46, 0x48] → g.state ≠ .active → g.state ≠ .draining → g.state ≠ .rollback →
      s.cause r code = if g.state = .frozen ∧ g.actedAt = some s.clk then t else t.postpone r code) ∧
    (code ∈ [0x44, 0x49] →
      (g.state = .active ∨ g.state = .draining ∨ (g.state = .rollback ∧ g.actedAt = some s.clk) → s.cause r code = t.freeze r code) ∧
      (g.state = .frozen → s.cause r code = t) ∧
      (g.state ≠ .active → g.state ≠ .draining → g.state ≠ .frozen → (g.state = .rollback → g.actedAt ≠ some s.clk) →
        s.cause r code = t.postpone r code)) := by
  have hlive := live_iff g
  refine ⟨fun hc hs => ⟨fun hn => ?_, fun hn => ?_⟩, fun hc hs => ?_, fun hc h1 h2 h3 => ?_, fun hc => ⟨fun h => ?_, fun h => ?_,
    fun h1 h2 h3 h4 => ?_⟩⟩
  · rw [cause_rollback hg (rollback_codes code hc), if_pos (hlive.mpr hs), if_neg (mt (hopeless_iff g).mp hn)]
  · rw [cause_rollback hg (rollback_codes code hc), if_pos (hlive.mpr hs), if_pos ((hopeless_iff g).mpr hn)]
  · rw [cause_rollback hg (rollback_codes code hc), if_neg (by simp [hlive, hs]), if_pos hs]
    simp only [Bool.and_eq_true, decide_eq_true_eq, Option.isNone_iff_eq_none]
  · rw [cause_rollback hg (rollback_codes code hc), if_neg (by simp [hlive, h1, h2]), if_neg h3]
    simp only [Bool.and_eq_true, decide_eq_true_eq]
  · rw [cause_freeze hg (freeze_codes code hc), if_pos]
    simp only [Bool.or_eq_true, Bool.and_eq_true, decide_eq_true_eq, hlive]
    rcases h with h | h | h
    · exact .inl (.inl h)
    · exact .inl (.inr h)
    · exact .inr h
  · rw [cause_freeze hg (freeze_codes code hc), if_neg (by simp [hlive, h]), if_pos h]
  · rw [cause_freeze hg (freeze_codes code hc), if_neg, if_neg h3]
    simp only [Bool.or_eq_true, Bool.and_eq_true, decide_eq_true_eq, hlive]
    rintro ((h | h) | ⟨h, ha⟩)
    · exact h1 h
    · exact h2 h
    · exact h4 h ha

theorem not_hopeless {g : Region} (hw : ∀ w, g.exposed = some w → w ≤ g.wave) (h7 : g.rollbacks < 7) (hs : g.snap ≠ none) :
    ¬ Hopeless g := by
  rintro (⟨w, he, hlt⟩ | h | h)
  · have := hw w he
    omega
  · omega
  · exact hs h

/-- The timeouts of a rollback and of a pre-emption, and what ends them. -/
theorem drains_end (s : State) (r : Nat) (g : Region) (hg : s.region? r = some g) :
    (g.state = .draining → g.debugHalt = false → g.inFlight = false → s.drained? r g = true →
      exec (.drainComplete r) s = .next ((s.openWave r).modRegion r (fun g => { g with finalWave := true }))) ∧
    ((g.state ≠ .draining ∨ g.debugHalt = true ∨ g.inFlight = true ∨ s.drained? r g = false) →
      exec (.drainComplete r) s = .next s) := by
  refine ⟨fun h1 h2 h3 h4 => ?_, fun h => ?_⟩
  · rw [exec_drainComplete hg, if_pos (by simp [h1, h2, h3, h4])]
  · rw [exec_drainComplete hg, if_neg (by rcases h with h | h | h | h <;> simp [h])]

/-- Settles O17: causes are counted and acted on, and a rollback drains and is restored. -/
theorem rollbacks : Obligations.Rollbacks := by
  refine ⟨fun s r g code hg => ?_, fun s r g code hg => ?_, fun s r g hg => ?_⟩
  · obtain ⟨hroll, hin, hwait, hfreeze⟩ := causes_act s r g code hg
    refine ⟨⟨g.count s.clk code, region_report hg code, rfl, rfl, rfl⟩, fun hc hs => ⟨fun hw h7 hn => ?_, fun h => ?_⟩, hin, hwait, hfreeze,
      fun h => h ▸ cause_kill hg⟩
    · exact (hroll hc hs).1 (not_hopeless hw h7 hn)
    · exact (hroll hc hs).2 h
  · have hr : (s.startRollback r code).region? r = some (rolledBack s.clk code (halted g)) := by
      rw [startRollback_eq hg, State.region?_modRegion_self, region_haltWork hg]
      rfl
    refine ⟨_, hr, rfl, rfl, rfl, rfl, rfl, rfl, rfl, rfl, rfl, ?_⟩
    rw [startRollback_eq hg, State.modRegion_mem, haltWork_mem]
  · obtain ⟨hdone, hidle⟩ := drains_end s r g hg
    refine ⟨fun h1 h2 => ?_, fun h => ?_, rollbackRestore_idle hg, fun h1 h2 h3 => ⟨fun hn => ?_, fun k hk hf => ?_, fun k hk hf => ?_⟩, hdone,
      hidle, fun hd => ?_, fun hd hn => ?_, fun hd he hn => ?_⟩
    · rw [exec_rollbackDrainTimeout hg, if_pos ⟨h1, h2⟩]
    · rw [exec_rollbackDrainTimeout hg, if_neg (by rintro ⟨h1, h2⟩; rcases h with h | h; exacts [h h1, by omega])]
    · rw [rollbackRestore_due hg h1 h2 h3, hn]
    · rw [rollbackRestore_due hg h1 h2 h3, hk]
      simp only [hf, if_true]
    · refine ⟨fun hc => ?_, fun fn seq hc => ?_⟩
      · rw [rollbackRestore_due hg h1 h2 h3, hk]
        simp only [hf, hc, Bool.false_eq_true, if_false]
      · rw [rollbackRestore_due hg h1 h2 h3, hk]
        simp only [hf, hc, Bool.false_eq_true, if_false]
    · rw [exec_preemptTimeout hg, if_neg (mt (overdue_iff g).mp hd)]
    · rw [exec_preemptTimeout hg, if_pos ((overdue_iff g).mpr hd), if_pos]
      rcases hn with h | h
      · rw [Option.isSome_iff_ne_none.mpr h]
        rfl
      · rw [h]
        simp
    · rw [exec_preemptTimeout hg, if_pos ((overdue_iff g).mpr hd), if_neg]
      rw [he, Bool.or_eq_true]
      rintro (h | h)
      · exact Bool.noConfusion h
      · exact hn (Option.isNone_iff_eq_none.mp h)

/-! Watchdogs (R447-R450). -/

section Watchdogs

variable {s : State} {r : Nat} {g : Region}

theorem exec_stallWatchdog (hg : s.region? r = some g) : exec (.stallWatchdog r) s =
    if g.cuts && decide (2 ^ bits g.rparm.toNat 23 19 ≤ g.swd) then
      match s.smallestFull r g with
      | some f =>
        match (if s.growSize f ≤ g.spillFree then s.enlarge r g f else none) with
        | some t => .next (t.modRegion r (fun g => { g with swd := 0, spillUsed := g.spillUsed + s.growSize f }))
        | none => .next (s.modRegion r (fun g => { g with spillOut := true }))
      | none => .next s
    else .next s := by
  show execStallWatchdog r s = _
  rw [execStallWatchdog, hg] <;> rfl

theorem exec_hang (hg : s.region? r = some g) : exec (.hang r) s =
    if g.cuts && decide (2 ^ bits g.rparm.toNat 18 14 ≤ g.hng) then
      .next (((s.modRegion r (fun g => { g with hng := 0 })).cause r (if g.spillOut then 0x49 else 0x44)).writeMap r
        (if g.spillOut then 0x49 else 0x44))
    else .next s := by
  show execHang r s = _
  rw [execHang, hg]

/-- Whether a request of region r is older than MTO. -/
def late (s : State) (r : Nat) (g : Region) (q : Request) : Bool :=
  decide (q.region = r) && s.awaitsReply q && decide (q.sent + 2 ^ bits g.rparm.toNat 13 9 < s.clk)

theorem late_iff (q : Request) : late s r g q = true ↔
    q.region = r ∧ s.awaitsReply q = true ∧ q.sent + 2 ^ (g.rparm.toNat / 2 ^ 9 % 32) < s.clk := by
  have hb : bits g.rparm.toNat 13 9 = g.rparm.toNat / 2 ^ 9 % 32 := by
    simp only [bits, Nat.shiftRight_eq_div_pow, Nat.reduceAdd, Nat.reduceSub, Nat.reducePow]
  simp only [late, hb, Bool.and_eq_true, decide_eq_true_eq, and_assoc]

/-- The machine without a request that is given up, and without what it stands for (R449). -/
def gaveUp (s : State) (q : Request) : State :=
  let t : State := { s with requests := s.requests.filter (fun x => x.xid ≠ q.xid) }
  match q.what with
  | .walk c ctx page => t.modCell c (fun x => { x with walks := x.walks.filter (fun w => w ≠ (ctx, page)) })
  | .peer p => t.peerAck p q.xid stRemote 0
  | _ => t

theorem exec_replyTimeout (hg : s.region? r = some g) : exec (.replyTimeout r) s =
    match s.requests.find? (late s r g) with
    | some q => .next ((gaveUp s q).cause r 0x45)
    | none => .next s := by
  show execReplyTimeout r s = _
  rw [execReplyTimeout, hg]
  rfl

end Watchdogs

/-- Settles O19: the stall watchdog, the hang monitor, the reply timeout and the debugger. -/
theorem watchdogs : Obligations.Watchdogs := by
  intro s r g hg
  have hsw : bits g.rparm.toNat 23 19 = g.rparm.toNat / 2 ^ 19 % 32 := by
    simp only [bits, Nat.shiftRight_eq_div_pow, Nat.reduceAdd, Nat.reduceSub, Nat.reducePow]
  have hhg : bits g.rparm.toNat 18 14 = g.rparm.toNat / 2 ^ 14 % 32 := by
    simp only [bits, Nat.shiftRight_eq_div_pow, Nat.reduceAdd, Nat.reduceSub, Nat.reducePow]
  have hstall := exec_stallWatchdog hg
  have hhang := exec_hang hg
  have hreply := exec_replyTimeout hg
  rw [hsw] at hstall
  rw [hhg] at hhang
  refine ⟨⟨fun hd => ?_, fun hd hf => ?_, fun hd f hf => ⟨fun hlt => ?_, fun hle he => ?_, fun t hle he => ?_⟩⟩, ⟨fun hd => ?_, fun hd => ?_⟩,
    ⟨fun hno => ?_, fun pre q post hq hpre hold => ?_⟩, fun on => rfl⟩
  · rw [hstall, if_neg (by simpa using hd)]
  · rw [hstall, if_pos (by simpa using hd), hf]
  · rw [hstall, if_pos (by simpa using hd), hf]
    simp only [if_neg (Nat.not_le.mpr hlt)]
  · rw [hstall, if_pos (by simpa using hd), hf]
    simp only [if_pos hle, he]
  · rw [hstall, if_pos (by simpa using hd), hf]
    simp only [if_pos hle, he]
  · rw [hhang, if_neg (by simpa using hd)]
  · rw [hhang, if_pos (by simpa using hd)]
  · rw [hreply, List.find?_eq_none.mpr (fun q hq => mt (late_iff q).mp (hno q hq))]
  · have hfind : s.requests.find? (late s r g) = some q :=
      List.find?_eq_some_iff_append.mpr ⟨(late_iff q).mpr hold, pre, post, hq, fun x hx => by
        simpa using mt (late_iff x).mp (hpre x hx)⟩
    rw [hfind] at hreply
    refine ⟨fun h id pa hw => hreply.trans ?_, fun c ctx page hw => hreply.trans ?_, fun p hw => hreply.trans ?_⟩
    · simp only [gaveUp, hw]
    · simp only [gaveUp, hw]
    · simp only [gaveUp, hw, stRemote]

end Sys2Proof.Regions
end

section
/-! SUPPORT. The host's records and commands, and the package (R451-R473). -/

namespace Sys2Proof.HostSide

open Sys2Proof Sys2Proof.Machine Sys2Proof.Spec Sys2Proof.Integer Sys2Proof.Threads

/-! The inbox window (R451, R453). -/

theorem mem_touchedSlots {off n k : Nat} : k ∈ touchedSlots off n ↔ k < 64 ∧ 64 * k < off + n ∧ off < 64 * k + 64 := by
  simp only [touchedSlots, List.mem_filter, List.mem_range, overlaps, Bool.and_eq_true, decide_eq_true_eq]

/-- A write inside one slot touches that slot alone. -/
theorem touchedSlots_one {off n : Nat} (h0 : 0 < n) (hn : off % 64 + n ≤ 64) (ho : off < 4096) : touchedSlots off n = [off / 64] := by
  have hmem (k : Nat) : k ∈ touchedSlots off n ↔ k = off / 64 := by rw [mem_touchedSlots]; omega
  have hnd : (touchedSlots off n).Nodup := List.nodup_range.filter _
  have hperm : (touchedSlots off n).Perm [off / 64] :=
    (List.perm_ext_iff_of_nodup hnd (List.nodup_singleton _)).mpr fun k => by rw [hmem, List.mem_singleton]
  exact List.perm_singleton.mp hperm

theorem touchedSlots_beyond {off n : Nat} (ho : 4096 ≤ off) : touchedSlots off n = [] := by
  refine List.eq_nil_iff_forall_not_mem.mpr fun k hk => ?_
  have := mem_touchedSlots.mp hk
  omega

variable {s : State} {fn off : Nat} {bs : List Byte}

/-- The write of a whole slot is one record. -/
theorem wholeSlots_record (hl : bs.length = 64) (hm : off % 64 = 0) (ho : off < 4096) : wholeSlots off bs = [bs] := by
  have hw : wholeSlot off bs.length (off / 64) = true := by simp only [wholeSlot, hl, Bool.and_eq_true, decide_eq_true_eq]; omega
  rw [wholeSlots, touchedSlots_one (by omega) (by omega) ho, List.filter_singleton, hw, cond_true, List.map_singleton,
    show 64 * (off / 64) - off = 0 by omega, List.drop_zero, List.take_of_length_le hl.le]

theorem wholeSlots_part (h0 : bs ≠ []) (hl : bs.length < 64) (hm : off % 64 + bs.length ≤ 64) (ho : off < 4096) :
    touchedSlots off bs.length = [off / 64] ∧ wholeSlot off bs.length (off / 64) = false ∧ wholeSlots off bs = [] := by
  have ht := touchedSlots_one (List.length_pos_iff.mpr h0) hm ho
  have hw : wholeSlot off bs.length (off / 64) = false := by simp only [wholeSlot, Bool.and_eq_false_iff, decide_eq_false_iff_not]; omega
  exact ⟨ht, hw, by rw [wholeSlots, ht, List.filter_singleton, hw]; rfl⟩

/-- A device whose Haltin has started takes a write of the PF or of a VF. -/
theorem inboxWrite_heard (h : s.pkg.bootstat % 2 = 1 ∧ s.pkg.bootstat / 16 % 2 = 1 ∧ fn < 32) : exec (.inboxWrite fn off bs) s =
    .next (if (touchedSlots off bs.length).all (wholeSlot off bs.length) then s.takeRecords fn (wholeSlots off bs)
      else (s.takeRecords fn (wholeSlots off bs)).modFn fn (fun f => { f with inboxerr := f.inboxerr + 1 })) := by
  obtain ⟨h1, h2, h3⟩ := h
  show execInboxWrite fn off bs s = _
  exact if_neg (by simp [h1, h2, h3])

theorem inboxWrite_unheard (h : ¬ (s.pkg.bootstat % 2 = 1 ∧ s.pkg.bootstat / 16 % 2 = 1 ∧ fn < 32)) :
    exec (.inboxWrite fn off bs) s = .next s := by
  show execInboxWrite fn off bs s = _
  exact if_pos (by simp only [Bool.or_eq_true, decide_eq_true_eq]; omega)

theorem takeRecords_one : s.takeRecords fn [bs] =
    if s.pkg.inbox.length < 256 then { s with pkg := { s.pkg with inbox := s.pkg.inbox ++ [(fn, bs)] } }
    else s.modFn fn (fun f => { f with inboxdrop := f.inboxdrop + 1 }) := by
  simp only [State.takeRecords]

/-- What a write to the inbox window does. -/
theorem inboxWrites (s : State) (fn off : Nat) (bs : List Byte) : let write : Out := exec (.inboxWrite fn off bs) s
    let heard : Prop := s.pkg.bootstat % 2 = 1 ∧ s.pkg.bootstat / 16 % 2 = 1 ∧ fn < 32
    (¬ heard → write = .next s) ∧
    (heard → bs.length = 64 → off % 64 = 0 → off < 4096 →
      (s.pkg.inbox.length < 256 → write = .next { s with pkg := { s.pkg with inbox := s.pkg.inbox ++ [(fn, bs)] } }) ∧
      (256 ≤ s.pkg.inbox.length → write = .next (s.modFn fn (fun f => { f with inboxdrop := f.inboxdrop + 1 })))) ∧
    (heard → bs ≠ [] → bs.length < 64 → off % 64 + bs.length ≤ 64 → off < 4096 →
      write = .next (s.modFn fn (fun f => { f with inboxerr := f.inboxerr + 1 }))) ∧
    (heard → 4096 ≤ off → write = .next s) ∧
    s.bar0Read fn 0x210 = 256 - s.pkg.inbox.length ∧ (off < 0x1000 → s.bar2Read fn off = 0) := by
  refine ⟨inboxWrite_unheard, fun h hl hm ho => ?_, fun h h0 hl hm ho => ?_, fun h ho => ?_, rfl, fun ho => ?_⟩
  · have hall : (touchedSlots off bs.length).all (wholeSlot off bs.length) = true := by
      rw [touchedSlots_one (by omega) (by omega) ho]
      simp only [List.all_cons, List.all_nil, wholeSlot, hl, Bool.and_true, Bool.and_eq_true, decide_eq_true_eq]
      omega
    have he : exec (.inboxWrite fn off bs) s = .next (s.takeRecords fn [bs]) := by
      rw [inboxWrite_heard h, if_pos hall, wholeSlots_record hl hm ho]
    exact ⟨fun hlt => by rw [he, takeRecords_one, if_pos hlt], fun hge => by rw [he, takeRecords_one, if_neg (by omega)]⟩
  · obtain ⟨ht, hw, he⟩ := wholeSlots_part h0 hl hm ho
    rw [inboxWrite_heard h, he, ht, if_neg (by simp [hw])]
    rfl
  · rw [inboxWrite_heard h, wholeSlots, touchedSlots_beyond ho]
    rfl
  · rw [State.bar2Read, if_neg (by omega), if_neg (by omega)]

/-! Records and their commands (R454-R456). -/

section Commands

variable {seq op : Nat} {effect : JEntry → State → State} {e : JEntry}

theorem command_empty (he : s.entry? fn seq = none) (hi : s.pkg.inbox = []) : s.command fn seq op effect = s := by
  rw [State.command, he, hi]

theorem command_takes {rest : List (Nat × List Byte)} (he : s.entry? fn seq = none) (hi : s.pkg.inbox = (fn, bs) :: rest)
    (hs : seq = (s.fnAt fn).jacc + 1) (ho : recOp bs = op) : s.command fn seq op effect = s.takeRecord fn bs := by
  rw [State.command, he, hi]
  exact if_pos (by simp [← hs, ho])

theorem command_of_entry (he : s.entry? fn seq = some e) : s.command fn seq op effect =
    if e.op ≠ op || e.ended then s
    else if e.state = 1 then (if s.mayStart fn seq e then effect e (started s fn seq) else s)
    else effect e s := by
  rw [State.command, he] <;> rfl

theorem command_stays (he : s.entry? fn seq = some e) (h : e.op ≠ op ∨ 3 ≤ e.state ∨ (e.state = 1 ∧ s.mayStart fn seq e = false)) :
    s.command fn seq op effect = s := by
  rw [command_of_entry he]
  by_cases hx : e.op ≠ op ∨ e.ended = true
  · exact if_pos (by simpa using hx)
  · obtain ⟨h1, h2⟩ := not_or.mp hx
    obtain ⟨h3, h4⟩ := (h.resolve_left h1).resolve_left (by simpa [JEntry.ended] using h2)
    rw [if_neg (by simpa using hx), if_pos h3, h4]
    rfl

/-- A command that starts has its effect. -/
theorem command_starts (h : Starts s fn seq op e) : s.command fn seq op effect = effect e (started s fn seq) := by
  obtain ⟨he, ho, h1, hm⟩ := h
  rw [command_of_entry he, if_neg (by simp [ho, JEntry.ended, h1]), if_pos h1, hm, if_pos rfl]

end Commands

/-- A record that has been refused, or has become the next journal entry. -/
theorem recordTaken (s : State) (fn : Nat) (bs : List Byte) (head : Nat × List Byte) (rest : List (Nat × List Byte))
    (hi : s.pkg.inbox = head :: rest) :
    let u : State := { s with pkg := { s.pkg with inbox := rest } }
    let reason := u.recordReason fn bs
    let t := s.takeRecord fn bs
    t.pkg = u.pkg ∧ t.mem = s.mem ∧ t.regions = s.regions ∧
    (reason ≠ 0 → (t.fnAt fn).refcnt = (s.fnAt fn).refcnt + 1 ∧ (t.fnAt fn).jacc = (s.fnAt fn).jacc ∧
      lookup ((s.fnAt fn).refcnt % 64) (t.fnAt fn).refusals =
        some (BitVec.ofNat 64 (recD bs 1), BitVec.ofNat 64 (reason + fn * 256))) ∧
    (reason = 0 → (t.fnAt fn).jacc = (s.fnAt fn).jacc + 1 ∧ (t.fnAt fn).refcnt = (s.fnAt fn).refcnt ∧
      ∃ e, t.entry? fn ((s.fnAt fn).jacc + 1) = some e ∧ e.op = recOp bs ∧ e.ctx = recCtx bs ∧ e.state = 1 ∧
        e.htag = BitVec.ofNat 64 (recD bs 1) ∧ (∀ k, k < 6 → e.a k = recA bs k % 2 ^ 64)) := by
  intro u reason t
  have hu : ({ s with pkg := { s.pkg with inbox := s.pkg.inbox.drop 1 } } : State) = u := by
    simp only [u, hi, List.drop_succ_cons, List.drop_zero]
  have ht : t = if reason ≠ 0 then u.modFn fn (fun f => f.refuse fn reason (BitVec.ofNat 64 (recD bs 1)))
      else u.modFn fn (fun f => f.accept ⟨recOp bs, recCtx bs, 1, BitVec.ofNat 64 (recD bs 1),
        (List.range 6).map (fun k => BitVec.ofNat 64 (recA bs k)), 0#64, u.dtime, 0, 0, [], []⟩) := by
    rw [← hu]
    rfl
  rw [ht]
  refine ⟨?_, ?_, ?_, fun hn => ?_, fun hz => ?_⟩
  · split <;> rfl
  · split <;> rfl
  · split <;> rfl
  · rw [if_pos hn, State.fnAt_modFn_self]
    exact ⟨rfl, rfl, lookup_insertAt_self ..⟩
  · rw [if_neg (not_not.mpr hz), State.fnAt_modFn_self]
    refine ⟨rfl, rfl, ⟨recOp bs, recCtx bs, 1, BitVec.ofNat 64 (recD bs 1),
      (List.range 6).map (fun k => BitVec.ofNat 64 (recA bs k)), 0#64, u.dtime, 0, 0, [], []⟩, ?_, rfl, rfl, rfl, rfl, fun k hk => ?_⟩
    · rw [State.entry?, State.fnAt_modFn_self]
      exact lookup_insertAt_self ..
    · simp only [JEntry.a, List.getD_eq_getElem?_getD, List.getElem?_map, List.getElem?_range hk, Option.map_some, Option.getD_some,
        BitVec.toNat_ofNat]

/-- The commands of the host take their step, each under the code that a record names it by (R454). -/
theorem exec_command (s : State) (fn seq : Nat) : ∀ c ∈ [(Instr.openRegion fn seq, 0x01), (.map fn seq, 0x02), (.unmap fn seq, 0x03),
      (.loadcfg fn seq, 0x04), (.spawn fn seq, 0x05), (.signal fn seq, 0x06), (.preempt fn seq, 0x07), (.resume fn seq, 0x08),
      (.kill fn seq, 0x09), (.query fn seq, 0x0A), (.attest fn seq, 0x0B), (.fwupd fn seq, 0x0C)],
    ∃ effect, exec c.1 s = .next (s.command fn seq c.2 effect) := by
  simp only [List.forall_mem_cons]
  exact ⟨⟨_, rfl⟩, ⟨_, rfl⟩, ⟨_, rfl⟩, ⟨_, rfl⟩, ⟨_, rfl⟩, ⟨_, rfl⟩, ⟨_, rfl⟩, ⟨_, rfl⟩, ⟨_, rfl⟩, ⟨_, rfl⟩, ⟨_, rfl⟩, ⟨_, rfl⟩,
    fun _ h => absurd h List.not_mem_nil⟩

/-- Settles O20: the inbox takes whole records, which are refused or accepted, and an accepted command waits for its start. -/
theorem hostRecords : Obligations.HostRecords := by
  refine ⟨inboxWrites, fun s fn seq c hc => ?_, recordTaken⟩
  obtain ⟨effect, he⟩ := exec_command s fn seq c hc
  refine ⟨fun hn hi => ?_, fun bs rest hn hi hs ho => ?_, fun e hent h => ?_⟩
  · rw [he, command_empty hn hi]
  · rw [he, command_takes hn hi hs ho]
  · rw [he, command_stays hent h]

/-! A command of a context that a region already loads for. -/

/-- A region loads the image of LOADCFG 1 of the PF, whose journal entry has not started. -/
def strayLoad : State :=
  { State.reset with
    fns := [(0, { Fn.reset with jacc := 1, journal := [(1, ⟨0x04, 0xFFF, 1, 0#64, [0#64, 5#64], 0#64, 0, 0, 0, [], []⟩)] })]
    regions := [(0, { Region.reset with loadCmd := some (0, (1, 0)) })] }

/-- Refutes O21: a LOADCFG that has not started, and that a region loads for all the same, waits although it names no region of its
context; the statement has it fail with 0x4E. -/
theorem not_regionCommands : ¬ Obligations.RegionCommands := by
  rintro ⟨-, -, -, -, -, -, hload⟩
  have hst : Starts strayLoad 0 1 0x04 ⟨0x04, 0xFFF, 1, 0#64, [0#64, 5#64], 0#64, 0, 0, 0, [], []⟩ :=
    ⟨by decide +kernel, rfl, rfl, by decide +kernel⟩
  obtain ⟨hnone, -⟩ := hload strayLoad 0 1 _ hst
  have he := hnone (by decide +kernel)
  have hs : (match exec (.loadcfg 0 1) strayLoad with | .next u => (u.entry? 0 1).map JEntry.state | _ => none) = some 2 := by
    decide +kernel
  rw [he] at hs
  exact absurd hs (by decide +kernel)

/-! Resets (R466, R468). -/

/-- Links that fail training each tell Haltin. -/
theorem foldl_tellLink (l : List Nat) (s : State) : l.foldl State.tellLink s =
    { s with net := s.net ++ l.map (fun n => ⟨12, false, 0, 24, linkNode n, 0, 0, n, [], []⟩) } := by
  induction l generalizing s with
  | nil => simp only [List.foldl_nil, List.map_nil, List.append_nil]
  | cons a l ih => rw [List.foldl_cons, ih, State.tellLink, State.send, List.map_cons, List.append_assoc, List.singleton_append]

/-- What a reset leaves, with the links that boot finds down and TRIP as given. -/
theorem reboot_eq (s : State) (trip : Bool) : ∃ p : Pkg,
    p = s.pkg.afterReset (Config.freeWord s.fresh) (Config.freeWord (s.fresh + 1)) (Config.freeWord (s.fresh + 2)) trip ∧
    s.reboot trip = { State.reset with
      fresh := s.fresh + 3, resets := s.resets + 1, pkg := p
      net := p.linksDown.map (fun n => ⟨12, false, 0, 24, linkNode n, 0, 0, n, [], []⟩) } :=
  ⟨_, rfl, foldl_tellLink ..⟩

theorem rebooted (s : State) (trip : Bool) : ∃ t, (.next (s.reboot trip) : Out) = .next t ∧ t.mem = State.reset.mem ∧
    t.harts = State.reset.harts ∧ t.cells = State.reset.cells ∧ t.bays = State.reset.bays ∧ t.regions = State.reset.regions ∧
    t.ctxs = State.reset.ctxs ∧ t.fns = State.reset.fns ∧
    t.net = t.pkg.linksDown.map (fun n => ⟨12, false, 0, 24, linkNode n, 0, 0, n, [], []⟩) ∧ t.clk = State.reset.clk ∧
    t.resets = s.resets + 1 ∧ t.pkg.trip = trip ∧ t.pkg.plimit = State.reset.pkg.plimit ∧
    t.pkg.running = s.pkg.staged.getD s.pkg.running ∧ t.pkg.fused = max s.pkg.fused (s.pkg.staged.getD s.pkg.fused) ∧
    t.pkg.staged = none := by
  obtain ⟨p, hp, he⟩ := reboot_eq s trip
  refine ⟨_, rfl, ?_⟩
  rw [he]
  refine ⟨rfl, rfl, rfl, rfl, rfl, rfl, rfl, rfl, rfl, rfl, ?_, ?_, ?_, ?_, ?_⟩ <;> · rw [hp]; rfl

/-! Power and the management registers (R471, R472). -/

theorem mem_insertNat {k b : Nat} (l : List Nat) : b ∈ insertNat k l ↔ b = k ∨ b ∈ l := by
  induction l with
  | nil => simp [insertNat]
  | cons j l ih =>
    simp only [insertNat]
    split
    · simp only [List.mem_cons, ih]
      tauto
    · split
      · next h => subst h; simp
      · simp

theorem mem_foldl_insertNat {b : Nat} (l ts : List Nat) : b ∈ l.foldl (fun ts b => insertNat b ts) ts ↔ b ∈ ts ∨ b ∈ l := by
  induction l generalizing ts with
  | nil => simp
  | cons a l ih =>
    rw [List.foldl_cons, ih, mem_insertNat, List.mem_cons]
    tauto

/-! Links (R422). -/

section Links

/-- Two states with the same links down. -/
def SameLinks (s t : State) : Prop := t.pkg.linksDown = s.pkg.linksDown

theorem mem_links {s t : State} {n : Nat} (h : SameLinks s t) (hs : n ∈ s.pkg.linksDown) : n ∈ t.pkg.linksDown := h ▸ hs

theorem sameLinks_modRegion (s : State) (r : Nat) (f : Region → Region) : SameLinks s (s.modRegion r f) :=
  congrArg Pkg.linksDown (State.modRegion_pkg ..)

theorem sameLinks_foldl {α : Type} {f : State → α → State} (hf : ∀ s a, SameLinks s (f s a)) (l : List α) (s : State) :
    SameLinks s (l.foldl f s) := by
  induction l generalizing s with
  | nil => rfl
  | cons a l ih => exact (ih _).trans (hf s a)

theorem sameLinks_causeLater (s : State) (r code : Nat) : SameLinks s (s.causeLater r code) :=
  (sameLinks_modRegion ..).trans (sameLinks_modRegion s ..)

theorem sameLinks_noteWalk (s : State) (r unit ctx va n : Nat) : SameLinks s (s.noteWalk r unit ctx va n) := by
  unfold State.noteWalk
  split
  · exact sameLinks_causeLater ..
  · rfl

theorem sameLinks_signal (s : State) (c : Completion) : SameLinks s (s.signal c) := by
  unfold State.signal
  split
  · rfl
  · split <;> rfl

theorem sameLinks_signalDue (s : State) (r : Nat) : SameLinks s (s.signalDue r) := by
  unfold State.signalDue
  split
  · rfl
  · refine Eq.trans (sameLinks_foldl (fun s u => (sameLinks_signal _ u).trans ?_) _ _) (sameLinks_modRegion ..)
    split
    · rfl
    · exact sameLinks_noteWalk ..

theorem sameLinks_peerAck (s : State) (r xid status va : Nat) : SameLinks s (s.peerAck r xid status va) :=
  (sameLinks_signalDue ..).trans (sameLinks_modRegion ..)

/-- A packet of no request is lost without a trace. -/
theorem losePacket_none {s : State} {p : Packet} (h : s.requests.find? (fun q => q.xid = p.xid) = none) : s.losePacket p = s := by
  rw [State.losePacket, State.takeRequest, h]

/-- The operation that a lost packet belongs to completes with REMOTE. -/
theorem losePacket_peer {s : State} {p : Packet} {q : Request} {r : Nat} (h : s.requests.find? (fun q => q.xid = p.xid) = some q)
    (hq : q.what = .peer r) :
    s.losePacket p = State.peerAck { s with requests := s.requests.filter (fun x => x.xid ≠ p.xid) } r p.xid stRemote 0 := by
  simp only [State.losePacket, State.takeRequest, h, hq]

theorem sameLinks_losePacket (s : State) (p : Packet) : SameLinks s (s.losePacket p) := by
  cases h : s.requests.find? (fun q => q.xid = p.xid) with
  | none => rw [losePacket_none h]; rfl
  | some q =>
    cases hq : q.what with
    | peer r => rw [losePacket_peer h hq]; exact sameLinks_peerAck ..
    | _ => simp only [State.losePacket, State.takeRequest, h, hq]; rfl

theorem sameLinks_dropMessage (s : State) (kind target : Nat) : SameLinks s (s.dropMessage kind target) := by
  unfold State.dropMessage
  split <;> rfl

/-- An operation that ends without a page fault leaves the links as they are. -/
theorem sameLinks_endOp (s : State) (kind target : Nat) (m : Message) (id status fva : Nat) (h : status / stFpage % 2 = 0) :
    SameLinks s (s.endOp kind target m id status fva) := by
  rw [State.endOp, if_neg (by simp [h])]
  exact (sameLinks_dropMessage ..).trans (sameLinks_modRegion ..)

end Links

theorem scarfLinkDown (s : State) (n : Nat) (h : n < 12) (hn : n ∉ s.pkg.linksDown) :
    ∃ t, exec (.scarfLinkDown n) s = .next t ∧ n ∈ t.pkg.linksDown := by
  show ∃ t, execScarfLinkDown n s = .next t ∧ _
  rw [execScarfLinkDown, if_neg (by simp [h, hn])]
  refine ⟨_, rfl, ?_⟩
  refine mem_links (sameLinks_foldl sameLinks_losePacket _ _) ?_
  show n ∈ (State.pkg (List.foldl _ _ _)).linksDown
  refine mem_links (sameLinks_foldl (fun s e => ?_) _ _) ((mem_insertNat _).mpr (.inl rfl))
  split
  · exact sameLinks_endOp _ _ _ _ _ _ _ (by split <;> decide)
  · rfl

/-- Settles O23: resets, throttling, the management registers and links. -/
theorem packageEvents : Obligations.PackageEvents := by
  refine ⟨fun s => ?_, fun s fn => ⟨fun h => ?_, fun h1 h2 => ?_⟩, fun s bays => ⟨⟨_, rfl, fun b => ?_, rfl, rfl, rfl⟩, ⟨_, rfl, fun b => ?_, rfl, rfl, rfl⟩⟩,
    fun s v => ⟨fun h1 h2 => ?_, fun h => ?_⟩, fun s n v => ⟨fun h1 h2 hc => ?_, fun h1 h2 hc => ?_, fun h => ?_⟩,
    fun s fn off v => ⟨fun h1 h2 h3 => ?_, fun h => ?_⟩, fun s n => ⟨fun h => ?_, scarfLinkDown s n⟩,
    fun s n p hp => ⟨fun h => ?_, fun h => ⟨fun hr => ?_, fun q r hq hw => ?_⟩⟩⟩
  · simp only [List.forall_mem_cons]
    exact ⟨rebooted s false, rebooted s s.pkg.trip, rebooted s true, fun _ h => absurd h List.not_mem_nil⟩
  · show execVfReset fn s = _
    rw [execVfReset, if_neg (by omega)]
  · show execVfReset fn s = _
    rw [execVfReset, if_pos ⟨h1, h2⟩]
  · exact mem_foldl_insertNat ..
  · show b ∈ s.pkg.throttled.filter _ ↔ _
    rw [List.mem_filter, Bool.not_eq_true', Bool.eq_false_iff, ne_eq, List.contains_iff_mem]
  · show execPlimitWrite v s = _
    rw [execPlimitWrite, if_pos ⟨h1, h2⟩]
  · show execPlimitWrite v s = _
    rw [execPlimitWrite, if_neg (by omega)]
  · show execVfrectWrite n v s = _
    rw [execVfrectWrite, if_pos ⟨h1, h2⟩, if_pos (by simpa using hc)]
  · show execVfrectWrite n v s = _
    rw [execVfrectWrite, if_pos ⟨h1, h2⟩, if_neg (by simpa using hc)]
  · show execVfrectWrite n v s = _
    rw [execVfrectWrite, if_neg (by omega)]
  · show execMgmtRegisterWrite fn off v s = _
    rw [execMgmtRegisterWrite, if_pos ⟨h1, h2, h3⟩]
  · show execMgmtRegisterWrite fn off v s = _
    rw [execMgmtRegisterWrite, if_neg]
    rintro ⟨h1, h2, h3⟩
    rcases h with h | h | h
    · exact h h1
    · exact h h2
    · rw [h] at h3
      exact Bool.noConfusion h3
  · show execScarfLinkDown n s = _
    rw [execScarfLinkDown, if_pos (by simpa using h)]
  · show execScarfDeliveryFailure n s = _
    rw [execScarfDeliveryFailure, hp]
    exact if_neg (not_not.mpr h)
  · show execScarfDeliveryFailure n s = _
    rw [execScarfDeliveryFailure, hp]
    exact (if_pos h).trans (congrArg _ (losePacket_none hr))
  · show execScarfDeliveryFailure n s = _
    rw [execScarfDeliveryFailure, hp]
    exact (if_pos h).trans (congrArg _ (losePacket_peer hq hw))

end Sys2Proof.HostSide
end

section
/-! SUPPORT. The operations of the bulk engines (R409-R421). -/

namespace Sys2Proof.Bulk

open Sys2Proof Sys2Proof.Machine Sys2Proof.Spec Sys2Proof.Integer Sys2Proof.Frames

section Steps

variable {s : State} {kind target op unit id : Nat} {m : Message} {list : List Nat} {run : EngineRun}

/-! The beginning of an operation (R416, R418, R421). -/

/-- Whether what an operation reads lies apart from what it writes. -/
def Clear (m : Message) (list : List Nat) : Prop := ∀ a ∈ m.reads list, ∀ b ∈ m.writes list, overlaps a b = false

theorem not_overlapping_iff : (m.reads list).any (fun a => (m.writes list).any (overlaps a)) = true ↔ ¬ Clear m list := by
  simp only [Clear, List.any_eq_true, not_forall, Bool.not_eq_false, exists_prop]

/-- Every operand of a collective operation is aligned. -/
def Aligned (m : Message) (list : List Nat) : Prop := ∀ a ∈ m.operands list, a % collectiveWidth m.fmt = 0

theorem operand_found (ha : Aligned m list) : (m.operands list).find? (fun a => a % collectiveWidth m.fmt ≠ 0) = none :=
  List.find?_eq_none.mpr fun a hm => by simpa using ha a hm

theorem beginOp_misaligned (hl : s.readList unit m = .ok list) {pre post : List Nat} {a : Nat} (hs : m.operands list = pre ++ a :: post)
    (hpre : ∀ x ∈ pre, x % collectiveWidth m.fmt = 0) (ha : a % collectiveWidth m.fmt ≠ 0) : s.beginOp unit id m = .ended 4 a := by
  have hf : (m.operands list).find? (fun a => a % collectiveWidth m.fmt ≠ 0) = some a :=
    List.find?_eq_some_iff_append.mpr ⟨by simpa using ha, pre, post, hs, fun x hx => by simpa using hpre x hx⟩
  simp only [State.beginOp, hl, hf, stFaccess]

theorem beginOp_here (hl : s.readList unit m = .ok list) (ha : Aligned m list) (hd : m.ddev = 0) : s.beginOp unit id m =
    if (m.reads list).any (fun a => (m.writes list).any (overlaps a)) then .ended 8 0 else .go ⟨id, 0, false, list, 0⟩ := by
  simp only [State.beginOp, hl, operand_found ha, hd, ne_eq, not_true_eq_false, if_false, stOvlp]

theorem beginOp_remote (hl : s.readList unit m = .ok list) (ha : Aligned m list) (hd : m.ddev ≠ 0)
    (hp : (s.peer m.ctx m.ddev).bind s.pickLink = none) : s.beginOp unit id m = .ended 0x20 0 := by
  simp only [State.beginOp, hl, operand_found ha, hd, ne_eq, not_false_eq_true, if_true, hp, stRemote]

theorem beginOp_peer {l : Nat} (hl : s.readList unit m = .ok list) (ha : Aligned m list) (hd : m.ddev ≠ 0)
    (hp : (s.peer m.ctx m.ddev).bind s.pickLink = some l) : s.beginOp unit id m = .go ⟨id, 0, false, list, l⟩ := by
  simp only [State.beginOp, hl, operand_found ha, hd, ne_eq, not_false_eq_true, if_true, hp]

/-! The steps of an engine (R411, R416). -/

theorem engineStep_idle (h : s.messageHead kind target = none) : engineStep kind target op s = .next s := by
  simp only [engineStep, h]

theorem engineStep_other (h : s.messageHead kind target = some m) (ho : m.op ≠ op ∨ s.cellMoves (engineCell kind target) = false) :
    engineStep kind target op s = .next s := by
  simp only [engineStep, h]
  exact if_pos (by simpa using ho)

/-- The machine as an operation begins: its number is taken. -/
def numbered (s : State) : State := { s with fresh := s.fresh + 1 }

section Begins

variable (h : s.messageHead kind target = some m) (ho : m.op = op) (hm : s.cellMoves (engineCell kind target) = true)

include h ho hm

theorem engineStep_ended (hr : s.engineRun kind target = none) {st f : Nat}
    (hb : (numbered s).beginOp (unitOf (engineCell kind target)) s.fresh m = .ended st f) :
    engineStep kind target op s = .next ((numbered s).endOp kind target m s.fresh st f) := by
  simp only [numbered] at hb
  simp only [engineStep, h, ho, hm, hr, hb, ne_eq, not_true_eq_false, decide_false, Bool.not_true, Bool.or_self, Bool.false_eq_true, if_false,
    numbered]

theorem engineStep_begun (hr : s.engineRun kind target = none)
    (hb : (numbered s).beginOp (unitOf (engineCell kind target)) s.fresh m = .go run) :
    engineStep kind target op s = .next ((numbered s).setRun kind target (some run)) := by
  simp only [numbered] at hb
  simp only [engineStep, h, ho, hm, hr, hb, ne_eq, not_true_eq_false, decide_false, Bool.not_true, Bool.or_self, Bool.false_eq_true, if_false,
    numbered]

theorem engineStep_moves (hr : s.engineRun kind target = some run) : engineStep kind target op s = s.moveOp kind target m run := by
  simp only [engineStep, h, ho, hm, hr, ne_eq, not_true_eq_false, decide_false, Bool.not_true, Bool.or_self, Bool.false_eq_true, if_false]

end Begins

/-- One piece of an operation (R416, R447). -/
theorem moveOp_cases (s : State) (kind target : Nat) (m : Message) (run : EngineRun) :
    let unit := unitOf (engineCell kind target)
    let row := run.pos / m.rowBytes
    let off := run.pos % m.rowBytes
    let va := m.dstRow run.list row + off
    let n := min (m.rowBytes - off) (64 - va % 64)
    let was := if run.poison then 0x40 else 0
    (∀ st f, s.pieceBytes unit m run row off n = .error (.ended st f) →
      s.moveOp kind target m run = .next (s.endOp kind target m run.id (st ||| was) f)) ∧
    (∀ bs, s.pieceBytes unit m run row off n = .ok bs →
      (∀ st f, s.writePiece unit m run va bs = .error (.ended st f) →
        s.moveOp kind target m run = .next (s.endOp kind target m run.id (st ||| was) f)) ∧
      (s.writePiece unit m run va bs = .ok none → s.moveOp kind target m run = .next s) ∧
      (∀ t, s.writePiece unit m run va bs = .ok (some t) →
        let u : State := { t with fresh := t.fresh + 4096 }
        let poison := run.poison || bs.any Prod.snd
        (run.pos + n < m.rows * m.rowBytes → s.moveOp kind target m run =
          .next ((u.setRun kind target (some { run with pos := run.pos + n, poison := poison })).fire m.region)) ∧
        (m.rows * m.rowBytes ≤ run.pos + n → s.moveOp kind target m run =
          .next ((u.endOp kind target m run.id (if poison then 0x40 else 0) 0).fire m.region)))) := by
  intro unit row off va n was
  refine ⟨fun st f hp => ?_, fun bs hp => ⟨fun st f hw => ?_, fun hw => ?_, fun t hw => ⟨fun hlt => ?_, fun hle => ?_⟩⟩⟩
  · simp only [unit, row, off, va, n] at hp
    simp only [State.moveOp, hp, stPoison, was]
  · simp only [unit, row, off, va, n] at hp hw
    simp only [State.moveOp, hp, hw, stPoison, was]
  · simp only [unit, row, off, va, n] at hp hw
    simp only [State.moveOp, hp, hw]
  · simp only [unit, row, off, va, n] at hp hw hlt
    simp only [State.moveOp, hp, hw, if_neg (Nat.not_le.mpr hlt), n, va, off, row]
  · simp only [unit, row, off, va, n] at hp hw hle
    simp only [State.moveOp, hp, hw, if_pos hle, stPoison]

end Steps

/-- The engines that copy take the opcodes of R416, the collective ones those of R418. -/
theorem exec_engine (s : State) (target : Nat) : ∀ c ∈ [(Instr.copy target, (0, 1)), (.copy2d target, (0, 2)), (.fill target, (0, 3)),
    (.reduce target, (1, 0x10)), (.bcast target, (1, 0x11))], exec c.1 s = engineStep c.2.1 target c.2.2 s := by
  simp only [List.forall_mem_cons]
  exact ⟨rfl, rfl, rfl, rfl, rfl, fun _ h => absurd h List.not_mem_nil⟩

theorem bayAt_modRegion (s : State) (r : Nat) (f : Region → Region) (b : Nat) : (s.modRegion r f).bayAt b = s.bayAt b := by
  rw [State.bayAt, State.modRegion_bays, State.bayAt]

theorem region_endOp (s : State) (kind target : Nat) (m : Message) (id status fva : Nat) (g : Region) (hg : s.region? m.region = some g)
    (hs : status / 2 % 2 = 0 ∨ s.walkLost (unitOf (if kind = 0 then target else taskUnitCell target)) m.ctx fva 1 = false) :
    let t := s.endOp kind target m id status fva
    ((t.region? m.region).map Region.updates) =
      some (g.updates ++ [⟨id, m.ctx, m.object, status, fva % 2 ^ 64, s.interval m.region m.sender, []⟩]) ∧
    (kind = 0 → (t.cellAt target).inbox = (s.cellAt target).inbox.drop 1 ∧ (t.cellAt target).run = none) ∧
    (kind ≠ 0 → (t.bayAt target).inbox = (s.bayAt target).inbox.drop 1 ∧ (t.bayAt target).run = none) ∧
    t.mem = s.mem ∧ t.harts = s.harts := by
  intro t
  have hno : ¬ (decide (status / stFpage % 2 = 1) && s.walkLost (unitOf (engineCell kind target)) m.ctx fva 1) = true := by
    rw [Bool.and_eq_true, decide_eq_true_eq]
    rintro ⟨h1, h2⟩
    rcases hs with h | h
    · simp only [stFpage] at h1
      omega
    · exact Bool.noConfusion (h.symm.trans h2)
  have ht : t = (s.modRegion m.region _).dropMessage kind target := if_neg hno
  have hreg (f : Region → Region) : ((s.modRegion m.region f).dropMessage kind target).region? m.region = some (f g) := by
    have : ((s.modRegion m.region f).dropMessage kind target).region? m.region = (s.modRegion m.region f).region? m.region := by
      unfold State.dropMessage
      split <;> rfl
    rw [this, State.region?_modRegion_self, hg]
    rfl
  rw [ht]
  refine ⟨by rw [hreg]; rfl, fun hk => ?_, fun hk => ?_, ?_, ?_⟩
  · rw [State.dropMessage, if_pos hk, State.cellAt_modCell_self, State.cellAt_modRegion]
    exact ⟨rfl, rfl⟩
  · rw [State.dropMessage, if_neg hk, State.bayAt_modBay_self, bayAt_modRegion]
    exact ⟨rfl, rfl⟩
  · rw [State.dropMessage]
    split <;> exact State.modRegion_mem ..
  · rw [State.dropMessage]
    split <;> exact State.modRegion_harts ..

theorem bulkOperations : BulkOperations := by
  refine ⟨fun s target c hc => ?_, region_endOp⟩
  rw [exec_engine s target c hc]
  refine ⟨engineStep_idle, fun m hm => ⟨engineStep_other hm, fun ho hmv hr => ?_, fun ho hmv run hr => ?_⟩⟩
  · intro u ended list hl w aligned clear
    have hend {st f : Nat} (hb : (numbered s).beginOp (unitOf (engineCell c.2.1 target)) s.fresh m = .ended st f) : ended st f :=
      engineStep_ended hm ho hmv hr hb
    refine ⟨fun pre a post hs hpre ha => hend (beginOp_misaligned hl hs hpre ha), fun ha hd hc => hend ((beginOp_here hl ha hd).trans (if_pos (not_overlapping_iff.mpr hc))),
      fun ha hd hc => engineStep_begun hm ho hmv hr ((beginOp_here hl ha hd).trans (if_neg (not_overlapping_iff.not.mpr (not_not.mpr hc)))),
      fun ha hd hp => hend (beginOp_remote hl ha hd hp), fun l ha hd hp => engineStep_begun hm ho hmv hr (beginOp_peer hl ha hd hp)⟩
  · rw [engineStep_moves hm ho hmv hr]
    exact moveOp_cases s c.2.1 target m run

/-! What the bytes of an operation are (R416, R418, R419). -/

theorem leNat_natBytes (n v : Nat) : leNat (natBytes n v) = v % 256 ^ n := by
  induction n generalizing v with
  | zero => simp [natBytes, leNat, Nat.mod_one]
  | succ n ih =>
    rw [natBytes, leNat, ih, BitVec.toNat_ofNat, Nat.mod_eq_of_lt (show v % 256 < 2 ^ 8 from Nat.mod_lt _ (by decide)),
      Nat.pow_succ 256, Nat.mul_comm (256 ^ n), Nat.mod_mul]

theorem natBytes_getD (n v i : Nat) (hi : i < n) : (natBytes n v).getD i 0#8 = BitVec.ofNat 8 (v / 256 ^ i) := by
  induction n generalizing v i with
  | zero => exact absurd hi (Nat.not_lt_zero _)
  | succ n ih =>
    rw [natBytes]
    cases i with
    | zero =>
      rw [List.getD_cons_zero, Nat.pow_zero, Nat.div_one]
      exact BitVec.eq_of_toNat_eq (by simp)
    | succ i => rw [List.getD_cons_succ, ih _ _ (by omega), Nat.div_div_eq_div_mul, Nat.pow_succ, Nat.mul_comm 256]

theorem leNat_lt (bs : List Byte) : leNat bs < 256 ^ bs.length := by
  induction bs with
  | nil => exact Nat.one_pos
  | cons b bs ih =>
    have := b.isLt
    rw [leNat, List.length_cons, Nat.pow_succ]
    omega

theorem perm_dropNth {l : List Nat} {i : Nat} (h : i < l.length) : l.Perm (l.getD i 0 :: dropNth l i) := by
  induction l generalizing i with
  | nil => exact absurd h (Nat.not_lt_zero _)
  | cons a l ih =>
    cases i with
    | zero => exact List.Perm.refl _
    | succ i =>
      rw [List.getD_cons_succ, dropNth]
      exact ((ih (by simpa using h)).cons a).trans (List.Perm.swap ..)

/-- What a combination keeps in whatever grouping it is made, two values at a time. -/
theorem combineAll_induct {f : Nat → Nat → Nat} {free : Nat → Nat} {R : List Nat → Nat → Prop} (h1 : ∀ x, R [x] x)
    (h2 : ∀ a b l v xs, xs.Perm (a :: b :: l) → R (f a b :: l) v → R xs v) (n : Nat) (xs : List Nat) (hne : xs ≠ []) (hn : xs.length ≤ n) :
    R xs (combineAll f free n xs) := by
  induction n generalizing xs with
  | zero => exact absurd (List.length_eq_zero_iff.mp (Nat.le_zero.mp hn)) hne
  | succ n ih =>
    have hpos : 0 < xs.length := List.length_pos_iff.mpr hne
    rw [combineAll]
    split
    · next hle =>
      obtain ⟨x, rfl⟩ := List.length_eq_one_iff.mp (show xs.length = 1 by omega)
      exact h1 x
    · next hgt =>
      have hi : free (2 * n) % xs.length < xs.length := Nat.mod_lt _ hpos
      have hys : (dropNth xs (free (2 * n) % xs.length)).length = xs.length - 1 := by
        have := (perm_dropNth hi).length_eq
        rw [List.length_cons] at this
        omega
      have hj : free (2 * n + 1) % (dropNth xs (free (2 * n) % xs.length)).length < (dropNth xs (free (2 * n) % xs.length)).length :=
        Nat.mod_lt _ (by omega)
      refine h2 _ _ _ _ xs ((perm_dropNth hi).trans ((perm_dropNth hj).cons _)) (ih _ (List.cons_ne_nil _ _) ?_)
      have := (perm_dropNth hj).length_eq
      rw [List.length_cons] at this ⊢
      omega

theorem combineAll_sum (free : Nat → Nat) (xs : List Nat) (hne : xs ≠ []) (hlt : ∀ x ∈ xs, x < 2 ^ 32) :
    combineAll (combine 10 0) free xs.length xs = xs.sum % 2 ^ 32 := by
  refine combineAll_induct (R := fun xs v => (∀ x ∈ xs, x < 2 ^ 32) → v = xs.sum % 2 ^ 32) (fun x hx => ?_) (fun a b l v xs hp hr hx => ?_)
    _ xs hne le_rfl hlt
  · rw [List.sum_singleton, Nat.mod_eq_of_lt (hx x (List.mem_singleton_self x))]
  · have hc : combine 10 0 a b = (a + b) % 2 ^ 32 := rfl
    have hv := hr (fun x h => by
      rcases List.mem_cons.mp h with rfl | h
      · rw [hc]
        exact Nat.mod_lt _ (by decide)
      · exact hx x (hp.mem_iff.mpr (List.mem_cons_of_mem _ (List.mem_cons_of_mem _ h))))
    rw [hv, hp.sum_eq, hc, List.sum_cons, List.sum_cons, List.sum_cons, Nat.mod_add_mod, Nat.add_assoc]

/-- A choice between two values that never picks the worse one picks a best one of all. -/
theorem combineAll_best {f : Nat → Nat → Nat} {le : Nat → Nat → Prop} (hf : ∀ a b, (f a b = a ∧ le a b) ∨ (f a b = b ∧ le b a))
    (hr : ∀ a, le a a) (ht : ∀ a b c, le a b → le b c → le a c) (free : Nat → Nat) (xs : List Nat) (hne : xs ≠ []) :
    combineAll f free xs.length xs ∈ xs ∧ ∀ x ∈ xs, le (combineAll f free xs.length xs) x := by
  refine combineAll_induct (R := fun xs v => v ∈ xs ∧ ∀ x ∈ xs, le v x) (fun x => ?_) (fun a b l v xs hp hv => ?_) _ xs hne le_rfl
  · exact ⟨List.mem_singleton_self x, fun y hy => by rw [List.mem_singleton.mp hy]; exact hr x⟩
  · obtain ⟨hm, hb⟩ := hv
    have hab : le (f a b) a ∧ le (f a b) b ∧ (f a b = a ∨ f a b = b) := by
      rcases hf a b with ⟨he, hle⟩ | ⟨he, hle⟩
      · rw [he]; exact ⟨hr a, hle, .inl rfl⟩
      · rw [he]; exact ⟨hle, hr b, .inr rfl⟩
    obtain ⟨hfa, hfb, hpick⟩ := hab
    have hvf := hb _ List.mem_cons_self
    refine ⟨hp.mem_iff.mpr ?_, fun x hx => ?_⟩
    · rcases List.mem_cons.mp hm with rfl | hm
      · rcases hpick with he | he <;> simp [he]
      · exact List.mem_cons_of_mem _ (List.mem_cons_of_mem _ hm)
    · rcases List.mem_cons.mp (hp.mem_iff.mp hx) with rfl | hx
      · exact ht _ _ _ hvf hfa
      · rcases List.mem_cons.mp hx with rfl | hx
        · exact ht _ _ _ hvf hfb
        · exact hb x (List.mem_cons_of_mem _ hx)

/-- An integer element of a REDUCE is the combination of its values as they are. -/
theorem reduceElem_int (rop : Nat) (free : Nat → Nat) (xs : List Nat) :
    reduceElem 10 rop free xs = combineAll (combine 10 rop) free xs.length xs := rfl

theorem combine_min (a b : Nat) : (combine 10 1 a b = a ∧ signedOf 32 a ≤ signedOf 32 b) ∨
    (combine 10 1 a b = b ∧ signedOf 32 b ≤ signedOf 32 a) := by
  have hc : combine 10 1 a b = if signedOf 32 b < signedOf 32 a then b else a := rfl
  rw [hc]
  split
  · next h => exact .inr ⟨rfl, h.le⟩
  · next h => exact .inl ⟨rfl, not_lt.mp h⟩

theorem combine_max (a b : Nat) : (combine 10 2 a b = a ∧ signedOf 32 b ≤ signedOf 32 a) ∨
    (combine 10 2 a b = b ∧ signedOf 32 a ≤ signedOf 32 b) := by
  have hc : combine 10 2 a b = if signedOf 32 a < signedOf 32 b then b else a := rfl
  rw [hc]
  split
  · next h => exact .inr ⟨rfl, h.le⟩
  · next h => exact .inl ⟨rfl, not_lt.mp h⟩

/-- Block e of blocks of one length, one after the other. -/
theorem block_flatMap {α : Type} {g : Nat → List α} {k : Nat} (hg : ∀ e, (g e).length = k) (n e : Nat) (he : e < n) :
    (((List.range n).flatMap g).drop (k * e)).take k = g e := by
  induction n with
  | zero => exact absurd he (Nat.not_lt_zero _)
  | succ n ih =>
    have hlen : ((List.range n).flatMap g).length = k * n := by
      rw [List.length_flatMap, List.map_congr_left (fun a _ => hg a), List.map_const', List.sum_replicate, List.length_range, smul_eq_mul,
        Nat.mul_comm]
    rw [List.range_succ, List.flatMap_append, List.flatMap_singleton]
    rcases Nat.lt_or_eq_of_le (Nat.le_of_lt_succ he) with hlt | rfl
    · have hle : k * e + k ≤ k * n := by rw [← Nat.mul_succ]; exact Nat.mul_le_mul_left k hlt
      rw [List.drop_append_of_le_length (by omega), List.take_append_of_le_length (by rw [List.length_drop]; omega), ih hlt]
    · rw [List.drop_append, hlen, Nat.sub_self, List.drop_zero, List.drop_of_length_le (by omega), List.nil_append,
        List.take_of_length_le (hg e).le]

theorem bits_eq (v hi lo : Nat) : bits v hi lo = v / 2 ^ lo % 2 ^ (hi + 1 - lo) := by rw [bits, Nat.shiftRight_eq_div_pow]

/-- Where the rows of an operation stand. -/
theorem rows_stand (m : Message) (list : List Nat) (i : Nat) :
    (m.op = 1 → m.rows = 1 ∧ m.rowBytes = m.d 2 ∧ m.dstRow list i = m.d 4 ∧ m.srcRow i = m.d 3) ∧
    (m.op = 2 → m.rows = m.d 2 / 2 ^ 32 % 2 ^ 32 ∧ m.rowBytes = m.d 2 % 2 ^ 32 ∧
      m.dstRow list i = m.d 4 + i * (m.d 5 / 2 ^ 32 % 2 ^ 32) ∧ m.srcRow i = m.d 3 + i * (m.d 5 % 2 ^ 32)) ∧
    (m.op = 3 → m.rows = 1 ∧ m.rowBytes = m.d 2 ∧ m.dstRow list i = m.d 4) ∧
    (m.op = 0x10 → m.rows = 1 ∧ m.rowBytes = m.d 2 * (if m.fmt = 2 then 2 else 4) ∧ m.dstRow list i = m.d 4) ∧
    (m.op = 0x11 → m.rows = m.n ∧ m.rowBytes = m.d 2 ∧ m.dstRow list i = list.getD i 0 ∧ m.srcRow i = m.d 3) := by
  have hhi (v : Nat) : bits v 63 32 = v / 2 ^ 32 % 2 ^ 32 := bits_eq ..
  have hlo (v : Nat) : bits v 31 0 = v % 2 ^ 32 := by rw [bits_eq, Nat.pow_zero, Nat.div_one]
  refine ⟨fun h => ?_, fun h => ?_, fun h => ?_, fun h => ?_, fun h => ?_⟩ <;>
    simp only [Message.rows, Message.rowBytes, Message.dstRow, Message.srcRow, h, hhi, hlo, collectiveWidth] <;> trivial

theorem pieceBytes_fill (s : State) (unit : Nat) (m : Message) (run : EngineRun) (row off n : Nat) (h : m.op = 3) :
    s.pieceBytes unit m run row off n = .ok ((List.range n).map (fun i => ((natBytes 8 (m.d 3)).getD ((off + i) % 8) 0#8, false))) := by
  simp only [State.pieceBytes, h]

/-- The bytes of one element of an INT32 sum, with the poison of what it is made of. -/
def sumBytes (s : State) (xs : List (List (Byte × Bool))) (e : Nat) : List (Byte × Bool) :=
  (natBytes 4 (reduceElem 10 0 (fun k => (Config.freeWord (s.fresh + 128 * e + k)).toNat)
    ((xs.map (fun x => (x.drop (4 * e)).take 4)).map (fun b => leNat (b.map Prod.fst))))).map
      (fun b => (b, (xs.map (fun x => (x.drop (4 * e)).take 4)).any (fun b => b.any Prod.snd)))

theorem pieceBytes_sum (s : State) (unit : Nat) (m : Message) (run : EngineRun) (row off n : Nat) (h : m.op = 0x10) (hf : m.fmt = 10)
    (hr : m.rop = 0) {xs : List (List (Byte × Bool))} (hx : s.engineReads unit m off n run.list = .ok xs) :
    s.pieceBytes unit m run row off n = .ok ((List.range (n / 4)).flatMap (sumBytes s xs)) := by
  simp only [State.pieceBytes, h, hx, hf, hr, collectiveWidth]
  rfl

theorem sumBytes_length (s : State) (xs : List (List (Byte × Bool))) (e : Nat) : (sumBytes s xs e).length = 4 := by
  rw [sumBytes, List.length_map, natBytes_length]

/-- An element of an INT32 sum is the sum modulo 2^32 of the sources' elements. -/
theorem leNat_sumBytes (s : State) (xs : List (List (Byte × Bool))) (e : Nat) (hne : xs ≠ []) :
    leNat ((sumBytes s xs e).map Prod.fst) = (xs.map (fun x => leNat (((x.drop (4 * e)).take 4).map Prod.fst))).sum % 2 ^ 32 := by
  have hfst (p : Bool) (bs : List Byte) : (bs.map (fun b => (b, p))).map Prod.fst = bs := by
    rw [List.map_map]
    exact List.map_id _
  have hlt (x : List (Byte × Bool)) : leNat (((x.drop (4 * e)).take 4).map Prod.fst) < 2 ^ 32 := by
    refine lt_of_lt_of_le (leNat_lt _) ?_
    rw [show (2 : Nat) ^ 32 = 256 ^ 4 by decide]
    refine Nat.pow_le_pow_right (by decide) ?_
    rw [List.length_map, List.length_take]
    exact Nat.min_le_left ..
  rw [sumBytes, hfst, leNat_natBytes, reduceElem_int, List.map_map, combineAll_sum _ _ (by simpa using hne)]
  · exact Nat.mod_mod ..
  · intro x hx
    obtain ⟨y, -, rfl⟩ := List.mem_map.mp hx
    exact hlt y

theorem bulkValues : BulkValues := by
  refine ⟨rows_stand, fun s unit m run row off n => ⟨fun h => ?_, fun h => ?_, fun h hf hr hn xs hx hne => ?_⟩,
    fun free xs hne => ⟨combineAll_sum free xs hne, ?_, ?_⟩⟩
  · rcases h with h | h | h <;> simp only [State.pieceBytes, h]
  · refine ⟨_, pieceBytes_fill s unit m run row off n h, by rw [List.length_map, List.length_range], fun i hi => ?_⟩
    rw [List.getElem?_map, List.getElem?_range hi, Option.map_some, natBytes_getD _ _ _ (Nat.mod_lt _ (by decide)), Nat.pow_mul]
  · refine ⟨_, pieceBytes_sum s unit m run row off n h hf hr hx, fun e he => ?_⟩
    rw [block_flatMap (sumBytes_length s xs) _ _ he, leNat_sumBytes s xs e hne]
  · exact combineAll_best (le := fun a b => signedOf 32 a ≤ signedOf 32 b) combine_min (fun _ => le_rfl) (fun _ _ _ => le_trans) free xs hne
  · exact combineAll_best (le := fun a b => signedOf 32 b ≤ signedOf 32 a) combine_max (fun _ => le_rfl) (fun _ _ _ h h' => le_trans h' h)
      free xs hne

/-- Settles O59: an operation begins, goes on and ends, and what its bytes are. -/
theorem bulkEngines : Obligations.BulkEngines := ⟨bulkOperations, bulkValues⟩

/-! Tile copies (R417). -/

section TileCopies

variable {s : State} {cell : Nat} {m : Message}

theorem engineRef_numbered (s : State) (m : Message) (v : Nat) : (numbered s).engineRef m v = s.engineRef m v := rfl

variable (hm : s.messageHead 0 cell = some m) (ho : m.op = 4) (hmv : s.cellMoves cell = true)

include hm ho hmv

/-- A copy out of a pool slot. -/
theorem tcopy_out (hb : (m.d 2).testBit 0 = true) :
    ((numbered s).engineRef m (m.d 3) = none → exec (.tcopy cell) s = .next ((numbered s).endOp 0 cell m s.fresh 0x10 (m.d 3))) ∧
    (∀ c k0, (numbered s).engineRef m (m.d 3) = some (c, k0) →
      ((numbered s).admitRead c m.sender m.ctx (m.d 3 % 65536) ((m.d 2).testBit 2) = .waiting → exec (.tcopy cell) s = .next s) ∧
      (∀ code, (numbered s).admitRead c m.sender m.ctx (m.d 3 % 65536) ((m.d 2).testBit 2) = .fault code →
        exec (.tcopy cell) s = .next ((numbered s).endOp 0 cell m s.fresh 0x10 (m.d 3))) ∧
      (∀ t c' k w, (numbered s).admitRead c m.sender m.ctx (m.d 3 % 65536) ((m.d 2).testBit 2) = .admitted t →
        t.engineRef m (m.d 3) = some (c', k) →
        t.placeTile (unitOf cell) s.fresh m (k.desc.toNat / 4096) (t.slotData c k) (some k.sidecar) = .ok (some w) →
        (descFmt k.desc = 11 ∨ s.slotSums c k = k.sidecar) →
        exec (.tcopy cell) s = .next (((w.endRead c m.sender k.first ((m.d 2).testBit 2)).endOp 0 cell m s.fresh
          (if (t.slotData c k).any Prod.snd then 0x40 else 0) 0).fire m.region)) ∧
      (∀ t c' k, (numbered s).admitRead c m.sender m.ctx (m.d 3 % 65536) ((m.d 2).testBit 2) = .admitted t →
        t.engineRef m (m.d 3) = some (c', k) → descFmt k.desc ≠ 11 → s.slotSums c k ≠ k.sidecar →
        exec (.tcopy cell) s = .next ((((t.modPool c m.sender (fun p => (p.abortRead k.first ((m.d 2).testBit 2)).sweep
          (t.waveOf c))).dropMessage 0 cell).cause m.region 0x40)))) := by
  have hgo : (decide (m.op ≠ 4) || !s.cellMoves cell) = false := by simp [ho, hmv]
  refine ⟨fun hr => ?_, fun c k0 hr => ⟨fun ha => ?_, fun code ha => ?_, fun t c' k w ha hk hp hs => ?_, fun t c' k ha hk hf hs => ?_⟩⟩
  · rw [engineRef_numbered] at hr
    show execTcopy cell s = _
    simp only [execTcopy, hm, hgo, hb, hr, Bool.false_eq_true, if_false, if_true, stPool, numbered]
  · rw [engineRef_numbered] at hr
    simp only [numbered] at ha
    show execTcopy cell s = _
    simp only [execTcopy, hm, hgo, hb, hr, ha, Bool.false_eq_true, if_false, if_true]
  · rw [engineRef_numbered] at hr
    simp only [numbered] at ha
    show execTcopy cell s = _
    simp only [execTcopy, hm, hgo, hb, hr, ha, Bool.false_eq_true, if_false, if_true, stPool, numbered]
  · rw [engineRef_numbered] at hr
    simp only [numbered] at ha
    have hsum : (decide (descFmt k.desc ≠ 11) && decide (s.slotSums c k ≠ k.sidecar)) = false := by
      rcases hs with h | h <;> simp [h]
    show execTcopy cell s = _
    simp only [execTcopy, hm, hgo, hb, hr, ha, hk, hsum, Bool.false_eq_true, if_false, if_true, tileCopy, descShape, hp, stPoison]
  · rw [engineRef_numbered] at hr
    simp only [numbered] at ha
    have hsum : (decide (descFmt k.desc ≠ 11) && decide (s.slotSums c k ≠ k.sidecar)) = true := by simp [hf, hs]
    show execTcopy cell s = _
    simp only [execTcopy, hm, hgo, hb, hr, ha, hk, hsum, Bool.false_eq_true, if_false, if_true]

/-- A copy out of memory. -/
theorem tcopy_in (hb : (m.d 2).testBit 0 = false) :
    ((numbered s).engineRef m (m.d 4) = none → exec (.tcopy cell) s = .next ((numbered s).endOp 0 cell m s.fresh 0x10 (m.d 4))) ∧
    (∀ c k, (numbered s).engineRef m (m.d 4) = some (c, k) →
      (k.desc.toNat / 4096 ≠ m.d 5 / 4096 →
        exec (.tcopy cell) s = .next ((numbered s).endOp 0 cell m s.fresh 0x10 (m.d 4))) ∧
      (k.desc.toNat / 4096 = m.d 5 / 4096 →
        (∀ st f, (numbered s).engineRead (unitOf cell) m (m.d 3) (descBytes k.desc (4096 * k.n)) = .error (.ended st f) →
          exec (.tcopy cell) s = .next ((numbered s).endOp 0 cell m s.fresh st f)) ∧
        (∀ bs, (numbered s).engineRead (unitOf cell) m (m.d 3) (descBytes k.desc (4096 * k.n)) = .ok bs →
          (m.d 2).testBit 1 = true →
          ((k.state ≠ .filling ∨ k.owner ≠ m.sender) →
            exec (.tcopy cell) s = .next ((numbered s).endOp 0 cell m s.fresh 0x10 (m.d 4))) ∧
          (k.state = .filling → k.owner = m.sender → exec (.tcopy cell) s =
            .next ((((numbered s).fillTile c m.sender k bs none).endOp 0 cell m s.fresh (if bs.any Prod.snd then 0x40 else 0) 0).fire
              m.region))))) := by
  have hgo : (decide (m.op ≠ 4) || !s.cellMoves cell) = false := by simp [ho, hmv]
  refine ⟨fun hr => ?_, fun c k hr => ⟨fun hs => ?_, fun hs => ⟨fun st f he => ?_, fun bs he hp => ⟨fun hn => ?_, fun hf hown => ?_⟩⟩⟩⟩
  · simp only [numbered] at hr
    show execTcopy cell s = _
    simp only [execTcopy, hm, hgo, hb, hr, Bool.false_eq_true, if_false, stPool, numbered]
  · simp only [numbered] at hr
    show execTcopy cell s = _
    simp only [execTcopy, hm, hgo, hb, hr, Bool.false_eq_true, if_false, descShape, ne_eq, hs, not_false_eq_true, if_true, stPool, numbered]
  · simp only [numbered] at hr he
    show execTcopy cell s = _
    simp only [execTcopy, hm, hgo, hb, hr, Bool.false_eq_true, if_false, descShape, ne_eq, hs, not_true_eq_false, he, numbered]
  · have hbad : (decide (k.state ≠ .filling) || decide (k.owner ≠ m.sender) || decide (m.d 5 / 4096 ≠ m.d 5 / 4096)) = true := by
      rcases hn with h | h <;> simp [h]
    simp only [numbered] at hr he
    show execTcopy cell s = _
    simp only [execTcopy, hm, hgo, hb, hr, Bool.false_eq_true, if_false, descShape, ne_eq, hs, not_true_eq_false, he, tileCopy,
      State.placeTile, hp, if_true, stPool, numbered] at hbad ⊢
    rw [if_pos hbad]
  · have hgood : (decide (k.state ≠ .filling) || decide (k.owner ≠ m.sender) || decide (m.d 5 / 4096 ≠ m.d 5 / 4096)) = false := by
      simp [hf, hown]
    simp only [numbered] at hr he
    show execTcopy cell s = _
    simp only [execTcopy, hm, hgo, hb, hr, Bool.false_eq_true, if_false, descShape, ne_eq, hs, not_true_eq_false, he, tileCopy,
      State.placeTile, hp, if_true, stPoison, numbered] at hgood ⊢
    rw [if_neg (by rw [hgood]; decide)]

end TileCopies

/-- Settles O13: a tile copy out of a pool slot, or into one. -/
theorem tileCopies : Obligations.TileCopies := fun _ _ _ hm ho hmv => ⟨tcopy_out hm ho hmv, tcopy_in hm ho hmv⟩

end Sys2Proof.Bulk
end

section
/-! SUPPORT. The dispatch of tasks (R388-R394). -/

namespace Sys2Proof.Dispatching

open Sys2Proof Sys2Proof.Machine Sys2Proof.Spec

/-! Dispatch (R389, R390). -/

section

variable {s : State} {bay : Nat} {r : Record} {w : BitVec 256}

theorem dispatchGo_one_none (hw : w &&& r.waits = r.waits) (hn : ∀ h ∈ matching bay r.cells r.classes, s.eligible r h = false) :
    dispatchGo bay [r] 4 w s = s := by
  have hf : (matching bay r.cells r.classes).find? (s.eligible r) = none :=
    List.find?_eq_none.mpr fun h hm => by rw [hn h hm]; decide
  rw [dispatchGo, if_pos hw, hf]
  rfl

theorem dispatchGo_one_some (hw : w &&& r.waits = r.waits) {pre post : List Nat} {h : Nat}
    (hm : matching bay r.cells r.classes = pre ++ h :: post) (hpre : ∀ k ∈ pre, s.eligible r k = false) (hh : s.eligible r h = true) :
    dispatchGo bay [r] 4 w s = s.startRecord bay r h := by
  have hf : (matching bay r.cells r.classes).find? (s.eligible r) = some h :=
    List.find?_eq_some_iff_append.mpr ⟨hh, pre, post, hm, fun k hk => by rw [hpre k hk]; rfl⟩
  rw [dispatchGo, if_pos hw, hf]
  rfl

end

/-! The start of a task (R120, R394). -/

/-- The registers that a task of a context finds: those of the hart where its last task was of the same context, else cleared. -/
def kept (x : Hart) (ctx : Nat) : Hart :=
  if x.lastCtx = some ctx then x else { x with x := Hart.reset.x, v := Hart.reset.v, m := Hart.reset.m, p := Hart.reset.p }

/-- A hart with the four arguments of a record in x20-x23. -/
def withArgs (r : Record) (y : Hart) : Hart :=
  (List.range 4).foldl (fun (y : Hart) k => y.setX (BitVec.ofNat 5 (20 + k)) ⟨r.args.getD k 0#64, 24#5, r.argPoison.getD k false⟩) y

theorem start_files (x : Hart) (clk : Nat) (str : Bool) (r : Record) (tagbase : Word) :
    (x.start clk str r tagbase).x = (withArgs r (kept x r.ctx)).x ∧ (x.start clk str r tagbase).v = (withArgs r (kept x r.ctx)).v ∧
      (x.start clk str r tagbase).m = (withArgs r (kept x r.ctx)).m ∧ (x.start clk str r tagbase).p = (withArgs r (kept x r.ctx)).p ∧
      (x.start clk str r tagbase).instret = (withArgs r (kept x r.ctx)).instret := ⟨rfl, rfl, rfl, rfl, rfl⟩

/-- The arguments one after the other. -/
theorem withArgs_eq (r : Record) (y : Hart) : withArgs r y =
    (((y.setX 20#5 ⟨r.args.getD 0 0#64, 24#5, r.argPoison.getD 0 false⟩).setX 21#5 ⟨r.args.getD 1 0#64, 24#5, r.argPoison.getD 1 false⟩).setX
      22#5 ⟨r.args.getD 2 0#64, 24#5, r.argPoison.getD 2 false⟩).setX 23#5 ⟨r.args.getD 3 0#64, 24#5, r.argPoison.getD 3 false⟩ := rfl

theorem xval_withArgs (r : Record) (y : Hart) : ∀ k, k < 4 →
    (withArgs r y).xval (BitVec.ofNat 5 (20 + k)) = ⟨r.args.getD k 0#64, 24#5, r.argPoison.getD k false⟩
  | 0, _ => by
    rw [withArgs_eq, Hart.xval_setX_ne _ (by decide), Hart.xval_setX_ne _ (by decide), Hart.xval_setX_ne _ (by decide)]
    exact Hart.xval_setX_self _ (by decide) (by decide) _
  | 1, _ => by
    rw [withArgs_eq, Hart.xval_setX_ne _ (by decide), Hart.xval_setX_ne _ (by decide)]
    exact Hart.xval_setX_self _ (by decide) (by decide) _
  | 2, _ => by
    rw [withArgs_eq, Hart.xval_setX_ne _ (by decide)]
    exact Hart.xval_setX_self _ (by decide) (by decide) _
  | 3, _ => by
    rw [withArgs_eq]
    exact Hart.xval_setX_self _ (by decide) (by decide) _
  | k + 4, h => absurd h (by omega)

theorem xval_withArgs_other (r : Record) (y : Hart) (k : Reg) (hk : k.toNat < 20 ∨ 24 ≤ k.toNat) : (withArgs r y).xval k = y.xval k := by
  have hne (n : Nat) (h1 : 20 ≤ n) (h2 : n < 24) : k ≠ BitVec.ofNat 5 n := by
    intro e
    have := congrArg BitVec.toNat e
    rw [BitVec.toNat_ofNat, Nat.mod_eq_of_lt (by omega)] at this
    omega
  rw [withArgs_eq, Hart.xval_setX_ne _ (hne 23 (by decide) (by decide)), Hart.xval_setX_ne _ (hne 22 (by decide) (by decide)),
    Hart.xval_setX_ne _ (hne 21 (by decide) (by decide)), Hart.xval_setX_ne _ (hne 20 (by decide) (by decide))]

theorem setX_files (y : Hart) (k : Reg) (v : UVal) :
    (y.setX k v).v = y.v ∧ (y.setX k v).m = y.m ∧ (y.setX k v).p = y.p ∧ (y.setX k v).instret = y.instret := by
  unfold Hart.setX
  split <;> exact ⟨rfl, rfl, rfl, rfl⟩

theorem withArgs_files (r : Record) (y : Hart) :
    (withArgs r y).v = y.v ∧ (withArgs r y).m = y.m ∧ (withArgs r y).p = y.p ∧ (withArgs r y).instret = y.instret := by
  rw [withArgs_eq]
  simp only [(setX_files _ _ _).1, (setX_files _ _ _).2.1, (setX_files _ _ _).2.2.1, (setX_files _ _ _).2.2.2, and_self]

theorem xval_of_x {a b : Hart} (h : a.x = b.x) (k : Reg) : a.xval k = b.xval k := by rw [Hart.xval, Hart.xval, h]

theorem kept_instret (x : Hart) (ctx : Nat) : (kept x ctx).instret = x.instret := by
  unfold kept
  split <;> rfl

theorem kept_same {x : Hart} {ctx : Nat} (h : x.lastCtx = some ctx) : kept x ctx = x := if_pos h

theorem kept_other {x : Hart} {ctx : Nat} (h : x.lastCtx ≠ some ctx) : (kept x ctx).x = Hart.reset.x ∧ (kept x ctx).v = Hart.reset.v ∧
    (kept x ctx).m = Hart.reset.m ∧ (kept x ctx).p = Hart.reset.p := by
  rw [kept, if_neg h]
  exact ⟨rfl, rfl, rfl, rfl⟩

theorem started_hart (x : Hart) (clk : Nat) (str : Bool) (r : Record) (tagbase : Word) :
    let y := x.start clk str r tagbase
    y.fetchFrom = clk + 1 ∧ y.pc = r.pc ∧ y.fcsr = 0#8 ∧ y.sigEn = false ∧ y.hnd = false ∧ y.nut = false ∧ y.gid = 0#64 ∧
    y.tvec = 0#64 ∧ y.tagbase = tagbase ∧ y.task = some ⟨r.ctx, r.region, r.cfgid, r.setm, r.fromHost⟩ ∧ y.instret = x.instret ∧
    (∀ k, k < 4 → y.xval (BitVec.ofNat 5 (20 + k)) = ⟨r.args.getD k 0#64, 24#5, r.argPoison.getD k false⟩) ∧
    (∀ k : Reg, k.toNat < 20 ∨ 24 ≤ k.toNat → y.xval k = if x.lastCtx = some r.ctx then x.xval k else Hart.reset.xval k) ∧
    (x.lastCtx ≠ some r.ctx → y.v = Hart.reset.v ∧ y.m = Hart.reset.m ∧ y.p = Hart.reset.p) ∧
    (x.lastCtx = some r.ctx → y.v = x.v ∧ y.m = x.m ∧ y.p = x.p) := by
  obtain ⟨hx, hv, hm, hp, hi⟩ := start_files x clk str r tagbase
  obtain ⟨av, am, ap, ai⟩ := withArgs_files r (kept x r.ctx)
  refine ⟨rfl, rfl, rfl, rfl, rfl, rfl, rfl, rfl, rfl, rfl, hi.trans (ai.trans (kept_instret ..)), fun k hk => ?_, fun k hk => ?_, fun h => ?_,
    fun h => ?_⟩
  · rw [xval_of_x hx, xval_withArgs r _ k hk]
  · rw [xval_of_x hx, xval_withArgs_other r _ k hk]
    split
    · next h => rw [kept_same h]
    · next h => exact xval_of_x (kept_other h).1 k
  · obtain ⟨-, kv, km, kp⟩ := kept_other h
    exact ⟨hv.trans (av.trans kv), hm.trans (am.trans km), hp.trans (ap.trans kp)⟩
  · rw [hv, hm, hp, av, am, ap, kept_same h]
    exact ⟨rfl, rfl, rfl⟩

/-! Ageing (R391). -/

theorem ready_promote (b : Bay) : ∀ i, i < 4 → ((b.promote.ready[i]?).getD []) =
    (((b.ready[i]?).getD []).filter (fun e => i = 3 ∨ e.2 < 4096)) ++
      (if i = 0 then [] else (((b.ready[i - 1]?).getD []).filter (fun e => 4096 ≤ e.2)).map (fun e => (e.1, 0)))
  | 0, _ => by simp [Bay.promote, ageLimit]; rfl
  | 1, _ => by simp [Bay.promote, ageLimit]; rfl
  | 2, _ => by simp [Bay.promote, ageLimit]; rfl
  | 3, _ => by simp [Bay.promote, ageLimit]; rfl
  | i + 4, h => absurd h (by omega)

/-- Settles O14: a dispatch starts the one ready record where a hart is eligible, and old records move up. -/
theorem taskUnit : Obligations.TaskUnit := by
  refine ⟨fun s bay => ⟨fun ho => ?_, fun r ho hw => ⟨fun hn => ?_, fun pre h post hm hpre hh => ?_⟩⟩, started_hart, fun s bay => ?_⟩
  · show (.next (dispatchGo bay _ 4 _ _) : Out) = _
    rw [ho]
    rfl
  · show (.next (dispatchGo bay _ 4 _ _) : Out) = _
    rw [ho, dispatchGo_one_none hw hn]
  · show (.next (dispatchGo bay _ 4 _ _) : Out) = _
    rw [ho, dispatchGo_one_some hw hm hpre hh]
  · refine ⟨s.modBay bay Bay.promote, rfl, ?_, fun i hi => ?_, rfl, rfl, rfl⟩
    · rw [State.bayAt_modBay_self]
      rfl
    · rw [State.bayAt_modBay_self]
      exact ready_promote _ i hi

end Sys2Proof.Dispatching
end

section
/-! SUPPORT. The packets of the dynamic network (R406-R408). -/

namespace Sys2Proof.Packets

open Sys2Proof Sys2Proof.Machine Sys2Proof.Spec Sys2Proof.Bulk Sys2Proof.Frames

section Taking

variable {s : State} {n type : Nat} {p : Packet}

/-! The order of packets (R407). -/

theorem samePair_iff (a b : Packet) : a.samePair b = true ↔ a.reply = b.reply ∧ a.src = b.src ∧ a.dst = b.dst := by
  simp only [Packet.samePair, Bool.and_eq_true, decide_eq_true_eq, and_assoc]

theorem takePacket_arrives (h : Arrives s n type p) : s.takePacket n type = some (p, without s n) := by
  obtain ⟨hp, ht, hq, hw⟩ := h
  have hno : (s.net.take n).any p.samePair = false := by
    refine List.any_eq_false.mpr fun q hm hs => hq q hm ?_
    obtain ⟨h1, h2, h3⟩ := (samePair_iff p q).mp hs
    exact ⟨h1.symm, h2.symm, h3.symm⟩
  rw [State.takePacket, hp]
  exact if_pos (by simp only [ht, hno, hw, decide_true, Bool.not_false, Bool.and_self])

theorem takePacket_absent (h : s.net[n]? = none) : s.takePacket n type = none := by rw [State.takePacket, h]

theorem takePacket_held (hp : s.net[n]? = some p) (h : p.type ≠ type ∨ s.waitsOutside p = true ∨
    (∃ q ∈ s.net.take n, q.reply = p.reply ∧ q.src = p.src ∧ q.dst = p.dst)) : s.takePacket n type = none := by
  rw [State.takePacket, hp]
  refine if_neg fun hc => ?_
  simp only [Bool.and_eq_true, Bool.not_eq_true', decide_eq_true_eq] at hc
  obtain ⟨⟨ht, hs⟩, hw⟩ := hc
  rcases h with h | h | ⟨q, hm, h1, h2, h3⟩
  · exact h ht
  · rw [hw] at h
    exact Bool.noConfusion h
  · exact absurd ((samePair_iff p q).mpr ⟨h1.symm, h2.symm, h3.symm⟩) (List.any_eq_false.mp hs q hm)

/-- A packet that is not taken changes nothing. -/
theorem exec_untaken (s : State) (n : Nat) : ∀ c ∈ [(Instr.read n, 0), (.write n, 1), (.atomic n, 2), (.readReply n, 3),
      (.writeAcknowledgement n, 4), (.taskRecord n, 5), (.activeMessage n, 6), (.inboxAcknowledgement n, 7), (.poolRequest n, 8),
      (.poolReply n, 9), (.walkRequest n, 10), (.walkReply n, 11), (.interrupt n, 12), (.purge n, 13), (.purgeAcknowledgement n, 14)],
    s.takePacket n c.2 = none → exec c.1 s = .next s := by
  simp only [List.forall_mem_cons]
  refine ⟨fun h => (?_ : execRead n s = _), fun h => (?_ : execWrite n s = _), fun h => (?_ : execAtomic n s = _),
    fun h => (?_ : execReadReply n s = _), fun h => (?_ : execWriteAcknowledgement n s = _), fun h => (?_ : execTaskRecord n s = _),
    fun h => (?_ : execActiveMessage n s = _), fun h => (?_ : execInboxAcknowledgement n s = _), fun h => (?_ : execPoolRequest n s = _),
    fun h => (?_ : execPoolReply n s = _), fun h => (?_ : execWalkRequest n s = _), fun h => (?_ : execWalkReply n s = _),
    fun h => (?_ : execInterrupt n s = _), fun h => (?_ : execPurge n s = _), fun h => (?_ : execPurgeAcknowledgement n s = _),
    fun _ h => absurd h List.not_mem_nil⟩
  · rw [execRead, h]
  · rw [execWrite, h]
  · rw [execAtomic, h]
  · rw [execReadReply, h]
  · rw [execWriteAcknowledgement, h]
  · rw [execTaskRecord, h]
  · rw [execActiveMessage, h]
  · rw [execInboxAcknowledgement, h]
  · rw [execPoolRequest, h]
  · rw [execPoolReply, h]
  · rw [execWalkRequest, h]
  · rw [execWalkReply, h]
  · rw [execInterrupt, h]
  · rw [execPurge, h]
  · rw [execPurgeAcknowledgement, h]

end Taking

theorem packetOrder : PacketOrder := fun s n c hc =>
  ⟨fun h => exec_untaken s n c hc (takePacket_absent h), fun _ hp h => exec_untaken s n c hc (takePacket_held hp h)⟩

/-! Reads, writes, atomics and what comes back (R406). -/

section Memory

variable {s : State} {n : Nat} {p : Packet} {q : Request}

theorem takeRequest_some (h : s.requests.find? (fun q => q.xid = p.xid) = some q) :
    s.takeRequest p.xid = some (q, { s with requests := s.requests.filter (fun r => r.xid ≠ p.xid) }) := by
  rw [State.takeRequest, h]

theorem takeRequest_none (h : s.requests.find? (fun q => q.xid = p.xid) = none) : s.takeRequest p.xid = none := by
  rw [State.takeRequest, h]

theorem exec_read (h : Arrives s n 0 p) (hq : s.requests.find? (fun q => q.xid = p.xid) = some q) : exec (.read n) s =
    .next ((without s n).send ⟨3, true, p.dev, p.src, p.dst, p.ctx, p.xid, p.addr,
      (List.range 64).map (fun k => (without s n).viewByte q.region (p.addr + k)),
      (List.range 8).map (fun u => (without s n).viewPoison q.region (p.addr / 8 + u))⟩) := by
  show execRead n s = _
  have hr : (without s n).requestOf p.xid = some q := hq
  simp only [execRead, takePacket_arrives h, hr]
  rfl

theorem peerAnswer_mem (w : Word) : peerAnswer w ∈ [0, 0x20, 0x02, 0x04] := by
  have hlt : w.toNat % 4 < 4 := Nat.mod_lt _ (by decide)
  unfold peerAnswer
  interval_cases w.toNat % 4 <;> decide

theorem exec_write (h : Arrives s n 1 p) :
    let t := without s n
    let ack (status : Nat) (at' : List Byte) : Packet := ⟨4, true, p.dev, p.src, p.dst, p.ctx, p.xid, status, at', []⟩
    ((p.dst, p.ctx) ∈ s.pkg.purged → exec (.write n) s = .next t) ∧
    ((p.dst, p.ctx) ∉ s.pkg.purged → p.dev = 0 → p.dst = memNode p.addr → exec (.write n) s =
      .next ({ t with mem := t.mem.writeUnits p.addr p.payload p.poison }.send (ack 0 []))) ∧
    ((p.dst, p.ctx) ∉ s.pkg.purged → p.dev = 0 → p.dst ≠ memNode p.addr → exec (.write n) s =
      .next ((t.modCell p.dst (fun c => { c with sram := c.sram.writeUnits (p.addr % 0x400000) p.payload p.poison })).send (ack 0 []))) ∧
    ((p.dst, p.ctx) ∉ s.pkg.purged → p.dev ≠ 0 → s.requests.find? (fun q => q.xid = p.xid) = none → exec (.write n) s = .next t) ∧
    (∀ q, (p.dst, p.ctx) ∉ s.pkg.purged → p.dev ≠ 0 → s.requests.find? (fun q => q.xid = p.xid) = some q →
      ∃ status, status ∈ [0, 0x20, 0x02, 0x04] ∧
        exec (.write n) s = .next ({ t with fresh := t.fresh + 1 }.send (ack status (natBytes 8 p.addr)))) := by
  have hex : exec (.write n) s = execWrite n s := rfl
  have htake := takePacket_arrives h
  have hpurged : (without s n).isPurged p.dst p.ctx = true ↔ (p.dst, p.ctx) ∈ s.pkg.purged := List.contains_iff_mem
  have hreq : (without s n).requestOf p.xid = s.requests.find? (fun q => q.xid = p.xid) := rfl
  refine ⟨fun hp => ?_, fun hp hd hm => ?_, fun hp hd hm => ?_, fun hp hd hr => ?_, fun q hp hd hr => ⟨_, peerAnswer_mem (Config.freeWord (without s n).fresh), ?_⟩⟩
  · simp only [hex, execWrite, htake, if_pos (hpurged.mpr hp)]
  · simp only [hex, execWrite, htake, if_neg (mt hpurged.mp hp), if_neg (not_not.mpr hd), if_pos hm]
    rfl
  · simp only [hex, execWrite, htake, if_neg (mt hpurged.mp hp), if_neg (not_not.mpr hd), if_neg hm]
    rfl
  · simp only [hex, execWrite, htake, if_neg (mt hpurged.mp hp), if_pos hd, hreq, hr]
  · simp only [hex, execWrite, htake, if_neg (mt hpurged.mp hp), if_pos hd, hreq, hr]
    rfl

theorem exec_atomicPacket {op : AmoOp} (h : Arrives s n 2 p) (hp : (p.dst, p.ctx) ∉ s.pkg.purged)
    (ho : packetOp (dwordAt p.payload 0) = some op) :
    let t := without s n
    let k := if dwordAt p.payload 8 = 4 then 4 else 8
    let old := leNat (t.mem.read p.addr k)
    let ack : Packet := ⟨3, true, p.dev, p.src, p.dst, p.ctx, p.xid, p.addr, natBytes k old, [t.mem.anyPoison p.addr k]⟩
    let new := amoValue op (8 * k) old (dwordAt p.payload 16 % 2 ^ (8 * k)) (dwordAt p.payload 24 % 2 ^ (8 * k))
    (new = none → exec (.atomic n) s = .next (t.send ack)) ∧
    (∀ v, new = some v → ∃ q, exec (.atomic n) s = .next ({ t with mem := t.mem.write p.addr (natBytes k v) q }.send ack)) := by
  have hex : exec (.atomic n) s = execAtomic n s := rfl
  have hpurged : ¬ (without s n).isPurged p.dst p.ctx = true := mt List.contains_iff_mem.mp hp
  intro t k old ack new
  refine ⟨fun hn => ?_, fun v hn => ⟨amoPoison op (t.mem.anyPoison p.addr k) (p.poison.getD 2 false), ?_⟩⟩
  · simp only [new, old, k, t] at hn
    simp only [hex, execAtomic, takePacket_arrives h, if_neg hpurged, ho, hn]
    rfl
  · simp only [new, old, k, t] at hn
    simp only [hex, execAtomic, takePacket_arrives h, if_neg hpurged, ho, hn]
    rfl

/-- A line of the L1 that comes in, the oldest of 1,024 leaving (R20, R376). -/
def withLine (x : L1Line) (ls : List L1Line) : List L1Line :=
  (ls.filter (fun l => l.pa ≠ x.pa) ++ [x]).drop ((ls.filter (fun l => l.pa ≠ x.pa) ++ [x]).length - 1024)

theorem mem_withLine (x : L1Line) (ls : List L1Line) : x ∈ withLine x ls := by
  rw [withLine, List.drop_append_of_le_length (by rw [List.length_append, List.length_singleton]; omega)]
  exact List.mem_append_right _ (List.mem_singleton_self x)

theorem length_withLine (x : L1Line) (ls : List L1Line) : (withLine x ls).length ≤ 1024 := by
  rw [withLine, List.length_drop]
  omega

theorem nodup_withLine {x : L1Line} {ls : List L1Line} (h : (ls.map L1Line.pa).Nodup) : ((withLine x ls).map L1Line.pa).Nodup := by
  have hall : ((ls.filter (fun l => l.pa ≠ x.pa) ++ [x]).map L1Line.pa).Nodup := by
    rw [List.map_append, List.nodup_append]
    refine ⟨h.sublist (List.filter_sublist.map _), List.nodup_singleton _, fun a ha b hb => ?_⟩
    obtain ⟨l, hl, rfl⟩ := List.mem_map.mp ha
    rw [List.map_singleton, List.mem_singleton] at hb
    rw [hb]
    simpa using (List.mem_filter.mp hl).2
  exact hall.sublist ((List.drop_sublist ..).map _)

/-- A load into which a line has come. -/
def filled (id pa : Nat) (p : Packet) (l : Load) : Load :=
  if l.id = id then { l with lines := l.lines.map (fun k => if k.pa = pa then { k with data := some (p.payload, p.poison) } else k) } else l

/-- A hart whose load a line has reached. -/
def reached (id pa : Nat) (p : Packet) (y : Hart) : Hart := { y with loads := y.loads.map (filled id pa p) }

theorem reached_loads (id pa : Nat) (p : Packet) (y : Hart) : (reached id pa p y).loads = y.loads.map (filled id pa p) := rfl

theorem reached_x (id pa : Nat) (p : Packet) (y : Hart) : (reached id pa p y).x = y.x := rfl

/-- The line at an address as region r sees it. -/
def lineOf (s : State) (r pa : Nat) : L1Line := ⟨pa, s.view r pa 64, (List.range 8).map (fun u => s.viewPoison r (pa / 8 + u))⟩

/-- A cell whose L1 keeps a line. -/
def keeping (x : L1Line) (c : Cell) : Cell := { c with l1 := withLine x c.l1 }

theorem keeping_l1 (x : L1Line) (c : Cell) : (keeping x c).l1 = withLine x c.l1 := by rw [keeping]

/-- The machine once a line has reached its load. -/
def delivered (s : State) (n h id pa : Nat) (p : Packet) : State :=
  State.setHart { without s n with requests := s.requests.filter (fun r => r.xid ≠ p.xid) } h (reached id pa p (s.hartAt h))

theorem delivered_self (s : State) (n h id pa : Nat) (p : Packet) : (delivered s n h id pa p).hartAt h = reached id pa p (s.hartAt h) :=
  lookupD_insertAt_self ..

theorem delivered_other (s : State) (n id pa : Nat) (p : Packet) {h j : Nat} (hj : j ≠ h) :
    (delivered s n h id pa p).hartAt j = s.hartAt j := lookupD_insertAt_ne _ hj ..

theorem exec_readReply {h id pa : Nat} (hp : Arrives s n 3 p) (hq : s.requests.find? (fun q => q.xid = p.xid) = some q)
    (hw : q.what = .line h id pa) :
    exec (.readReply n) s = .next (if isCompute h && (s.hartAt h).loads.any (fun l => l.id = id) then
      (delivered s n h id pa p).modCell (cellOf h) (keeping (lineOf s q.region pa)) else delivered s n h id pa p) := by
  have hr := takeRequest_some (s := without s n) hq
  show execReadReply n s = _
  simp only [execReadReply, takePacket_arrives hp, hr, hw]
  rfl

theorem readReply (s : State) (n : Nat) (p : Packet) (q : Request) (h id pa : Nat) (hp : Arrives s n 3 p)
    (hq : s.requests.find? (fun q => q.xid = p.xid) = some q) (hw : q.what = .line h id pa) :
    ∃ t, exec (.readReply n) s = .next t ∧ t.net = dropNth s.net n ∧
      t.requests = s.requests.filter (fun r => r.xid ≠ p.xid) ∧ t.mem = s.mem ∧
      (t.hartAt h).loads = (s.hartAt h).loads.map (filled id pa p) ∧
      (t.hartAt h).x = (s.hartAt h).x ∧ (∀ j, j ≠ h → t.hartAt j = s.hartAt j) ∧
      (isCompute h = true → (∃ l ∈ (s.hartAt h).loads, l.id = id) → let l1 := (t.cellAt (cellOf h)).l1
        lineOf s q.region pa ∈ l1 ∧ l1.length ≤ 1024 ∧
        (((s.cellAt (cellOf h)).l1.map L1Line.pa).Nodup → (l1.map L1Line.pa).Nodup)) := by
  have hx := exec_readReply hp hq hw
  have hself := delivered_self s n h id pa p
  by_cases hc : (isCompute h && (s.hartAt h).loads.any (fun l => l.id = id)) = true
  · refine ⟨_, hx.trans (congrArg _ (if_pos hc)), rfl, rfl, rfl, ?_, ?_, fun j hj => delivered_other s n id pa p hj, fun _ _ => ?_⟩
    · rw [State.hartAt_modCell, hself, reached_loads]
    · rw [State.hartAt_modCell, hself, reached_x]
    · rw [State.cellAt_modCell_self, keeping_l1]
      exact ⟨mem_withLine .., length_withLine .., nodup_withLine⟩
  · refine ⟨_, hx.trans (congrArg _ (if_neg hc)), rfl, rfl, rfl, ?_, ?_, fun j hj => delivered_other s n id pa p hj, fun h1 h2 => ?_⟩
    · rw [hself, reached_loads]
    · rw [hself, reached_x]
    · exact absurd (by simpa [h1] using h2) hc

theorem exec_writeAck (h : Arrives s n 4 p) :
    (s.requests.find? (fun q => q.xid = p.xid) = none → exec (.writeAcknowledgement n) s = .next (without s n)) ∧
    (∀ q r, s.requests.find? (fun q => q.xid = p.xid) = some q → q.what = .peer r →
      exec (.writeAcknowledgement n) s = .next ({ without s n with
        requests := (without s n).requests.filter (fun k => k.xid ≠ p.xid) }.peerAck r p.xid p.addr (leNat p.payload))) := by
  have hex : exec (.writeAcknowledgement n) s = execWriteAcknowledgement n s := rfl
  refine ⟨fun hn => ?_, fun q r hq hw => ?_⟩
  · have hr := takeRequest_none (s := without s n) hn
    simp only [hex, execWriteAcknowledgement, takePacket_arrives h, hr]
  · have hr := takeRequest_some (s := without s n) hq
    simp only [hex, execWriteAcknowledgement, takePacket_arrives h, hr, hw]

end Memory

/-- Settles O12: what packets of memory do where they arrive. -/
theorem memoryPackets : Obligations.MemoryPackets :=
  ⟨fun _ _ _ _ h hq => exec_read h hq, fun _ _ _ h => exec_write h, fun _ _ _ _ h hp ho => exec_atomicPacket h hp ho,
    fun s n p q h id pa hp hq hw => readReply s n p q h id pa hp hq hw, fun _ _ _ h => exec_writeAck h⟩

/-! The packets of control (R362, R364, R365, R397, R405, R411, R462). -/

section Control

variable {s : State} {n : Nat} {p : Packet} {q : Request}

theorem taskRecord (h : Arrives s n 5 p) (hs : p.spawnOf = none) :
    let t := without s n
    let bay := bayOf p.dst
    (t.regionFor p.ctx bay = none → exec (.taskRecord n) s = .next (t.discardSpawn none)) ∧
    (∀ r g, t.regionFor p.ctx bay = some (r, g) →
      ((g.state = .teardown ∨ (g.state = .idle ∧ g.holds = false)) → exec (.taskRecord n) s = .next (t.discardSpawn none)) ∧
      (g.state = .active → g.shut = false → (t.bayAt bay).hasRoom = true → exec (.taskRecord n) s =
        .next (t.enterRecord bay (parseRecord 0 p.ctx r p.addr none p.payload p.poison))) ∧
      (g.state = .active → g.shut = false → (t.bayAt bay).hasRoom = false → exec (.taskRecord n) s = .next s)) := by
  have hex : exec (.taskRecord n) s = execTaskRecord n s := rfl
  have htake := takePacket_arrives h
  refine ⟨fun hr => ?_, fun r g hr => ⟨fun hg => ?_, fun hg hsh hroom => ?_, fun hg hsh hroom => ?_⟩⟩
  · simp only [hex, execTaskRecord, htake, hr, hs]
  · simp only [hex, execTaskRecord, htake, hr, hs]
    exact if_pos (by simpa using hg)
  · simp only [hex, execTaskRecord, htake, hr, hs, hg, hsh, hroom, reduceCtorEq, decide_false, Bool.false_and, Bool.or_self,
      Bool.false_eq_true, if_false, if_true, Option.isSome_none]
  · simp only [hex, execTaskRecord, htake, hr, hs, hg, hsh, hroom, reduceCtorEq, decide_false, Bool.false_and, Bool.or_self,
      Bool.false_eq_true, if_false]

theorem activeMessage {r : Nat} (h : Arrives s n 6 p) (hr : s.regionOfBay (bayOf p.dst) = some r) :
    let m : Message := ⟨(List.range 8).map (fun k => BitVec.ofNat 64 (dwordOf p.payload k)), p.addr % 65536, p.ctx, r⟩
    ∃ t, exec (.activeMessage n) s = .next t ∧
      t.net = dropNth s.net n ++ [⟨7, true, p.dev, p.src, p.dst, p.ctx, p.xid, 0, [], []⟩] ∧
      (p.addr / 65536 = 0 → (t.cellAt p.dst).inbox = (s.cellAt p.dst).inbox ++ [m] ∧ t.bays = s.bays) ∧
      (p.addr / 65536 ≠ 0 → (t.bayAt (bayOf p.dst)).inbox = (s.bayAt (bayOf p.dst)).inbox ++ [m] ∧ t.cells = s.cells) ∧
      t.mem = s.mem ∧ t.harts = s.harts := by
  intro m
  have hr' : (without s n).regionOfBay (bayOf p.dst) = some r := hr
  have hx : exec (.activeMessage n) s = .next (if p.addr / 65536 = 0 then
      ((without s n).send (p.answer 7 0 [] [])).modCell p.dst (fun c => { c with inbox := c.inbox ++ [m] })
      else ((without s n).send (p.answer 7 0 [] [])).modBay (bayOf p.dst) (fun b => { b with inbox := b.inbox ++ [m] })) := by
    show execActiveMessage n s = _
    simp only [execActiveMessage, takePacket_arrives h, hr']
    split <;> rfl
  by_cases ha : p.addr / 65536 = 0
  · refine ⟨_, hx.trans (congrArg _ (if_pos ha)), rfl, fun _ => ⟨?_, rfl⟩, fun hn => absurd ha hn, rfl, rfl⟩
    rw [State.cellAt_modCell_self]
    rfl
  · refine ⟨_, hx.trans (congrArg _ (if_neg ha)), rfl, fun hn => absurd hn ha, fun _ => ⟨?_, rfl⟩, rfl, rfl⟩
    rw [State.bayAt_modBay_self]
    rfl

/-- A hart whose alloc has been answered. -/
def replied (w : Word) (y : Hart) : Hart := { y with reply := some w }

theorem replied_reply (w : Word) (y : Hart) : (replied w y).reply = some w := rfl

theorem replied_x (w : Word) (y : Hart) : (replied w y).x = y.x := rfl

theorem poolReply {h : Nat} (hp : Arrives s n 9 p) (hq : s.requests.find? (fun q => q.xid = p.xid) = some q) (hw : q.what = .pool h) :
    ∃ t, exec (.poolReply n) s = .next t ∧ (t.hartAt h).reply = some (BitVec.ofNat 64 (dwordAt p.payload 0)) ∧
      (t.hartAt h).x = (s.hartAt h).x ∧ (∀ j, j ≠ h → t.hartAt j = s.hartAt j) ∧ t.cells = s.cells ∧ t.mem = s.mem := by
  have hr := takeRequest_some (s := without s n) hq
  have hself (t : State) (y : Hart) : (t.setHart h y).hartAt h = y := lookupD_insertAt_self ..
  refine ⟨State.setHart { without s n with requests := s.requests.filter (fun r => r.xid ≠ p.xid) } h
    (replied (BitVec.ofNat 64 (dwordAt p.payload 0)) (s.hartAt h)), ?_, ?_, ?_, fun j hj => ?_, rfl, rfl⟩
  · show execPoolReply n s = _
    simp only [execPoolReply, takePacket_arrives hp, hr, hw]
    rfl
  · rw [hself, replied_reply]
  · rw [hself, replied_x]
  · exact lookupD_insertAt_ne _ hj ..

/-- A miss takes its place behind those of earlier clks and, in its clk, those of lower cells (R365). -/
theorem queueMiss_split (clk : Nat) (p : Packet) (ms : List (Nat × Packet)) :
    ∃ before behind, ms = before ++ behind ∧ queueMiss clk p ms = before ++ (clk, p) :: behind ∧
      (∀ q ∈ before, q.1 < clk ∨ (q.1 = clk ∧ q.2.src ≤ p.src)) ∧
      (∀ q rest, behind = q :: rest → clk < q.1 ∨ (clk = q.1 ∧ p.src < q.2.src)) := by
  induction ms with
  | nil => exact ⟨[], [], rfl, rfl, fun _ h => absurd h List.not_mem_nil, fun _ _ h => absurd h.symm (List.cons_ne_nil _ _)⟩
  | cons a ms ih =>
    by_cases ha : a.1 < clk ∨ (a.1 = clk ∧ a.2.src ≤ p.src)
    · obtain ⟨before, behind, hms, hq, hb, hbeh⟩ := ih
      refine ⟨a :: before, behind, by rw [hms, List.cons_append], ?_, fun q hm => ?_, hbeh⟩
      · rw [queueMiss, if_pos (by simpa using ha), hq, List.cons_append]
      · rcases List.mem_cons.mp hm with rfl | hm
        · exact ha
        · exact hb q hm
    · refine ⟨[], a :: ms, rfl, ?_, fun _ h => absurd h List.not_mem_nil, fun q rest he => ?_⟩
      · rw [queueMiss, if_neg (by simpa using ha), List.nil_append]
      · obtain ⟨rfl, -⟩ := List.cons.inj he
        omega

theorem endWalk_answers (s : State) (b engine q : Nat) (p : Packet) (hm : ((lookupD [] b s.walkers).take 4)[engine]? = some (q, p)) :
    let t : State := { s with walkers := insertAt b (dropNth (lookupD [] b s.walkers) engine) s.walkers }
    let w := t.walk p.ctx p.addr
    let u := t.send ⟨11, true, p.dev, p.src, p.dst, p.ctx, p.xid, p.addr, (w.1.map leafBytes).getD [], []⟩
    (w.2 = false → s.endWalk b engine = u) ∧
    (w.2 = true → ∀ r, t.regionOfCell p.src = some r → s.endWalk b engine = u.cause r 0x48) := by
  intro t w u
  have hx : s.endWalk b engine = match u.regionOfCell p.src with
      | some r => if w.2 then u.cause r 0x48 else u
      | none => u := by
    simp only [State.endWalk, hm]
    rfl
  refine ⟨fun hw => ?_, fun hw r hr => ?_⟩
  · rw [hx, hw]
    split <;> rfl
  · have hr' : u.regionOfCell p.src = some r := hr
    rw [hx, hr', hw]
    rfl

/-! The leaf that a walk reply carries (R364). -/

theorem dwordAt_append (as bs : List Byte) (i : Nat) (h : as.length = i) : dwordAt (as ++ bs) i = dwordAt bs 0 := by
  rw [dwordAt, dwordAt, List.drop_append_of_le_length h.ge, List.drop_of_length_le h.le, List.nil_append, List.drop_zero]

theorem dwordAt_natBytes (v : Nat) (bs : List Byte) (h : v < 2 ^ 64) : dwordAt (natBytes 8 v ++ bs) 0 = v := by
  rw [dwordAt, List.drop_zero, List.take_append_of_le_length (natBytes_length 8 v).ge,
    List.take_of_length_le (natBytes_length 8 v).le, leNat_natBytes]
  exact Nat.mod_eq_of_lt h

theorem bytesLeaf_leafBytes (e : TlbEntry) (hv : e.va < 2 ^ 64) (hs : e.size < 2 ^ 64) (hp : e.pa < 2 ^ 64) :
    bytesLeaf e.ctx (leafBytes e) = e := by
  obtain ⟨ctx, va, size, pa, r, w, x, tag⟩ := e
  have hf : ∀ r w x tag : Bool, b2n r + 2 * b2n w + 4 * b2n x + 8 * b2n tag < 2 ^ 64 ∧
      (b2n r + 2 * b2n w + 4 * b2n x + 8 * b2n tag).testBit 0 = r ∧ (b2n r + 2 * b2n w + 4 * b2n x + 8 * b2n tag).testBit 1 = w ∧
      (b2n r + 2 * b2n w + 4 * b2n x + 8 * b2n tag).testBit 2 = x ∧ (b2n r + 2 * b2n w + 4 * b2n x + 8 * b2n tag).testBit 3 = tag := by
    decide
  obtain ⟨hlt, h0, h1, h2, h3⟩ := hf r w x tag
  have h8 : dwordAt (leafBytes ⟨ctx, va, size, pa, r, w, x, tag⟩) 8 = size := by
    rw [leafBytes, List.append_assoc, List.append_assoc, dwordAt_append _ _ 8 (natBytes_length ..), dwordAt_natBytes _ _ hs]
  have h16 : dwordAt (leafBytes ⟨ctx, va, size, pa, r, w, x, tag⟩) 16 = pa := by
    rw [leafBytes, List.append_assoc, dwordAt_append _ _ 16 (by simp [natBytes_length]), dwordAt_natBytes _ _ hp]
  have h24 : dwordAt (leafBytes ⟨ctx, va, size, pa, r, w, x, tag⟩) 24 = b2n r + 2 * b2n w + 4 * b2n x + 8 * b2n tag := by
    rw [leafBytes, dwordAt_append _ _ 24 (by simp [natBytes_length]), ← List.append_nil (natBytes 8 _), dwordAt_natBytes _ _ hlt]
  have hz : dwordAt (leafBytes ⟨ctx, va, size, pa, r, w, x, tag⟩) 0 = va := by
    rw [leafBytes, List.append_assoc, List.append_assoc, dwordAt_natBytes _ _ hv]
  simp only [bytesLeaf, hz, h8, h16, h24, h0, h1, h2, h3]

theorem leafBytes_ne_nil (e : TlbEntry) : leafBytes e ≠ [] := by
  intro h
  have := congrArg List.length h
  simp [leafBytes, natBytes_length] at this

theorem walkReply {c ctx page : Nat} (hp : Arrives s n 11 p) (hq : s.requests.find? (fun q => q.xid = p.xid) = some q)
    (hw : q.what = .walk c ctx page) :
    ∃ t, exec (.walkReply n) s = .next t ∧ (t.cellAt c).walks = (s.cellAt c).walks.filter (fun w => w ≠ (ctx, page)) ∧
      (p.payload = [] → (t.cellAt c).walkFaults = (s.cellAt c).walkFaults ++ [(ctx, page)] ∧ (t.cellAt c).tlb = (s.cellAt c).tlb) ∧
      (∀ e : TlbEntry, e.ctx = ctx → e.va < 2 ^ 64 → e.size < 2 ^ 64 → e.pa < 2 ^ 64 → p.payload = leafBytes e →
        (t.cellAt c).tlb.head? = some e ∧ (t.cellAt c).tlb.length ≤ 256 ∧ (t.cellAt c).walkFaults = (s.cellAt c).walkFaults) ∧
      t.harts = s.harts ∧ t.mem = s.mem := by
  have hr := takeRequest_some (s := without s n) hq
  have hx : exec (.walkReply n) s = .next ((State.modCell { without s n with requests := s.requests.filter (fun r => r.xid ≠ p.xid) } c
      (fun x => { x with walks := x.walks.filter (fun w => w ≠ (ctx, page)) })).modCell c (fun x =>
        if p.payload.isEmpty then { x with walkFaults := x.walkFaults ++ [(ctx, page)] } else x.fillTlb (bytesLeaf ctx p.payload))) := by
    show execWalkReply n s = _
    simp only [execWalkReply, takePacket_arrives hp, hr, hw]
    rfl
  refine ⟨_, hx, ?_, fun he => ?_, fun e hc hv hs hpa he => ?_, rfl, rfl⟩
  · rw [State.cellAt_modCell_self, State.cellAt_modCell_self]
    split <;> rfl
  · rw [State.cellAt_modCell_self, State.cellAt_modCell_self, he]
    exact ⟨rfl, rfl⟩
  · have hne : p.payload.isEmpty = false := by
      rw [he]
      exact List.isEmpty_eq_false_iff.mpr (leafBytes_ne_nil e)
    have hb : bytesLeaf ctx p.payload = e := by rw [he, ← hc, bytesLeaf_leafBytes e hv hs hpa]
    rw [State.cellAt_modCell_self, State.cellAt_modCell_self, hne, hb]
    refine ⟨rfl, ?_, rfl⟩
    show (List.take 256 _).length ≤ 256
    exact List.length_take_le ..

theorem purgeAcknowledgement {c : Context} (h : Arrives s n 14 p) (hc : s.ctx? p.ctx = some c) :
    (c.killing = none → exec (.purgeAcknowledgement n) s = .next (without s n)) ∧
    (∀ k, c.killing = some k → 1 < k →
      exec (.purgeAcknowledgement n) s = .next ((without s n).modCtx p.ctx (fun c => { c with killing := some (k - 1) }))) ∧
    (∀ k, c.killing = some k → k ≤ 1 → exec (.purgeAcknowledgement n) s = .next ((without s n).finishKill p.ctx)) := by
  have hex : exec (.purgeAcknowledgement n) s = execPurgeAcknowledgement n s := rfl
  have hc' : (without s n).ctx? p.ctx = some c := hc
  refine ⟨fun hk => ?_, fun k hk h1 => ?_, fun k hk h1 => ?_⟩
  · simp only [hex, execPurgeAcknowledgement, takePacket_arrives h, hc', Option.bind_some, hk]
  · simp only [hex, execPurgeAcknowledgement, takePacket_arrives h, hc', Option.bind_some, hk, if_neg (Nat.not_le.mpr h1)]
  · simp only [hex, execPurgeAcknowledgement, takePacket_arrives h, hc', Option.bind_some, hk, if_pos h1]

end Control

theorem controlPackets : ControlPackets := by
  refine ⟨fun _ _ _ h hs => taskRecord h hs, fun _ _ _ _ h hr => activeMessage h hr, fun s n p h => ?_, fun s n p k q h hk => ?_,
    fun _ _ _ _ _ h hq hw => poolReply h hq hw, fun s n p h => ⟨?_, queueMiss_split ..⟩, endWalk_answers,
    fun _ _ _ _ _ _ _ h hq hw => walkReply h hq hw, fun s n p h => ?_, fun s n p h => ?_, fun _ _ _ _ h hc => purgeAcknowledgement h hc⟩
  · show execInboxAcknowledgement n s = _
    simp only [execInboxAcknowledgement, takePacket_arrives h]
  · have hk' : ((without s n).cellAt p.dst).pool.partOf p.ctx = some (k, q) := hk
    show execPoolRequest n s = _
    simp only [execPoolRequest, takePacket_arrives h, hk']
  · show execWalkRequest n s = _
    simp only [execWalkRequest, takePacket_arrives h]
    rfl
  · show execInterrupt n s = _
    simp only [execInterrupt, takePacket_arrives h]
    rfl
  · show execPurge n s = _
    simp only [execPurge, takePacket_arrives h]
    rfl

/-- Settles O58: the order of packets, and the packets of control. -/
theorem dynamicPackets : Obligations.DynamicPackets := ⟨packetOrder, controlPackets⟩

end Sys2Proof.Packets
end

section
/-! SUPPORT. The words of the encoding tables, the values of reset, and the step. -/

namespace Sys2Proof.Stepping

open Sys2Proof Sys2Proof.Machine Sys2Proof.Spec

/-- Settles O24, by evaluating the decoder on the words. -/
theorem encodingOfWords : Obligations.EncodingOfWords := by
  refine ⟨rfl, rfl, rfl, rfl, rfl, rfl, rfl, rfl, rfl, rfl, rfl⟩

/-! Reset. -/

/-- A vector that holds one value everywhere gives that value, also as the default past its end. -/
theorem getD_replicate {α : Type} (n i : Nat) (a : α) : (Vector.replicate n a)[i]?.getD a = a := by
  rw [Vector.getElem?_replicate]
  split <;> rfl

theorem xval_reset (r : Reg) : Hart.reset.xval r = ⟨0#64, 24#5, false⟩ := by
  rw [Hart.xval]
  split
  · rfl
  · exact getD_replicate 24 r.toNat (UVal.plain 0#64)

theorem mval_reset (m : MReg) (hm : m ≠ 0#3) : Hart.reset.mval m = 0#64 := by
  rw [Hart.mval, if_neg hm]
  exact getD_replicate 8 m.toNat 0#64

theorem pval_reset (p : PReg) : Hart.reset.pval p = false :=
  getD_replicate 4 p.toNat false

theorem vval_reset (r : Reg) : Hart.reset.vval r = VVal.zero18 :=
  getD_replicate 28 r.toNat VVal.zero18

theorem lane_zero18 (k : Nat) : VVal.zero18.lane k = ⟨0#32, 0x18#8⟩ :=
  getD_replicate 64 k Lane.zero18

theorem poisonOf_zero18 (k : Nat) : VVal.zero18.poisonOf k = false :=
  getD_replicate 32 (k / 2) false

theorem slots_reset (k : Nat) (hk : k < 8) : Hart.reset.slots[k].state = .empty :=
  congrArg Slot.state (Vector.getElem_replicate hk)

theorem tiles_reset (k : Nat) (hk : k < 8) : Mxe.reset.tiles[k] = Tile.reset := Vector.getElem_replicate hk

theorem tshp_reset (k : Nat) (hk : k < 8) : Mxe.reset.tshp[k] = 0#64 := Vector.getElem_replicate hk

theorem accs_reset (k : Nat) (hk : k < 4) : Mxe.reset.accs[k] = Acc.reset := Vector.getElem_replicate hk

/-- Settles O28: the maps of the machine are empty at reset, so each party stands at its own reset value. -/
theorem resetValues : Obligations.ResetValues := by
  refine ⟨fun h => ?_, fun c => ?_, fun _ => ⟨rfl, rfl⟩, fun _ => ⟨rfl, rfl⟩, rfl, rfl, rfl, rfl, rfl, rfl, rfl, rfl, Mem.empty_wf⟩
  · have hh : State.reset.hartAt h = Hart.reset := rfl
    rw [hh]
    refine ⟨rfl, rfl, xval_reset, pval_reset, mval_reset, rfl, fun r k _ _ => ?_, rfl, rfl, rfl, rfl, rfl, rfl, rfl, rfl, rfl, rfl, rfl, rfl,
      rfl, rfl, rfl, rfl, rfl, slots_reset⟩
    rw [vval_reset]
    exact ⟨lane_zero18 k, poisonOf_zero18 k⟩
  · have hc : State.reset.cellAt c = Cell.reset := rfl
    rw [hc]
    refine ⟨rfl, rfl, rfl, fun _ => rfl, fun _ => rfl, fun k hk => ?_, tshp_reset, fun k hk => ?_⟩
    · have ht : Cell.reset.mxe.tiles[k] = Tile.reset := tiles_reset k hk
      rw [ht]
      exact ⟨rfl, fun _ => rfl⟩
    · exact congrArg Acc.kind (accs_reset k hk)

/-! The step. -/

section

variable {s : State}

theorem step_turn {t : Turn} {rest : List Turn} (ha : s.agenda = t :: rest) (hl : s.tooLate t = false) :
    step s = turn t { s with agenda := rest, phase := s.phaseAfter t } := by
  rw [step, ha]
  exact if_neg (by rw [hl]; decide)

theorem step_late {t : Turn} {rest : List Turn} (ha : s.agenda = t :: rest) (hl : s.tooLate t = true) :
    step s = .next { s with agenda := rest } := by
  rw [step, ha]
  exact if_pos hl

/-- A turn that no rule orders is never too late, and leaves the order of the clk where it is. -/
theorem step_unordered {t : Turn} {rest : List Turn} (ha : s.agenda = t :: rest) (hk : s.turnKey t = none)
    (hp : s.phaseAfter t = s.phase) : step s = turn t { s with agenda := rest } := by
  rw [step_turn ha (by rw [State.tooLate, hk]), hp]

end

/-! The turn of a hart (R42, R43, R394). -/

section

variable {s : State}

theorem restsNow_true (h : s.hart.task = none ∨ s.clk < s.hart.fetchFrom) : s.restsNow = true := by
  rw [State.restsNow]
  rcases h with h | h
  · rw [h]; rfl
  · rw [decide_eq_true h, Bool.or_true]

theorem restsNow_false (ht : s.hart.task.isSome = true) (hf : s.hart.fetchFrom ≤ s.clk) (hm : s.cellMoves (cellOf s.cur) = true) :
    s.restsNow = false := by
  rw [State.restsNow, hm, decide_eq_false (Nat.not_lt.mpr hf), Option.isNone_eq_false_iff.mpr ht]
  rfl

/-- The running hart as one that has had its turn in this clk. -/
def State.takesTurn (s : State) : State := s.modHart (fun x => { x with fetchFrom := s.clk + 1 })

theorem hartTurn_rests {h : Nat} (hr : ({ s with cur := h } : State).restsNow = true) : hartTurn h s = .next { s with cur := h } := by
  rw [hartTurn]
  exact if_pos hr

theorem hartTurn_runs {h : Nat} {i : Instr} (hr : ({ s with cur := h } : State).restsNow = false)
    (hi : (State.takesTurn { s with cur := h }).nextInstr = .run i) : hartTurn h s = exec i (State.takesTurn { s with cur := h }) := by
  have hx : hartTurn h s = (match (State.takesTurn { s with cur := h }).nextInstr with
      | .run i => exec i (State.takesTurn { s with cur := h })
      | .miss va => .next (((State.takesTurn { s with cur := h }).askWalk (unitOf (cellOf h))
          (State.takesTurn { s with cur := h }).hart.ctxId va).waiting .memory)
      | .stop f => .fault f) := by
    rw [hartTurn]
    exact if_neg (by rw [hr]; decide)
  rw [hx, hi]

end

/-! The fetch (R42, R43, R66). -/

section

variable {s : State} {lo hi : List Byte}

theorem fetchParcel_hit {va pa : Nat} {e : TlbEntry} (hv : va < 2 ^ 52)
    (ht : s.translate (unitOf (cellOf s.cur)) s.hart.ctxId va false false true = .hit pa e) :
    s.fetchParcel va = .ok (s.view s.hart.regionId pa 2) := by
  rw [State.fetchParcel, if_neg (Nat.not_le.mpr hv), ht]

/-- What the bytes at the pc are fetched as. -/
def fetchedAs (bytes : List Byte) : Fetched :=
  match decodeHartBytes bytes with
  | .ok (i, _) => .run i
  | .error (.illegal w) => .run (.illegal w)
  | .error _ => .run (.illegal 0#32)

theorem fetchedAs_ok {bytes : List Byte} {i : Instr} {more : List Byte} (h : decodeHartBytes bytes = .ok (i, more)) :
    fetchedAs bytes = .run i := by
  rw [fetchedAs, h]

theorem fetchedAs_illegal {bytes : List Byte} {w : Word32} (h : decodeHartBytes bytes = .error (.illegal w)) :
    fetchedAs bytes = .run (.illegal w) := by
  rw [fetchedAs, h]

theorem fetch_short (h0 : s.fetchParcel s.hart.pc.toNat = .ok lo) (hb : (lo.getD 0 0#8).getLsbD 0 = false) :
    s.fetch = fetchedAs lo := by
  rw [State.fetch, h0]
  simp only [hb, Bool.false_eq_true, if_false, List.append_nil]
  rfl

theorem fetch_long (h0 : s.fetchParcel s.hart.pc.toNat = .ok lo) (hb : (lo.getD 0 0#8).getLsbD 0 = true)
    (h1 : s.fetchParcel (s.hart.pc + 2#64).toNat = .ok hi) : s.fetch = fetchedAs (lo ++ hi) := by
  rw [State.fetch, h0]
  simp only [hb, if_true, h1]
  rfl

end

theorem pc_add_two {pc : Word} (h : pc.toNat + 2 < 2 ^ 52) : (pc + 2#64).toNat = pc.toNat + 2 := by
  rw [BitVec.toNat_add]
  exact Nat.mod_eq_of_lt (by simp only [BitVec.toNat_ofNat]; omega)

/-! The turn of a switch (R276). -/

section

variable {s : State} {c : Nat}

/-- The switch of a cell as the running party. -/
def switchRuns (s : State) (c : Nat) : State := { s with cur := 8 * c + 7 }

theorem switchTurn_moves (hm : (switchRuns s c).cellMoves c = true) : switchTurn c s = (match (switchRuns s c).fetchSwitch c with
    | .ok (some i) => exec i (switchRuns s c)
    | .ok none => .next (switchRuns s c)
    | .error f => .fault f) := by
  rw [switchTurn]
  exact if_neg (by show ¬ (!(switchRuns s c).cellMoves c) = true; rw [hm]; decide)

theorem switchTurn_word {i : Instr} (hm : (switchRuns s c).cellMoves c = true) (hf : (switchRuns s c).fetchSwitch c = .ok (some i)) :
    switchTurn c s = exec i (switchRuns s c) := by
  rw [switchTurn_moves hm, hf]

theorem switchTurn_none (hm : (switchRuns s c).cellMoves c = true) (hf : (switchRuns s c).fetchSwitch c = .ok none) :
    switchTurn c s = .next (switchRuns s c) := by
  rw [switchTurn_moves hm, hf]

theorem fetchSwitch_word {w : Word} {i : Instr} (hh : (s.cellAt c).sw.halt = false)
    (hw : (s.cellAt c).cfg.program[(s.cellAt c).sw.pc]? = some w) (hd : decodeSwitchWord w = some i) : s.fetchSwitch c = .ok (some i) := by
  simp only [State.fetchSwitch, hh, Bool.false_eq_true, if_false, Cell.switchWord, hw, hd]

theorem fetchSwitch_none (hh : (s.cellAt c).sw.halt = false)
    (hw : (s.cellAt c).cfg.program[(s.cellAt c).sw.pc]? = none) : s.fetchSwitch c = .ok none := by
  simp only [State.fetchSwitch, hh, Bool.false_eq_true, if_false, Cell.switchWord, hw]

end

/-! The edge of a clk (R384). -/

theorem lookup_map_values {α : Type} (f : Nat → α → α) (k : Nat) (m : List (Nat × α)) :
    lookup k (m.map (fun c => (c.1, f c.1 c.2))) = (lookup k m).map (f k) := by
  induction m with
  | nil => rfl
  | cons c r ih =>
    obtain ⟨j, a⟩ := c
    by_cases h : j = k
    · subst h; simp [lookup]
    · simp [lookup, h, ih]

/-- A cell in which nothing has come in this clk. -/
def settled (x : Cell) : Cell := { x with young := [] }

theorem young_clock (s : State) (c : Nat) : (s.clock.cellAt c).young = [] := by
  have hx : s.clock.cellAt c = ((lookup c s.actCauses.cells).map settled).getD Cell.reset :=
    congrArg (Option.getD · Cell.reset) (lookup_map_values (fun _ => settled) c s.actCauses.cells)
  rw [hx]
  cases lookup c s.actCauses.cells <;> rfl

theorem events_bayClock (s : State) (b : Nat) (x : Bay) : (s.bayClock b x).events = x.clock.events := by
  rw [State.bayClock]
  split <;> rfl

theorem events_clock (s : State) (b : Nat) : (s.clock.bayAt b).events = (s.actCauses.bayAt b).clock.events := by
  have hx : s.clock.bayAt b = ((lookup b s.actCauses.bays).map (s.actCauses.bayClock b)).getD Bay.reset :=
    congrArg (Option.getD · Bay.reset) (lookup_map_values s.actCauses.bayClock b s.actCauses.bays)
  have hy : s.actCauses.bayAt b = (lookup b s.actCauses.bays).getD Bay.reset := rfl
  rw [hx, hy]
  cases lookup b s.actCauses.bays with
  | none => rfl
  | some x => exact events_bayClock _ _ _

/-! The statement's clauses. -/

theorem step_hart {s : State} {h : Nat} {rest : List Turn} (ha : s.agenda = .hart h :: rest) (hl : s.tooLate (.hart h) = false) :
    step s = hartTurn h { s with agenda := rest, phase := s.phaseAfter (.hart h) } :=
  step_turn ha hl

/-- The L1 of a cell without the line at an address. -/
theorem evict_spec (s : State) (c pa : Nat) : ∃ t, s.evict c pa = t ∧ (∀ l ∈ (t.cellAt c).l1, l.pa ≠ pa) ∧
    t.cellAt c = { s.cellAt c with l1 := (t.cellAt c).l1 } ∧ (∀ d, d ≠ c → t.cellAt d = s.cellAt d) ∧ t = { s with cells := t.cells } := by
  have hc : (s.evict c pa).cellAt c = { s.cellAt c with l1 := (s.cellAt c).l1.filter (fun l => l.pa ≠ pa) } :=
    State.cellAt_modCell_self s c _
  refine ⟨_, rfl, fun l hm => ?_, ?_, fun d hd => State.cellAt_modCell_ne s hd _, rfl⟩
  · rw [hc] at hm
    exact of_decide_eq_true (List.mem_filter.mp hm).2
  · rw [hc]

/-- Settles O27: the turn at the head of the agenda is taken, and the fetch of a hart decodes the parcels at its pc. -/
theorem stepRunsTheDecodedInstruction : Obligations.StepRunsTheDecodedInstruction := by
  refine ⟨fun s t rest ha hl => step_late ha hl, fun s h rest ha hl => ?_, fun s c rest ha hl => ?_, fun s i rest ha hl hi => ?_,
    fun s c pa rest ha => ?_, fun s c rest ha => step_unordered ha rfl rfl, fun s c rest ha => step_unordered ha rfl rfl, fun s ha => ?_⟩
  · intro u v
    refine ⟨fun hr => (step_hart ha hl).trans (hartTurn_rests (restsNow_true hr)), fun ht hf hm => ?_⟩
    have hrun : ∀ i, v.nextInstr = .run i → step s = exec i v := fun i hi =>
      (step_hart ha hl).trans (hartTurn_runs (restsNow_false ht hf hm) hi)
    have hhart : v.hart = { u.hart with fetchFrom := u.clk + 1 } := State.hart_modHart u _
    refine ⟨fun i hi => hrun i (by rw [State.nextInstr, hhart]; simp only [hi]), fun hi hpc pa0 e0 h0 => ?_⟩
    have hnext : v.nextInstr = v.fetch := by rw [State.nextInstr, hhart]; simp only [hi]
    have hlo := fetchParcel_hit (s := v) (Nat.lt_of_le_of_lt (Nat.le_add_right _ 2) hpc) h0
    refine ⟨fun hb => ?_, fun hb pa1 e1 h1 => ?_⟩
    · have hfetch := hnext.trans (fetch_short hlo hb)
      exact ⟨fun i more hd => hrun i (hfetch.trans (fetchedAs_ok hd)), fun w hd => hrun _ (hfetch.trans (fetchedAs_illegal hd))⟩
    · have hhi := fetchParcel_hit (s := v) hpc h1
      rw [← pc_add_two hpc] at hhi
      have hfetch := hnext.trans (fetch_long hlo hb hhi)
      exact ⟨fun i more hd => hrun i (hfetch.trans (fetchedAs_ok hd)), fun w hd => hrun _ (hfetch.trans (fetchedAs_illegal hd))⟩
  · intro u hm hh
    have hstep : step s = switchTurn c { s with agenda := rest, phase := s.phaseAfter (.switch c) } := step_turn ha hl
    exact ⟨fun w i hw hd => hstep.trans (switchTurn_word hm (fetchSwitch_word hh hw hd)),
      fun hw => hstep.trans (switchTurn_none hm (fetchSwitch_none hh hw))⟩
  · have hstep := step_turn ha hl
    rw [hstep, turn, if_pos hi]
  · obtain ⟨t, ht, hline, hcell, hothers, hrest⟩ := evict_spec { s with agenda := rest } c pa
    exact ⟨t, (step_unordered ha rfl rfl).trans (congrArg _ ht), hline, hcell, hothers, hrest⟩
  · refine ⟨s.clock, by rw [step, ha], rfl, rfl, young_clock s, events_clock s⟩

end Sys2Proof.Stepping
end

section
/-! SUPPORT. Switch words (R265-R287, R382). -/

namespace Sys2Proof.Switching

open Sys2Proof Sys2Proof.Machine Sys2Proof.Spec

/-! Counted words (R280). -/

section

variable {s : State} {c m : Nat}

/-- A word with something left to pass has not ended. -/
theorem endCounted_goes {l : List Nat} (h : (s.cellAt c).sw.left = m :: l) (hm : 0 < m) : s.endCounted c = s := by
  rw [State.endCounted, h]
  exact if_neg (by rw [List.all_cons, decide_eq_false (by omega), Bool.false_and]; decide)

theorem endCounted_ends (h : ∀ n ∈ (s.cellAt c).sw.left, n = 0) : s.endCounted c = s.switchNext c := by
  rw [State.endCounted]
  exact if_pos (List.all_eq_true.mpr fun n hn => decide_eq_true (h n hn))

theorem left_setLeft (s : State) (c : Nat) (l : List Nat) : ((s.setLeft c l).cellAt c).sw.left = l := by
  rw [State.setLeft, State.cellAt_modCell_self]

/-- One item of a counted word has passed: the word ends with its last. -/
theorem endCounted_setLeft {l : List Nat} (hm : 0 < m) (hl : ∀ n ∈ l, n = m - 1) :
    (s.setLeft c ((m - 1) :: l)).endCounted c = if m = 1 then (s.setLeft c ((m - 1) :: l)).switchNext c else s.setLeft c ((m - 1) :: l) := by
  split
  · next h1 =>
    subst h1
    refine endCounted_ends fun n hn => ?_
    rw [left_setLeft] at hn
    rcases List.mem_cons.mp hn with rfl | hn
    · rfl
    · exact hl n hn
  · next h1 => exact endCounted_goes (left_setLeft s c _) (by omega)

/-- One item of a word of one count has passed. -/
theorem passed_one (hm : 0 < m) : (s.setLeft c [m - 1]).endCounted c = if m = 1 then (s.setLeft c [0]).switchNext c else s.setLeft c [m - 1] := by
  rw [endCounted_setLeft hm fun n hn => absurd hn List.not_mem_nil]
  split
  · next h1 => rw [h1]
  · rfl

/-- One flit of a word with two counts has passed both. -/
theorem passed_two (hm : 0 < m) : (s.setLeft c [m - 1, m - 1]).endCounted c =
    if m = 1 then (s.setLeft c [0, 0]).switchNext c else s.setLeft c [m - 1, m - 1] := by
  rw [endCounted_setLeft hm fun n hn => List.mem_singleton.mp hn]
  split
  · next h1 => rw [h1]
  · rfl

end

/-! Routes (R280, R281). -/

section

variable {s : State} {c key inp : Nat}

theorem passKey_none (rs : List Route) (h : s.headFlit c key = none) : s.passKey c key rs = none := by
  rw [State.passKey, h]

section

variable {out t0 t1 : Nat} {t u : Tie} {f : Flit} {rest : Fifo}

theorem passKey_one (h : s.headFlit c key = some (f, rest)) (ht : outTie c inp out = some t) :
    s.passKey c key [(inp, out)] = if s.tieRoom t = true then some (f, (s.popFlit c inp key f rest).pushAll c inp f [(out, t)]) else none := by
  simp [State.passKey, h, ht, State.roomFor]

theorem passKey_two {o0 o1 : Nat} (h : s.headFlit c key = some (f, rest)) (ht : outTie c inp o0 = some t) (hu : outTie c inp o1 = some u) :
    s.passKey c key [(inp, o0), (inp, o1)] = if s.tieRoom t = true ∧ s.tieRoom u = true then
      some (f, (s.popFlit c inp key f rest).pushAll c inp f [(o0, t), (o1, u)]) else none := by
  simp [State.passKey, h, ht, hu, State.roomFor]

end

/-- A counted route with one route: what its buffer passes is counted. -/
theorem passCounted_one {out m : Nat} (hk : inKey c inp out = key) (hl : (s.cellAt c).sw.left = [m]) (hm : 0 < m) :
    s.passCounted c [(inp, out)] [key] = ((s.passKey c key [(inp, out)]).map (fun p => p.2.setLeft c [m - 1])).getD s := by
  simp only [State.passCounted, List.foldl_cons, List.foldl_nil, hl]
  simp only [List.zip_cons_cons, List.zip_nil_left, List.filter_cons, hk, hm, decide_true, Bool.and_self, if_true, List.filter_nil, List.map_cons, List.map_nil]
  cases s.passKey c key [(inp, out)] <;> rfl

/-- A counted route with two routes from one buffer: what the buffer passes is counted for both. -/
theorem passCounted_two {o0 o1 m : Nat} (hk : inKey c inp o0 = key) (hj : inKey c inp o1 = key) (hl : (s.cellAt c).sw.left = [m, m])
    (hm : 0 < m) : s.passCounted c [(inp, o0), (inp, o1)] [key] =
      ((s.passKey c key [(inp, o0), (inp, o1)]).map (fun p => p.2.setLeft c [m - 1, m - 1])).getD s := by
  simp only [State.passCounted, List.foldl_cons, List.foldl_nil, hl]
  simp only [List.zip_cons_cons, List.zip_nil_left, List.filter_cons, hk, hj, hm, decide_true, Bool.and_self, if_true, List.filter_nil, List.map_cons,
    List.map_nil]
  cases s.passKey c key [(inp, o0), (inp, o1)] <;> rfl

end

/-- A word with one route runs, or a port passes under it. -/
theorem routeStep_one (s : State) (c : Nat) (r0 r1 r2 r3 : BitVec 10) (cnt : BitVec 12) (p : Nat → Bool)
    (hp : p (inKey c (r0.toNat / 32) (r0.toNat % 32)) = true) : routeStep c 0#2 r0 r1 r2 r3 cnt p s =
      ((s.begin c 1 (cnt.toNat + 1)).passCounted c [(r0.toNat / 32, r0.toNat % 32)] [inKey c (r0.toNat / 32) (r0.toNat % 32)]).endCounted c := by
  have hf : (routeKeys c (routesOf 0#2 r0 r1 r2 r3)).filter p = [inKey c (r0.toNat / 32) (r0.toNat % 32)] := List.filter_singleton.trans (cond_eq_ite .. |>.trans (if_pos hp))
  rw [routeStep, hf]
  rfl

/-- A word with one uncounted route. -/
theorem routecStep_one (s : State) (c : Nat) (r0 r1 r2 r3 : BitVec 10) (kind : BitVec 3) (p : Nat → Bool)
    (hp : p (inKey c (r0.toNat / 32) (r0.toNat % 32)) = true) : routecStep c 0#2 r0 r1 r2 r3 kind p s =
      ((s.passKey c (inKey c (r0.toNat / 32) (r0.toNat % 32)) [(r0.toNat / 32, r0.toNat % 32)]).map
        (fun q => if q.1.kind = kind then q.2.switchNext c else q.2)).getD s := by
  have hk : routeKeys c (routesOf 0#2 r0 r1 r2 r3) = [inKey c (r0.toNat / 32) (r0.toNat % 32)] := rfl
  have hon : (routesOf 0#2 r0 r1 r2 r3).filter (fun r => decide (inKey c r.1 r.2 = inKey c (r0.toNat / 32) (r0.toNat % 32))) =
      [(r0.toNat / 32, r0.toNat % 32)] := List.filter_singleton.trans (cond_eq_ite .. |>.trans (if_pos (decide_eq_true rfl)))
  simp only [routecStep, hk, List.headD_cons, hp, if_true, hon, List.drop_one, List.tail_cons, List.filter_nil, List.foldl_nil]
  cases s.passKey c (inKey c (r0.toNat / 32) (r0.toNat % 32)) [(r0.toNat / 32, r0.toNat % 32)] <;> rfl

/-! What a push leaves where it goes (R268, R273). -/

theorem pushTie_buf (s : State) (c inp d key : Nat) (f : Flit) (hk : key < 128) :
    s.pushTie c inp (.buf d key) f = s.pushFlits d key (switchOf c) [f] := by
  simp only [State.pushTie, if_neg (Nat.not_le.mpr hk)]

/-- An untagged data flit without scales stands at the end of its port register. -/
theorem ports_deliver (k : Cell) (pk inp : Nat) (f : Flit) (hp : pk < 48) (hf : f.isData = true)
    (ht : k.cftEntry inp f.vc.toNat / 2 ^ 10 % 4 ≠ 1) (hb : blkSize (k.cftEntry inp f.vc.toNat / 2 ^ 8 % 4) = 0) :
    lookupD [] pk (k.deliver pk inp f).ports = lookupD [] pk k.ports ++ [⟨f, inp, [], false, none⟩] := by
  have h1 : ¬ bits (k.cftEntry inp f.vc.toNat) 11 10 = 1 := by
    rw [bits, Nat.shiftRight_eq_div_pow]; exact ht
  have h2 : blkSize (bits (k.cftEntry inp f.vc.toNat) 9 8) = 0 := by
    rw [bits, Nat.shiftRight_eq_div_pow]; exact hb
  simp only [Cell.deliver, if_neg (by omega : ¬ 56 ≤ pk), if_neg (by omega : ¬ 48 ≤ pk), hf, h1, h2, decide_false, Bool.not_true,
    Bool.false_eq_true, if_false, if_true, Cell.pushed, Cell.setYoung, lookupD_insertAt_self]

/-- A flit that goes to a port register is delivered there; a snapshot that is being taken may get it too. -/
theorem pushTie_port (s : State) (c inp d pk : Nat) (f : Flit) : ∃ u : State,
    s.pushTie c inp (.port d pk) f = u.modCell d (fun x => x.deliver pk inp f) ∧ u.cells = s.cells ∧ u.mem = s.mem ∧ u.harts = s.harts := by
  obtain ⟨late, r, g, h⟩ : ∃ (late : Bool) (r : Nat) (g : Snapshot → Snapshot),
      s.pushTie c inp (.port d pk) f = (if late = true then s.modTaking r g else s).modCell d (fun x => x.deliver pk inp f) := ⟨_, _, _, rfl⟩
  refine ⟨_, h, ?_⟩
  cases late
  · exact ⟨rfl, rfl, rfl⟩
  · exact ⟨State.modTaking_cells .., State.modTaking_mem .., State.modTaking_harts ..⟩

/-- Settles O9: a word of one buffer passes its head flit to all of its outputs or to none, and counts it. -/
theorem switchRoutes : Obligations.SwitchRoutes := by
  refine ⟨?_, ?_, ?_, ?_, ?_⟩
  · intro s r0 r1 r2 r3 cnt m c inp out key s0 i hl hm
    have hx : exec i s = .next ((((s0.passKey c key [(inp, out)]).map (fun p => p.2.setLeft c [m - 1])).getD s0).endCounted c) := by
      rw [← passCounted_one rfl hl hm]
      exact congrArg Host.Outcome.next (routeStep_one s c r0 r1 r2 r3 cnt _ rfl)
    refine ⟨fun hn => hx.trans ?_, fun f rest t hh ht => ⟨fun hr => hx.trans ?_, fun hr => hx.trans ?_⟩⟩
    · rw [passKey_none _ hn]
      exact congrArg _ (endCounted_goes hl hm)
    · rw [passKey_one hh ht, if_neg (by rw [hr]; decide)]
      exact congrArg _ (endCounted_goes hl hm)
    · rw [passKey_one hh ht, if_pos hr]
      exact congrArg _ (passed_one hm)
  · intro s r0 r1 r2 r3 cnt m f rest t0 t1 c inp key s0 i hi hk hl hm hh h0 h1
    have hx : exec i s = .next ((((s0.passKey c key [(inp, r0.toNat % 32), (inp, r1.toNat % 32)]).map
        (fun p => p.2.setLeft c [m - 1, m - 1])).getD s0).endCounted c) := by
      rw [← passCounted_two rfl hk hl hm]
      have hrs : routesOf 1#2 r0 r1 r2 r3 = [(inp, r0.toNat % 32), (inp, r1.toNat % 32)] :=
        congrArg (fun j => [(inp, r0.toNat % 32), (j, r1.toNat % 32)]) hi
      have hks : routeKeys c [(inp, r0.toNat % 32), (inp, r1.toNat % 32)] = [key] := by
        show distinct [key, inKey c inp (r1.toNat % 32)] = [key]
        rw [hk]
        simp [distinct]
      show Host.Outcome.next (routeStep c 1#2 r0 r1 r2 r3 cnt (fun _ => true) s) = _
      rw [routeStep, hrs, hks]
      rfl
    refine ⟨fun hr => hx.trans ?_, fun hr0 hr1 => hx.trans ?_⟩
    · rw [passKey_two hh h0 h1, if_neg (by rcases hr with hr | hr <;> rw [hr] <;> simp)]
      exact congrArg _ (endCounted_goes hl hm)
    · rw [passKey_two hh h0 h1, if_pos ⟨hr0, hr1⟩]
      exact congrArg _ (passed_two hm)
  · intro s r0 r1 r2 r3 kind c inp out key i
    have hx : exec i s = .next (((s.passKey c key [(inp, out)]).map (fun q => if q.1.kind = kind then q.2.switchNext c else q.2)).getD s) :=
      congrArg Host.Outcome.next (routecStep_one s c r0 r1 r2 r3 kind _ rfl)
    refine ⟨fun hn => hx.trans ?_, fun f rest t hh ht => ⟨fun hr => hx.trans ?_, fun hr => hx.trans ?_⟩⟩
    · rw [passKey_none _ hn]; rfl
    · rw [passKey_one hh ht, if_neg (by rw [hr]; decide)]; rfl
    · rw [passKey_one hh ht, if_pos hr]; rfl
  · intro s c inp d key f hk t
    have ht : t = s.pushFlits d key (switchOf c) [f] := pushTie_buf s c inp d key f hk
    rw [ht]
    refine ⟨State.buf_pushFlits s d _ key [f], fun d' key' h => State.buf_pushFlits_ne s d d' _ key [f] h, State.pushFlits_mem .., State.pushFlits_harts ..,
      fun d' => ?_⟩
    obtain ⟨b, y, he⟩ := State.cell_pushFlits s d d' (switchOf c) key [f]
    rw [he]
    exact ⟨rfl, rfl⟩
  · intro s c inp d pk f hp hf e ht hb t
    obtain ⟨u, hu, hcells, hmem, hharts⟩ := pushTie_port s c inp d pk f
    have hc : u.cellAt d = s.cellAt d := by rw [State.cellAt, hcells]; rfl
    rw [show t = _ from hu]
    refine ⟨?_, hmem, hharts⟩
    rw [State.cellAt_modCell_self, hc]
    exact ports_deliver _ _ _ _ hp hf ht hb

/-! Steering and merging (R282, R283). -/

theorem decision_eq (k : Flit) :
    k.decision = if k.isData = true ∨ (k.kind = 6#3 ∧ k.sub = 5) then some (k.data.getLsbD 0) else none := by
  rw [Flit.decision]
  by_cases h1 : k.isData = true
  · exact (if_pos h1).trans (if_pos (.inl h1)).symm
  · have hc : (decide (k.kind = 6#3) && decide (k.sub = 5)) = true ↔ k.isData = true ∨ (k.kind = 6#3 ∧ k.sub = 5) := by
      simp only [Bool.and_eq_true, decide_eq_true_eq, h1, Bool.false_eq_true, false_or]
    rw [if_neg h1]
    exact if_congr hc rfl rfl

/-- How far every switch has come stands still while flits are taken and pushed. -/
theorem left_popped_pushed (s : State) (c inp key : Nat) (f : Flit) (rest : Fifo) (d p : Nat) (g : Flit) (ts : List (Nat × Tie)) :
    (((s.popFlit d inp key f rest).pushAll d p g ts).cellAt c).sw = (s.cellAt c).sw := by
  rw [State.sw_pushAll, State.sw_popFlit]

theorem left_popped_two (s : State) (c i j k l : Nat) (f g : Flit) (fr gr : Fifo) (d p : Nat) (h : Flit) (ts : List (Nat × Tie)) :
    ((((s.popFlit d i k f fr).popFlit d j l g gr).pushAll d p h ts).cellAt c).sw = (s.cellAt c).sw := by
  rw [State.sw_pushAll, State.sw_popFlit, State.sw_popFlit]

section

variable {s : State} {c inp o0 o1 ctl : Nat} {t0 t1 : Tie} {d k : Flit} {drest krest : Fifo}

theorem steerPass_none (h : s.headFlit c inp = none) : s.steerPass c inp o0 o1 ctl = s := by
  rw [State.steerPass, h]

/-- A control flit is steered to both outputs. -/
theorem steerPass_control (h : s.headFlit c inp = some (d, drest)) (h0 : outTie c inp o0 = some t0) (h1 : outTie c inp o1 = some t1)
    (hd : d.isData = false) : s.steerPass c inp o0 o1 ctl =
      if s.tieRoom t0 = true ∧ s.tieRoom t1 = true then (s.popFlit c inp inp d drest).pushAll c inp d [(o0, t0), (o1, t1)] else s := by
  simp only [State.steerPass, h, h0, h1, hd, Bool.not_false, if_true, Bool.and_eq_true]

theorem steerPass_undecided (h : s.headFlit c inp = some (d, drest)) (h0 : outTie c inp o0 = some t0) (h1 : outTie c inp o1 = some t1)
    (hd : d.isData = true) (hk : s.headFlit c ctl = none) : s.steerPass c inp o0 o1 ctl = s := by
  simp only [State.steerPass, h, h0, h1, hd, Bool.not_true, Bool.false_eq_true, if_false, hk]

theorem steerPass_skips (h : s.headFlit c inp = some (d, drest)) (h0 : outTie c inp o0 = some t0) (h1 : outTie c inp o1 = some t1)
    (hd : d.isData = true) (hk : s.headFlit c ctl = some (k, krest)) (hn : k.decision = none) :
    s.steerPass c inp o0 o1 ctl = s.popFlit c ctl ctl k krest := by
  simp only [State.steerPass, h, h0, h1, hd, Bool.not_true, Bool.false_eq_true, if_false, hk, hn]

/-- A data flit is steered to the output that its decision names, and counted. -/
theorem steerPass_data {b : Bool} {m : Nat} (h : s.headFlit c inp = some (d, drest)) (h0 : outTie c inp o0 = some t0)
    (h1 : outTie c inp o1 = some t1) (hd : d.isData = true) (hk : s.headFlit c ctl = some (k, krest)) (hb : k.decision = some b)
    (hl : (s.cellAt c).sw.left = [m]) : s.steerPass c inp o0 o1 ctl =
      if s.tieRoom (if b then t1 else t0) = true then
        (((s.popFlit c ctl ctl k krest).popFlit c inp inp d drest).pushAll c inp (d.under k)
          [(if b then o1 else o0, if b then t1 else t0)]).setLeft c [m - 1]
      else s := by
  simp only [State.steerPass, h, h0, h1, hd, Bool.not_true, Bool.false_eq_true, if_false, hk, hb]
  cases b <;> simp only [Bool.false_eq_true, if_false, if_true, left_popped_two, hl, List.map_cons, List.map_nil]

end

/-- Whether a tie has room for two flits. -/
def roomForTwo (s : State) (t : Tie) : Bool :=
  match t with
  | .buf d key => s.bufRoom d key 2
  | .port d pk => decide (portCount (lookupD [] pk (s.cellAt d).ports) + 2 ≤ 2 + lookupD 0 (portGrown pk) (s.cellAt d).grown)
  | _ => false

section

variable {s : State} {c i0 i1 out ctl : Nat} {t : Tie} {f g d k : Flit} {fr gr drest krest : Fifo}

theorem mergePass_both (ht : outTie c i0 out = some t) (hf : s.headFlit c i0 = some (f, fr)) (hg : s.headFlit c i1 = some (g, gr))
    (hfd : f.isData = false) (hgd : g.isData = false) : s.mergePass c i0 i1 out ctl =
      if (s.tieRoom t && (!f.differs g || roomForTwo s t)) = true then
        (if f.differs g = true then
          (((s.popFlit c i0 i0 f fr).popFlit c i1 i1 g gr).pushAll c i0 f [(out, t)]).pushAll c i1 g [(out, t)]
        else ((s.popFlit c i0 i0 f fr).popFlit c i1 i1 g gr).pushAll c i0 f [(out, t)])
      else s := by
  simp only [State.mergePass, ht, hf, hg, hfd, hgd, Bool.not_false, Bool.and_self, if_true]
  rfl

/-- What a merge does by the decision of its control input. -/
def mergeChoice (s : State) (c i0 i1 out ctl : Nat) (t : Tie) : State :=
  match s.headFlit c ctl with
  | none => s
  | some (k, krest) =>
    match k.decision with
    | none => s.popFlit c ctl ctl k krest
    | some bit =>
      match (if bit then s.headFlit c i1 else s.headFlit c i0) with
      | some (d, drest) =>
        if d.isData && s.tieRoom t then
          let u := ((s.popFlit c ctl ctl k krest).popFlit c (if bit then i1 else i0) (if bit then i1 else i0) d drest).pushAll c
            (if bit then i1 else i0) (d.under k) [(out, t)]
          u.setLeft c ((u.cellAt c).sw.left.map (· - 1))
        else s
      | none => s

theorem mergePass_choice (ht : outTie c i0 out = some t)
    (hn : ¬ ∃ f fr g gr, s.headFlit c i0 = some (f, fr) ∧ s.headFlit c i1 = some (g, gr) ∧ f.isData = false ∧ g.isData = false) :
    s.mergePass c i0 i1 out ctl = mergeChoice s c i0 i1 out ctl t := by
  rw [State.mergePass, ht, mergeChoice]
  cases ha : s.headFlit c i0 with
  | none => rfl
  | some a =>
    cases hb : s.headFlit c i1 with
    | none => rfl
    | some b =>
      obtain ⟨f, fr⟩ := a
      obtain ⟨g, gr⟩ := b
      have hd : (!f.isData && !g.isData) = false := by
        by_contra h
        simp only [Bool.not_eq_false, Bool.and_eq_true, Bool.not_eq_true'] at h
        exact hn ⟨f, fr, g, gr, ha, hb, h⟩
      simp only [hd, Bool.false_eq_true, if_false] <;> rfl

theorem mergeChoice_undecided (hk : s.headFlit c ctl = none) : mergeChoice s c i0 i1 out ctl t = s := by
  rw [mergeChoice, hk]

theorem mergeChoice_skips (hk : s.headFlit c ctl = some (k, krest)) (hn : k.decision = none) :
    mergeChoice s c i0 i1 out ctl t = s.popFlit c ctl ctl k krest := by
  simp only [mergeChoice, hk, hn]

theorem mergeChoice_absent {b : Bool} (hk : s.headFlit c ctl = some (k, krest)) (hb : k.decision = some b)
    (hd : s.headFlit c (if b then i1 else i0) = none) : mergeChoice s c i0 i1 out ctl t = s := by
  cases b <;> simp only [Bool.false_eq_true, if_false, if_true] at hd <;> simp only [mergeChoice, hk, hb, hd, Bool.false_eq_true, if_false, if_true]

/-- The data flit of the input that the decision names is passed, and counted. -/
theorem mergeChoice_data {b : Bool} {m : Nat} (hk : s.headFlit c ctl = some (k, krest)) (hb : k.decision = some b)
    (hd : s.headFlit c (if b then i1 else i0) = some (d, drest)) (hl : (s.cellAt c).sw.left = [m]) :
    mergeChoice s c i0 i1 out ctl t = if d.isData = true ∧ s.tieRoom t = true then
      (((s.popFlit c ctl ctl k krest).popFlit c (if b then i1 else i0) (if b then i1 else i0) d drest).pushAll c (if b then i1 else i0) (d.under k)
        [(out, t)]).setLeft c [m - 1] else s := by
  cases b <;> simp only [Bool.false_eq_true, if_false, if_true] at hd <;>
    simp only [mergeChoice, hk, hb, hd, Bool.false_eq_true, if_false, if_true, left_popped_two, hl, List.map_cons, List.map_nil, Bool.and_eq_true]

end

theorem differs_false {f g : Flit} (hk : f.kind = g.kind) (hs : f.kind = 6#3 → f.sub = g.sub)
    (hd : f.data.extractLsb' 0 32 = g.data.extractLsb' 0 32) : f.differs g = false := by
  by_cases h6 : f.kind = 6#3
  · simp only [Flit.differs, ← hk, ← hs h6, hd, ne_eq, not_true_eq_false, decide_false, Bool.and_false, Bool.or_self]
  · simp only [Flit.differs, ← hk, h6, hd, ne_eq, not_true_eq_false, decide_false, Bool.false_and, Bool.or_self]

theorem differs_true {f g : Flit}
    (h : f.kind ≠ g.kind ∨ (f.kind = 6#3 ∧ f.sub ≠ g.sub) ∨ f.data.extractLsb' 0 32 ≠ g.data.extractLsb' 0 32) : f.differs g = true := by
  simp only [Flit.differs, Bool.or_eq_true, Bool.and_eq_true, decide_eq_true_eq]
  tauto

theorem roomForTwo_of {s : State} {t : Tie} (hr : s.tieRoom t = true) (hb : ∀ d key, t = .buf d key → s.bufRoom d key 2 = true)
    (hp : ∀ d pk, t = .port d pk → portCount (lookupD [] pk (s.cellAt d).ports) ≤ lookupD 0 (portGrown pk) (s.cellAt d).grown) :
    roomForTwo s t = true := by
  cases t with
  | buf d key => exact hb d key rfl
  | port d pk => exact decide_eq_true (by have := hp d pk rfl; omega)
  | queue _ _ => exact absurd (show false = true from hr) (by decide)
  | fifo _ _ => exact absurd (show false = true from hr) (by decide)

theorem sw_pushed_twice (s : State) (c i j k l : Nat) (f g : Flit) (fr gr : Fifo) (d p q : Nat) (h h' : Flit) (ts us : List (Nat × Tie)) :
    (((((s.popFlit d i k f fr).popFlit d j l g gr).pushAll d p h ts).pushAll d q h' us).cellAt c).sw = (s.cellAt c).sw := by
  rw [State.sw_pushAll, left_popped_two]

/-- Settles O10: a decision names the output of a steer and the input of a merge; control flits go everywhere, or as one. -/
theorem switchChoices : Obligations.SwitchChoices := by
  refine ⟨decision_eq, ?_, ?_⟩
  · intro s inp o0 o1 ctl cnt m t0 t1 c s0 i hl hm h0 h1
    have hx : ∀ u, s0.steerPass c inp.toNat o0.toNat o1.toNat ctl.toNat = u → exec i s = .next (u.endCounted c) := fun u hu =>
      congrArg (fun v : State => (Host.Outcome.next (v.endCounted c) : Out)) hu
    have hgo : s0.endCounted c = s0 := endCounted_goes hl hm
    refine ⟨fun hn => (hx _ (steerPass_none hn)).trans (congrArg _ hgo), fun d drest hd => ⟨fun hc hr0 hr1 => ?_, fun hc hr => ?_, fun hc hk => ?_,
      fun hc k krest hk => ⟨fun hn => ?_, fun b hb => ⟨fun hr => ?_, fun hr => ?_⟩⟩⟩⟩
    · rw [hx _ ((steerPass_control hd h0 h1 hc).trans (if_pos ⟨hr0, hr1⟩)), endCounted_goes (by rw [left_popped_pushed]; exact hl) hm]
    · exact (hx _ ((steerPass_control hd h0 h1 hc).trans (if_neg (by rcases hr with hr | hr <;> rw [hr] <;> simp)))).trans (congrArg _ hgo)
    · exact (hx _ (steerPass_undecided hd h0 h1 hc hk)).trans (congrArg _ hgo)
    · rw [hx _ (steerPass_skips hd h0 h1 hc hk hn), endCounted_goes (by rw [State.sw_popFlit]; exact hl) hm]
    · exact (hx _ ((steerPass_data hd h0 h1 hc hk hb hl).trans (if_neg (by rw [hr]; decide)))).trans (congrArg _ hgo)
    · exact (hx _ ((steerPass_data hd h0 h1 hc hk hb hl).trans (if_pos hr))).trans (congrArg _ (passed_one hm))
  · intro s i0 i1 out ctl cnt m t c s0 i both hl hm ht
    have hx : ∀ u, s0.mergePass c i0.toNat i1.toNat out.toNat ctl.toNat = u → exec i s = .next (u.endCounted c) := fun u hu =>
      congrArg (fun v : State => (Host.Outcome.next (v.endCounted c) : Out)) hu
    have hgo : s0.endCounted c = s0 := endCounted_goes hl hm
    refine ⟨fun f fr g gr hf hg hfd hgd hr => ⟨fun hk hs hd => ?_, fun hdiff hbuf hport => ?_⟩, fun hn hk => ?_, fun hn k krest hk =>
      ⟨fun hd => ?_, fun b hb => ⟨fun hj => ?_, fun d drest hj => ⟨fun hd => ?_, fun hd hr => ?_⟩⟩⟩⟩
    · have hsame := differs_false hk hs hd
      have hp := mergePass_both (ctl := ctl.toNat) ht hf hg hfd hgd
      rw [hsame, if_pos (by rw [hr]; rfl), if_neg (by decide)] at hp
      rw [hx _ hp, endCounted_goes (by rw [left_popped_two]; exact hl) hm]
    · have hother := differs_true hdiff
      have hp := mergePass_both (ctl := ctl.toNat) ht hf hg hfd hgd
      rw [hother, if_pos (by rw [hr, roomForTwo_of hr hbuf hport]; rfl), if_pos rfl] at hp
      rw [hx _ hp, endCounted_goes (by rw [sw_pushed_twice]; exact hl) hm]
    · exact (hx _ ((mergePass_choice ht hn).trans (mergeChoice_undecided hk))).trans (congrArg _ hgo)
    · rw [hx _ ((mergePass_choice ht hn).trans (mergeChoice_skips hk hd)), endCounted_goes (by rw [State.sw_popFlit]; exact hl) hm]
    · exact (hx _ ((mergePass_choice ht hn).trans (mergeChoice_absent hk hb (by cases b <;> exact hj)))).trans (congrArg _ hgo)
    · have hno : ¬ (d.isData = true ∧ s0.tieRoom t = true) := fun h => by
        rcases hd with hd | hd
        · exact absurd h.1 (by rw [hd]; decide)
        · exact absurd h.2 (by rw [hd]; decide)
      exact (hx _ ((mergePass_choice ht hn).trans ((mergeChoice_data hk hb (by cases b <;> exact hj) hl).trans (if_neg hno)))).trans (congrArg _ hgo)
    · rw [hx _ ((mergePass_choice ht hn).trans ((mergeChoice_data hk hb (by cases b <;> exact hj) hl).trans (if_pos ⟨hd, hr⟩)))]
      cases b <;> exact congrArg _ (passed_one hm)

end Sys2Proof.Switching
end

section
/-! SUPPORT. The control words of switches, and what passes at a port (R270, R277, R284-R286). -/

namespace Sys2Proof.Switching

open Sys2Proof Sys2Proof.Machine Sys2Proof.Spec

/-! EMIT and WAITTOK (R284, R285). -/

section

variable {s : State} {out vc : BitVec 5} {kind : BitVec 3} {sb : BitVec 6} {value : BitVec 32} {t : Tie}

theorem emit_eq (ht : outTie (cellOf s.cur) 31 out.toNat = some t) : exec (.emit out kind vc sb value) s =
    (if s.tieRoom t = true then
      (match (if (kind = 6#3 && sb = 4#6) = true then s.releaseOwner (cellOf s.cur) value.toNat else some s) with
      | some u => .next ((u.pushAll (cellOf s.cur) 31 (emitFlit kind vc sb value) [(out.toNat, t)]).switchNext (cellOf s.cur))
      | none => .next s)
    else .next s) := by
  show execEmit out kind vc sb value s = _
  rw [execEmit]
  simp only [ht] <;> rfl

/-- An emit that has room pushes its flit once what it gives away is its to give. -/
theorem emit_pushes {u : State} (ht : outTie (cellOf s.cur) 31 out.toNat = some t) (hr : s.tieRoom t = true)
    (hu : (if (kind = 6#3 && sb = 4#6) = true then s.releaseOwner (cellOf s.cur) value.toNat else some s) = some u) :
    exec (.emit out kind vc sb value) s =
      .next ((u.pushAll (cellOf s.cur) 31 (emitFlit kind vc sb value) [(out.toNat, t)]).switchNext (cellOf s.cur)) := by
  rw [emit_eq ht, if_pos hr, hu]

theorem emit_keeps (ht : outTie (cellOf s.cur) 31 out.toNat = some t) (hr : s.tieRoom t = true)
    (hu : (if (kind = 6#3 && sb = 4#6) = true then s.releaseOwner (cellOf s.cur) value.toNat else some s) = none) :
    exec (.emit out kind vc sb value) s = .next s := by
  rw [emit_eq ht, if_pos hr, hu]

end

/-- The flit at an input as a waittok of a kind and a subtype looks for it. -/
theorem matchesTok_iff {f : Flit} {kind : BitVec 3} {sb : BitVec 6} :
    f.matchesTok kind sb = true ↔ f.kind = kind ∧ (kind = 6#3 → sb = 0x3F#6 ∨ f.sub = sb.toNat) := by
  simp only [Flit.matchesTok, Bool.and_eq_true, Bool.or_eq_true, decide_eq_true_eq]
  tauto

section

variable {s : State} {inp : BitVec 5} {kind : BitVec 3} {sb : BitVec 6} {ck : BitVec 2} {target : BitVec 12} {f : Flit} {rest : Fifo}

/-- A switch whose counter gets the value of a flit. -/
def loaded (ck : BitVec 2) (f : Flit) (x : Cell) : Cell := { x with sw := { x.sw with c := x.sw.c.setIfInBounds ck.toNat (f.data.extractLsb' 0 24) } }

theorem waittok_none {ld : BitVec 1} (h : s.headFlit (cellOf s.cur) inp.toNat = none) : exec (.waittok inp kind sb ld ck target) s = .next s := by
  show execWaittok inp kind sb ld ck target s = _
  simp only [execWaittok, h]

theorem waittok_some (ld : BitVec 1) (h : s.headFlit (cellOf s.cur) inp.toNat = some (f, rest)) : exec (.waittok inp kind sb ld ck target) s =
    if f.matchesTok kind sb = true then
      .next (if ld = 1#1 then (((s.popFlit (cellOf s.cur) inp.toNat inp.toNat f rest).modCell (cellOf s.cur) (loaded ck f)).switchNext (cellOf s.cur))
        else (s.popFlit (cellOf s.cur) inp.toNat inp.toNat f rest).switchNext (cellOf s.cur))
    else .next (s.switchGo (cellOf s.cur) target.toNat) := by
  show execWaittok inp kind sb ld ck target s = _
  simp only [execWaittok, h]
  refine ite_congr rfl (fun _ => ?_) fun _ => rfl
  split <;> rfl

end

/-! LOOP, BNZ, JMP and HALT (R286). -/

section

variable (s : State) (c : Nat)

theorem cellAt_switchGo (pc : Nat) : ((s.switchGo c pc).cellAt c).sw = { (s.cellAt c).sw with pc := pc, left := [] } := by
  rw [State.switchGo, State.cellAt_modCell_self]

theorem bufs_switchGo (pc : Nat) : ((s.switchGo c pc).cellAt c).bufs = (s.cellAt c).bufs := by
  rw [State.switchGo, State.cellAt_modCell_self]

/-- A switch with a value in a counter. -/
def counting (k : Nat) (v : BitVec 24) (x : Cell) : Cell := { x with sw := { x.sw with c := x.sw.c.setIfInBounds k v } }

/-- A counter word sets its counter and goes to a word. -/
theorem counted_spec (k pc : Nat) (v : BitVec 24) :
    ((((s.modCell c (counting k v)).switchGo c pc).cellAt c).sw.pc = pc) ∧
    (∀ j, j < 4 → (((s.modCell c (counting k v)).switchGo c pc).cellAt c).sw.c[j]? = if j = k then some v else (s.cellAt c).sw.c[j]?) ∧
    (((s.modCell c (counting k v)).switchGo c pc).cellAt c).bufs = (s.cellAt c).bufs ∧
    ((s.modCell c (counting k v)).switchGo c pc).mem = s.mem ∧ ((s.modCell c (counting k v)).switchGo c pc).harts = s.harts := by
  rw [cellAt_switchGo, bufs_switchGo, State.cellAt_modCell_self]
  refine ⟨rfl, fun j hj => ?_, rfl, rfl, rfl⟩
  show ((s.cellAt c).sw.c.setIfInBounds k v)[j]? = _
  rw [Vector.getElem?_setIfInBounds]
  by_cases h : j = k
  · subst h
    rw [if_pos rfl, if_pos hj, if_pos rfl]
  · rw [if_neg (Ne.symm h), if_neg h]

end

theorem loop_eq (ck : BitVec 2) (n : BitVec 24) (s : State) : exec (.loop ck n) s =
    .next ((s.modCell (cellOf s.cur) (counting ck.toNat n)).switchGo (cellOf s.cur) ((s.cellAt (cellOf s.cur)).sw.pc + 1)) := by
  show execLoop ck n s = _
  rw [execLoop, State.switchNext, State.cellAt_modCell_self]
  rfl

theorem bnz_eq {ck : BitVec 2} {target : BitVec 12} {s : State} {v : BitVec 24} (hv : (s.cellAt (cellOf s.cur)).sw.c[ck.toNat]? = some v) :
    exec (.bnz ck target) s = .next ((s.modCell (cellOf s.cur) (counting ck.toNat (if v = 0#24 then 0#24 else v - 1#24))).switchGo (cellOf s.cur)
      (if (if v = 0#24 then 0#24 else v - 1#24) = 0#24 then (s.cellAt (cellOf s.cur)).sw.pc + 1 else target.toNat)) := by
  have hw : (if v = 0#24 then v else v - 1#24) = if v = 0#24 then 0#24 else v - 1#24 := ite_congr rfl (fun h => h) fun _ => rfl
  show execBnz ck target s = _
  simp only [execBnz, hv, Option.getD_some, hw]
  generalize (if v = 0#24 then 0#24 else v - 1#24) = w
  split
  · rw [State.switchNext, State.cellAt_modCell_self]; rfl
  · rfl

theorem switchControl : SwitchControl := by
  refine ⟨?_, ?_, ?_, ?_, ?_, ?_⟩
  · intro s out kind vc sb value t c i f ht
    refine ⟨fun hr => (emit_eq ht).trans (if_neg (by rw [hr]; decide)), fun hr hn => emit_pushes ht hr (if_neg ?_), fun hr hk hs hu =>
      emit_keeps ht hr ((if_pos ?_).trans hu), fun u hr hk hs hu => emit_pushes ht hr ((if_pos ?_).trans hu)⟩
    · simpa only [Bool.and_eq_true, decide_eq_true_eq] using hn
    · rw [hk, hs]; rfl
    · rw [hk, hs]; rfl
  · intro s inp kind sb ld ck target c i
    refine ⟨waittok_none, fun f rest h => ?_⟩
    intro good u
    refine ⟨fun hg => (waittok_some ld h).trans (if_neg (mt matchesTok_iff.mp hg)), fun hg hl => ?_, fun hg hl => ?_⟩
    · rw [show i = .waittok inp kind sb ld ck target from rfl, waittok_some ld h, if_pos (matchesTok_iff.mpr hg), if_neg (by rw [hl]; decide)]
    · rw [show i = .waittok inp kind sb ld ck target from rfl, waittok_some ld h, if_pos (matchesTok_iff.mpr hg), if_pos hl]
      rfl
  · exact fun s ck n => ⟨_, loop_eq ck n s, counted_spec ..⟩
  · intro s ck target v k hv v'
    exact ⟨_, bnz_eq hv, counted_spec ..⟩
  · exact fun s target => ⟨_, rfl, cellAt_switchGo s _ _, bufs_switchGo s _ _, rfl, rfl⟩
  · intro s
    refine ⟨_, rfl, ?_, ?_, rfl, rfl⟩ <;> rw [State.cellAt_modCell_self]

/-! What passes at a port, and a seam that cannot deliver (R270, R277). -/

section

variable {s : State} {cell port : Nat}

/-- Whether the routes from a buffer pass what stands at a port. -/
def atPort (port key : Nat) : Bool :=
  if port < 8 then decide (key = port) else decide (64 + 8 * (port - 8) ≤ key) && decide (key < 72 + 8 * (port - 8))

theorem pass_rests (hm : (s.as (switchOf cell)).cellMoves cell = false) :
    exec (.switchFlitPass cell port) s = .next (s.as (switchOf cell)) := by
  show execSwitchFlitPass cell port s = _
  rw [execSwitchFlitPass]
  exact if_pos (by rw [hm]; rfl)

/-! A port of a switch that moves, under each of the four words that pass flits. -/

section

variable (hm : (s.as (switchOf cell)).cellMoves cell = true)

include hm

theorem pass_route {n : BitVec 2} {r0 r1 r2 r3 : BitVec 10} {cnt : BitVec 12}
    (hf : (s.as (switchOf cell)).fetchSwitch cell = .ok (some (.route n r0 r1 r2 r3 cnt))) :
    exec (.switchFlitPass cell port) s = .next (routeStep cell n r0 r1 r2 r3 cnt (atPort port) (s.as (switchOf cell))) := by
  show execSwitchFlitPass cell port s = _
  rw [execSwitchFlitPass]
  simp only [hm, hf] <;> rfl

theorem pass_routec {n : BitVec 2} {r0 r1 r2 r3 : BitVec 10} {kind : BitVec 3}
    (hf : (s.as (switchOf cell)).fetchSwitch cell = .ok (some (.routec n r0 r1 r2 r3 kind))) :
    exec (.switchFlitPass cell port) s = .next (routecStep cell n r0 r1 r2 r3 kind (atPort port) (s.as (switchOf cell))) := by
  show execSwitchFlitPass cell port s = _
  rw [execSwitchFlitPass]
  simp only [hm, hf] <;> rfl

theorem pass_steer {inp out0 out1 ctl : BitVec 5} {cnt : BitVec 12} (hp : inp.toNat = port)
    (hf : (s.as (switchOf cell)).fetchSwitch cell = .ok (some (.steer inp out0 out1 ctl cnt))) :
    exec (.switchFlitPass cell port) s = execSteer inp out0 out1 ctl cnt (s.as (switchOf cell)) := by
  show execSwitchFlitPass cell port s = _
  rw [execSwitchFlitPass]
  simp only [hm, hf, hp] <;> rfl

theorem pass_merge {in0 in1 out ctl : BitVec 5} {cnt : BitVec 12} (hp : (in0.toNat = port || in1.toNat = port) = true)
    (hf : (s.as (switchOf cell)).fetchSwitch cell = .ok (some (.merge in0 in1 out ctl cnt))) :
    exec (.switchFlitPass cell port) s = execMerge in0 in1 out ctl cnt (s.as (switchOf cell)) := by
  show execSwitchFlitPass cell port s = _
  rw [execSwitchFlitPass]
  simp only [hm, hf]
  exact if_pos hp

end

theorem cellOf_switchOf (cell : Nat) : cellOf (switchOf cell) = cell := by
  rw [cellOf, switchOf]; omega

/-- The buffer that a route from a port below 8 reads is the port's. -/
theorem atPort_inKey {c inp out : Nat} (hp : port < 8) (h : inp = port) : atPort port (inKey c inp out) = true := by
  subst h
  rw [atPort, if_pos hp, inKey, if_pos hp]
  exact decide_eq_true rfl

end

theorem seamRetryFailure_last {s : State} {cell port : Nat} {fs : Fifo} {f : Flit} (hs : isSeam cell port = true) (hp : port < 8)
    (hb : (s.cellAt cell).buf port = fs ++ [f]) : exec (.seamRetryFailure cell port) s =
      if f.isData = true then .next (s.modCell cell (fun x => x.setBuf port (fs ++ [{ f with kind := 7#3 }])))
      else if f.isMarker = true then .next s
      else .next ((s.modCell cell (fun x => x.setBuf port fs)).cause (s.cellRegion cell) 0x48) := by
  have hr : ((s.cellAt cell).buf port).reverse = f :: fs.reverse := by rw [hb, List.reverse_append]; rfl
  show execSeamRetryFailure cell port s = _
  rw [execSeamRetryFailure, if_pos (by rw [hs, decide_eq_true hp]; rfl), hr]
  simp only [List.reverse_cons, List.reverse_reverse]

theorem switchEvents : SwitchEvents := by
  refine ⟨fun s cell port hp => ?_, fun s cell port => ⟨fun hs => ?_, fun hs hp fs f hb => ⟨fun hd => ?_, fun hd hm => ?_⟩⟩⟩
  · intro u pass
    have hc : cellOf u.cur = cell := cellOf_switchOf cell
    refine ⟨pass_rests, fun hm => ⟨fun r0 r1 r2 r3 cnt hf hr => ?_, fun r0 r1 r2 r3 kind hf hr => ?_, fun inp o0 o1 ctl cnt hf hi => ?_,
      fun i0 i1 out ctl cnt hf hi => ?_⟩⟩
    · refine (pass_route hm hf).trans ?_
      show Host.Outcome.next (routeStep cell 0#2 r0 r1 r2 r3 cnt (atPort port) u) =
        .next (routeStep (cellOf u.cur) 0#2 r0 r1 r2 r3 cnt (fun _ => true) u)
      rw [hc, routeStep_one _ _ _ _ _ _ _ _ (atPort_inKey hp hr), routeStep_one _ _ _ _ _ _ _ _ rfl]
    · refine (pass_routec hm hf).trans ?_
      show Host.Outcome.next (routecStep cell 0#2 r0 r1 r2 r3 kind (atPort port) u) =
        .next (routecStep (cellOf u.cur) 0#2 r0 r1 r2 r3 kind (fun _ => true) u)
      rw [hc, routecStep_one _ _ _ _ _ _ _ _ (atPort_inKey hp hr), routecStep_one _ _ _ _ _ _ _ _ rfl]
    · exact pass_steer hm hi hf
    · exact pass_merge hm (by simpa only [Bool.or_eq_true, decide_eq_true_eq] using hi) hf
  · show execSeamRetryFailure cell port s = _
    rw [execSeamRetryFailure]
    exact if_neg (by rw [hs, Bool.false_and]; decide)
  · rw [seamRetryFailure_last hs hp hb, if_pos hd]
  · rw [seamRetryFailure_last hs hp hb, if_neg (by rw [hd]; decide), if_neg (by rw [hm]; decide)]

/-- Settles O57: the control words, word by word, and the passing of a port as a run of the word. -/
theorem switchControlInstructions : Obligations.SwitchControlInstructions := ⟨switchControl, switchEvents⟩

end Sys2Proof.Switching
end

section
/-! SUPPORT. The instructions of streamers: parameter blocks, commands, spilling and kerfs (R240-R261). -/

namespace Sys2Proof.Streaming

open Sys2Proof Sys2Proof.Machine Sys2Proof.Spec Sys2Proof.Integer Sys2Proof.Floats

/-! Traps whose notes stand (R211). -/

section

variable {i : Instr} {tk : Tok} {n : Nat} {body : State → Act} {s s1 : State}

theorem exec_trapWith (hr : Runs i tk n body) (h : Ready i tk s s1) {f : State → State} {code : Nat} {value : Word}
    (hb : body s1 = .trapWith f code value) : exec i s = .next ((f s1).trapNow code value) := by
  rw [hr.2, runHart_ready h, hb]

/-- A trap that leaves a note of poison in CHKIV. -/
theorem exec_noted (hr : Runs i tk n body) (h : Ready i tk s s1) {p : Bool} {code : Nat} {value : Word}
    (hb : body s1 = .trapWith (fun s => s.note p 4) code value) : exec i s = .next ((s1.note p 4).trapNow code value) :=
  exec_trapWith (f := fun s => s.note p 4) hr h hb

theorem exec_wait (hr : Runs i tk n body) (h : Ready i tk s s1) {w : Wait} {f : State → State} (hb : body s1 = .wait w f) :
    exec i s = .next ((f s1).waiting w) := by
  rw [hr.2, runHart_wait h hb]

end

/-! Loading an image (R241). -/

section

variable {s s2 : State} {n : BitVec 3} {a : Reg} {x : UVal} {p : Bool}

/-- The image that a block of the general memory of the running cell holds. -/
def blockImage (u : State) (off : Nat) : List Word :=
  (List.range 8).map (fun k => BitVec.ofNat 64 (dwordAt ((u.cellAt (cellOf u.cur)).sram.read off 64) (8 * k)))

/-- The first poisoned dword of a block. -/
def blockPoison (u : State) (off : Nat) : Option Nat :=
  (List.range 8).find? (fun k => (u.cellAt (cellOf u.cur)).sram.poisoned (off / 8 + k))

theorem firstOf_none (b : Option Nat) : firstOf none b = b := by
  cases b <;> rfl

/-- What spbset makes of a block, where its slot is free. -/
def loadsBlock (n : BitVec 3) (v : Word) (note : State → State) (u : State) : Act :=
  if v.toNat % 64 ≠ 0 || u.generalEnd (cellOf u.cur) < v.toNat + 64 then .trapWith note 0x0A v
  else
    match firstOf (blockPoison u v.toNat) (imageBad (blockImage u v.toNat)) with
    | some k => .trapWith (fun s => (note s).note (blockPoison u v.toNat).isSome 0) 0x24 (BitVec.ofNat 64 (1 * 65536 + 8 * k))
    | none =>
      if imgDigest (blockImage u v.toNat) ≠ digestOf (blockImage u v.toNat) then
        .trapWith note 0x24 (BitVec.ofNat 64 (digestOf (blockImage u v.toNat)))
      else .done (u.modHart (fun h => h.setSlot n.toNat { Slot.reset with state := .idle, image := blockImage u v.toNat }))

theorem spbsetOp_eq (hx : s.readU a = .got x s2)
    (hs : ((s2.note x.poison 4).hart.slot n.toNat).state = .empty ∨ ((s2.note x.poison 4).hart.slot n.toNat).state = .idle) :
    spbsetOp n a s = loadsBlock n x.val (fun s => s.note x.poison 4) (s2.note x.poison 4) := by
  rw [spbsetOp, srcU_got hx]
  rcases hs with hs | hs <;> simp only [hs] <;> rfl

section

variable {v : Word} {note : State → State} {u : State}

theorem loadsBlock_outside (h : v.toNat % 64 ≠ 0 ∨ u.generalEnd (cellOf u.cur) < v.toNat + 64) :
    loadsBlock n v note u = .trapWith note 0x0A v := by
  rw [loadsBlock]
  exact if_pos (by simpa only [Bool.or_eq_true, decide_eq_true_eq] using h)

theorem blockPoison_none {off : Nat} (h : ∀ k, k < 8 → (u.cellAt (cellOf u.cur)).sram.poisoned (off / 8 + k) = false) :
    blockPoison u off = none :=
  List.find?_eq_none.mpr fun k hk => by rw [h k (List.mem_range.mp hk)]; decide

variable (h0 : v.toNat % 64 = 0) (h1 : v.toNat + 64 ≤ u.generalEnd (cellOf u.cur)) (hp : blockPoison u v.toNat = none)

include h0 h1 hp

theorem loadsBlock_inside : loadsBlock n v note u =
    match imageBad (blockImage u v.toNat) with
    | some k => .trapWith note 0x24 (BitVec.ofNat 64 (1 * 65536 + 8 * k))
    | none =>
      if imgDigest (blockImage u v.toNat) ≠ digestOf (blockImage u v.toNat) then
        .trapWith note 0x24 (BitVec.ofNat 64 (digestOf (blockImage u v.toNat)))
      else .done (u.modHart (fun h => h.setSlot n.toNat { Slot.reset with state := .idle, image := blockImage u v.toNat })) := by
  rw [loadsBlock, if_neg (by simp only [Bool.or_eq_true, decide_eq_true_eq]; omega), hp, firstOf_none]
  generalize blockImage u v.toNat = im
  cases imageBad im <;> rfl

theorem loadsBlock_malformed {k : Nat} (hk : imageBad (blockImage u v.toNat) = some k) :
    loadsBlock n v note u = .trapWith note 0x24 (BitVec.ofNat 64 (65536 + 8 * k)) := by
  rw [loadsBlock_inside h0 h1 hp, hk, Nat.one_mul]

theorem loadsBlock_digest (hk : imageBad (blockImage u v.toNat) = none)
    (hd : imgDigest (blockImage u v.toNat) ≠ digestOf (blockImage u v.toNat)) :
    loadsBlock n v note u = .trapWith note 0x24 (BitVec.ofNat 64 (digestOf (blockImage u v.toNat))) := by
  rw [loadsBlock_inside h0 h1 hp, hk]
  exact if_pos hd

theorem loadsBlock_loads (hk : imageBad (blockImage u v.toNat) = none)
    (hd : imgDigest (blockImage u v.toNat) = digestOf (blockImage u v.toNat)) : loadsBlock n v note u =
      .done (u.modHart (fun h => h.setSlot n.toNat { Slot.reset with state := .idle, image := blockImage u v.toNat })) := by
  rw [loadsBlock_inside h0 h1 hp, hk]
  exact if_neg (not_not.mpr hd)

end

end

/-! Commands (R245, R250). -/

/-- Two commands clash whichever is named first. -/
theorem clashes_comm (m m' : StreamCmd) : m.clashes m' = m'.clashes m := by
  by_cases he : m.ep = m'.ep
  · have hp : m.isPort = m'.isPort := by rw [StreamCmd.isPort, StreamCmd.isPort, he]
    have ho : (m.isStore == m'.isStore) = (m'.isStore == m.isStore) := Bool.beq_comm
    simp only [StreamCmd.clashes, he, hp, ho, eq_comm (a := m.vc)]
  · simp only [StreamCmd.clashes, he, Ne.symm he, decide_false, Bool.and_false, Bool.false_and]

section

variable {s s2 s3 : State} {a b : Reg} {x y : UVal} {word : Word}

/-- What strm makes of a command that its parties may give, at the slot it names. -/
def startsAt (n : Nat) (m : StreamCmd) (note : State → State) (u : State) : Act :=
  let k := u.hart.slot n
  let unit := min (imgE k.image) 8
  match k.state with
  | .active => .wait .slot id
  | .faulted _ _ => .wait .slot id
  | .empty => .trapWith note 0x24 0x20000#64
  | .idle =>
    if u.cannotServe u.cur k.image m then .trapWith note 0x24 0x30000#64
    else if m.space ≠ 2 && (m.base % unit ≠ 0 ||
        (imgMode k.image ≤ 1 && (List.range (imgLevels k.image)).any (fun l => decide (imgStride k.image l % unit ≠ 0)))) then
      .trapWith note 0x05 (BitVec.ofNat 64 m.base)
    else if (List.range 8).any (fun j => decide ((u.hart.slot j).state = .active) && (u.hart.slot j).cmd.any m.clashes) then
      .wait .slot id
    else .done (u.modHart (fun h => h.setSlot n (k.begin m)))

/-- What strm makes of a command. -/
def startsStream (word : Word) (hi lo : Word) (n : Nat) (m : StreamCmd) (note : State → State) (u : State) : Act :=
  let ms := u.cell.mapFor (slotOf u.cur)
  if u.draining then .done u
  else if commandBad (!isC (cellOf u.cur)) m hi lo then .trapWith note 0x01 word
  else if !m.isPort && !m.isTile &&
      !(if m.isStore then consumes ms (slotOf u.cur) m.code else produces ms (slotOf u.cur) m.code) then
    .trapWith note 0x10 (BitVec.ofNat 64 m.ep)
  else if m.tkp && !produces ms (slotOf u.cur) (16 + m.tkf) then .trapWith note 0x10 (BitVec.ofNat 64 (64 + m.tkf))
  else if m.space = 1 && !(u.myRegion.hasCell m.cell) then .trapWith note 0x0A (BitVec.ofNat 64 m.cell)
  else startsAt n m note u

theorem slotField (hi : Word) : bits hi.toNat 59 57 = hi.toNat / 2 ^ 57 % 8 := by
  rw [bits, Nat.shiftRight_eq_div_pow]
  rfl

theorem strmOp_eq (hx : s.readU a = .got x s2) (hy : s2.readU b = .got y s3) : strmOp word a b s =
    startsStream word y.val x.val (y.val.toNat / 2 ^ 57 % 8) (commandOf (s3.note (x.poison || y.poison) 4).hart.ctxId
      (s3.note (x.poison || y.poison) 4).hart.regionId y.val x.val) (fun s => s.note (x.poison || y.poison) 4)
      (s3.note (x.poison || y.poison) 4) := by
  rw [strmOp, srcU_got hx, srcU_got hy, ← slotField]
  rfl

section

variable {n : Nat} {m : StreamCmd} {note : State → State} {u : State} {hi lo : Word}

theorem startsStream_illegal (hd : u.draining = false) (hb : commandBad (!isC (cellOf u.cur)) m hi lo ≠ false) :
    startsStream word hi lo n m note u = .trapWith note 0x01 word := by
  rw [startsStream, if_neg (by rw [hd]; decide), if_pos (eq_true_of_ne_false hb)]

/-- The endpoint, the token FIFO and the cell of a command are its streamer's to name. -/
def mayName (u : State) (m : StreamCmd) : Prop :=
  (m.isPort = true ∨ m.isTile = true ∨ (if m.isStore then consumes (u.cell.mapFor (slotOf u.cur)) (slotOf u.cur) m.code
      else produces (u.cell.mapFor (slotOf u.cur)) (slotOf u.cur) m.code) = true) ∧
    (m.tkp = true → produces (u.cell.mapFor (slotOf u.cur)) (slotOf u.cur) (16 + m.tkf) = true) ∧
    (m.space = 1 → u.myRegion.hasCell m.cell = true)

theorem startsStream_legal (hd : u.draining = false) (hb : commandBad (!isC (cellOf u.cur)) m hi lo = false) (hm : mayName u m) :
    startsStream word hi lo n m note u = startsAt n m note u := by
  obtain ⟨hend, htok, hcell⟩ := hm
  rw [startsStream, if_neg (by rw [hd]; decide), if_neg (by rw [hb]; decide)]
  rw [if_neg, if_neg, if_neg]
  · simp only [Bool.and_eq_true, decide_eq_true_eq, Bool.not_eq_true', not_and, Bool.not_eq_false]
    exact hcell
  · simp only [Bool.and_eq_true, Bool.not_eq_true', not_and, Bool.not_eq_false]
    exact htok
  · simp only [Bool.and_eq_true, Bool.not_eq_true', not_and, Bool.not_eq_false, and_imp]
    intro hp ht
    rcases hend with h | h | h
    · exact absurd h (by rw [hp]; decide)
    · exact absurd h (by rw [ht]; decide)
    · exact h

theorem startsAt_empty (h : (u.hart.slot n).state = .empty) : startsAt n m note u = .trapWith note 0x24 0x20000#64 := by
  simp only [startsAt, h]

theorem startsAt_active (h : (u.hart.slot n).state = .active) : startsAt n m note u = .wait .slot id := by
  simp only [startsAt, h]

theorem startsAt_unserved (h : (u.hart.slot n).state = .idle) (hs : u.cannotServe u.cur (u.hart.slot n).image m = true) :
    startsAt n m note u = .trapWith note 0x24 0x30000#64 := by
  simp only [startsAt, h, hs, if_true]

/-- The base and the strides of a command in memory stand at multiples of its unit. -/
def aligned (m : StreamCmd) (im : List Word) : Prop :=
  m.space = 2 ∨ (m.base % min (imgE im) 8 = 0 ∧ (imgMode im ≤ 1 → ∀ l, l < imgLevels im → imgStride im l % (min (imgE im) 8 : Nat) = 0))

theorem startsAt_starts (h : (u.hart.slot n).state = .idle) (hs : u.cannotServe u.cur (u.hart.slot n).image m = false)
    (ha : aligned m (u.hart.slot n).image)
    (hc : ∀ j, j < 8 → (u.hart.slot j).state = .active → ∀ m', (u.hart.slot j).cmd = some m' → m'.clashes m = false) :
    startsAt n m note u = .done (u.modHart (fun h => h.setSlot n ((u.hart.slot n).begin m))) := by
  simp only [startsAt, h, hs, Bool.false_eq_true, if_false]
  rw [if_neg, if_neg]
  · simp only [List.any_eq_true, List.mem_range, Bool.and_eq_true, decide_eq_true_eq, Option.any_eq_true]
    rintro ⟨j, hj, hact, m', hm', hcl⟩
    rw [clashes_comm, hc j hj hact m' hm'] at hcl
    exact Bool.noConfusion hcl
  · simp only [Bool.and_eq_true, Bool.or_eq_true, decide_eq_true_eq, List.any_eq_true, List.mem_range]
    rintro ⟨h2, hbad⟩
    rcases ha with ha | ⟨hbase, hstride⟩
    · exact h2 ha
    · rcases hbad with hbad | ⟨hmode, l, hl, hbad⟩
      · exact hbad hbase
      · exact hbad (hstride hmode l hl)

end

end

theorem streamInstructions : StreamInstructions := by
  refine ⟨fun tk n a s s1 s2 x h hx => ?_, fun tk a b s s1 s2 s3 x y h hx hy hd => ?_⟩
  · intro u c off im hs
    have hr : Runs (.spbset tk n a) tk 4 (spbsetOp n a) := ⟨rfl, fun _ => rfl⟩
    have hb : spbsetOp n a s1 = loadsBlock n x.val (fun s => s.note x.poison 4) u := spbsetOp_eq hx hs
    refine ⟨fun ho => exec_noted hr h (hb.trans (loadsBlock_outside ho)), fun h0 h1 hp => ?_⟩
    have hp' := blockPoison_none hp
    exact ⟨fun k hk => exec_noted hr h (hb.trans (loadsBlock_malformed h0 h1 hp' hk)),
      fun hk hdig => exec_noted hr h (hb.trans (loadsBlock_digest h0 h1 hp' hk hdig)),
      fun hk hdig => hr.completes_done h (hb.trans (loadsBlock_loads h0 h1 hp' hk hdig))⟩
  · intro bad u m n k ms trap legal parties
    have hr : Runs (.strm tk a b) tk 4 (strmOp (instrWord (.strm tk a b)) a b) := ⟨rfl, fun _ => rfl⟩
    have hdu : u.draining = false := (Groups.draining_note s3 _ _).trans hd
    have hb : strmOp (instrWord (.strm tk a b)) a b s1 = startsStream _ y.val x.val n m (fun s => s.note bad 4) u := strmOp_eq hx hy
    have hgo : legal → parties → strmOp (instrWord (.strm tk a b)) a b s1 = startsAt n m (fun s => s.note bad 4) u := fun hl hp =>
      hb.trans (startsStream_legal hdu hl hp)
    exact ⟨fun hl => exec_noted hr h (hb.trans (startsStream_illegal hdu hl)),
      fun hl hp hk => exec_noted hr h ((hgo hl hp).trans (startsAt_empty hk)),
      fun hl hp hk hs => exec_noted hr h ((hgo hl hp).trans (startsAt_unserved hk hs)),
      fun hl hp hk => exec_wait hr h ((hgo hl hp).trans (startsAt_active hk)),
      fun hl hp hk hs ha hc => hr.completes_done h ((hgo hl hp).trans (startsAt_starts hk hs ha hc))⟩

/-! Waiting for a slot, spilling, kerfs (R249, R259, R261). -/

section

variable {s : State} {va : Nat}

theorem areaPages_none (vas : List Nat) (h : ∀ va ∈ vas, ∃ pa e, s.access va true true = .hit pa e) : s.areaPages vas = none := by
  induction vas with
  | nil => rfl
  | cons va rest ih =>
    obtain ⟨pa, e, ha⟩ := h va List.mem_cons_self
    rw [State.areaPages, ha]
    exact ih fun v hv => h v (List.mem_cons_of_mem _ hv)

/-- The first address and the later pages of a spill area. -/
def areaAddrs (base cap : Nat) : List Nat :=
  (List.range ((512 * cap + 8191) / 8192 + (if base % 8192 = 0 || cap = 0 then 0 else 1))).filterMap (fun i =>
    let va := if i = 0 then base else base / 8192 * 8192 + 8192 * i
    if va < base + 512 * cap then some va else none)

theorem mem_areaAddrs {base cap : Nat} (h : va ∈ areaAddrs base cap) :
    (va = base ∨ va % 8192 = 0) ∧ base ≤ va ∧ va < base + 512 * cap := by
  obtain ⟨i, -, hi⟩ := List.mem_filterMap.mp h
  obtain ⟨hlt, hva⟩ := Option.ite_none_right_eq_some.mp hi
  rw [← Option.some.inj hva]
  split at hlt
  · next h0 => rw [if_pos h0]; exact ⟨.inl rfl, Nat.le_refl _, hlt⟩
  · next h0 =>
    rw [if_neg h0]
    have hbase := Nat.div_add_mod base 8192
    have hmod : base % 8192 < 8192 := Nat.mod_lt _ (by decide)
    exact ⟨.inr (by omega), by omega, hlt⟩

end

section

variable {s s2 : State} {q : BitVec 3} {a : Reg} {x : UVal}

/-- The queue that spillq names, as the running hart reads its map. -/
def spillsCode (q : BitVec 3) (u : State) : Nat := spillCode (u.cell.mapFor (slotOf u.cur)) q.toNat

/-- Whether the running hart is a party of the queue that spillq names. -/
def spillsOwn (q : BitVec 3) (u : State) : Bool :=
  consumes (u.cell.mapFor (slotOf u.cur)) (slotOf u.cur) (spillsCode q u) || produces (u.cell.mapFor (slotOf u.cur)) (slotOf u.cur) (spillsCode q u)

theorem spillq_foreign (hx : s.readU a = .got x s2) (hq : spillsOwn q (s2.note x.poison 4) = false) :
    spillqOp q a s = .trapWith (fun s => s.note x.poison 4) 0x10 (q.setWidth 64) := by
  rw [spillqOp, srcU_got hx]
  exact if_pos (congrArg (!·) hq)

theorem spillq_extends {base cap : Nat} (hx : s.readU a = .got x s2) (hc : bits x.val.toNat 11 0 = cap) (hb : x.val.toNat - cap = base)
    (hq : spillsOwn q (s2.note x.poison 4) = true) (hlt : base < 2 ^ 52) (hp : (s2.note x.poison 4).areaPages (areaAddrs base cap) = none)
    (hi : ∀ i ∈ ((s2.note x.poison 4).cell.queue (spillsCode q (s2.note x.poison 4))).items, i.isSpilled = false) :
    spillqOp q a s = .done ((s2.note x.poison 4).modCell (cellOf (s2.note x.poison 4).cur) (fun c => c.setQueue
      (spillsCode q (s2.note x.poison 4)) (((s2.note x.poison 4).cell.queue (spillsCode q (s2.note x.poison 4))).extend base cap))) := by
  have hany := List.any_eq_false.mpr fun i h => Bool.eq_false_iff.mp (hi i h)
  rw [spillsOwn] at hq
  rw [spillsCode] at hq hany ⊢
  rw [areaAddrs] at hp
  rw [spillqOp, srcU_got hx]
  simp only [hc, hb, hq, hp, hany, Bool.not_true, Bool.false_eq_true, if_false, if_neg (Nat.not_le.mpr hlt)]

end

theorem streamControl : StreamControl := by
  refine ⟨fun tk n s s1 h => ?_, fun tk q a s s1 s2 x h hx => ?_, fun tk s s1 h hd => ?_⟩
  · have hr : Runs (.swait tk n) tk 4 (swaitOp n) := ⟨rfl, fun _ => rfl⟩
    refine ⟨fun hs => hr.completes_done h ?_, fun hs hd => exec_wait hr h (f := id) ?_⟩
    · rcases hs with hs | hs <;> simp only [swaitOp, hs]
    · simp only [swaitOp, hs, hd, Bool.false_eq_true, if_false]
  · intro u ms code cap base k
    have hr : Runs (.spillq tk q a) tk 4 (spillqOp q a) := ⟨rfl, fun _ => rfl⟩
    refine ⟨fun h0 h1 => exec_noted hr h (spillq_foreign hx (Bool.or_eq_false_iff.mpr ⟨h0, h1⟩)), fun hq hbase hpages hi => ?_⟩
    have hp : u.areaPages (areaAddrs base cap) = none := areaPages_none _ fun va hva => by
      obtain ⟨h1, h2, h3⟩ := mem_areaAddrs hva
      exact hpages va h1 h2 h3
    exact hr.completes_done h (spillq_extends hx rfl rfl ((Bool.or_eq_true _ _).mpr hq) hbase hp hi)
  · have hr : Runs (.kerf tk) tk 4 kerfOp := ⟨rfl, fun _ => rfl⟩
    refine ⟨fun hf => exec_wait hr h (f := id) ?_, fun hf => hr.completes_done h ?_⟩
    · simp only [kerfOp, hd, hf, Bool.false_eq_true, if_false, if_true]
    · simp only [kerfOp, hd, hf, Bool.false_eq_true, if_false]

end Sys2Proof.Streaming
end

section
/-! SUPPORT. Store-fault records, the elements of streams, and the ends of streams and rings (R226, R242-R258, R296). -/

namespace Sys2Proof.Streaming

open Sys2Proof Sys2Proof.Machine Sys2Proof.Spec

/-! The slots of a hart. -/

theorem slot_setSlot_self (x : Hart) {n : Nat} (hn : n < 8) (k : Slot) : (x.setSlot n k).slot n = k := by
  show (x.slots.setIfInBounds n k)[n]?.getD Slot.reset = k
  rw [Vector.getElem?_setIfInBounds_self, if_pos hn]
  rfl

theorem slot_setSlot_ne (x : Hart) {n j : Nat} (hj : j ≠ n) (k : Slot) : (x.setSlot n k).slot j = x.slot j := by
  show (x.slots.setIfInBounds n k)[j]?.getD Slot.reset = x.slots[j]?.getD Slot.reset
  rw [Vector.getElem?_setIfInBounds_ne (Ne.symm hj)]

theorem slot_modSlot_self (s : State) (h : Nat) {n : Nat} (hn : n < 8) (f : Slot → Slot) :
    ((s.modSlot h n f).hartAt h).slot n = f ((s.hartAt h).slot n) := by
  rw [State.modSlot, State.hartAt_setHart_self, slot_setSlot_self _ hn]

theorem slot_modSlot_ne (s : State) (h : Nat) {n j : Nat} (hj : j ≠ n) (f : Slot → Slot) :
    ((s.modSlot h n f).hartAt h).slot j = (s.hartAt h).slot j := by
  rw [State.modSlot, State.hartAt_setHart_self, slot_setSlot_ne _ hj]

theorem cellAt_modSlot (s : State) (h n c : Nat) (f : Slot → Slot) : (s.modSlot h n f).cellAt c = s.cellAt c := rfl

theorem mem_modSlot (s : State) (h n : Nat) (f : Slot → Slot) : (s.modSlot h n f).mem = s.mem := rfl

/-! Store-fault records (R226, R227). -/

section

variable {s : State} {h : Nat}

/-- A hart whose head record is gone. -/
def recordGone (k : Hart) : Hart := { k with sfrq := k.sfrq.tail, sfrf := false }.showHead

theorem dropRecord_handler (hh : s.hart.hnd = true) : s.dropRecord = s.modHart recordGone := by
  rw [State.dropRecord, if_pos hh]
  rfl

theorem dropRecord_outside (hh : s.hart.hnd = false) : s.dropRecord = s := by
  rw [State.dropRecord, if_neg (by rw [hh]; decide)]

theorem replayRecord_outside (hh : s.hart.hnd = false) : s.replayRecord = .ok s := by
  rw [State.replayRecord, hh]
  rfl

section

variable {q : SfRecord} {rest : List SfRecord}

theorem replayRecord_gone (hh : s.hart.hnd = true) (hq : s.hart.sfrq = q :: rest) (hw : 6 ≤ q.swid) : s.replayRecord = .ok s.dropRecord := by
  simp only [State.replayRecord, hh, hq, hw, Bool.not_true, Bool.false_eq_true, if_false, if_true]

theorem replayRecord_waits (hh : s.hart.hnd = true) (hq : s.hart.sfrq = q :: rest) (hw : q.swid < 6)
    (ho : s.hart.storeOverlap (q.parts.flatMap (StorePart.ranges s.hart.tagbase)) = true) : s.replayRecord = .error (.wait .memory id) := by
  simp only [State.replayRecord, hh, hq, if_neg (Nat.not_le.mpr hw), ho, Bool.not_true, Bool.false_eq_true, if_false, if_true]

theorem replayRecord_performs (hh : s.hart.hnd = true) (hq : s.hart.sfrq = q :: rest) (hw : q.swid < 6)
    (ho : s.hart.storeOverlap (q.parts.flatMap (StorePart.ranges s.hart.tagbase)) = false)
    (ht : Stores.Translated (q.parts.map (fun p => (p, s.placePart p)))) :
    s.replayRecord = .ok (s.performStore (q.parts.map (fun p => (p, s.placePart p)))).dropRecord := by
  simp only [State.replayRecord, hh, hq, if_neg (Nat.not_le.mpr hw), ho, Stores.firstBad_of_translated ht, Bool.not_true, Bool.false_eq_true, if_false]

end

theorem translated_parts {parts : List StorePart} {wss : List (List (Nat × List Byte))} (hp : parts.map s.placePart = wss.map PartRes.ok) :
    Stores.Translated (parts.map (fun p => (p, s.placePart p))) := by
  intro r hr
  obtain ⟨p, hm, rfl⟩ := List.mem_map.mp hr
  obtain ⟨ws, -, hw⟩ := List.mem_map.mp (hp ▸ List.mem_map_of_mem hm)
  exact ⟨ws, hw.symm⟩

/-- The stores of a hart leave the hart. -/
theorem hart_performStore (s : State) (rs : List (StorePart × PartRes)) : (s.performStore rs).hart = s.hart := by
  obtain ⟨heq, -⟩ := Frames.stored_enterStore (s := s) (s.translated rs)
  rw [State.performStore, heq]
  rfl

theorem state_abortFaulted {k code : Nat} {v : Word} (hk : k < 8) (hs : ((s.hartAt h).slot k).state = .faulted code v) :
    (((s.abortFaulted h k).hartAt h).slot k).state = .idle := by
  have hf : ((s.hartAt h).slot k).state.isFaulted = true := by rw [hs]; rfl
  rw [State.abortFaulted, if_pos hf, State.abortStream, State.hartAt_setHart_self, slot_setSlot_self _ hk, Slot.stop, hs]

/-- The state in which the stream of a faulted slot goes on. -/
def resumed (s : State) (h k : Nat) : State := s.setHart h ((s.hartAt h).setSlot k ((s.hartAt h).slot k).resume)

theorem streamResume_handler {k : Nat} (hh : (s.hartAt h).hnd = true) : exec (.streamResume h k) s = .next (resumed s h k) := by
  show execStreamResume h k s = _
  rw [execStreamResume, if_pos hh]
  rfl

theorem resume_faulted {k : Slot} {code : Nat} {v : Word} (hs : k.state = .faulted code v) : k.resume = { k with state := .active } := by
  rw [Slot.resume, hs]
  rfl

end

theorem faultRecords : FaultRecords := by
  refine ⟨fun s h hh => ⟨?_, ?_⟩, fun s h hh => ?_, fun s h q rest wss hh hq => ⟨fun hw => ?_, fun hw ho => ?_, fun hw ho hp => ?_⟩,
    fun s h k code v hh hk hs => ⟨⟨_, ?_, state_abortFaulted hk hs⟩, ⟨resumed s h k, ?_⟩⟩, fun s h k hh => ⟨?_, ?_⟩⟩
  · exact congrArg Host.Outcome.next (dropRecord_outside (s := s.as h) hh)
  · show execSfrpl h s = _
    rw [execSfrpl, replayRecord_outside (s := s.as h) hh]
  · exact congrArg Host.Outcome.next (dropRecord_handler (s := s.as h) hh)
  · show execSfrpl h s = execSfdrop h s
    rw [execSfrpl, replayRecord_gone (s := s.as h) hh hq hw, execSfdrop]
  · show execSfrpl h s = _
    rw [execSfrpl, replayRecord_waits (s := s.as h) hh hq hw ho]
    rfl
  · show execSfrpl h s = _
    rw [execSfrpl, replayRecord_performs (s := s.as h) hh hq hw ho (translated_parts hp)]
    exact congrArg Host.Outcome.next (dropRecord_handler (by rw [hart_performStore]; exact hh))
  · show execStreamAbort h k s = _
    rw [execStreamAbort, if_pos hh]
  · refine ⟨streamResume_handler hh, ?_⟩
    rw [resumed, State.hartAt_setHart_self, slot_setSlot_self _ hk, resume_faulted hs]
    exact ⟨rfl, rfl, rfl⟩
  · show execStreamAbort h k s = _
    rw [execStreamAbort, if_neg (by rw [hh]; decide)]
  · show execStreamResume h k s = _
    rw [execStreamResume, if_neg (by rw [hh]; decide)]

/-- Settles O55: parameter blocks and commands case by case, then spilling, kerfs and fault records. -/
theorem streams : Obligations.Streams := ⟨streamInstructions, streamControl, faultRecords⟩

/-! One element of a stream (R242-R247). -/

section

variable {s : State} {h n : Nat} {m : StreamCmd}

/-- A stream other than a STORE into a pool slot that is not admitted. -/
theorem not_admitting {k : Slot} (ha : m.space ≠ 2 ∨ m.isStore = false ∨ k.admitted = true) :
    ¬ (decide (m.space = 2) && m.isStore && !k.admitted) = true := by
  simp only [Bool.and_eq_true, decide_eq_true_eq, Bool.not_eq_true']
  rintro ⟨⟨h2, hst⟩, had⟩
  rcases ha with ha | ha | ha
  · exact ha h2
  · exact absurd hst (by rw [ha]; decide)
  · exact absurd had (by rw [ha]; decide)

section

variable (hc : ((s.hartAt h).slot n).cmd = some m)

include hc

theorem streamElement_rests (hr : s.streamRuns h ((s.hartAt h).slot n) m = false) : exec (.streamElement h n) s = .next s := by
  show execStreamElement h n s = _
  simp only [execStreamElement, hc, hr, Bool.not_false, if_true]

variable (hr : s.streamRuns h ((s.hartAt h).slot n) m = true)
  (ha : m.space ≠ 2 ∨ m.isStore = false ∨ ((s.hartAt h).slot n).admitted = true)

include hr ha

theorem streamElement_go {t : State} (hm : s.streamMove h n ((s.hartAt h).slot n) m = .go t) :
    exec (.streamElement h n) s = .next (t.fire m.region) := by
  show execStreamElement h n s = _
  simp only [execStreamElement, hc, hr, if_neg (not_admitting ha), Bool.not_true, Bool.false_eq_true, if_false, hm]

theorem streamElement_wait {t : State} (hm : s.streamMove h n ((s.hartAt h).slot n) m = .wait t) :
    exec (.streamElement h n) s = .next t := by
  show execStreamElement h n s = _
  simp only [execStreamElement, hc, hr, if_neg (not_admitting ha), Bool.not_true, Bool.false_eq_true, if_false, hm]

theorem streamElement_fault {t : State} {code : Nat} {v : Word} (hm : s.streamMove h n ((s.hartAt h).slot n) m = .fault t code v) :
    exec (.streamElement h n) s =
      .next (t.modSlot h n (fun j => { j with state := .faulted code (((s.hartAt h).slot n).faultValue m v) })) := by
  show execStreamElement h n s = _
  simp only [execStreamElement, hc, hr, if_neg (not_admitting ha), Bool.not_true, Bool.false_eq_true, if_false, hm]

end

/-- An access of a stream to the general memory of a cell lies at its offset. -/
theorem locate_local {wr : Bool} {a : Int} {k : Nat} (hs : m.space = 1) (h0 : 0 ≤ a) (h1 : a + k ≤ s.generalEnd m.cell) :
    s.locate h m wr a k = .place (.loc m.cell a.toNat) := by
  have hin : ¬ (decide (a < 0) || decide ((s.generalEnd m.cell : Int) < a + k)) = true := by
    simp only [Bool.or_eq_true, decide_eq_true_eq]
    omega
  rw [State.locate, if_neg (by omega), if_pos hs, if_neg hin]

/-- The address of the element that an affine stream of the general memory stands at. -/
def affineAddr (k : Slot) (m : StreamCmd) : Int := elemAddr k.image m.base k.elem (loopIndex k.image k.elem 0)

theorem placeElem_affine {k : Slot} (hs : m.space = 1) (hm : imgMode k.image = 0) (h0 : 0 ≤ affineAddr k m)
    (h1 : affineAddr k m + imgE k.image ≤ s.generalEnd m.cell) :
    s.placeElem h k m = .ok (affineAddr k m, .loc m.cell (affineAddr k m).toNat) := by
  have ho : m.origin = m.base := by rw [StreamCmd.origin, if_neg (by omega)]
  have hl : s.locate h m m.isStore (elemAddr k.image m.base k.elem (loopIndex k.image k.elem 0)) (imgE k.image) =
    .place (.loc m.cell (affineAddr k m).toNat) := locate_local hs h0 h1
  simp only [State.placeElem, hm, ho, hl]
  rfl

/-- Bytes of the general memory of a cell with the poison of their units. -/
def localBytes (s : State) (c a e : Nat) : List (Byte × Bool) :=
  (List.range e).map (fun i => ((s.cellAt c).sram.byte (a + i), (s.cellAt c).sram.poisoned ((a + i) / 8)))

theorem elementEntry_localBytes {c a e : Nat} (he : e ≤ 8) : elementEntry (localBytes s c a e) =
    .uniform ⟨BitVec.ofNat 64 (leNat ((s.cellAt c).sram.read a e)), 24#5,
      (List.range e).any (fun i => (s.cellAt c).sram.poisoned ((a + i) / 8))⟩ := by
  have hl : (localBytes s c a e).length = e := by rw [localBytes, List.length_map, List.length_range]
  have hf : (localBytes s c a e).map Prod.fst = (s.cellAt c).sram.read a e := by rw [localBytes, List.map_map]; rfl
  have hp : (localBytes s c a e).any Prod.snd = (List.range e).any (fun i => (s.cellAt c).sram.poisoned ((a + i) / 8)) := by
    rw [localBytes, List.any_map]; rfl
  rw [elementEntry, if_neg (by omega), hf, hp]

theorem elem_after (k : Slot) (bs : List (Byte × Bool)) (a : Int) : (k.after bs a).elem = k.elem + 1 := by
  rw [Slot.after]
  split
  · split <;> rfl
  · split <;> rfl

/-- One element of a LOAD that goes into a queue. -/
theorem loadElement_queue {k : Slot} {a : Int} {p : Place} (hport : m.isPort = false) (htile : m.isTile = false)
    (hq : ((s.cellAt (cellOf h)).queue m.code).accepts (slotOf h) = true) (hp : s.placeElem h k m = .ok (a, p)) : s.loadElement h n k m =
      .go (((s.pushQueue (cellOf h) m.code (slotOf h) (elementEntry (s.readPlace (cellOf h) m.region (imgE k.image) p))).modSlot h n
        (fun j => j.after (s.readPlace (cellOf h) m.region (imgE k.image) p) a)).countMoved h m) := by
  simp only [State.loadElement, hport, htile, hq, hp, Bool.false_eq_true, if_false, if_true]

/-- What a move of an element counts stands in the region. -/
theorem countMoved_spec (s : State) (h : Nat) (m : StreamCmd) :
    (∀ c, (s.countMoved h m).cellAt c = s.cellAt c) ∧ (∀ k, (s.countMoved h m).hartAt k = s.hartAt k) ∧ (s.countMoved h m).mem = s.mem := by
  rw [State.countMoved]
  split
  · exact ⟨fun _ => State.cellAt_modRegion .., fun _ => State.hartAt_modRegion .., State.modRegion_mem ..⟩
  · exact ⟨fun _ => rfl, fun _ => rfl, rfl⟩

/-- What an entry pushed into a queue without a spill area leaves. -/
theorem pushQueue_spec {c code slot : Nat} {e : Entry} (hx : ((s.cellAt c).queue code).ext = none) :
    ((s.pushQueue c code slot e).cellAt c).queue code = { (s.cellAt c).queue code with
      lock := lockAfter code slot e ((s.cellAt c).queue code).lock, items := ((s.cellAt c).queue code).items ++ [.entry e slot] } ∧
    (s.pushQueue c code slot e).harts = s.harts ∧ (s.pushQueue c code slot e).mem = s.mem := by
  obtain ⟨u, ⟨-, hh, hm, -⟩, he⟩ := Operands.pushQueue_plain s c code slot e hx
  rw [he]
  refine ⟨?_, hh, hm⟩
  rw [State.cellAt_modCell_self, Operands.queue_storeRing, Operands.queue_pushed, Cell.queue_setQueue_self]

theorem streamMove_load {k : Slot} (hp : k.segPhase = 1) (hs : m.isStore = false) : s.streamMove h n k m = s.loadElement h n k m := by
  simp only [State.streamMove, hp, hs, Bool.false_eq_true, if_false]

end

theorem streamElements : StreamElements := by
  refine ⟨fun s h n m hc => ⟨streamElement_rests hc, fun hr ha => ⟨fun t => streamElement_go hc hr ha, fun t => streamElement_wait hc hr ha,
    fun t code v => streamElement_fault hc hr ha⟩⟩, fun s h n m hn hc => ?_⟩
  intro k e a hr hop hep hsp hmode hseg he h0 h1 hacc hext hcell bs
  have hst : m.isStore = false := decide_eq_false (by omega)
  have hport : m.isPort = false := by rw [StreamCmd.isPort, decide_eq_false (by omega), decide_eq_false (by omega)]; rfl
  have htile : m.isTile = false := decide_eq_false (by omega)
  have hcode : m.code = m.ep := by rw [StreamCmd.code, if_pos hep, hst]; rfl
  rw [← hcode] at hacc hext ⊢
  have hmove := (streamMove_load hseg hst).trans (loadElement_queue (n := n) hport htile hacc (placeElem_affine hsp hmode h0 h1))
  refine ⟨_, streamElement_go hc hr (.inl (by omega)) hmove, ?_, ?_, ?_⟩
  · rw [State.cellAt_fire, (countMoved_spec _ h m).1, cellAt_modSlot, (pushQueue_spec hext).1]
    exact congrArg (fun x => _ ++ [QItem.entry x _]) (elementEntry_localBytes he)
  · rw [State.hartAt_fire, (countMoved_spec _ h m).2.1, slot_modSlot_self _ _ hn, elem_after, State.hartAt, (pushQueue_spec hext).2.1]
    rfl
  · rw [State.fire, State.modRegion_mem, (countMoved_spec _ h m).2.2, mem_modSlot, (pushQueue_spec hext).2.2]

/-! The ends of streams and rings (R248, R296). -/

section

variable {s : State} {h n : Nat} {m : StreamCmd}

/-- A state into which a stream has pushed its token, if it has one. -/
def tokenPushed (s : State) (h : Nat) (m : StreamCmd) : State := if m.tkp then s.pushToken (cellOf h) m.tkf (slotOf h) else s

theorem pushToken_spec (s : State) (c n slot : Nat) :
    ((s.pushToken c n slot).cellAt c).fifo n = (s.cellAt c).fifo n ++ [.token slot] ∧
      (s.pushToken c n slot).harts = s.harts ∧ (s.pushToken c n slot).mem = s.mem := by
  obtain ⟨late, r, g, he⟩ : ∃ (late : Bool) (r : Nat) (g : Snapshot → Snapshot), s.pushToken c n slot =
      (if late = true then s.modTaking r g else s).modCell c (fun x => (x.setFifo n (x.fifo n ++ [.token slot])).pushed (16 + n) 1) := ⟨_, _, _, rfl⟩
  have hf : ∀ x : Cell, ((x.setFifo n (x.fifo n ++ [.token slot])).pushed (16 + n) 1).fifo n = x.fifo n ++ [.token slot] := fun x =>
    lookupD_insertAt_self ..
  rw [he, State.cellAt_modCell_self, hf]
  cases late
  · exact ⟨rfl, rfl, rfl⟩
  · exact ⟨congrArg (fun x : Cell => x.fifo n ++ [.token slot]) (State.cellAt_modTaking ..), State.modTaking_harts .., State.modTaking_mem ..⟩

theorem tokenPushed_spec (s : State) (h : Nat) (m : StreamCmd) :
    ((tokenPushed s h m).cellAt (cellOf h)).fifo m.tkf = (s.cellAt (cellOf h)).fifo m.tkf ++ (if m.tkp then [.token (slotOf h)] else []) ∧
      (tokenPushed s h m).harts = s.harts ∧ (tokenPushed s h m).mem = s.mem := by
  rw [tokenPushed]
  split
  · exact pushToken_spec ..
  · exact ⟨(List.append_nil _).symm, rfl, rfl⟩

theorem closeStream_spec (s : State) (r h n : Nat) : (∀ c, (s.closeStream r h n).cellAt c = s.cellAt c) ∧
    (∀ k, (s.closeStream r h n).hartAt k = s.hartAt k) ∧ (s.closeStream r h n).mem = s.mem :=
  ⟨fun _ => State.cellAt_modRegion .., fun _ => State.hartAt_modRegion .., State.modRegion_mem ..⟩

theorem sealTileReg_none {k : Slot} (hm : m.ep < 16) : s.sealTileReg h k m = s := by
  have htile : m.isTile = false := decide_eq_false (by omega)
  rw [State.sealTileReg, htile]
  rfl

theorem endPoolRead_none {k : Slot} (hm : m.space ≠ 2) : s.endPoolRead h k m = s := by
  rw [State.endPoolRead, decide_eq_false hm]
  rfl

theorem stop_active {k : Slot} (hs : k.state = .active) : k.stop.state = .idle := by
  rw [Slot.stop, hs]

section

variable (hc : ((s.hartAt h).slot n).cmd = some m) (hs : ((s.hartAt h).slot n).state = .active) (hp : ((s.hartAt h).slot n).segPhase = 3)
  (hm : s.cellMoves (cellOf h) = true)

include hc hs hp hm

theorem streamComplete_full (ht : m.tkp = true) (hf : 16 ≤ tokenCount ((s.cellAt (cellOf h)).fifo m.tkf)) :
    exec (.streamComplete h n) s = .next s := by
  show execStreamComplete h n s = _
  simp only [execStreamComplete, hc, hs, hp, hm, ht, hf, decide_true, Bool.and_self, if_true]

theorem streamComplete_ends (hspace : m.space ≠ 2) (hep : m.ep < 16)
    (ht : m.tkp = true → tokenCount ((s.cellAt (cellOf h)).fifo m.tkf) < 16) : exec (.streamComplete h n) s =
      .next ((((tokenPushed s h m).closeStream m.region h n).modSlot h n Slot.stop).fire m.region) := by
  have hroom : ¬ (m.tkp && decide (16 ≤ tokenCount ((s.cellAt (cellOf h)).fifo m.tkf))) = true := by
    simp only [Bool.and_eq_true, decide_eq_true_eq, not_and, not_le]
    exact ht
  show execStreamComplete h n s = _
  simp only [execStreamComplete, hc, hs, hp, hm, decide_true, Bool.and_self, if_true]
  rw [if_neg hroom, sealTileReg_none hep, endPoolRead_none hspace]
  rfl

end

end

section

variable {s : State} {cell ring : Nat}

theorem ringEos_eq (s : State) (cell ring : Nat) : exec (.ringEos cell ring) s =
    .next (if (ring < 8 && s.cellMoves cell) = true then s.placeEos cell (32 + ring) else s) := by
  show execRingEos cell ring s = _
  rw [execRingEos]

theorem placeEos_none (h : ((s.cellAt cell).queue (32 + ring)).eosDue = none ∨
    ((s.cellAt cell).queue (32 + ring)).depth ≤ ((s.cellAt cell).queue (32 + ring)).count) : s.placeEos cell (32 + ring) = s := by
  rw [State.placeEos]
  dsimp only
  split
  · rfl
  · next slot hd =>
    refine if_neg ?_
    rcases h with h | h
    · rw [h] at hd; cases hd
    · exact Nat.not_lt.mpr h

/-- The end of a stream as a ring holds it. -/
def eosEntry : Entry := .token ⟨3#3, 0#5, 0#6, 0#32⟩

/-- An EOS that is due stands at the end of its ring. -/
theorem placeEos_spec {slot : Nat} (hd : ((s.cellAt cell).queue (32 + ring)).eosDue = some slot)
    (hr : ((s.cellAt cell).queue (32 + ring)).count < ((s.cellAt cell).queue (32 + ring)).depth)
    (hx : ((s.cellAt cell).queue (32 + ring)).ext = none) : ∃ src,
      ((s.placeEos cell (32 + ring)).cellAt cell).queue (32 + ring) = { (s.cellAt cell).queue (32 + ring) with
        items := ((s.cellAt cell).queue (32 + ring)).items ++ [.entry eosEntry src], ended := [], eosDue := none } := by
  obtain ⟨src, he⟩ : ∃ src, s.placeEos cell (32 + ring) = (((s.modCell cell (fun x => x.setQueue (32 + ring)
      ((s.cellAt cell).queue (32 + ring)).eosIn)).recordRing cell (32 + ring) slot Queue.eosIn).pushQueue cell (32 + ring) src eosEntry) := by
    rw [State.placeEos]
    simp only [hd, if_pos hr]
    exact ⟨_, rfl⟩
  have hin : ((s.cellAt cell).queue (32 + ring)).eosIn = { (s.cellAt cell).queue (32 + ring) with ended := [], eosDue := none } := by
    rw [Queue.eosIn, hd]
    rfl
  have hq : (((s.modCell cell (fun x => x.setQueue (32 + ring) ((s.cellAt cell).queue (32 + ring)).eosIn)).recordRing cell (32 + ring) slot
      Queue.eosIn).cellAt cell).queue (32 + ring) = { (s.cellAt cell).queue (32 + ring) with ended := [], eosDue := none } := by
    rw [State.cellAt, Operands.recordRing_cells]
    show ((s.modCell cell _).cellAt cell).queue (32 + ring) = _
    rw [State.cellAt_modCell_self, Cell.queue_setQueue_self, hin]
  have hlock : ∀ l, lockAfter (32 + ring) src eosEntry l = l := fun l => by
    simp only [lockAfter, eosEntry, if_pos (Nat.le_add_right 32 ring)]
    rfl
  refine ⟨src, ?_⟩
  rw [he, (pushQueue_spec (by rw [hq]; exact hx)).1, hq, hlock]

end

theorem streamCompletion : StreamCompletion := by
  refine ⟨fun s h n m hn hc hs hp hm hspace hep => ⟨fun hf => ?_, fun ht => ?_⟩, fun s cell ring => ?_⟩
  · exact fun h16 => streamComplete_full hc hs hp hm hf h16
  · obtain ⟨hfifo, hharts, hmem⟩ := tokenPushed_spec s h m
    obtain ⟨hcells, hch, hcm⟩ := closeStream_spec (tokenPushed s h m) m.region h n
    have hhart : (tokenPushed s h m).hartAt h = s.hartAt h := by rw [State.hartAt, hharts]; rfl
    refine ⟨_, streamComplete_ends hc hs hp hm hspace hep ht, ?_, ?_, fun j hj => ?_, ?_⟩
    · rw [State.hartAt_fire, slot_modSlot_self _ _ hn, hch, hhart]
      exact stop_active hs
    · rw [State.cellAt_fire, cellAt_modSlot, hcells, hfifo]
    · rw [State.hartAt_fire, slot_modSlot_ne _ _ hj, hch, hhart]
    · rw [State.fire, State.modRegion_mem, mem_modSlot, hcm, hmem]
  · intro q
    refine ⟨fun hq => ?_, fun slot hring hd hr hx hm => ?_⟩
    · rw [ringEos_eq, placeEos_none hq, ite_self]
    · obtain ⟨src, he⟩ := placeEos_spec hd hr hx
      refine ⟨_, src, ?_, he⟩
      rw [ringEos_eq, if_pos (by rw [hm, decide_eq_true hring]; rfl)]

/-- Settles O56: one attempt of a stream, the entry of an affine element, and the ends of streams and rings. -/
theorem streamTransfers : Obligations.StreamTransfers := ⟨streamElements, streamCompletion⟩

end Sys2Proof.Streaming
end

section
/-! SUPPORT. The instructions of the tile pool (R305-R321). -/

namespace Sys2Proof.Pools

open Sys2Proof Sys2Proof.Machine Sys2Proof.Spec Sys2Proof.Integer Sys2Proof.Streaming

/-! alloc (R311, R312). -/

section

variable {s s2 : State} {d a : Reg} {z : BitVec 2} {x : UVal} {word : Word}

theorem descCount_eq (w : Word) : descCount w = w.toNat % 4096 := rfl

/-- A hart that has a request at its pool. -/
theorem arrive_eq (s : State) : s.arrive = s.modHart (fun h => { h with stage := .arrived }) := rfl

variable (hx : s.readU a = .got x s2) (hd : (s2.note x.poison 4).draining = false)

include hx hd

theorem allocOp_noCount (hc : descCount x.val = 0) :
    allocOp word d a z s = .trapWith (fun s => s.note x.poison 4) 0x01 word := by
  rw [allocOp, srcU_got hx]
  simp only [hd, hc, Bool.false_eq_true, if_false, if_true]

theorem allocOp_unfit (hc : descCount x.val ≠ 0) (hf : descFits x.val (4096 * 2 ^ z.toNat) = false) :
    allocOp word d a z s = .trapWith (fun s => s.note x.poison 4) 0x11 x.val := by
  rw [allocOp, srcU_got hx]
  simp only [hd, if_neg hc, hf, Bool.false_eq_true, if_false, Bool.not_false, if_true]

variable (hc : descCount x.val ≠ 0) (hf : descFits x.val (4096 * 2 ^ z.toNat) = true) {k : Nat} {q : Partition}
  (hq : ((s2.note x.poison 4).cellAt (unitOf (cellOf (s2.note x.poison 4).cur))).pool.partOf (s2.note x.poison 4).hart.ctxId = some (k, q))

include hc hf hq

theorem allocOp_above (hm : q.max < 2 ^ z.toNat) : allocOp word d a z s = .trapWith (fun s => s.note x.poison 4) 0x23 x.val := by
  rw [allocOp, srcU_got hx]
  simp only [hd, if_neg hc, hf, hq, if_pos hm, Bool.false_eq_true, if_false, Bool.not_true]

variable (hm : 2 ^ z.toNat ≤ q.max)

include hm

theorem allocOp_answered {w : Word} {t : State} (hr : (s2.note x.poison 4).hart.reply = some w)
    (ht : (s2.note x.poison 4).putU d ⟨w, 24#5, false⟩ = .ok t) : allocOp word d a z s = .done t := by
  rw [allocOp, srcU_got hx]
  simp only [hd, if_neg hc, hf, hq, if_neg (Nat.not_lt.mpr hm), hr, Bool.false_eq_true, if_false, Bool.not_true]
  exact dstU_ok ht

theorem allocOp_asks (hr : (s2.note x.poison 4).hart.reply = none) (hs : (s2.note x.poison 4).hart.stage ≠ .arrived) :
    allocOp word d a z s = .wait .pool (fun s => ((s.note x.poison 4).askPool k ⟨s.cur, 2 ^ z.toNat, x.val⟩).arrive) := by
  rw [allocOp, srcU_got hx]
  simp only [hd, if_neg hc, hf, hq, if_neg (Nat.not_lt.mpr hm), hr, if_neg hs, Bool.false_eq_true, if_false, Bool.not_true]

end

/-! seal (R314). -/

theorem cur_fillPool (s : State) (c h off : Nat) (bs : List Byte) (p : Bool) : (s.fillPool c h off bs p).cur = s.cur := by
  unfold State.fillPool
  dsimp only
  split
  · rfl
  · split
    · rfl
    · split
      · exact State.modRegion_cur ..
      · rfl

theorem cur_zeroUnwritten (s : State) (c h : Nat) (t : PoolSlot) : (s.zeroUnwritten c h t).cur = s.cur := by
  rw [State.zeroUnwritten]
  exact List.foldlRecOn _ _ (motive := fun u : State => u.cur = s.cur) rfl fun u hu i _ => (cur_fillPool ..).trans hu

section

variable {s s2 : State} {a : Reg} {x : UVal}

/-- A slot of whose tile nothing is left unwritten. -/
def filled (u : State) (c : Nat) (t : PoolSlot) : State :=
  if coverAll t.written (descBytes t.desc (4096 * t.n)) = true then u else u.zeroUnwritten c u.cur t

theorem cur_filled (u : State) (c : Nat) (t : PoolSlot) : (filled u c t).cur = u.cur := by
  rw [filled]
  split
  · rfl
  · exact cur_zeroUnwritten ..

/-- A slot that is SEALED with the sums of its bytes. -/
def sealedSlot (u : State) (c : Nat) (t : PoolSlot) : State :=
  (filled u c t).modPool c u.cur (fun p => p.modSlot t.first (fun k => { k with state := .sealed, sidecar := (filled u c t).slotSums c t }))

variable (hx : s.readU a = .got x s2)

include hx

theorem sealOp_unresolved {code : Nat} (hr : (s2.note x.poison 4).resolveRef x.val = .error code) :
    sealOp a s = .trapWith (fun s => s.note x.poison 4) code x.val := by
  rw [sealOp, srcU_got hx]
  simp only [hr]

variable {c : Nat} {t : PoolSlot} (hr : (s2.note x.poison 4).resolveRef x.val = .ok (c, t))

include hr

theorem sealOp_foreign (ho : t.state ≠ .filling ∨ t.owner ≠ (s2.note x.poison 4).cur) :
    sealOp a s = .trapWith (fun s => s.note x.poison 4) 0x22 x.val := by
  rw [sealOp, srcU_got hx]
  simp only [hr]
  exact if_pos (by simpa only [Bool.or_eq_true, decide_eq_true_eq] using ho)

variable (hs : t.state = .filling) (ho : t.owner = (s2.note x.poison 4).cur)

include hs ho

theorem sealOp_waits (hn : (s2.note x.poison 4).namesSlot (s2.note x.poison 4).cur c t.first = true) : sealOp a s = .wait .pool id := by
  rw [sealOp, srcU_got hx]
  simp only [hr, hs, ho, hn, ne_eq, not_true_eq_false, decide_false, Bool.or_self, Bool.false_eq_true, if_false, if_true]

theorem sealOp_seals (hn : (s2.note x.poison 4).namesSlot (s2.note x.poison 4).cur c t.first = false) : sealOp a s =
    .done (if (t.arrived.any (fun w => decide (w ≠ (filled (s2.note x.poison 4) c t).slotSums c t))) = true then
      (sealedSlot (s2.note x.poison 4) c t).cause (sealedSlot (s2.note x.poison 4) c t).hart.regionId 0x40
    else sealedSlot (s2.note x.poison 4) c t) := by
  rw [sealedSlot, ← cur_filled (s2.note x.poison 4) c t, sealOp, srcU_got hx]
  simp only [hr, hs, ho, hn, ne_eq, not_true_eq_false, decide_false, Bool.or_self, Bool.false_eq_true, if_false]
  rfl

end

/-! tpdrop (R318). -/

section

variable {s s2 s3 : State} {a b : Reg} {x y : UVal} (hx : s.readU a = .got x s2) (hy : s2.readU b = .got y s3)

include hx hy

theorem tpdropOp_unresolved {code : Nat} (hr : (s3.note (x.poison || y.poison) 4).resolveRef x.val = .error code) :
    tpdropOp a b s = .trapWith (fun s => s.note (x.poison || y.poison) 4) code x.val := by
  rw [tpdropOp, srcU_got hx, srcU_got hy]
  simp only [hr]

variable {c : Nat} {t : PoolSlot} (hr : (s3.note (x.poison || y.poison) 4).resolveRef x.val = .ok (c, t))

include hr

theorem tpdropOp_short (hc : t.count - t.claims < y.val.toNat) :
    tpdropOp a b s = .trapWith (fun s => s.note (x.poison || y.poison) 4) 0x21 x.val := by
  rw [tpdropOp, srcU_got hx, srcU_got hy]
  simp only [hr, if_pos hc]

theorem tpdropOp_drops (hc : y.val.toNat ≤ t.count - t.claims) : tpdropOp a b s =
    .done ((s3.note (x.poison || y.poison) 4).modPool c (s3.note (x.poison || y.poison) 4).cur (fun p =>
      (p.modSlot t.first (fun k => ({ k with count := k.count - y.val.toNat }).settle ((s3.note (x.poison || y.poison) 4).interval
        ((s3.note (x.poison || y.poison) 4).cellRegion c) (s3.note (x.poison || y.poison) 4).cur))).sweep
          ((s3.note (x.poison || y.poison) 4).waveOf c))) := by
  rw [tpdropOp, srcU_got hx, srcU_got hy]
  simp only [hr, if_neg (Nat.not_lt.mpr hc)]

end

/-- Settles O53: each instruction of the pool, case by case of its operands. -/
theorem tilePool : Obligations.TilePool := by
  refine ⟨fun tk d a z s s1 s2 x h hx hd => ?_, fun tk a s s1 s2 x h hx => ?_, fun tk a b s s1 s2 s3 x y h hx hy => ?_⟩
  · intro u n trap
    have hr : Runs (.alloc tk d a z) tk 4 (allocOp (instrWord (.alloc tk d a z)) d a z) := ⟨rfl, fun _ => rfl⟩
    have hdu : u.draining = false := (Groups.draining_note s2 _ _).trans hd
    refine ⟨fun hc => exec_noted hr h (allocOp_noCount hx hdu hc), fun hc hf => exec_noted hr h (allocOp_unfit hx hdu hc hf),
      fun hc hf k q hq => ⟨fun hm => exec_noted hr h (allocOp_above hx hdu hc hf hq hm),
        fun hm w t hw ht => hr.completes_done h (allocOp_answered hx hdu hc hf hq hm hw ht), fun hm hw hs => ?_⟩⟩
    rw [exec_wait hr h (allocOp_asks hx hdu hc hf hq hm hw hs), arrive_eq]
  · intro u trap
    have hr : Runs (.sealTile tk a) tk 4 (sealOp a) := ⟨rfl, fun _ => rfl⟩
    refine ⟨fun code he => exec_noted hr h (sealOp_unresolved hx he), fun c t he => ⟨fun ho => exec_noted hr h (sealOp_foreign hx he ho),
      fun hs ho hn => exec_wait hr h (f := id) (sealOp_waits hx he hs ho hn), fun hs ho hn => ?_⟩⟩
    intro w sums done
    have hb := sealOp_seals hx he hs ho hn
    refine ⟨fun hall => hr.completes_done h (hb.trans ?_), fun ws ha hne => hr.completes_done h (hb.trans ?_)⟩
    · refine congrArg Act.done (if_neg ?_)
      simp only [Option.any_eq_true, decide_eq_true_eq]
      rintro ⟨ws, ha, hne⟩
      exact hne (hall ws ha)
    · refine congrArg Act.done (if_pos ?_)
      rw [ha]
      exact decide_eq_true hne
  · intro bad u trap
    have hr : Runs (.tpdrop tk a b) tk 4 (tpdropOp a b) := ⟨rfl, fun _ => rfl⟩
    exact ⟨fun code he => exec_noted hr h (tpdropOp_unresolved hx hy he), fun c t he =>
      ⟨fun hc => exec_noted hr h (tpdropOp_short hx hy he hc), fun hc => hr.completes_done h (tpdropOp_drops hx hy he hc)⟩⟩

end Sys2Proof.Pools
end

section
/-! SUPPORT. Tile registers of the matrix engine and the loads that fill them (R331-R345). -/

namespace Sys2Proof.Tiling

open Sys2Proof Sys2Proof.Machine Sys2Proof.Spec Sys2Proof.Integer Sys2Proof.Streaming

/-! A sparse list has the values that it was made of. -/

theorem sparse_succ {α : Type} [DecidableEq α] (d : α) (n : Nat) (f : Nat → α) :
    sparse d (n + 1) f = sparse d n f ++ (if f n = d then [] else [(n, f n)]) := by
  rw [sparse, List.range_succ, List.filterMap_append, ← sparse]
  split <;> rename_i h <;> simp only [List.filterMap_cons, List.filterMap_nil, h, if_true, if_false]

theorem lookupD_sparse {α : Type} [DecidableEq α] (d : α) (n : Nat) (f : Nat → α) (k : Nat) :
    lookupD d k (sparse d n f) = if k < n then f k else d := by
  induction n with
  | zero => rfl
  | succ n ih =>
    have hnone (hk : n ≤ k) : lookup k (sparse d n f) = none := Groups.lookup_none fun p hp => by
      obtain ⟨j, hj, he⟩ := List.mem_filterMap.mp hp
      have := List.mem_range.mp hj
      split at he
      · cases he
      · cases he
        exact Nat.ne_of_lt (by omega)
    rw [sparse_succ, lookupD, Groups.lookup_append]
    rcases Nat.lt_trichotomy k n with hk | hk | hk
    · have hl : lookup k (if f n = d then [] else [(n, f n)]) = none := by
        split
        · rfl
        · exact if_neg (by omega)
      rw [hl, Option.or_none, ← lookupD, ih, if_pos hk, if_pos (by omega)]
    · subst hk
      rw [hnone le_rfl, Option.none_or, if_pos (Nat.lt_succ_self k)]
      split
      · next h => exact h.symm
      · rw [lookup, if_pos rfl, Option.getD_some]
    · have hl : lookup k (if f n = d then [] else [(n, f n)]) = none := by
        split
        · rfl
        · exact if_neg (by omega)
      rw [hnone (by omega), hl, if_neg (by omega)]
      rfl

theorem getD_eq_default {α : Type} {l : List α} {k : Nat} {d : α} (h : l.length ≤ k) : l.getD k d = d := by
  rw [List.getD_eq_getElem?_getD, List.getElem?_eq_none h, Option.getD_none]

theorem byte_memOf (bs : List Byte) (poison : List Nat) (k : Nat) : (memOf bs poison).byte k = bs.getD k 0#8 := by
  rw [Mem.byte, memOf, lookupD_sparse]
  split
  · rfl
  · exact (getD_eq_default (by omega)).symm

theorem rowTag_allTags (t : Tile) (q : Nat) {i : Nat} (hi : i < 64) : (t.allTags q).rowTag i = q := by
  rw [Tile.rowTag, Tile.allTags, lookupD_sparse, if_pos hi]

/-! Sidecars (R109, R334). -/

theorem length_trueSums (t : Tile) (v : Word) : (t.trueSums v).length = shpRows v + shpCols v := by
  rw [Tile.trueSums, tileSums, sumsOf, List.length_append, List.length_map, List.length_map, List.length_range, List.length_range]

/-- A tile given as many sums as it has rows and columns has them in its sidecar. -/
theorem sums_withSums {t : Tile} {v : Word} {ws : List Word32} (h : ws.length = shpRows v + shpCols v) : (t.withSums ws).sums v = ws := by
  refine List.ext_getElem (by rw [Tile.sums, List.length_map, List.length_range, h]) fun k hk hk' => ?_
  simp only [Tile.sums, List.getElem_map, List.getElem_range, Tile.withSums, lookupD_sparse, if_pos hk']
  exact List.getD_eq_getElem _ _ hk'

theorem sums_withSums_trueSums (t : Tile) (v : Word) : (t.withSums (t.trueSums v)).sums v = t.trueSums v :=
  sums_withSums (length_trueSums t v)

/-! The engine of the running hart's cell. -/

section Engine

variable (s : State) (m : Mxe)

theorem mxe_modMxe (f : Mxe → Mxe) : (s.modMxe f).mxe = f s.mxe := by
  rw [State.mxe, State.modMxe]
  exact congrArg Cell.mxe (State.cellAt_modCell_self s (cellOf s.cur) _)

variable {n : Nat}

theorem tile_setTile_self (hn : n < 8) (t : Tile) : (m.setTile n t).tile n = t := by
  rw [Mxe.tile, Mxe.setTile, Vector.getElem?_setIfInBounds, if_pos rfl, if_pos hn, Option.getD_some]

theorem tile_setTile_ne {j : Nat} (h : j ≠ n) (t : Tile) : (m.setTile n t).tile j = m.tile j := by
  rw [Mxe.tile, Mxe.setTile, Vector.getElem?_setIfInBounds, if_neg (Ne.symm h), ← Mxe.tile]

end Engine

/-! Work that is given to the engine (R337). -/

section Work

variable {i : Instr} {tk : Tok} {s s1 u : State} {body : State → Act} {op : MxOp}

theorem giveWork_free (h : u.mxBusy (cellOf u.cur) op = false) : u.giveWork op = u.doWork op := by
  rw [State.giveWork, if_neg (by rw [h]; decide)]

theorem giveWork_busy (h : u.mxBusy (cellOf u.cur) op = true) : u.giveWork op = u.queueWork op := by
  rw [State.giveWork, if_pos h]

theorem givesWork_of (hr : Runs i tk 4 body) (h : Ready i tk s s1) (hb : body s1 = .done (u.giveWork op)) :
    GivesWork i tk s u op (u.doWork op) :=
  ⟨fun hf => hr.completes_done h (hb.trans (by rw [giveWork_free hf])), fun hf => hr.completes_done h (hb.trans (by rw [giveWork_busy hf]; rfl))⟩

end Work

/-- A barrier object that is named is there for the load. -/
theorem barrierOf_ok {s : State} {x : Word} {bar : Option Nat} (h : Barrier s x bar) (k : Option Nat → State → Act) :
    barrierOf x k s = k bar s := by
  rcases h with ⟨rfl, rfl⟩ | ⟨h0, h8, pa, e, ha, rfl⟩
  · rw [barrierOf, if_pos rfl]
  · rw [barrierOf, if_neg h0, if_neg (not_not_intro h8), ha]

/-! tld (R342). -/

section Load

variable {s s2 s3 : State} {d : TReg} {a b : Reg} {x y : UVal} (hx : s.readU a = .got x s2) (hy : s2.readU b = .got y s3)

include hx hy

theorem tld_illegal (hl : shpLegal ((s3.note (x.poison || y.poison) 4).mxe.nextShape d.toNat) = false) :
    tldOp d a b s = .trapWith (fun s => s.note (x.poison || y.poison) 4) 0x11 (BitVec.ofNat 64 (d.toNat * 256 + 1)) := by
  rw [tldOp, srcU_got hx, srcU_got hy]
  simp only [hl, Bool.not_false, if_true]
  rfl

theorem tld_misaligned (hl : shpLegal ((s3.note (x.poison || y.poison) 4).mxe.nextShape d.toNat) = true) (h32 : x.val.toNat % 32 ≠ 0) :
    tldOp d a b s = .trapWith (fun s => s.note (x.poison || y.poison) 4) 0x05 x.val := by
  rw [tldOp, srcU_got hx, srcU_got hy]
  simp only [hl, Bool.not_true, Bool.false_eq_true, if_false, if_pos h32]
  rfl

theorem tld_gives {u : State} {v : Word} {ps : List (Nat × Nat)} {bar : Option Nat} (hu : u = s3.note (x.poison || y.poison) 4)
    (hv : v = u.mxe.nextShape d.toNat) (hl : shpLegal v = true) (h32 : x.val.toNat % 32 = 0)
    (hov : u.hart.storeOverlap [(x.val.toNat, shpBytes v + shpScales v)] = false)
    (hps : u.rangePas (shpBytes v + shpScales v + 1) x.val.toNat (shpBytes v + shpScales v) = .ok ps) (hbar : Barrier u y.val bar) :
    tldOp d a b s = .done (u.giveWork (.tld d.toNat
      (((u.readPlace (cellOf u.cur) u.hart.regionId (shpBytes v + shpScales v) (.dev ps)).map Prod.fst).take (shpBytes v))
      (((u.readPlace (cellOf u.cur) u.hart.regionId (shpBytes v + shpScales v) (.dev ps)).map Prod.fst).drop (shpBytes v))
      (tileUnits (shpBytes v) (u.readPlace (cellOf u.cur) u.hart.regionId (shpBytes v + shpScales v) (.dev ps))) none bar none)) := by
  subst hu hv
  rw [tldOp, srcU_got hx, srcU_got hy]
  simp only [hl, h32, hov, hps, Bool.not_true, Bool.false_eq_true, if_false, ne_eq, not_true_eq_false, barrierOf_ok hbar]
  rfl

end Load

/-! A tile load as the engine does it (R342). -/

section Accepted

variable (s : State) (t : TReg) (data scales : List Byte) (poison : List Nat) (sums : Option (List Word32)) (bar : Option Nat)
  (pool : Option (Nat × (Nat × Bool)))

/-- The tile with its new contents, its sidecar not yet given. -/
def loadedTile (s : State) (t : Nat) (data scales : List Byte) (poison : List Nat) : Tile :=
  { (s.mxe.tile t).allTags (fmtPrec (shpFmt (s.mxe.shape t))) with
    data := memOf data (poison.filter (fun p => p < (data.length + 7) / 8))
    scales := memOf scales ((poison.filter (fun p => (data.length + 7) / 8 ≤ p)).map (fun p => p - (data.length + 7) / 8)) }

/-- Its sums. -/
def ownSums (s : State) (t : Nat) (data scales : List Byte) (poison : List Nat) : List Word32 :=
  (loadedTile s t data scales poison).trueSums (s.mxe.shape t)

theorem mxe_acceptTld : (s.acceptTld t.toNat data scales poison sums bar pool).mxe =
    { s.mxe.setTile t.toNat ((loadedTile s t.toNat data scales poison).withSums (sums.getD (ownSums s t.toNat data scales poison))) with
      pending := s.mxe.pending ++ [⟨t.toNat, s.cur, data.length + scales.length, bar, pool,
        sums.any (fun w => w ≠ ownSums s t.toNat data scales poison)⟩] } :=
  mxe_modMxe ..

theorem tile_acceptTld : (s.acceptTld t.toNat data scales poison sums bar pool).mxe.tile t.toNat =
    (loadedTile s t.toNat data scales poison).withSums (sums.getD (ownSums s t.toNat data scales poison)) := by
  rw [mxe_acceptTld]
  exact tile_setTile_self _ t.isLt _

end Accepted

/-! tld.h and tld.hk (R344). -/

section PoolLoad

variable {s s2 s3 u : State} {consuming : Bool} {d : TReg} {a b : Reg} {x y : UVal} {v : Word} {bar : Option Nat}
  (hx : s.readU a = .got x s2) (hy : s2.readU b = .got y s3) (hu : u = s3.note (x.poison || y.poison) 4)
  (hv : v = u.mxe.nextShape d.toNat)

include hx hy hu hv

theorem tldPool_illegal (hl : shpLegal v = false) : tldPoolOp consuming d a b s =
    .trapWith (fun s => s.note (x.poison || y.poison) 4) 0x11 (BitVec.ofNat 64 (d.toNat * 256 + 1)) := by
  subst hu hv
  rw [tldPoolOp, srcU_got hx, srcU_got hy]
  simp only [hl, Bool.not_false, if_true]
  rfl

variable (hl : shpLegal v = true)

include hl

theorem tldPool_blocks (hb : shpBlock v ≠ 0) : tldPoolOp consuming d a b s =
    .trapWith (fun s => s.note (x.poison || y.poison) 4) 0x11 (BitVec.ofNat 64 (d.toNat * 256 + 8)) := by
  subst hu hv
  rw [tldPoolOp, srcU_got hx, srcU_got hy]
  simp only [hl, Bool.not_true, Bool.false_eq_true, if_false, if_pos hb]
  rfl

variable (hb : shpBlock v = 0)

include hb

theorem tldPool_unresolved {code : Nat} (hr : u.resolveRef x.val = .error code) : tldPoolOp consuming d a b s =
    .trapWith (fun s => s.note (x.poison || y.poison) 4) code x.val := by
  subst hu hv
  rw [tldPoolOp, srcU_got hx, srcU_got hy]
  simp only [hl, hb, hr, Bool.not_true, Bool.false_eq_true, if_false, ne_eq, not_true_eq_false]
  rfl

variable {c : Nat} {t : PoolSlot} (hr : u.resolveRef x.val = .ok (c, t))

include hr

theorem tldPool_shape (h : descFmt t.desc ≠ shpFmt v ∨ descRows t.desc ≠ shpRows v ∨ descCols t.desc ≠ shpCols v) :
    tldPoolOp consuming d a b s =
      .trapWith (fun s => s.note (x.poison || y.poison) 4) 0x11 (BitVec.ofNat 64 (d.toNat * 256 + 8)) := by
  subst hu hv
  rw [tldPoolOp, srcU_got hx, srcU_got hy]
  have hbad : (descFmt t.desc ≠ shpFmt ((s3.note (x.poison || y.poison) 4).mxe.nextShape d.toNat) ||
      descRows t.desc ≠ shpRows ((s3.note (x.poison || y.poison) 4).mxe.nextShape d.toNat) ||
      descCols t.desc ≠ shpCols ((s3.note (x.poison || y.poison) 4).mxe.nextShape d.toNat)) = true := by
    simpa only [Bool.or_eq_true, decide_eq_true_eq, or_assoc] using h
  simp only [hl, hb, hr, Bool.not_true, Bool.false_eq_true, if_false, ne_eq, not_true_eq_false]
  rw [if_pos hbad]
  rfl

theorem tldPool_gives {w : State} (hf : descFmt t.desc = shpFmt v) (hrows : descRows t.desc = shpRows v)
    (hcols : descCols t.desc = shpCols v) (hbar : Barrier u y.val bar)
    (hw : u.admitRead c u.cur u.hart.ctxId (x.val.toNat % 65536) consuming = .admitted w) :
    tldPoolOp consuming d a b s = .done (w.giveWork (.tld d.toNat ((w.slotBytes c t).take (shpBytes v)) []
      ((List.range ((shpBytes v + 7) / 8)).filter (fun i => (w.cellAt c).sram.poisoned ((w.cellAt c).slotBase t.first / 8 + i)))
      (some t.sidecar) bar (some (c, (t.first, consuming))))) := by
  subst hu hv
  rw [tldPoolOp, srcU_got hx, srcU_got hy]
  simp only [hl, hb, hr, hf, hrows, hcols, Bool.not_true, Bool.false_eq_true, if_false, ne_eq, not_true_eq_false,
    barrierOf_ok hbar, hw]
  rfl

end PoolLoad

theorem poolTileLoad_of {mk : Tok → TReg → Reg → Reg → Instr} {consuming : Bool}
    (hr : ∀ tk d a b, Runs (mk tk d a b) tk 4 (tldPoolOp consuming d a b)) : PoolTileLoad mk consuming := by
  intro tk d a b s s1 s2 s3 x y h hx hy bad u v trap
  have hr := hr tk d a b
  refine ⟨fun hl => exec_noted hr h (tldPool_illegal hx hy rfl rfl hl), fun hl hb => exec_noted hr h (tldPool_blocks hx hy rfl rfl hl hb),
    fun hl hb => ⟨fun code he => exec_noted hr h (tldPool_unresolved hx hy rfl rfl hl hb he), fun c t he =>
      ⟨fun hs => exec_noted hr h (tldPool_shape hx hy rfl rfl hl hb he hs), fun hf hrows hcols bar hbar w hw => ?_⟩⟩⟩
  exact givesWork_of hr h (tldPool_gives hx hy rfl rfl hl hb he hf hrows hcols hbar hw)

theorem cellByte_unparked {s : State} {c r pa : Nat} (h : (s.cellAt c).parkedAt (pa / 64 * 64) 64 = false) :
    s.cellByte c r pa = (s.viewByte r pa, s.viewPoison r (pa / 8)) := by
  simp only [State.cellByte, h, Bool.false_eq_true, if_false]

theorem tileLoads : TileLoads := by
  refine ⟨?_, poolTileLoad_of fun _ _ _ _ => ⟨rfl, fun _ => rfl⟩, poolTileLoad_of fun _ _ _ _ => ⟨rfl, fun _ => rfl⟩,
    fun _ _ _ _ => cellByte_unparked, ?_⟩
  · intro tk d a b s s1 s2 s3 x y h hx hy bad u v n
    have hr : Runs (.tld tk d a b) tk 4 (tldOp d a b) := ⟨rfl, fun _ => rfl⟩
    refine ⟨fun hl => exec_noted hr h (tld_illegal hx hy hl), fun hl h32 => exec_noted hr h (tld_misaligned hx hy hl h32),
      fun hl h32 hov ps bar hps hbar => ?_⟩
    exact givesWork_of hr h (tld_gives hx hy rfl rfl hl h32 hov hps hbar)
  · intro s t data scales poison sums bar pool u v y
    have hy : y = (loadedTile s t.toNat data scales poison).withSums (sums.getD (ownSums s t.toNat data scales poison)) :=
      tile_acceptTld ..
    refine ⟨fun k => by rw [hy]; exact byte_memOf .., fun k => by rw [hy]; exact byte_memOf .., by rw [hy]; rfl,
      fun i hi => by rw [hy]; exact rowTag_allTags (s.mxe.tile t.toNat) _ hi, ?_, fun j hj => ?_, rfl, fun _ => rfl, ?_⟩
    · rintro rfl
      rw [hy]
      exact sums_withSums_trueSums ..
    · rw [show u.mxe = _ from mxe_acceptTld ..]
      exact tile_setTile_ne _ (fun e => hj (BitVec.eq_of_toNat_eq e)) _
    · rw [hy, show u.mxe = _ from mxe_acceptTld ..]
      rfl

end Sys2Proof.Tiling
end

section
/-! SUPPORT. The delivery of a tile load (R342, R343). -/

namespace Sys2Proof.Tiling

open Sys2Proof Sys2Proof.Machine Sys2Proof.Spec Sys2Proof.Frames Sys2Proof.Bulk

/-- A cell that moves is that of a region. -/
theorem region_of_cellMoves {s : State} {c : Nat} (h : s.cellMoves c = true) : ∃ g, s.region? (s.cellRegion c) = some g := by
  simp only [State.cellMoves, Bool.and_eq_true] at h
  obtain ⟨-, h⟩ := h
  cases hr : s.regionOfCell c with
  | none => rw [hr] at h; cases h
  | some r =>
    rw [hr] at h
    rw [State.cellRegion, hr]
    cases hg : s.region? r with
    | none => simp only [hg, Option.map_none, Option.getD_none] at h; cases h
    | some g => exact ⟨g, hg⟩

/-- What a region with a commit buffer sees where it has written. -/
theorem view_writeAs_region {s : State} {r : Nat} {g : Region} (hg : s.region? r = some g) (unit iv pa : Nat) (bs : List Byte)
    (us : List (Nat × Bool)) : (s.writeAs r unit iv pa bs us).view r pa bs.length = bs := by
  refine List.ext_getElem (by rw [State.view, List.length_map, List.length_range]) fun i hi hi' => ?_
  have hsome : CWrite.byteAt ⟨unit, iv, pa, bs.map some, us⟩ (pa + i) = some bs[i] := by
    simp [CWrite.byteAt, hi']
  simp only [State.view, List.getElem_map, List.getElem_range, State.viewByte, pending_writeAs_self s hg, List.findSome?_cons, hsome,
    Option.getD_some]

/-! The bytes of a tile load that arrive. -/

section Arrival

variable (s : State) (cell : Nat) (p : PendingTld)

/-- How many of the bytes still awaited arrive. -/
def portion : Nat := 1 + (Config.freeWord s.fresh).toNat % max p.left 1

theorem portion_le (h : 1 ≤ p.left) : portion s p ≤ p.left := by
  rw [portion, max_eq_left h]
  have := Nat.mod_lt (Config.freeWord s.fresh).toNat h
  omega

/-- A barrier object lowered by the bytes that arrive. -/
def lowerAt (pa : Nat) : State :=
  (State.write { s with fresh := s.fresh + 1 } (s.cellRegion cell) (unitOf cell) (s.interval (s.cellRegion cell) p.hart) pa
    (natBytes 8 ((leNat (s.view (s.cellRegion cell) pa 8) + 2 ^ 64 - portion s p) % 2 ^ 64))
    (s.viewAnyPoison (s.cellRegion cell) pa 8)).refresh cell (s.cellRegion cell) [(pa, 8)]

/-- The state with the barrier object lowered, if there is one. -/
def lowered : State := p.barrier.elim { s with fresh := s.fresh + 1 } (lowerAt s cell p)

theorem length_lowering (pa : Nat) :
    (natBytes 8 ((leNat (s.view (s.cellRegion cell) pa 8) + 2 ^ 64 - portion s p) % 2 ^ 64)).length = 8 := natBytes_length ..

theorem lowerAt_mxe (pa c : Nat) : ((lowerAt s cell p pa).cellAt c).mxe = (s.cellAt c).mxe := by
  rw [lowerAt, State.refresh, State.write, writeAs_eq]
  by_cases h : c = cell
  · subst h
    rw [State.cellAt_modCell_self]
    rfl
  · rw [State.cellAt_modCell_ne _ h]
    rfl

theorem lowered_mxe (c : Nat) : ((lowered s cell p).cellAt c).mxe = (s.cellAt c).mxe := by
  cases hb : p.barrier with
  | none => rw [lowered, hb]; rfl
  | some pa => rw [lowered, hb]; exact lowerAt_mxe s cell p pa c

theorem lowered_hartAt (h : Nat) : (lowered s cell p).hartAt h = s.hartAt h := by
  cases hb : p.barrier with
  | none => rw [lowered, hb]; rfl
  | some pa =>
    rw [lowered, hb, Option.elim_some, lowerAt, State.write, writeAs_eq]
    rfl

theorem lowered_viewByte {r a : Nat} (h : ∀ pa, p.barrier = some pa → a < pa ∨ pa + 8 ≤ a) :
    (lowered s cell p).viewByte r a = s.viewByte r a := by
  cases hb : p.barrier with
  | none => rw [lowered, hb]; rfl
  | some pa =>
    rw [lowered, hb]
    exact viewByte_writeAs_outside _ (by rw [length_lowering]; exact h pa hb) ..

theorem lowered_view {g : Region} (hg : s.region? (s.cellRegion cell) = some g) {pa : Nat} (hb : p.barrier = some pa) :
    leNat ((lowered s cell p).view (s.cellRegion cell) pa 8) =
      (leNat (s.view (s.cellRegion cell) pa 8) + 2 ^ 64 - portion s p) % 2 ^ 64 := by
  have hv := view_writeAs_region (s := { s with fresh := s.fresh + 1 }) hg (unitOf cell) (s.interval (s.cellRegion cell) p.hart) pa
    (natBytes 8 ((leNat (s.view (s.cellRegion cell) pa 8) + 2 ^ 64 - portion s p) % 2 ^ 64))
  rw [length_lowering] at hv
  rw [lowered, hb]
  refine (congrArg leNat (hv _)).trans ?_
  rw [leNat_natBytes]
  exact Nat.mod_mod_of_dvd _ (dvd_refl _)

end Arrival

section Delivery

variable {s : State} {cell i : Nat} {t : TReg} {p : PendingTld}

/-- What is left of the tile loads under way. -/
def leftPending (s : State) (cell i : Nat) (p : PendingTld) : List PendingTld :=
  if p.left ≤ portion s p then dropNth (s.cellAt cell).mxe.pending i
  else setNth (s.cellAt cell).mxe.pending i { p with left := p.left - portion s p }

/-- A cell with the tile loads under way given. -/
def withPending (ps : List PendingTld) (c : Cell) : Cell := { c with mxe := { c.mxe with pending := ps } }

theorem tldDelivery_arrives (hf : findNth (fun q => decide (q.tile = t.toNat)) (s.cellAt cell).mxe.pending 0 = some (i, p))
    (hm : s.cellMoves cell = true) (hp : p.pool = none)
    (hb : ∀ pa, p.barrier = some pa → s.commitRoom (s.cellRegion cell) (unitOf cell) 8 = true ∧ (s.cellAt cell).parkedAt pa 8 = false) :
    exec (.tldDelivery cell t) s =
      .next (((lowered s cell p).modCell cell (withPending (leftPending s cell i p))).fire (s.cellRegion cell)) := by
  have hall : p.barrier.all (fun pa => s.commitRoom (s.cellRegion cell) (unitOf cell) 8 && !(s.cellAt cell).parkedAt pa 8) = true := by
    cases h : p.barrier with
    | none => rfl
    | some pa =>
      obtain ⟨h1, h2⟩ := hb pa h
      rw [Option.all_some, h1, h2]
      rfl
  have hend (u : State) (r : Nat) : u.endTld r p = u := by rw [State.endTld, hp]
  show execTldDelivery cell t s = _
  rw [execTldDelivery]
  simp only [hf, hm, hall, Bool.not_true, Bool.or_self, Bool.false_eq_true, if_false, hend]
  rw [leftPending, portion, lowered]
  cases h : p.barrier with
  | none => split <;> rfl
  | some pa => split <;> rfl

end Delivery

theorem tileDelivery : TileDelivery := by
  intro s cell t i p hf hl hm hp hb
  obtain ⟨g, hg⟩ := region_of_cellMoves hm
  have hn := portion_le s p hl
  refine ⟨_, portion s p, tldDelivery_arrives hf hm hp hb, by rw [portion]; omega, hn, ?_, fun r a ha => ?_, fun pa hpa => ?_, fun h => ?_⟩
  · rw [State.fire, State.cellAt_modRegion, State.cellAt_modCell_self, withPending, leftPending]
    refine ite_congr (propext ⟨fun h => le_antisymm hn h, fun h => h.ge⟩) (fun _ => rfl) fun _ => rfl
  · rw [State.fire, viewByte_modRegion]
    · exact lowered_viewByte s cell p ha
    · exact fun _ => rfl
  · have hv : State.view (((lowered s cell p).modCell cell (withPending (leftPending s cell i p))).fire (s.cellRegion cell))
        (s.cellRegion cell) pa 8 = (lowered s cell p).view (s.cellRegion cell) pa 8 :=
      List.map_congr_left fun k _ => by rw [State.fire, viewByte_modRegion]; exacts [rfl, fun _ => rfl]
    rw [hv]
    exact lowered_view s cell p hg hpa
  · rw [State.fire, State.hartAt_modRegion]
    exact lowered_hartAt s cell p h

/-- Settles O51: the loads give the engine what they have read, and their bytes arrive. -/
theorem tileLoadInstructions : Obligations.TileLoadInstructions := ⟨tileLoads, tileDelivery⟩

end Sys2Proof.Tiling
end

section
/-! SUPPORT. The tile registers: zeroed, checked, stored and given a shape (R332, R337, R338, R346, R347). -/

namespace Sys2Proof.Tiling

open Sys2Proof Sys2Proof.Machine Sys2Proof.Spec Sys2Proof.Integer Sys2Proof.Streaming

/-! tzero, tcsum and tcchk (R347). -/

section Registers

variable {s : State} {d : TReg}

theorem tzero_illegal (h : shpLegal (s.mxe.nextShape d.toNat) = false) :
    tzeroOp d s = .trap 0x11 (BitVec.ofNat 64 (d.toNat * 256 + 1)) := by
  rw [tzeroOp, if_pos (by rw [h]; rfl), tileShape]

theorem tzero_gives (h : shpLegal (s.mxe.nextShape d.toNat) = true) : tzeroOp d s = .done (s.giveWork (.tzero d.toNat)) := by
  rw [tzeroOp, if_neg (by rw [h]; decide)]

theorem tcsum_illegal (h : shpLegal (s.mxe.nextShape d.toNat) = false) :
    tcsumOp d s = .trap 0x11 (BitVec.ofNat 64 (d.toNat * 256 + 1)) := by
  rw [tcsumOp, if_pos (by rw [h]; rfl), tileShape]

theorem tcsum_gives (h : shpLegal (s.mxe.nextShape d.toNat) = true) : tcsumOp d s = .done (s.giveWork (.tcsum d.toNat)) := by
  rw [tcsumOp, if_neg (by rw [h]; decide)]

variable {p : PReg}

theorem tcchk_illegal (h : shpLegal (s.mxe.nextShape d.toNat) = false) :
    tcchkOp p d s = .trap 0x11 (BitVec.ofNat 64 (d.toNat * 256 + 1)) := by
  rw [tcchkOp]
  exact if_pos (by rw [h]; rfl)

theorem tcchk_waits (h : shpLegal (s.mxe.nextShape d.toNat) = true) (hr : s.tileAtRest (cellOf s.cur) d.toNat = false) :
    tcchkOp p d s = .wait .memory id := by
  rw [tcchkOp]
  exact (if_neg (by rw [h]; decide)).trans (if_pos (by rw [hr]; rfl))

theorem tcchk_tells (h : shpLegal (s.mxe.nextShape d.toNat) = true) (hr : s.tileAtRest (cellOf s.cur) d.toNat = true) :
    tcchkOp p d s = .done (((s.note ((s.mxe.tile d.toNat).anyPoison (s.mxe.nextShape d.toNat)) 0).note
      ((s.mxe.tile d.toNat).anyPoison (s.mxe.nextShape d.toNat)) 1).modHart (fun x => x.setP p
        (decide ((s.mxe.tile d.toNat).stale = false ∧
          (s.mxe.tile d.toNat).sums (s.mxe.nextShape d.toNat) = (s.mxe.tile d.toNat).trueSums (s.mxe.nextShape d.toNat))))) := by
  have hd (b : Bool) (l m : List Word32) : (!b && l == m) = decide (b = false ∧ l = m) := by
    cases b <;> simp [beq_eq_decide]
  rw [tcchkOp]
  refine (if_neg (by rw [h]; decide)).trans ((if_neg (by rw [hr]; decide)).trans ?_)
  rw [← hd]

end Registers

/-! tst (R346). -/

section Store

/-- The places of parts that are translated. -/
theorem places_of_parts {s : State} {parts : List StorePart} {ws : List (List (Nat × List Byte))}
    (hp : parts.map s.placePart = ws.map PartRes.ok) :
    (parts.map (fun p => (p, s.placePart p))).flatMap (fun r => r.2.writes.map (fun w => (w.1, w.2.length))) =
      ws.flatten.map (fun w => (w.1, w.2.length)) := by
  have hm (l : List PartRes) : l.flatMap (fun r => r.writes.map (fun w => (w.1, w.2.length))) =
      (l.map PartRes.writes).flatten.map (fun w => (w.1, w.2.length)) := by
    rw [List.map_flatten, List.map_map, List.flatMap_def]; rfl
  calc _ = (parts.map s.placePart).flatMap (fun r => r.writes.map (fun w => (w.1, w.2.length))) := by
        rw [List.flatMap_map, List.flatMap_map]
    _ = _ := by rw [hp, hm, List.map_map]; congr 2; exact List.map_id ws

variable {s s2 u : State} {b : TReg} {a : Reg} {x : UVal} {v : Word} (hx : s.readU a = .got x s2) (hu : u = s2.note x.poison 4)
  (hv : v = u.mxe.nextShape b.toNat)

include hx hu hv

theorem tst_illegal (hl : shpLegal v = false) :
    tstOp b a s = .trapWith (fun s => s.note x.poison 4) 0x11 (BitVec.ofNat 64 (b.toNat * 256 + 1)) := by
  subst hu hv
  rw [tstOp, srcU_got hx]
  simp only [hl, Bool.not_false, if_true]
  rfl

variable (hl : shpLegal v = true)

include hl

theorem tst_misaligned (h32 : x.val.toNat % 32 ≠ 0) : tstOp b a s = .trapWith (fun s => s.note x.poison 4) 0x05 x.val := by
  subst hu hv
  rw [tstOp, srcU_got hx]
  simp only [hl, Bool.not_true, Bool.false_eq_true, if_false, if_pos h32]
  rfl

variable (h32 : x.val.toNat % 32 = 0) (hst : u.hart.stores = [])
  (hov : u.hart.loadOverlap [(x.val.toNat, shpBytes v + shpScales v)] = false) {parts : List StorePart}
  (hparts : parts = storeParts x.val.toNat (shpBytes v) ++ storeParts (x.val.toNat + shpBytes v) (shpScales v))
  {ws : List (List (Nat × List Byte))} (hp : parts.map u.placePart = ws.map PartRes.ok) {op : MxOp}
  (hop : op = .tst b.toNat (ws.flatten.map (fun w => (w.1, w.2.length))))

include h32 hst hov hparts hp hop

theorem tst_does (hb : u.mxBusy (cellOf u.cur) op = false) : tstOp b a s = .done (u.doWork op) := by
  have hplaces := places_of_parts hp
  subst hu hv hparts hop
  rw [tstOp, srcU_got hx]
  simp only [hl, h32, hst, hov, Bool.not_true, Bool.false_eq_true, if_false, ne_eq, not_true_eq_false, List.isEmpty_nil, Bool.or_self,
    Stores.storeAt_of_translated (translated_parts hp), hplaces, hb]
  rfl

theorem tst_waits (hb : u.mxBusy (cellOf u.cur) op = true) : tstOp b a s = .done ((u.queueWork op).modHart (fun h =>
    { h with stores := h.stores ++ [⟨8, parts, h.instret + 1#64⟩] })) := by
  have hplaces := places_of_parts hp
  subst hu hv hparts hop
  rw [tstOp, srcU_got hx]
  simp only [hl, h32, hst, hov, Bool.not_true, Bool.false_eq_true, if_false, ne_eq, not_true_eq_false, List.isEmpty_nil, Bool.or_self,
    Stores.storeAt_of_translated (translated_parts hp), hplaces, hb, if_true]
  rfl

end Store

theorem tileRegisters : TileRegisters := by
  refine ⟨fun tk d s s1 h => ?_, fun tk d s s1 h => ?_, fun tk p a s s1 h => ?_, fun tk b a s s1 s2 x h hx => ?_⟩
  · have hr : Runs (.tzero tk d) tk 4 (tzeroOp d) := ⟨rfl, fun _ => rfl⟩
    exact ⟨fun hl => Floats.exec_trap hr h (tzero_illegal hl), fun hl => givesWork_of hr h (tzero_gives hl)⟩
  · have hr : Runs (.tcsum tk d) tk 4 (tcsumOp d) := ⟨rfl, fun _ => rfl⟩
    exact ⟨fun hl => Floats.exec_trap hr h (tcsum_illegal hl), fun hl => givesWork_of hr h (tcsum_gives hl)⟩
  · intro v t poison
    have hr : Runs (.tcchk tk p a) tk 4 (tcchkOp p a) := ⟨rfl, fun _ => rfl⟩
    exact ⟨fun hl => Floats.exec_trap hr h (tcchk_illegal hl), fun hl hrest => hr.completes_done h (tcchk_tells hl hrest),
      fun hl hrest => exec_wait hr h (f := id) (tcchk_waits hl hrest)⟩
  · intro u v
    have hr : Runs (.tst tk b a) tk 4 (tstOp b a) := ⟨rfl, fun _ => rfl⟩
    refine ⟨fun hl => exec_noted hr h (tst_illegal hx rfl rfl hl), fun hl h32 => exec_noted hr h (tst_misaligned hx rfl rfl hl h32),
      fun hl h32 hst hov ws => ?_⟩
    intro parts op hp
    refine ⟨fun hb => hr.completes_done h ?_, fun hb => hr.completes_done h ?_⟩
    · exact tst_does hx rfl rfl hl h32 hst hov rfl hp rfl hb
    · exact tst_waits hx rfl rfl hl h32 hst hov rfl hp rfl hb

/-! What the engine does for tzero, tcsum and tst, and the write of TSHPn (R338, R346, R347). -/

theorem modMxe_congr {s : State} {f g : Mxe → Mxe} (h : f s.mxe = g s.mxe) : s.modMxe f = s.modMxe g :=
  congrArg (fun m => s.setCell (cellOf s.cur) { s.cellAt (cellOf s.cur) with mxe := m }) h

/-- A tile of zeros whose scales are 1. -/
def zeroTile (v : Word) : Tile :=
  { Tile.reset with scales := memOf (List.replicate 1024 0x7F#8) [], stale := false }.allTags (fmtPrec (shpFmt v))

theorem tzeroWork_eq (s : State) (n : Nat) : s.tzeroWork n = s.modMxe (fun m => m.setTile n (zeroTile (s.mxe.shape n))) :=
  modMxe_congr rfl

/-- Bytes laid over places that they fill lie there, in order. -/
theorem layPlaces_fill (places : List (Nat × Nat)) (bs : List (Byte × Bool)) (h : (places.map Prod.snd).sum = bs.length) :
    (layPlaces places bs).map (fun w => (w.2.1, w.2.2.length)) = places ∧
      (layPlaces places bs).flatMap (fun w => w.2.2) = bs.map Prod.fst := by
  induction places generalizing bs with
  | nil =>
    obtain rfl := List.eq_nil_of_length_eq_zero h.symm
    exact ⟨rfl, rfl⟩
  | cons p rest ih =>
    obtain ⟨pa, n⟩ := p
    simp only [List.map_cons, List.sum_cons] at h
    obtain ⟨h1, h2⟩ := ih (bs.drop n) (by rw [List.length_drop]; omega)
    constructor
    · rw [layPlaces, List.map_cons, h1, List.length_map, List.length_take, Nat.min_eq_left (by omega)]
    · rw [layPlaces, List.flatMap_cons, h2, ← List.map_append, List.take_append_drop]

theorem stored_bytes (y : Tile) (v : Word) :
    (y.stored v).map Prod.fst = y.data.read 0 (shpBytes v) ++ y.scales.read 0 (shpScales v) := by
  have hfst (l : List Byte) (g : Nat → Bool) : (l.zipIdx.map (fun b => (b.1, g b.2))).map Prod.fst = l := by
    rw [List.map_map]
    exact List.zipIdx_map_fst 0 l
  rw [Tile.stored, List.map_append, hfst _ (fun k => y.data.poisoned (k / 8)), hfst _ (fun k => y.scales.poisoned (k / 8))]

theorem length_stored (y : Tile) (v : Word) : (y.stored v).length = shpBytes v + shpScales v := by
  rw [← List.length_map (f := Prod.fst), stored_bytes, List.length_append, Mem.read, Mem.read, List.length_map, List.length_map,
    List.length_range, List.length_range]

section Shape

variable (m : Mxe) (n : TReg) (v : Word)

theorem shape_writeTshp_self : (m.writeTshp n.toNat v).shape n.toNat = v &&& 0xFE3FFF#64 := by
  rw [Mxe.writeTshp]
  dsimp only
  split
  · next h => exact h
  · rw [Mxe.shape, Vector.getElem?_setIfInBounds, if_pos rfl, if_pos n.isLt]
    rfl

theorem stale_writeTshp (h : m.shape n.toNat ≠ v &&& 0xFE3FFF#64) : ((m.writeTshp n.toNat v).tile n.toNat).stale = true := by
  rw [Mxe.writeTshp]
  dsimp only
  rw [if_neg (show ¬ m.tshp[n.toNat]?.getD 0#64 = v &&& tshpMask from h), Mxe.tile, Vector.getElem?_setIfInBounds, if_pos rfl, if_pos n.isLt]
  rfl

variable {j : Nat} (hj : j ≠ n.toNat)

include hj

theorem tile_writeTshp_ne : (m.writeTshp n.toNat v).tile j = m.tile j := by
  rw [Mxe.writeTshp]
  dsimp only
  split
  · rfl
  · rw [Mxe.tile, Vector.getElem?_setIfInBounds, if_neg (Ne.symm hj), ← Mxe.tile]

theorem shape_writeTshp_ne : (m.writeTshp n.toNat v).shape j = m.shape j := by
  rw [Mxe.writeTshp]
  dsimp only
  split
  · rfl
  · rw [Mxe.shape, Vector.getElem?_setIfInBounds, if_neg (Ne.symm hj), ← Mxe.shape]

end Shape

theorem mxe_tshpWrite (s : State) (cell : Nat) (n : TReg) (v : Word) :
    ((s.modCell cell (fun c => { c with mxe := c.mxe.writeTshp n.toNat v })).cellAt cell).mxe =
      (s.cellAt cell).mxe.writeTshp n.toNat v := by
  rw [State.cellAt_modCell_self]

/-- Settles O5: the tiles that the engine makes, the bytes that it stores, and the write of a shape. -/
theorem tileWork : Obligations.TileWork := by
  refine ⟨fun s d => ?_, fun s d => ?_, fun s b places => ?_, fun cell n v s => ?_⟩
  · intro v _
    refine ⟨zeroTile v, tzeroWork_eq s d.toNat, fun k => rfl, fun k hk => ?_, rfl, ?_, fun k => rfl, fun i hi => rowTag_allTags _ _ hi⟩
    · exact (byte_memOf _ _ k).trans (by rw [List.getD_eq_getElem _ _ (by rw [List.length_replicate]; exact hk), List.getElem_replicate])
    · exact List.eq_replicate_iff.mpr ⟨by rw [Tile.sums, List.length_map, List.length_range], fun w hw => by
        obtain ⟨k, -, rfl⟩ := List.mem_map.mp hw
        rfl⟩
  · intro v t poison _
    exact ⟨t.withSums (t.trueSums v), rfl, rfl, rfl, rfl, rfl, sums_withSums_trueSums t v⟩
  · intro v t poison rg
    refine ⟨fun hgood hsum => ?_, fun hst hne => ?_⟩
    · obtain ⟨h1, h2⟩ := layPlaces_fill places (t.stored v) (by rw [hsum, length_stored])
      refine ⟨_, h1, h2.trans (stored_bytes t v), ?_⟩
      rw [State.tstWork]
      refine if_neg ?_
      simp only [Bool.and_eq_true, Bool.not_eq_true', decide_eq_true_eq, not_and, not_not]
      intro hf
      exact hgood.resolve_left (by rw [show t.stale = false from hf]; decide)
    · rw [State.tstWork]
      exact if_pos (by simpa only [Bool.and_eq_true, Bool.not_eq_true', decide_eq_true_eq] using ⟨hst, hne⟩)
  · refine ⟨_, rfl, ?_, fun h => ?_, fun j hj => ?_, rfl, rfl⟩ <;> rw [mxe_tshpWrite]
    · exact shape_writeTshp_self ..
    · exact stale_writeTshp _ n v h
    · have hne : j.toNat ≠ n.toNat := fun e => hj (BitVec.eq_of_toNat_eq e)
      exact ⟨tile_writeTshp_ne _ n v hne, shape_writeTshp_ne _ n v hne⟩

end Sys2Proof.Tiling
end

section
/-! SUPPORT. Accumulators: made empty, and narrowed into a tile (R335, R352, R356). -/

namespace Sys2Proof.Tiling

open Sys2Proof Sys2Proof.Machine Sys2Proof.Spec Sys2Proof.Integer

/-! Elements packed into bytes and read back. -/

/-- Where the entries of equal length of a list of lists stand when they are put together. -/
theorem getD_flatMap {α β : Type} {g : α → List β} {b : Nat} (hg : ∀ a, (g a).length = b) (l : List α) {k i : Nat} (hk : k < l.length)
    (hi : i < b) (d : β) : (l.flatMap g).getD (k * b + i) d = (g l[k]).getD i d := by
  induction l generalizing k with
  | nil => exact absurd hk (Nat.not_lt_zero k)
  | cons a l ih =>
    rw [List.flatMap_cons]
    cases k with
    | zero => rw [Nat.zero_mul, Nat.zero_add, List.getD_append _ _ _ _ (by rw [hg]; exact hi), List.getElem_cons_zero]
    | succ k =>
      have he : (k + 1) * b + i - (g a).length = k * b + i := by rw [hg, Nat.succ_mul]; omega
      rw [List.getD_append_right _ _ _ _ (by rw [hg, Nat.succ_mul]; omega), he, ih (Nat.lt_of_succ_lt_succ hk), List.getElem_cons_succ]

theorem length_flatMap_const {α β : Type} {g : α → List β} {b : Nat} (hg : ∀ a, (g a).length = b) (l : List α) :
    (l.flatMap g).length = l.length * b := by
  rw [List.length_flatMap, List.map_congr_left (fun a _ => hg a), List.map_const', List.sum_replicate, smul_eq_mul]

/-- Two elements of 4 bits stand in a byte, the first lowest. -/
theorem nibble_packNibbles (es : List Nat) {k : Nat} (hk : k < es.length) :
    ((packElements.packNibbles es).getD (k / 2) 0#8).toNat / 16 ^ (k % 2) % 16 = es[k] % 16 := by
  induction es using packElements.packNibbles.induct generalizing k with
  | case1 => exact absurd hk (Nat.not_lt_zero k)
  | case2 a =>
    obtain rfl : k = 0 := Nat.lt_one_iff.mp hk
    simp only [packElements.packNibbles, List.getElem_cons_zero, Nat.zero_div, Nat.zero_mod, List.getD_cons_zero, BitVec.toNat_ofNat]
    omega
  | case3 a b r ih =>
    match k with
    | 0 =>
      simp only [packElements.packNibbles, List.getElem_cons_zero, Nat.zero_div, Nat.zero_mod, List.getD_cons_zero, BitVec.toNat_ofNat]
      omega
    | 1 =>
      simp only [packElements.packNibbles, List.getElem_cons_succ, List.getElem_cons_zero, Nat.reduceDiv, Nat.reduceMod, List.getD_cons_zero,
        BitVec.toNat_ofNat]
      omega
    | k + 2 =>
      have := ih (k := k) (by simpa using hk)
      rw [packElements.packNibbles, show (k + 2) / 2 = k / 2 + 1 by omega, List.getD_cons_succ, show (k + 2) % 2 = k % 2 by omega]
      exact this

theorem getD_toArray_read (m : Mem) (n k : Nat) (h : k < n) : (m.read 0 n).toArray.getD k 0#8 = m.byte k := by
  simp [Mem.read, h]

/-- The widths of the elements of a legal tile. -/
theorem fmtBits_of_legal {v : Word} (h : shpLegal v = true) :
    (fmtBits (shpFmt v) = 4 ∧ shpCols v % 2 = 0) ∨ ∃ b, 1 ≤ b ∧ b ≤ 4 ∧ fmtBits (shpFmt v) = 8 * b := by
  simp only [shpLegal, Bool.and_eq_true, Bool.or_eq_true, decide_eq_true_eq] at h
  obtain ⟨⟨⟨⟨h1, h10⟩, -⟩, h6⟩, -⟩ := h
  generalize shpFmt v = f at *
  interval_cases f
  · exact .inr ⟨4, by decide⟩
  · exact .inr ⟨2, by decide⟩
  · exact .inr ⟨2, by decide⟩
  · exact .inr ⟨1, by decide⟩
  · exact .inr ⟨1, by decide⟩
  · exact .inl ⟨rfl, h6.resolve_left fun h => h rfl⟩
  · exact .inr ⟨1, by decide⟩
  · exact .inr ⟨1, by decide⟩
  · exact .inr ⟨2, by decide⟩
  · exact .inr ⟨4, by decide⟩

/-- The elements of a legal tile whose data has been packed from a list, one element for each place. -/
theorem codes_packed {y : Tile} {v : Word} {es : List Nat} {units : List Nat} (hl : shpLegal v = true)
    (hy : y.data = memOf (packElements (fmtBits (shpFmt v)) es) units) (hes : es.length = shpRows v * shpCols v) {k : Nat}
    (hk : k < shpRows v * shpCols v) : (y.codes v).getD k 0 = es.getD k 0 % 2 ^ fmtBits (shpFmt v) := by
  have hbyte (a : Nat) (ha : a < shpBytes v) :
      (y.data.read 0 (shpBytes v)).toArray.getD a 0#8 = (packElements (fmtBits (shpFmt v)) es).getD a 0#8 := by
    rw [getD_toArray_read _ _ _ ha, hy, byte_memOf]
  have hcode : (y.codes v).getD k 0 = packedElem (fmtBits (shpFmt v)) (y.data.read 0 (shpBytes v)).toArray k := by
    simp [Tile.codes, unpack, hk]
  rw [hcode, List.getD_eq_getElem _ _ (by omega)]
  rcases fmtBits_of_legal hl with ⟨hw, hc⟩ | ⟨b, hb1, hb4, hw⟩
  · have hbytes : shpBytes v = shpRows v * shpCols v / 2 := by
      obtain ⟨c, hc⟩ := Nat.dvd_of_mod_eq_zero hc
      rw [shpBytes, tileBytes, hw, hc, Nat.mul_left_comm, Nat.mul_div_cancel_left _ (by decide), Nat.mul_assoc, Nat.mul_comm c 4,
        ← Nat.mul_assoc, Nat.mul_comm _ c, show 2 * 4 = 8 from rfl, Nat.mul_comm c 8, Nat.mul_div_cancel_left _ (by decide)]
    have heven : shpRows v * shpCols v % 2 = 0 := by rw [Nat.mul_mod, hc, Nat.mul_zero, Nat.zero_mod]
    have hk2 : k / 2 < shpBytes v := by omega
    rw [packedElem, if_pos hw, hbyte _ hk2, packElements, if_pos hw, hw]
    exact nibble_packNibbles es (by omega)
  · have hw4 : fmtBits (shpFmt v) ≠ 4 := by omega
    have hbytes : shpBytes v = shpRows v * shpCols v * b := by
      rw [shpBytes, tileBytes, hw, Nat.mul_left_comm, Nat.mul_div_cancel_left _ (by decide), Nat.mul_assoc]
    have hdiv : fmtBits (shpFmt v) / 8 = b := by omega
    have hlist : (List.range b).map (fun i => (y.data.read 0 (shpBytes v)).toArray.getD (k * b + i) 0#8) = natBytes b es[k] := by
      refine List.ext_getElem (by rw [List.length_map, List.length_range, Frames.natBytes_length]) fun i hi hi' => ?_
      have hib : i < b := by rwa [List.length_map, List.length_range] at hi
      have hlt : k * b + i < shpBytes v := by
        rw [hbytes]
        calc k * b + i < k * b + b := by omega
          _ = (k + 1) * b := (Nat.succ_mul k b).symm
          _ ≤ _ := Nat.mul_le_mul_right b hk
      rw [List.getElem_map, List.getElem_range, hbyte _ hlt, packElements, if_neg hw4, hdiv,
        getD_flatMap (fun e => Frames.natBytes_length b e) es (by omega) hib, List.getD_eq_getElem _ _ hi']
    rw [packedElem, if_neg hw4, hdiv, hlist, Bulk.leNat_natBytes, hw, show 256 = 2 ^ 8 from rfl, ← pow_mul]

/-! acz and acnv (R352, R356). -/

theorem array_reset (k : Nat) : Acc.reset.array.getD k 0#32 = 0#32 := by
  rw [Acc.array, Acc.reset, List.foldl_nil, Array.getD_eq_getD_getElem?, Array.getElem?_replicate]
  split <;> rfl

section

variable {s : State} {d : AReg}

theorem acz_held (h : s.nodeHolds d.toNat = true) : aczOp d s = .trap 0x11 (BitVec.ofNat 64 (d.toNat * 256 + 10)) := by
  rw [aczOp, if_pos h, tileShape]

theorem acz_gives (h : s.nodeHolds d.toNat = false) : aczOp d s = .done (s.giveWork (.acz d.toNat)) := by
  rw [aczOp, if_neg (by rw [h]; decide)]

end

section

variable {s : State} {f : BitVec 4} {n : TReg} {a : AReg}

theorem acnv_illegal (h : shpLegal (s.mxe.nextShape n.toNat) = false) :
    acnvOp f n a s = .trap 0x11 (BitVec.ofNat 64 (n.toNat * 256 + 1)) := by
  rw [acnvOp]
  exact if_pos (by rw [h]; rfl)

variable (h : shpLegal (s.mxe.nextShape n.toNat) = true)

include h

theorem acnv_format (hf : shpFmt (s.mxe.nextShape n.toNat) ≠ f.toNat) :
    acnvOp f n a s = .trap 0x11 (BitVec.ofNat 64 (n.toNat * 256 + 7)) := by
  rw [acnvOp]
  exact (if_neg (by rw [h]; decide)).trans (if_pos hf)

variable (hf : shpFmt (s.mxe.nextShape n.toNat) = f.toNat)

include hf

theorem acnv_large (hb : 64 < shpRows (s.mxe.nextShape n.toNat) ∨ 64 < shpCols (s.mxe.nextShape n.toNat)) :
    acnvOp f n a s = .trap 0x11 (BitVec.ofNat 64 (n.toNat * 256 + 4)) := by
  rw [acnvOp]
  exact (if_neg (by rw [h]; decide)).trans ((if_neg (not_not_intro hf)).trans
    (if_pos (by simpa only [Bool.or_eq_true, decide_eq_true_eq] using hb)))

theorem acnv_gives (hr : shpRows (s.mxe.nextShape n.toNat) ≤ 64) (hc : shpCols (s.mxe.nextShape n.toNat) ≤ 64) :
    acnvOp f n a s = .done (s.giveWork (.acnv f.toNat n.toNat a.toNat (s.hart.fcsr.toNat / 32))) := by
  rw [acnvOp]
  refine (if_neg (by rw [h]; decide)).trans ((if_neg (not_not_intro hf)).trans (if_neg ?_))
  simpa only [Bool.or_eq_true, decide_eq_true_eq, not_or, not_lt] using ⟨hr, hc⟩

end

/-! What acnv makes (R352). -/

section Narrowed

variable (s : State) (fm n a rm : Nat)

/-- The elements of an accumulator narrowed, row by row. -/
def narrowedElems : List Nat :=
  ((List.range (shpRows (s.mxe.shape n))).flatMap (fun i => (List.range (shpCols (s.mxe.shape n))).map (fun j => (i, j)))).map (fun p =>
    narrowElem (s.mxe.acc a).kind fm ((s.mxe.tile n).scaleOf (s.mxe.shape n) p.1 p.2) (RMode.ofCode rm)
      ((s.mxe.acc a).array.getD (64 * p.1 + p.2) 0#32))

/-- The tile made of them, its sidecar not yet given. -/
def narrowedTile : Tile :=
  { s.mxe.tile n with
    data := memOf (packElements (fmtBits fm) (narrowedElems s fm n a rm)) []
    rowTags := sparse 24 64 (fun i => if (fmtFloat fm).isSome then min ((s.mxe.acc a).rowTag i) (fmtPrec fm) else 24) }

theorem length_narrowedElems : (narrowedElems s fm n a rm).length = shpRows (s.mxe.shape n) * shpCols (s.mxe.shape n) := by
  rw [narrowedElems, List.length_map, length_flatMap_const (fun i => (List.length_map _).trans List.length_range), List.length_range]

theorem getD_narrowedElems {i j : Nat} (hi : i < shpRows (s.mxe.shape n)) (hj : j < shpCols (s.mxe.shape n)) :
    (narrowedElems s fm n a rm).getD (i * shpCols (s.mxe.shape n) + j) 0 =
      narrowElem (s.mxe.acc a).kind fm ((s.mxe.tile n).scaleOf (s.mxe.shape n) i j) (RMode.ofCode rm)
        ((s.mxe.acc a).array.getD (64 * i + j) 0#32) := by
  rw [narrowedElems, List.map_flatMap, getD_flatMap (fun k => by rw [List.length_map, List.length_map, List.length_range])
    (List.range _) (by rwa [List.length_range]) hj, List.getElem_range, List.getD_eq_getElem _ _ (by
      rwa [List.length_map, List.length_map, List.length_range]), List.getElem_map, List.getElem_map, List.getElem_range]

/-- Without poison in the accumulator and the scales, the tile has none. -/
theorem acnvWork_clean (hp : (s.mxe.acc a).poison = [])
    (hs : ∀ k, shpBlock (s.mxe.shape n) ≠ 0 → (s.mxe.tile n).scales.poisoned k = false) :
    s.acnvWork fm n a rm =
      s.modMxe (fun m => m.setTile n ((narrowedTile s fm n a rm).withSums ((narrowedTile s fm n a rm).trueSums (s.mxe.shape n)))) := by
  have hbad (l : List (Nat × Nat)) : l.filter (fun p => (s.mxe.acc a).poison.contains (32 * p.1 + p.2 / 2) ||
      (shpBlock (s.mxe.shape n) ≠ 0 && (s.mxe.tile n).scales.poisoned (scaleIndex (s.mxe.shape n) p.1 p.2 / 8))) = [] := by
    refine List.filter_eq_nil_iff.mpr fun p _ => ?_
    rw [hp]
    by_cases hb : shpBlock (s.mxe.shape n) ≠ 0
    · rw [hs _ hb]; simp
    · simp [hb]
  rw [State.acnvWork]
  simp only [hbad]
  rfl

end Narrowed

theorem accumulators : Accumulators := by
  refine ⟨fun tk d s s1 h => ?_, fun tk f d a s s1 h => ?_, fun s f d a rm => ?_⟩
  · have hr : Runs (.acz tk d) tk 4 (aczOp d) := ⟨rfl, fun _ => rfl⟩
    exact ⟨fun hh => Floats.exec_trap hr h (acz_held hh), fun hh => ⟨Acc.reset, givesWork_of hr h (acz_gives hh), rfl,
      array_reset, fun _ _ => rfl, rfl, fun _ _ => ⟨rfl, rfl⟩⟩⟩
  · intro v rm trap
    have hr : Runs (.acnv tk f d a) tk 4 (acnvOp f d a) := ⟨rfl, fun _ => rfl⟩
    exact ⟨fun hl => Floats.exec_trap hr h (acnv_illegal hl), fun hl hf => Floats.exec_trap hr h (acnv_format hl hf),
      fun hl hf hb => Floats.exec_trap hr h (acnv_large hl hf hb), fun hl hf h1 h2 => givesWork_of hr h (acnv_gives hl hf h1 h2)⟩
  · intro v t acc hl hf _ _ hp hs
    refine ⟨_, acnvWork_clean s f.toNat d.toNat a.toNat rm hp hs, fun i j hi hj => ?_, rfl, rfl, sums_withSums_trueSums .., rfl,
      fun i hi => ?_⟩
    · have hk : i * shpCols v + j < shpRows v * shpCols v :=
        calc i * shpCols v + j < i * shpCols v + shpCols v := by omega
          _ = (i + 1) * shpCols v := (Nat.succ_mul _ _).symm
          _ ≤ _ := Nat.mul_le_mul_right _ hi
      have hc := codes_packed (y := narrowedTile s f.toNat d.toNat a.toNat rm) hl (by rw [hf]; rfl)
        (length_narrowedElems s f.toNat d.toNat a.toNat rm) hk
      rw [getD_narrowedElems _ _ _ _ _ hi hj, hf] at hc
      exact hc
    · exact (lookupD_sparse ..).trans (if_pos hi)

/-- Settles O52: the tile registers and the accumulators, instruction by instruction. -/
theorem tilesAndAccumulators : Obligations.TilesAndAccumulators := ⟨tileRegisters, accumulators⟩

end Sys2Proof.Tiling
end

section
/-! SUPPORT. The matrix multiplies (R337, R348, R351). -/

namespace Sys2Proof.Products

open Sys2Proof Sys2Proof.Machine Sys2Proof.Spec Sys2Proof.Integer Sys2Proof.Tiling Sys2Proof.Streaming

/-! mma and mma.nc (R348). -/

section Single

variable {s : State} {check : Bool} {d : AReg} {a b : TReg}

theorem mma_shape {o r : Nat} (h : s.expected.mulBad d.toNat a.toNat b.toNat check = some (o, r)) (hr : r ≠ 0) :
    mmaOp check d a b s = .trap 0x11 (BitVec.ofNat 64 (o * 256 + r)) := by
  simp only [mmaOp, h, mulTrap, if_neg hr, tileShape]

theorem mma_stale {o : Nat} (h : s.expected.mulBad d.toNat a.toNat b.toNat check = some (8 + o, 0)) :
    mmaOp check d a b s = .trap 0x12 (BitVec.ofNat 64 o) := by
  simp only [mmaOp, h, mulTrap, if_true, Nat.add_sub_cancel_left]

theorem mma_gives (h : s.expected.mulBad d.toNat a.toNat b.toNat check = none) :
    mmaOp check d a b s = .done (s.giveWork (.mul check d.toNat a.toNat b.toNat)) := by
  simp only [mmaOp, h]

end Single

/-! mmag and mmag.nc: the table (R351). -/

/-- An entry of a group row table, by its number. -/
def tableEntry (ws : List Word) (j : Nat) : Nat := (ws.getD (j / 2) 0#64).toNat / 2 ^ (32 * (j % 2)) % 2 ^ 32

/-- Tile register and rows of each group. -/
def groupsOf (g : Nat) (ws : List Word) : List (Nat × Nat) :=
  (List.range g).map (fun j => (tableEntry ws j / 256 % 8, tableEntry ws j % 128))

/-- No reserved bit of an entry is set. -/
def EntriesPlain (g : Nat) (ws : List Word) : Prop := ∀ j, j < g → tableEntry ws j / 2048 = 0 ∧ tableEntry ws j / 128 % 2 = 0

theorem tableEntries_eq (g : Nat) (ws : List Word) : tableEntries g ws = (List.range g).map (tableEntry ws) :=
  List.map_congr_left fun j _ => by
    rw [Bulk.bits_eq, tableEntry, show 32 * (j % 2) + 31 + 1 - 32 * (j % 2) = 32 by omega]

theorem groups_eq (g : Nat) (ws : List Word) :
    (tableEntries g ws).map (fun e => (bits e 10 8, bits e 6 0)) = groupsOf g ws := by
  rw [tableEntries_eq, List.map_map]
  refine List.map_congr_left fun j _ => ?_
  show (bits (tableEntry ws j) 10 8, bits (tableEntry ws j) 6 0) = _
  rw [Bulk.bits_eq, Bulk.bits_eq, Nat.pow_zero, Nat.div_one]
  rfl

theorem entries_reserved (g : Nat) (ws : List Word) :
    (tableEntries g ws).any (fun e => decide (bits e 31 11 ≠ 0) || decide (bits e 7 7 ≠ 0)) = true ↔ ¬ EntriesPlain g ws := by
  have hlt (j : Nat) : tableEntry ws j / 2048 < 2 ^ 21 := by
    have : tableEntry ws j < 2 ^ 32 := Nat.mod_lt _ (by decide)
    omega
  have hb (j : Nat) : bits (tableEntry ws j) 31 11 = tableEntry ws j / 2048 := by
    rw [Bulk.bits_eq]
    exact Nat.mod_eq_of_lt (hlt j)
  have hc (j : Nat) : bits (tableEntry ws j) 7 7 = tableEntry ws j / 128 % 2 := Bulk.bits_eq ..
  simp only [tableEntries_eq, List.any_eq_true, List.mem_map, List.mem_range, exists_exists_and_eq_and, Bool.or_eq_true, decide_eq_true_eq,
    hb, hc, EntriesPlain, not_forall, exists_prop]
  exact exists_congr fun j => and_congr_right fun _ => not_and_or.symm

section Groups

variable {s s2 u : State} {check : Bool} {d : AReg} {a : TReg} {b : Reg} {x : UVal} (hx : s.readU b = .got x s2)
  (hu : u = s2.note x.poison 4)

include hx

theorem mmag_misaligned (h : x.val.toNat % 8 ≠ 0) : mmagOp check d a b s = .trapWith (fun s => s.note x.poison 4) 0x05 x.val := by
  rw [mmagOp, srcU_got hx]
  exact if_pos h

include hu

variable (h8 : x.val.toNat % 8 = 0) (hov : u.hart.storeOverlap [(x.val.toNat, 136)] = false) {w : Word} {p : Bool}
  (hw : u.readTable 1 x.val.toNat = .ok [(w, p)])

include h8 hov hw

theorem mmag_number (h : w.toNat = 0 ∨ 32 < w.toNat) :
    mmagOp check d a b s = .trapWith (fun s => s.note x.poison 4) 0x11 0xFF09#64 := by
  subst hu
  have hbad : (w.toNat / 64 ≠ 0 || w.toNat % 64 = 0 || 32 < w.toNat % 64) = true := by
    simp only [Bool.or_eq_true, decide_eq_true_eq]; omega
  rw [mmagOp, srcU_got hx]
  simp only [h8, hov, hw, ne_eq, not_true_eq_false, if_false, Bool.false_eq_true, List.map_cons, List.getD_cons_zero]
  exact if_pos hbad

variable (h1 : 1 ≤ w.toNat) (h32 : w.toNat ≤ 32) {ws : List (Word × Bool)}
  (hws : u.readTable ((w.toNat + 1) / 2) (x.val.toNat + 8) = .ok ws)

include h1 h32 hws

/-- Once the table is read, its entries decide. -/
theorem mmag_read : mmagOp check d a b s =
    if (tableEntries w.toNat (ws.map Prod.fst)).any (fun e => decide (bits e 31 11 ≠ 0) || decide (bits e 7 7 ≠ 0)) ||
        shpRows (u.mxe.nextShape a.toNat) < ((groupsOf w.toNat (ws.map Prod.fst)).map Prod.snd).foldl (· + ·) 0 then
      .trapWith (fun s => s.note x.poison 4) 0x11 0xFF09#64
    else
      (match (groupRows 0 (groupsOf w.toNat (ws.map Prod.fst))).findSome? (fun (q : Nat × List Nat) =>
          (u.note (p || ws.any Prod.snd) 0).expected.mulBad d.toNat a.toNat q.1 check) with
        | some e => mulTrap e
        | none => Act.done ((u.note (p || ws.any Prod.snd) 0).giveWork
            (.groups check d.toNat a.toNat (groupsOf w.toNat (ws.map Prod.fst))))).noting (fun s => s.note x.poison 4) := by
  subst hu
  have hmod : w.toNat % 64 = w.toNat := Nat.mod_eq_of_lt (by omega)
  have hgood : (w.toNat / 64 ≠ 0 || w.toNat = 0 || 32 < w.toNat) = false := by
    simp only [Bool.or_eq_false_iff, decide_eq_false_iff_not]; omega
  rw [mmagOp, srcU_got hx, ← groups_eq]
  simp only [h8, hov, hw, hmod, hgood, hws, ne_eq, not_true_eq_false, if_false, Bool.false_eq_true, List.map_cons, List.getD_cons_zero]
  rfl

theorem mmag_table (h : ¬ (EntriesPlain w.toNat (ws.map Prod.fst) ∧
    ((groupsOf w.toNat (ws.map Prod.fst)).map Prod.snd).sum ≤ shpRows (u.mxe.nextShape a.toNat))) :
    mmagOp check d a b s = .trapWith (fun s => s.note x.poison 4) 0x11 0xFF09#64 := by
  rw [mmag_read hx hu h8 hov hw h1 h32 hws]
  refine if_pos ?_
  rw [Bool.or_eq_true, entries_reserved, decide_eq_true_eq, ← List.sum_eq_foldl_nat, ← not_le]
  exact not_and_or.mp h

theorem mmag_gives (h : EntriesPlain w.toNat (ws.map Prod.fst) ∧
    ((groupsOf w.toNat (ws.map Prod.fst)).map Prod.snd).sum ≤ shpRows (u.mxe.nextShape a.toNat))
    (hg : ∀ q ∈ groupRows 0 (groupsOf w.toNat (ws.map Prod.fst)),
      (u.note (p || ws.any Prod.snd) 0).expected.mulBad d.toNat a.toNat q.1 check = none) :
    mmagOp check d a b s = .done ((u.note (p || ws.any Prod.snd) 0).giveWork
      (.groups check d.toNat a.toNat (groupsOf w.toNat (ws.map Prod.fst)))) := by
  rw [mmag_read hx hu h8 hov hw h1 h32 hws, if_neg, List.findSome?_eq_none_iff.mpr hg]
  · rfl
  · rw [Bool.or_eq_true, entries_reserved, decide_eq_true_eq, ← List.sum_eq_foldl_nat, ← not_le]
    exact fun hc => hc.elim (fun hn => hn h.1) fun hn => hn h.2

end Groups

theorem mma_of {i : Instr} {tk : Tok} {d : AReg} {a b : TReg} {s s1 : State} {check : Bool} (hr : Runs i tk 4 (mmaOp check d a b))
    (h : Ready i tk s s1) :
    let bad := s1.expected.mulBad d.toNat a.toNat b.toNat check
    (∀ o r, bad = some (o, r) → r ≠ 0 → exec i s = .next (s1.trapNow 0x11 (BitVec.ofNat 64 (o * 256 + r)))) ∧
    (∀ o, bad = some (8 + o, 0) → exec i s = .next (s1.trapNow 0x12 (BitVec.ofNat 64 o))) ∧
    (bad = none → GivesWork i tk s s1 (.mul check d.toNat a.toNat b.toNat) (s1.mulWork check d.toNat a.toNat b.toNat)) :=
  ⟨fun _ _ hb hr0 => Floats.exec_trap hr h (mma_shape hb hr0), fun _ hb => Floats.exec_trap hr h (mma_stale hb),
    fun hb => givesWork_of hr h (mma_gives hb)⟩

/-- An instruction that the choice of a check names, and what runs it. -/
theorem chosen {check : Bool} {i j : Instr} {tk : Tok} {s s1 : State} {body : Bool → State → Act} (hi : Runs i tk 4 (body true))
    (hj : Runs j tk 4 (body false)) (h : check = true → Ready i tk s s1) (h' : check = false → Ready j tk s s1) :
    Runs (if check then i else j) tk 4 (body check) ∧ Ready (if check then i else j) tk s s1 := by
  cases check with
  | true => exact ⟨hi, h rfl⟩
  | false => exact ⟨hj, h' rfl⟩

/-- Settles O6: a multiply checks its operands, or reads its table first, and gives the engine its work. -/
theorem matrixInstructions : Obligations.MatrixInstructions := by
  refine ⟨fun tk d a b s s1 check h h' => ?_, fun tk d a b s s1 s2 x check h h' hx => ?_⟩
  · obtain ⟨hr, hready⟩ := chosen (i := .mma tk d a b) (j := .mmaNc tk d a b) (body := fun c => mmaOp c d a b) ⟨rfl, fun _ => rfl⟩
      ⟨rfl, fun _ => rfl⟩ h h'
    exact mma_of hr hready
  · obtain ⟨hr, hready⟩ := chosen (i := .mmag tk d a b) (j := .mmagNc tk d a b) (body := fun c => mmagOp c d a b) ⟨rfl, fun _ => rfl⟩
      ⟨rfl, fun _ => rfl⟩ h h'
    intro i u
    refine ⟨fun h8 => exec_noted hr hready (mmag_misaligned hx h8), fun h8 hov w p hw => ?_⟩
    intro g
    refine ⟨fun hg => exec_noted hr hready (mmag_number hx rfl h8 hov hw hg), fun h1 h32 ws hws => ?_⟩
    intro entry tab good
    refine ⟨fun hbad => exec_noted hr hready (mmag_table hx rfl h8 hov hw h1 h32 hws hbad), fun hgood => ?_⟩
    intro u1 hq
    exact givesWork_of hr hready (mmag_gives hx rfl h8 hov hw h1 h32 hws hgood hq)

end Sys2Proof.Products
end

section
/-! SUPPORT. What the matrix engine does with a product (R103, R104, R348-R351). -/

namespace Sys2Proof.Products

open Sys2Proof Sys2Proof.Machine Sys2Proof.Spec Sys2Proof.Tiling

/-! A product and the groups of a table, as the engine does them (R348, R351). -/

section Work

variable {s t : State} {check : Bool} {d a b : Nat}

theorem mulWork_some (h : s.multiply d a b (List.range (shpRows (s.mxe.shape a))) check = some t) : s.mulWork check d a b = t := by
  rw [State.mulWork, h]

theorem mulWork_none (h : s.multiply d a b (List.range (shpRows (s.mxe.shape a))) check = none) :
    s.mulWork check d a b = s.cause s.mxRegion 0x40 := by
  rw [State.mulWork, h]

variable {tab : List (Nat × Nat)}

theorem groupWork_some (h : (groupRows 0 tab).foldlM (fun (t : State) q => t.multiply d a q.1 q.2 check)
    (s.modMxe (fun m => { m with groupTable := tab })) = some t) : s.groupWork check d a tab = t := by
  simp only [State.groupWork, h]

theorem groupWork_none (h : (groupRows 0 tab).foldlM (fun (t : State) q => t.multiply d a q.1 q.2 check)
    (s.modMxe (fun m => { m with groupTable := tab })) = none) : s.groupWork check d a tab = s.cause s.mxRegion 0x40 := by
  simp only [State.groupWork, h]

end Work

/-! Operands with nothing under way (R337). -/

theorem streamEnd_free {s : State} {c k : Nat} (h : s.tileFree c k = true) (m : Mxe) : s.streamEnd c m k = m := by
  have hnone : (List.range 24).findSome? (fun i =>
      let x := (s.hartAt (8 * c + 4 + i / 8)).slot (i % 8)
      if x.admitted && x.cmd.any (fun d => decide (d.ep = 16 + k)) then some x else none) = none := by
    refine List.findSome?_eq_none_iff.mpr fun i hi => ?_
    have hi := List.mem_range.mp hi
    simp only [State.tileFree, List.all_eq_true, List.mem_range] at h
    have hk := h (i / 8) (by omega) (i % 8) (Nat.mod_lt _ (by decide))
    exact if_neg (by simpa only [Bool.not_eq_true', Bool.not_eq_true] using hk)
  simp only [State.streamEnd, hnone]

theorem expected_rest {s : State} (hw : s.mxe.work = []) (hf : ∀ k, k < 8 → s.tileFree (cellOf s.cur) k = true) :
    s.expected.mxe = s.mxe := by
  have hfold (l : List Nat) (hl : ∀ k ∈ l, k < 8) (m : Mxe) : l.foldl (s.streamEnd (cellOf s.cur)) m = m := by
    induction l with
    | nil => rfl
    | cons k l ih =>
      rw [List.foldl_cons, streamEnd_free (hf k (hl k List.mem_cons_self))]
      exact ih fun j hj => hl j (List.mem_cons_of_mem k hj)
  have he : s.expectedMxe (cellOf s.cur) = s.mxe := by
    show List.foldl (fun m w => Mxe.expect m w.op) _ s.mxe.work = _
    rw [hw, List.foldl_nil]
    exact hfold _ (fun k hk => List.mem_range.mp hk) _
  refine (congrArg Cell.mxe (State.cellAt_modCell_self s (cellOf s.cur) _)).trans he

/-! Results written over an accumulator, row by row (R348). -/

/-- An array with n elements from a place on changed, each by its own value. -/
def putRow (n b : Nat) (g : Nat → Word32 → Word32) (m : Array Word32) : Array Word32 :=
  (List.range n).foldl (fun m j => m.setIfInBounds (b + j) (g j (m.getD (b + j) 0#32))) m

theorem getD_setIfInBounds (m : Array Word32) (i k : Nat) (v : Word32) :
    (m.setIfInBounds i v).getD k 0#32 = if k = i ∧ k < m.size then v else m.getD k 0#32 := by
  rw [Array.getD_eq_getD_getElem?, Array.getElem?_setIfInBounds, Array.getD_eq_getD_getElem?]
  by_cases h : i = k
  · subst h
    by_cases hs : i < m.size
    · rw [if_pos rfl, if_pos hs, if_pos ⟨rfl, hs⟩, Option.getD_some]
    · rw [if_pos rfl, if_neg hs, if_neg (fun h => hs h.2), Array.getElem?_eq_none (Nat.not_lt.mp hs)]
  · rw [if_neg h, if_neg (fun hk => h hk.1.symm)]

theorem size_putRow (n b : Nat) (g : Nat → Word32 → Word32) (m : Array Word32) : (putRow n b g m).size = m.size := by
  induction n with
  | zero => rfl
  | succ n ih => rw [putRow, List.range_succ, List.foldl_append, ← putRow, List.foldl_cons, List.foldl_nil, Array.size_setIfInBounds, ih]

theorem getD_putRow (n b : Nat) (g : Nat → Word32 → Word32) (m : Array Word32) {k : Nat} (hk : k < m.size) :
    (putRow n b g m).getD k 0#32 = if b ≤ k ∧ k < b + n then g (k - b) (m.getD k 0#32) else m.getD k 0#32 := by
  induction n with
  | zero => rw [if_neg (by omega)]; rfl
  | succ n ih =>
    rw [putRow, List.range_succ, List.foldl_append, ← putRow, List.foldl_cons, List.foldl_nil, getD_setIfInBounds, size_putRow]
    by_cases h : k = b + n
    · subst h
      rw [if_pos ⟨rfl, hk⟩, if_pos (by omega), ih, if_neg (by omega), Nat.add_sub_cancel_left]
    · rw [if_neg (fun hc => h hc.1), ih]
      exact if_congr (by omega) rfl rfl

/-- The rows from 0 on changed so. -/
def putRows (r n : Nat) (g : Nat → Nat → Word32 → Word32) (m : Array Word32) : Array Word32 :=
  (List.range r).foldl (fun m i => putRow n (64 * i) (g i) m) m

theorem size_putRows (r n : Nat) (g : Nat → Nat → Word32 → Word32) (m : Array Word32) : (putRows r n g m).size = m.size := by
  induction r with
  | zero => rfl
  | succ r ih => rw [putRows, List.range_succ, List.foldl_append, ← putRows, List.foldl_cons, List.foldl_nil, size_putRow, ih]

theorem getD_putRows {r n : Nat} (hn : n ≤ 64) (g : Nat → Nat → Word32 → Word32) (m : Array Word32) {i j : Nat} (hj : j < 64)
    (hs : 64 * i + j < m.size) : (putRows r n g m).getD (64 * i + j) 0#32 =
      if i < r ∧ j < n then g i j (m.getD (64 * i + j) 0#32) else m.getD (64 * i + j) 0#32 := by
  induction r with
  | zero => rw [if_neg (by omega)]; rfl
  | succ r ih =>
    rw [putRows, List.range_succ, List.foldl_append, ← putRows, List.foldl_cons, List.foldl_nil,
      getD_putRow _ _ _ _ (by rw [size_putRows]; exact hs), ih]
    by_cases h : i = r
    · subst h
      rw [if_neg (show ¬ (i < i ∧ j < n) from fun hc => Nat.lt_irrefl i hc.1), Nat.add_sub_cancel_left]
      exact if_congr (by omega) rfl rfl
    · rw [if_neg (by omega)]
      exact if_congr (by omega) rfl rfl

theorem size_array (a : Acc) : a.array.size = 4096 := by
  have hfold (l : List (Nat × Word32)) (m : Array Word32) : (l.foldl (fun m p => m.setIfInBounds p.1 p.2) m).size = m.size := by
    induction l generalizing m with
    | nil => rfl
    | cons p l ih => rw [List.foldl_cons, ih, Array.size_setIfInBounds]
  rw [Acc.array, hfold, Array.size_replicate]

/-- An accumulator made of a sparse list has its values. -/
theorem array_of_sparse {a : Acc} {f : Nat → Word32} (h : a.elems = sparse 0#32 4096 f) {k : Nat} (hk : k < 4096) :
    a.array.getD k 0#32 = f k := by
  have hfold (n : Nat) (hn : n ≤ 4096) :
      ((sparse 0#32 n f).foldl (fun m p => m.setIfInBounds p.1 p.2) (Array.replicate 4096 0#32)).size = 4096 ∧
      ∀ i, ((sparse 0#32 n f).foldl (fun m p => m.setIfInBounds p.1 p.2) (Array.replicate 4096 0#32)).getD i 0#32 =
        if i < n then f i else 0#32 := by
    induction n with
    | zero => exact ⟨Array.size_replicate, fun i => (array_reset i).trans (if_neg (Nat.not_lt_zero i)).symm⟩
    | succ n ih =>
      obtain ⟨hsize, hval⟩ := ih (by omega)
      rw [sparse_succ, List.foldl_append]
      split
      · next h0 =>
        refine ⟨hsize, fun i => (hval i).trans ?_⟩
        by_cases hi : i = n
        · subst hi; rw [if_neg (Nat.lt_irrefl i), if_pos (Nat.lt_succ_self i), h0]
        · exact if_congr (by omega) rfl rfl
      · refine ⟨by rw [List.foldl_cons, List.foldl_nil, Array.size_setIfInBounds, hsize], fun i => ?_⟩
        rw [List.foldl_cons, List.foldl_nil, getD_setIfInBounds, hsize, hval]
        by_cases hi : i = n
        · subst hi; rw [if_pos ⟨rfl, by omega⟩, if_pos (Nat.lt_succ_self i)]
        · rw [if_neg (fun hc => hi hc.1)]
          exact if_congr (by omega) rfl rfl
  rw [Acc.array, h, (hfold 4096 le_rfl).2, if_pos hk]

end Sys2Proof.Products
end

section
/-! SUPPORT. The product of two tiles on an accumulator (R103, R104, R348). -/

namespace Sys2Proof.Products

open Sys2Proof Sys2Proof.Machine Sys2Proof.Spec Sys2Proof.Tiling

/-! The factors of a result. -/

theorem getD_values (t : Tile) (v : Word) {i j : Nat} (hi : i < shpRows v) (hj : j < shpCols v) :
    (t.values v).getD (i * shpCols v + j) xzero =
      scaledElem (shpFmt v) (t.scaleOf v i j) ((t.codes v).getD (i * shpCols v + j) 0) := by
  have hk : i * shpCols v + j < shpRows v * shpCols v :=
    calc i * shpCols v + j < i * shpCols v + shpCols v := by omega
      _ = (i + 1) * shpCols v := (Nat.succ_mul _ _).symm
      _ ≤ _ := Nat.mul_le_mul_right _ hi
  have hdiv : (i * shpCols v + j) / shpCols v = i := by
    rw [Nat.add_comm, Nat.add_mul_div_right _ _ (by omega), Nat.div_eq_of_lt hj, Nat.zero_add]
  have hmod : (i * shpCols v + j) % shpCols v = j := by
    rw [Nat.add_comm, Nat.add_mul_mod_self_right, Nat.mod_eq_of_lt hj]
  simp only [Tile.values, Array.getD_eq_getD_getElem?, List.getElem?_toArray, List.getElem?_map, List.getElem?_range hk, Option.map_some,
    Option.getD_some, hdiv, hmod]

theorem factors_zip {ta tb : Tile} {va vb : Word} (rows : List Nat) (hk : shpCols va = shpRows vb) {i j : Nat} (hi : i < shpRows va)
    (hj : j < shpCols vb) : ((tileFactors ta va tb vb rows).row i).zip ((tileFactors ta va tb vb rows).col j) =
      (List.range (shpCols va)).map (fun x =>
        (scaledElem (shpFmt va) (ta.scaleOf va i x) ((ta.codes va).getD (i * shpCols va + x) 0),
          scaledElem (shpFmt vb) (tb.scaleOf vb x j) ((tb.codes vb).getD (x * shpCols vb + j) 0))) := by
  rw [Factors.row, Factors.col, List.zip_map']
  refine List.map_congr_left fun x hx => ?_
  have hx := List.mem_range.mp hx
  exact congrArg₂ Prod.mk (getD_values ta va hi hx) (getD_values tb vb (hk ▸ hx) hj)

/-! An accumulator with its result. -/

theorem finish_spec (f : Factors) (old : Acc) (m : Array Word32) :
    (f.finish old m).elems = sparse 0#32 4096 (fun k => m.getD k 0#32) ∧ (f.finish old m).kind = if f.float then .fp32 else .int32 := by
  have hfold (l : List Nat) (g : Nat → Nat) (a : Acc) : (l.foldl (fun a i => a.setRowTag i (g i)) a).elems = a.elems ∧
      (l.foldl (fun a i => a.setRowTag i (g i)) a).kind = a.kind := by
    induction l generalizing a with
    | nil => exact ⟨rfl, rfl⟩
    | cons i l ih => exact ih _
  have helems (k : AccKind) : (old.ofArray k m).elems = sparse 0#32 4096 (fun k => m.getD k 0#32) := by rw [Acc.ofArray]
  have hkind (k : AccKind) : (old.ofArray k m).kind = k := by rw [Acc.ofArray]
  rw [Factors.finish]
  dsimp only
  cases f.float with
  | true => exact ⟨((hfold ..).1).trans (helems .fp32), ((hfold ..).2).trans (hkind .fp32)⟩
  | false => exact ⟨helems .int32, hkind .int32⟩

theorem onto_eq (f : Factors) (free : Nat → Word32) (m : Array Word32) (r : Nat) (hr : f.rows = List.range r) :
    f.onto free m = putRows r f.n (fun i j w => dotOf f.float (free (64 * i + j)) w ((f.row i).zip (f.col j))) m := by
  rw [Factors.onto, hr]
  rfl

theorem acc_setAcc_self (m : Mxe) {n : Nat} (hn : n < 4) (a : Acc) : (m.setAcc n a).acc n = a := by
  rw [Mxe.acc, Mxe.setAcc, Vector.getElem?_setIfInBounds, if_pos rfl, if_pos hn, Option.getD_some]

theorem acc_setAcc_ne (m : Mxe) {n j : Nat} (h : j ≠ n) (a : Acc) : (m.setAcc n a).acc j = m.acc j := by
  rw [Mxe.acc, Mxe.setAcc, Vector.getElem?_setIfInBounds, if_neg (Ne.symm h), ← Mxe.acc]

/-! The state after a product that is not checked. -/

section Product

variable (s : State) (d a b : Nat)

/-- The factors of the product of two tiles, all rows. -/
def factorsOf : Factors :=
  tileFactors (s.mxe.tile a) (s.mxe.shape a) (s.mxe.tile b) (s.mxe.shape b) (List.range (shpRows (s.mxe.shape a)))

/-- The accumulator with the product. -/
def accAfter : Acc :=
  (factorsOf s a b).finish (s.mxe.acc d) (s.mxe.struck d (List.range (shpRows (s.mxe.shape a)))
    ((factorsOf s a b).onto s.freeWords (s.mxe.acc d).array))

/-- The state with that accumulator. -/
def productState : State :=
  (State.note { s with fresh := s.fresh + (if (factorsOf s a b).float then 0 else 4224) }
    (!(factorsOf s a b).aPoison.isEmpty || !(factorsOf s a b).bPoison.isEmpty) 0).modMxe
    (fun e => (e.setAcc d (accAfter s d a b)).settled d (List.range (shpRows (s.mxe.shape a))))

theorem multiply_unchecked : s.multiply d a b (List.range (shpRows (s.mxe.shape a))) false = some (productState s d a b) := by
  rw [State.multiply]
  rfl

theorem mxe_productState : (productState s d a b).mxe =
    (s.mxe.setAcc d (accAfter s d a b)).settled d (List.range (shpRows (s.mxe.shape a))) := by
  rw [productState, mxe_modMxe]
  congr 2
  unfold State.note
  split <;> rfl

theorem productState_keeps : (productState s d a b).mem = s.mem ∧ (productState s d a b).hart.x = s.hart.x ∧
    (productState s d a b).hart.v = s.hart.v ∧ (productState s d a b).regions = s.regions := by
  have hh : (productState s d a b).hart = (State.note { s with fresh := s.fresh + (if (factorsOf s a b).float then 0 else 4224) }
    (!(factorsOf s a b).aPoison.isEmpty || !(factorsOf s a b).bPoison.isEmpty) 0).hart := rfl
  refine ⟨State.note_mem .., ?_, ?_, State.note_regions ..⟩ <;> rw [hh, Operands.hart_note] <;> split <;> rfl

end Product

/-- A check that is passed, and what follows it. -/
theorem passed_of_none {α : Type} {c : Prop} [Decidable c] {x : α} {r : Option α} (h : (if c then some x else r) = none) :
    ¬ c ∧ r = none := by
  split at h
  · cases h
  · next hc => exact ⟨hc, h⟩

/-- What the checks of a product find of its shapes. -/
theorem shapes_of_mulBad {s : State} {d a b : Nat} {check : Bool} (h : s.mulBad d a b check = none) :
    shpCols (s.mxe.shape a) = shpRows (s.mxe.shape b) ∧ shpCols (s.mxe.shape b) ≤ 64 := by
  obtain ⟨-, h⟩ := passed_of_none h
  obtain ⟨-, h⟩ := passed_of_none h
  obtain ⟨-, h⟩ := passed_of_none h
  obtain ⟨-, h⟩ := passed_of_none h
  obtain ⟨hk, h⟩ := passed_of_none h
  obtain ⟨hn, -⟩ := passed_of_none h
  exact ⟨not_not.mp hk, not_lt.mp hn⟩

theorem shpRows_le (v : Word) : shpRows v ≤ 64 := by
  have : bits v.toNat 13 8 < 64 := by rw [Bulk.bits_eq]; exact Nat.mod_lt _ (by decide)
  rw [shpRows]
  omega

section Accumulated

variable {s : State} {d : AReg} {a b : TReg} (h : s.mulBad d.toNat a.toNat b.toNat false = none) (hf : s.mxe.flips = [])

include h hf

/-- Each result is accumulated on its element, and the others stay. -/
theorem accAfter_getD {i j : Nat} (hi : i < 64) (hj : j < 64) :
    (accAfter s d.toNat a.toNat b.toNat).array.getD (64 * i + j) 0#32 =
      if i < shpRows (s.mxe.shape a.toNat) ∧ j < shpCols (s.mxe.shape b.toNat) then
        dotOf (decide (mulClass (shpFmt (s.mxe.shape a.toNat)) ≠ some 5)) (s.freeWords (64 * i + j))
          ((s.mxe.acc d.toNat).array.getD (64 * i + j) 0#32)
          (((factorsOf s a.toNat b.toNat).row i).zip ((factorsOf s a.toNat b.toNat).col j))
      else (s.mxe.acc d.toNat).array.getD (64 * i + j) 0#32 := by
  have hstruck (rows : List Nat) (m : Array Word32) : s.mxe.struck d.toNat rows m = m := by rw [Mxe.struck, hf, List.foldl_nil]
  obtain ⟨-, hn⟩ := shapes_of_mulBad h
  rw [accAfter, array_of_sparse (finish_spec ..).1 (by omega), hstruck, onto_eq _ _ _ (shpRows (s.mxe.shape a.toNat)) rfl,
    getD_putRows (n := (factorsOf s a.toNat b.toNat).n) hn _ _ hj (by rw [size_array]; omega)]
  rfl

end Accumulated

/-- Settles O7: the work of products and of groups, the operands at rest, and the product of two tiles, element by element. -/
theorem matrixProducts : Obligations.MatrixProducts := by
  refine ⟨fun s check d a b => ?_, fun s check d a tab => ?_, fun s => expected_rest, fun s d a b h hf => ?_⟩
  · exact ⟨fun t => mulWork_some, mulWork_none⟩
  · exact ⟨fun t => groupWork_some, groupWork_none⟩
  · intro va vb m k n ca cb fa fb old
    obtain ⟨hk, -⟩ := shapes_of_mulBad h
    obtain ⟨hmem, hx, hv, hregions⟩ := productState_keeps s d.toNat a.toNat b.toNat
    have hmxe := mxe_productState s d.toNat a.toNat b.toNat
    have hacc : (productState s d.toNat a.toNat b.toNat).mxe.acc d.toNat = accAfter s d.toNat a.toNat b.toNat := by
      rw [hmxe]
      exact acc_setAcc_self _ d.isLt _
    refine ⟨_, multiply_unchecked s d.toNat a.toNat b.toNat, fun i j hi hj => ?_, ?_, fun e he => ?_, ?_, ?_, hmem, hx, hv, hregions⟩
    · rw [hacc, accAfter_getD h hf hi hj]
      by_cases hij : i < m ∧ j < n
      · rw [if_pos hij, if_pos hij, factorsOf, factors_zip _ hk hij.1 hij.2]
      · rw [if_neg hij, if_neg hij]
    · rw [hacc]
      refine (finish_spec ..).2.trans ?_
      show (if decide (mulClass (shpFmt va) ≠ some 5) = true then AccKind.fp32 else AccKind.int32) = _
      by_cases h5 : mulClass (shpFmt va) = some 5
      · rw [if_pos h5, if_neg (by rw [h5]; decide)]
      · rw [if_neg h5, if_pos (decide_eq_true h5)]
    · rw [hmxe]
      exact acc_setAcc_ne _ (fun hc => he (BitVec.eq_of_toNat_eq hc)) _
    · rw [hmxe]; rfl
    · rw [hmxe]; rfl

end Sys2Proof.Products
end

section
/-! SUPPORT. The matrix node (R353-R356). -/

namespace Sys2Proof.Nodes

open Sys2Proof Sys2Proof.Machine Sys2Proof.Spec Sys2Proof.Integer Sys2Proof.Streaming Sys2Proof.Bulk

/-! Trip counts (R355). -/

theorem bound_eq {v : Nat} (h : v < 2 ^ 28) (n : Node) :
    n.bound v = { n with m := v / 2 ^ 22 + 1, n := v / 2 ^ 16 % 64 + 1, k := v % 2 ^ 16 + 1 } := by
  have hm : bits v 27 22 = v / 2 ^ 22 := by rw [bits_eq]; exact Nat.mod_eq_of_lt (by omega)
  have hn : bits v 21 16 = v / 2 ^ 16 % 64 := bits_eq ..
  have hk : bits v 15 0 = v % 2 ^ 16 := by rw [bits_eq, Nat.pow_zero, Nat.div_one]
  rw [Node.bound, hm, hn, hk]

section Bound

variable {s s2 u : State} {a : Reg} {x : UVal} (hx : s.readU a = .got x s2) (hu : u = s2.note x.poison 4)

include hx hu

theorem tbound_traps (h : u.cell.nodeOn = false ∨ 2 ^ 28 ≤ x.val.toNat) :
    tboundOp a s = .trapWith (fun s => s.note x.poison 4) 0x11 0xFE0B#64 := by
  subst hu
  have hbad : (!(s2.note x.poison 4).cell.nodeOn || x.val.toNat / 2 ^ 28 ≠ 0) = true := by
    rw [Bool.or_eq_true, Bool.not_eq_true', decide_eq_true_eq]
    exact h.imp_right fun h => Nat.ne_of_gt (Nat.div_pos h (by decide))
  rw [tboundOp, srcU_got hx]
  exact if_pos hbad

theorem tbound_sets (hon : u.cell.nodeOn = true) (hv : x.val.toNat < 2 ^ 28) (hb : u.mxe.node.atBoundary = true)
    (hh : ∀ i, u.nodeHead (cellOf u.cur) = some i → i.flit.isBound = false) :
    tboundOp a s = .done (u.modNode (cellOf u.cur) (fun n => n.bound x.val.toNat)) := by
  subst hu
  have hgood : (!(s2.note x.poison 4).cell.nodeOn || x.val.toNat / 2 ^ 28 ≠ 0) = false := by
    rw [hon, Nat.div_eq_of_lt hv]; rfl
  have hhead : ((s2.note x.poison 4).nodeHead (cellOf (s2.note x.poison 4).cur)).any (fun i => i.flit.isBound) = false := by
    cases hi : (s2.note x.poison 4).nodeHead (cellOf (s2.note x.poison 4).cur) with
    | none => rfl
    | some i => exact hh i hi
  rw [tboundOp, srcU_got hx]
  dsimp only
  rw [if_neg (by rw [hgood]; decide), hb, hhead]
  rfl

end Bound

/-! A node that emits (R272, R353). -/

section Steps

variable {s : State} {c : Nat} (hr : s.nodeRuns c = true)

theorem nodeEmit_first {f : Flit} {rest : List Flit} (ho : (s.cellAt c).mxe.node.output = f :: rest) (hroom : s.bufRoom c 120 1 = true) :
    s.nodeEmit c = ((s.pushFlits c 120 (32768 + c) [f]).modNode c (fun n => { n with output := rest })).fire (s.cellRegion c) := by
  simp only [State.nodeEmit, ho, hroom, if_true]

include hr

theorem nodePass_emits {f : Flit} {rest : List Flit} (ho : (s.cellAt c).mxe.node.output = f :: rest) :
    exec (.nodePass c) s = .next (s.nodeEmit c) := by
  show execNodePass c s = _
  rw [execNodePass]
  exact (if_neg (by rw [hr]; decide)).trans (if_pos (by rw [ho]; rfl))

theorem nodeRow_emits {f : Flit} {rest : List Flit} (ho : (s.cellAt c).mxe.node.output = f :: rest) :
    exec (.nodeRow c) s = .next (s.nodeEmit c) := by
  show execNodeRow c s = _
  rw [execNodeRow]
  exact (if_neg (by rw [hr]; decide)).trans (if_pos (by rw [ho]; rfl))

/-! A node at its group boundary (R355, R356). -/

section Boundary

variable (ho : (s.cellAt c).mxe.node.output = []) (hl : (s.cellAt c).mxe.node.latched = none) (hp : (s.cellAt c).mxe.node.pass = 0)
  {i : PortItem} (hi : s.nodeHead c = some i) (hd : i.flit.isData = false)

include ho hl hp hi hd

theorem nodePass_bound (hb : i.flit.isBound = true) (hw : i.flit.data.toNat % 2 ^ 32 < 2 ^ 28) : exec (.nodePass c) s =
    .next (((s.nodePop c).fire (s.cellRegion c)).modNode c (fun n => n.bound (i.flit.data.toNat % 2 ^ 32))) := by
  have hbits : bits i.flit.data.toNat 31 0 = i.flit.data.toNat % 2 ^ 32 := by rw [bits_eq, Nat.pow_zero, Nat.div_one]
  show execNodePass c s = _
  rw [execNodePass]
  simp only [hr, ho, hl, hp, hi, hd, hb, hbits, Nat.div_eq_of_lt hw, Bool.not_true, Bool.false_eq_true, if_false, if_true,
    List.isEmpty_nil, Option.isSome_none]

theorem nodePass_control (hb : i.flit.isBound = false) : exec (.nodePass c) s =
    .next (((s.nodePop c).fire (s.cellRegion c)).modNode c (fun n => { n with output := [i.flit] })) := by
  show execNodePass c s = _
  rw [execNodePass]
  simp only [hr, ho, hl, hp, hi, hd, hb, Bool.not_true, Bool.false_eq_true, if_false, if_true, List.isEmpty_nil, Option.isSome_none]

end Boundary

/-! A row of A that begins (R354). -/

section Row

variable {t : Tile} {v : Word} {i : PortItem} (ho : (s.cellAt c).mxe.node.output = [])
  (hl : (s.cellAt c).mxe.node.latched = some (t, v)) (hrow : (s.cellAt c).mxe.node.row < (s.cellAt c).mxe.node.m)
  (hi : s.nodeHead c = some i) (hd : i.flit.isData = true) (ht : (s.cellAt c).mxe.node.tagDue = false)
  (hin : (s.cellAt c).mxe.node.input = [])

include ho hl hrow hi hd ht hin

theorem nodeRow_stops (hc : mulClass ((s.cellAt c).cftEntry i.input i.flit.vc.toNat % 16) ≠ mulClass (shpFmt v)) :
    exec (.nodeRow c) s = .next (s.nodeStop c) := by
  show execNodeRow c s = _
  rw [execNodeRow]
  simp only [hr, ho, hl, Nat.ne_of_lt hrow, hi, hd, ht, hin, if_pos hc, Bool.not_true, Bool.not_false, Bool.false_eq_true, if_false, if_true,
    List.isEmpty_nil, decide_false, Bool.false_and]

/-- A flit of data of the class of B, without block scales and tags, is the first of its row, which fires when it is whole. -/
theorem nodeRow_takes (hc : mulClass ((s.cellAt c).cftEntry i.input i.flit.vc.toNat % 16) = mulClass (shpFmt v))
    (hb : (s.cellAt c).cftEntry i.input i.flit.vc.toNat / 256 % 4 = 0)
    (htag : (s.cellAt c).cftEntry i.input i.flit.vc.toNat / 1024 % 4 ≠ 1) {u : State}
    (hu : u = ((s.nodePop c).fire (s.cellRegion c)).modNode c (fun k =>
      { k with entry := (s.cellAt c).cftEntry i.input i.flit.vc.toNat, input := k.input ++ [i.flit], tagDue := false })) :
    exec (.nodeRow c) s =
      .next (if 256 < shpRows v * fmtBits ((s.cellAt c).cftEntry i.input i.flit.vc.toNat % 16) then u else u.nodeTryFire c t v) := by
  have hblk : blkSize (bits ((s.cellAt c).cftEntry i.input i.flit.vc.toNat) 9 8) = blkSize 0 :=
    congrArg blkSize ((bits_eq ..).trans hb)
  have htagged : bits ((s.cellAt c).cftEntry i.input i.flit.vc.toNat) 11 10 ≠ 1 := fun h => htag ((bits_eq ..).symm.trans h)
  subst hu
  show execNodeRow c s = _
  rw [execNodeRow]
  simp only [hr, ho, hl, Nat.ne_of_lt hrow, hi, hd, ht, hin, hc, hblk, show blkSize 0 = 0 from rfl, htagged, Bool.not_true, Bool.not_false, Bool.false_eq_true, if_false,
    if_true, List.isEmpty_nil, decide_false, Bool.false_and, ne_eq, not_true_eq_false, List.length_nil, Nat.zero_add, Nat.one_mul,
    Bool.false_or, decide_eq_true_eq]

end Row

end Steps

/-- Two changes of a node that agree on the node as it stands. -/
theorem modNode_congr {s : State} {c : Nat} {f g : Node → Node} (h : f (s.cellAt c).mxe.node = g (s.cellAt c).mxe.node) :
    s.modNode c f = s.modNode c g :=
  congrArg (fun n => s.setCell c { s.cellAt c with mxe := { (s.cellAt c).mxe with node := n } }) h

theorem input_nodePop (s : State) (c r : Nat) : (((s.nodePop c).fire r).cellAt c).mxe.node.input = (s.cellAt c).mxe.node.input := by
  rw [State.fire, State.cellAt_modRegion, State.nodePop, State.cellAt_modCell_self]
  rfl

/-- Settles O8: the bounds of a node, what it emits, what it takes at its boundary, and the rows that it takes and fires. -/
theorem matrixNode : Obligations.MatrixNode := by
  refine ⟨fun tk a s s1 s2 x h hx => ?_, fun s c hr => ?_⟩
  · intro u
    have hr : Runs (.tbound tk a) tk 4 (tboundOp a) := ⟨rfl, fun _ => rfl⟩
    refine ⟨fun hbad => exec_noted hr h (tbound_traps hx rfl hbad), fun hon hv hp hrow hl ho hh => ?_⟩
    have hb : u.mxe.node.atBoundary = true := by rw [Node.atBoundary, hp, hrow, hl, ho]; rfl
    rw [← funext (bound_eq hv)]
    exact hr.completes_done h (tbound_sets hx rfl hon hv hb hh)
  · intro n
    refine ⟨fun f rest ho hroom => ?_, fun ho hl hp i hi hd => ⟨fun hb hw => ?_, fun hb => ?_⟩, fun t v i ho hl hrow hi hd ht hin => ?_⟩
    · intro t
      rw [nodePass_emits hr ho, nodeRow_emits hr ho, nodeEmit_first ho hroom]
      exact ⟨rfl, rfl⟩
    · rw [nodePass_bound hr ho hl hp hi hd hb hw, funext (bound_eq hw)]
      have hm : i.flit.data.toNat % 2 ^ 32 / 2 ^ 22 = i.flit.data.toNat % 2 ^ 28 / 2 ^ 22 := by omega
      have hn : i.flit.data.toNat % 2 ^ 32 / 2 ^ 16 % 64 = i.flit.data.toNat % 2 ^ 22 / 2 ^ 16 := by omega
      have hk : i.flit.data.toNat % 2 ^ 32 % 2 ^ 16 = i.flit.data.toNat % 2 ^ 16 := by omega
      rw [hm, hn, hk]
    · exact nodePass_control hr ho hl hp hi hd hb
    · intro e
      refine ⟨fun hc => nodeRow_stops hr ho hl hrow hi hd ht hin hc, fun hc hb htag => ?_⟩
      intro u
      have hu : u = ((s.nodePop c).fire (s.cellRegion c)).modNode c (fun k =>
          { k with entry := e, input := k.input ++ [i.flit], tagDue := false }) :=
        modNode_congr (by rw [input_nodePop, show (s.cellAt c).mxe.node.input = [] from hin]; rfl)
      rw [nodeRow_takes hr ho hl hrow hi hd ht hin hc hb htag hu]
      refine congrArg Host.Outcome.next (ite_congr rfl (fun _ => rfl) fun _ => ?_)
      rw [State.nodeTryFire, State.nodeMayFire]
      exact if_congr (by rw [Bool.or_eq_true, decide_eq_true_eq]) rfl rfl

end Sys2Proof.Nodes
end
